-- ==== Sys2Proof/Word.lean ====
section
/-! DEFINITION. The word types of the module and the plainest arithmetic on them. -/

namespace Sys2Proof

/-- One byte of scratchpad, store die or slower tier. -/
abbrev Byte := BitVec 8

/-- A general register, a vector lane, a BAR0 register: 32 bits (R71, R491). -/
abbrev Word := BitVec 32

/-- STAMP, a DPA-sized field, a prefix key: 64 bits. -/
abbrev Dword := BitVec 64

/-- One bundle of an instruction block: 128 bits, little-endian (R99). -/
abbrev Bundle := BitVec 128

end Sys2Proof
end

