-- ==== Sys2Proof/Machine/Sparse.lean ====
section
/-! DEFINITION. Sparse maps in canonical form (keys strictly rising, no entry equal to what an unlisted key reads as). The
memories, the register file and every array of like parts are held in this form, so that equal contents are equal data. -/

namespace Sys2Proof.Machine

/-- The entry of key `k`; `d` says what an unlisted key reads as. -/
def Sparse.get {α : Type} (d : Nat → α) : List (Nat × α) → Nat → α
  | [], k => d k
  | (k', v) :: t, k => if k = k' then v else Sparse.get d t k

/-- Removes the entry of key `k`. -/
def Sparse.erase {α : Type} : List (Nat × α) → Nat → List (Nat × α)
  | [], _ => []
  | (k', v) :: t, k => if k = k' then t else (k', v) :: Sparse.erase t k

/-- Puts an entry at its place in the rising order. -/
def Sparse.insert {α : Type} : List (Nat × α) → Nat → α → List (Nat × α)
  | [], k, v => [(k, v)]
  | (k', v') :: t, k, v =>
    if k < k' then (k, v) :: (k', v') :: t
    else if k = k' then (k, v) :: t
    else (k', v') :: Sparse.insert t k v

/-- Writes `v` at key `k`; the value an unlisted key reads as is stored by listing nothing. -/
def Sparse.set {α : Type} [DecidableEq α] (d : Nat → α) (m : List (Nat × α)) (k : Nat) (v : α) : List (Nat × α) :=
  if v = d k then Sparse.erase m k else Sparse.insert m k v

/-- Every key of the list is above `k`. -/
def Sparse.above {α : Type} (k : Nat) (m : List (Nat × α)) : Bool := m.all (fun e => k < e.1)

/-- The canonical form: keys strictly rising and no entry equal to what an unlisted key reads as. -/
def Sparse.wf {α : Type} [DecidableEq α] (d : Nat → α) : List (Nat × α) → Bool
  | [] => true
  | (k, v) :: t => Sparse.above k t && decide (v ≠ d k) && Sparse.wf d t

/-- Memories: an address that nothing has written reads as zero (R384, R530; log entry 2 for the device part). -/
def Memory.empty (_ : Nat) : Byte := 0

/-- The byte at address `a` of a memory. -/
abbrev Memory.byte (m : List (Nat × Byte)) (a : Nat) : Byte := Sparse.get Memory.empty m a

/-- Writes one byte. -/
abbrev Memory.setByte (m : List (Nat × Byte)) (a : Nat) (v : Byte) : List (Nat × Byte) := Sparse.set Memory.empty m a v

/-- The canonical form of a memory. -/
abbrev Memory.wf (m : List (Nat × Byte)) : Bool := Sparse.wf Memory.empty m

/-- The `n` bytes from address `a`, in ascending order. -/
def Memory.read (m : List (Nat × Byte)) (a : Nat) : Nat → List Byte
  | 0 => []
  | n + 1 => Memory.byte m a :: Memory.read m (a + 1) n

/-- Writes bytes in ascending order from address `a`. -/
def Memory.write (m : List (Nat × Byte)) (a : Nat) : List Byte → List (Nat × Byte)
  | [] => m
  | v :: t => Memory.write (Memory.setByte m a v) (a + 1) t

/-- A little-endian number from its bytes. -/
def leNat : List Byte → Nat
  | [] => 0
  | b :: t => b.toNat + 256 * leNat t

/-- The `n` low bytes of a number, little-endian. -/
def leBytes (v : Nat) : Nat → List Byte
  | 0 => []
  | n + 1 => BitVec.ofNat 8 v :: leBytes (v / 256) n

/-- The 32-bit little-endian word at address `a`. -/
def Memory.word (m : List (Nat × Byte)) (a : Nat) : Word := BitVec.ofNat 32 (leNat (Memory.read m a 4))

/-- The 64-bit little-endian word at address `a`. -/
def Memory.dword (m : List (Nat × Byte)) (a : Nat) : Dword := BitVec.ofNat 64 (leNat (Memory.read m a 8))

/-- Writes a 32-bit little-endian word. -/
def Memory.setWord (m : List (Nat × Byte)) (a : Nat) (w : Word) : List (Nat × Byte) := Memory.write m a (leBytes w.toNat 4)

/-- Writes a 64-bit little-endian word. -/
def Memory.setDword (m : List (Nat × Byte)) (a : Nat) (w : Dword) : List (Nat × Byte) := Memory.write m a (leBytes w.toNat 8)

/-- Writes zero to `n` bytes from address `a`. -/
def Memory.clear (m : List (Nat × Byte)) (a n : Nat) : List (Nat × Byte) := m.filter (fun e => e.1 < a || a + n ≤ e.1)

/-- The number in bits `hi` to `lo` of a word. -/
def bits (w : Word) (hi lo : Nat) : Nat := (w.toNat / 2 ^ lo) % 2 ^ (hi + 1 - lo)

/-- One bit of a word. -/
def bit (w : Word) (i : Nat) : Bool := w.getLsbD i

/-- A number placed at bit `lo` of a 32-bit word. -/
def field (v lo : Nat) : Word := BitVec.ofNat 32 (v * 2 ^ lo)

/-- A flag placed at bit `lo`. -/
def flag (v : Bool) (lo : Nat) : Word := if v then field 1 lo else 0

/-- ⌈a / b⌉. -/
def ceilDiv (a b : Nat) : Nat := (a + b - 1) / b

/-- The next multiple of 64 at or above `a`. -/
def up64 (a : Nat) : Nat := ceilDiv a 64 * 64

end Sys2Proof.Machine
end

