-- ==== Sys2Proof/Machine/Types.lean ====
section
/-! DEFINITION. The names of parts and the operand shapes that commands and state share. -/

namespace Sys2Proof

/-- A wafer-wide logical core number, logical berth × 144 + logical core index (R19). -/
abbrev CoreId := Fin 11520
/-- A physical berth, y × 12 + x (R9). -/
abbrev Berth := Fin 84
/-- A memory stack (R22). -/
abbrev Stack := Fin 12
/-- A general register g0–g31 (R71). -/
abbrev GReg := Fin 32
/-- A vector register v0–v31 (R71). -/
abbrev VReg := Fin 32
/-- A stream number (R232). -/
abbrev StreamId := Fin 256
/-- An image slot (R224). -/
abbrev ImageSlot := Fin 8
/-- A power basin (R400). -/
abbrev Basin := Fin 100
/-- A Lighter channel (R315). -/
abbrev Channel := Fin 16

/-- The two halves of the wafer (R7). -/
inductive Half where
  | west | east
  deriving DecidableEq, Repr, Inhabited

/-- The two host ports (R370). CXLP and LTR instance 0 is port A and instance 1 port B. -/
inductive HostPort where
  | a | b
  deriving DecidableEq, Repr, Inhabited

/-- The two mask steppings (R1). -/
inductive Stepping where
  | a1 | b0
  deriving DecidableEq, Repr, Inhabited

/-- The four units of a core, one per slot of a bundle (R99). -/
inductive CoreUnit where
  | scalar | matrix | vector | memory
  deriving DecidableEq, Repr, Inhabited

/-- The three configuration words that MCFG loads (R113); `reserved` is WORD = 3. -/
inductive CfgWord where
  | tshape | tfmt | tbound | reserved
  deriving DecidableEq, Repr, Inhabited

/-- Which requests a DWAIT waits for (R107). -/
inductive DwaitSel where
  | tag (t : Fin 16)
  | all
  deriving DecidableEq, Repr, Inhabited

/-- The role of a physical berth (R10). -/
inductive Role where
  | inService | spare | retired | dark
  deriving DecidableEq, Repr, Inhabited

/-- A node of the Chamois tree (R178). -/
inductive ChNode where
  | row (b : Berth) (r : Fin 12)
  | berth (b : Berth)
  | halfRow (h : Half) (y : Fin 7)
  | half (h : Half)
  | root
  deriving DecidableEq, Repr, Inhabited

/-- What a read of a stored line or unit met: no error, a corrected one or an uncorrectable one (R204, R209). -/
inductive EccOutcome where
  | clean | corrected | uncorrectable
  deriving DecidableEq, Repr, Inhabited

/-- Who reads a store-die line: a core of the berth, a remote request (by packet number), the sampler or the
refill buffer (R197). -/
inductive StoreReader where
  | core (c : CoreId)
  | remote (packet : Nat)
  | sampler
  | refill
  deriving DecidableEq, Repr, Inhabited

/-- The cause of a conventional reset (R385). -/
inductive PortResetCause where
  | perst | hotReset | linkDown
  deriving DecidableEq, Repr, Inhabited

/-- One rail or training subject of the BIST and training stage (R387). -/
inductive TrainSubject where
  | berth (b : Berth)
  | stack (k : Stack)
  deriving DecidableEq, Repr, Inhabited

/-- One transaction with the tray's sensor device (R522, R523). -/
structure TrayReading where
  id : BitVec 16
  inlet : BitVec 16
  outlet : BitVec 16
  flow : BitVec 16
  status : BitVec 16
  acked : Bool
  deriving DecidableEq, Repr, Inhabited

/-- What an IDENT message of a partner port says (R343). -/
structure PartnerIdent where
  addr : BitVec 15
  role : BitVec 4
  index : BitVec 3
  tenant : BitVec 16
  retired : Option (Fin 8)
  deriving DecidableEq, Repr, Inhabited

/-- What the hardware measures at a barrier release (R67, R195, R404). `cycles` is the epoch's duration in CCLK of the half with
the larger divisor. `relNclk` gives, by physical berth, the time in NCLK from the last arrival to the release of that berth's last core.
`settledW` and `settledE` say whether the core rails of the half stand at the voltage of the requested divisor. -/
structure ReleaseMeasure where
  cycles : Nat
  relNclk : List Nat
  settledW : Bool
  settledE : Bool
  deriving DecidableEq, Repr, Inhabited

/-- A power sample of R415, in units of 10 W: the 100 µs averages of the two halves and of the whole module, and the 1 ms average. -/
structure PowerSample where
  west100us : Nat
  east100us : Nat
  total100us : Nat
  total1ms : Nat
  deriving DecidableEq, Repr, Inhabited

/-- A Chamois message carried between modules with SCOPE 3 (R179, R343, R355). TIME carries the slice root's STAMP and the delay of its path so
far in ns (R357). -/
inductive SliceMsg where
  | arrive | release | abort | go | fault | time (stamp : Dword) (ns : Nat) | point (dest : BitVec 16) (payload : Word) | late (core : BitVec 16)
  deriving DecidableEq, Repr, Inhabited

/-- A register page of BAR0, named by its block type (R494). -/
inductive Blk where
  | glb | brth | core | mesh | chms | stor | hbmc | kvpg | smpl | schd | strm | ltr | zlnk | cxlp | bsn | clkg | thrm
  | tray | flt | secu
  deriving DecidableEq, Repr, Inhabited

/-- Who writes a register: a host through a port, or the management controller (R490). -/
inductive RegWriter where
  | host (p : HostPort)
  | firmware
  deriving DecidableEq, Repr, Inhabited

/-- The two rings of a host port (R379, R380). -/
inductive RingKind where
  | request | output
  deriving DecidableEq, Repr, Inhabited

/-- What the machine's own wear and radiation may do to it at any time (log entry 176): check bits of a scratchpad word that no longer fit, an
instruction fetch that cannot be delivered, a residue check that fails (R77, R91), a core's page logic or a row's bypass that dies
(R90), a channel of a stack's memory that fails (R216). -/
inductive Upset where
  | scratch (c : CoreId) (word : Nat) (uncorrectable : Bool)
  | fetch (c : CoreId)
  | residue (c : CoreId)
  | pageLogic (b : Berth) (core : Nat)
  | bypass (b : Berth) (row : Fin 12)
  | channel (k : Stack)
  deriving DecidableEq, Repr, Inhabited

/-- The header fields of a dynamic packet (R169) and the Zhoza prefix it carries between modules (R358). -/
structure PacketHeader where
  type : BitVec 4
  gen : Bool
  fwd : Bool
  dst : BitVec 8
  dunit : BitVec 8
  src : BitVec 8
  sunit : BitVec 8
  tag : BitVec 4
  len : BitVec 14
  addr : BitVec 48
  dmod : BitVec 15
  smod : BitVec 15
  dlb : BitVec 7
  hops : BitVec 5
  deriving DecidableEq, Repr, Inhabited

/-- A packet at a module's boundary: one of the module's own packets by number, or one that a port has received. -/
inductive ZhozaPacket where
  | held (packet : Nat)
  | received (z : Berth) (h : PacketHeader) (payload : List Byte)
  deriving DecidableEq, Repr, Inhabited

end Sys2Proof
end

