-- ==== Sys2Proof/Syntax.lean ====
section
/-! DEFINITION. The commands of the block: one constructor for every row of the spec's table of operations and events. -/

namespace Sys2Proof

/-- A command to the module: an instruction that a core issues, an operation on a register or ring, a message or packet that
moves, or an event in the module or at a pin. Measured quantities (a duration, a current, a temperature, whether a read met an
error, what host memory returned) are operands. -/
inductive Instr where
  -- the scalar/control class (R99–R112)
  /-- R99: an all-zero slot of unit `u`. A nonzero `w` is a slot word that no row decodes: a reserved encoding (R102). -/
  | nop (c : CoreId) (u : CoreUnit) (w : Word)
  /-- R107. -/
  | add (c : CoreId) (gd ga gb : GReg)
  /-- R107. -/
  | sub (c : CoreId) (gd ga gb : GReg)
  /-- R107. -/
  | and (c : CoreId) (gd ga gb : GReg)
  /-- R107. -/
  | or (c : CoreId) (gd ga gb : GReg)
  /-- R107. -/
  | xor (c : CoreId) (gd ga gb : GReg)
  /-- R107. -/
  | sll (c : CoreId) (gd ga gb : GReg)
  /-- R107. -/
  | srl (c : CoreId) (gd ga gb : GReg)
  /-- R107. -/
  | sra (c : CoreId) (gd ga gb : GReg)
  /-- R107. -/
  | slt (c : CoreId) (gd ga gb : GReg)
  /-- R107. -/
  | sltu (c : CoreId) (gd ga gb : GReg)
  /-- R107. -/
  | mul (c : CoreId) (gd ga gb : GReg)
  /-- R107. -/
  | addi (c : CoreId) (gd ga : GReg) (imm : BitVec 16)
  /-- R107. -/
  | andi (c : CoreId) (gd ga : GReg) (imm : BitVec 16)
  /-- R107. -/
  | ori (c : CoreId) (gd ga : GReg) (imm : BitVec 16)
  /-- R107. -/
  | lui (c : CoreId) (gd : GReg) (imm : BitVec 16)
  /-- R107. -/
  | slli (c : CoreId) (gd ga : GReg) (sh : BitVec 5)
  /-- R107. -/
  | srli (c : CoreId) (gd ga : GReg) (sh : BitVec 5)
  /-- R107. -/
  | srai (c : CoreId) (gd ga : GReg) (sh : BitVec 5)
  /-- R107. -/
  | gld (c : CoreId) (gd ga : GReg) (imm : BitVec 16)
  /-- R107; gd is the source. -/
  | gst (c : CoreId) (gd ga : GReg) (imm : BitVec 16)
  /-- R107. -/
  | beq (c : CoreId) (ga gb : GReg) (off : BitVec 16)
  /-- R107. -/
  | bne (c : CoreId) (ga gb : GReg) (off : BitVec 16)
  /-- R107. -/
  | blt (c : CoreId) (ga gb : GReg) (off : BitVec 16)
  /-- R107. -/
  | bge (c : CoreId) (ga gb : GReg) (off : BitVec 16)
  /-- R107. -/
  | bltu (c : CoreId) (ga gb : GReg) (off : BitVec 16)
  /-- R110. -/
  | send (c : CoreId) (flow : BitVec 16)
  /-- R110. -/
  | cancel (c : CoreId) (flow : BitVec 16)
  /-- R110. -/
  | await (c : CoreId) (gd : GReg) (flow : BitVec 16)
  /-- R110: the wait that core `c` stands in returns. -/
  | awaitReturn (c : CoreId)
  /-- R130. -/
  | dwait (c : CoreId) (sel : DwaitSel)
  /-- R65: the completion wait that core `c` stands in returns. -/
  | dwaitReturn (c : CoreId)
  /-- R108. -/
  | spar (c : CoreId) (gd : GReg) (index : BitVec 16)
  /-- R112. -/
  | endBlock (c : CoreId)
  /-- R39. -/
  | barrierArrival (c : CoreId)
  -- the matrix class (R113–R119)
  /-- R113. -/
  | mcfg (c : CoreId) (ga : GReg) (word : CfgWord)
  /-- R118. -/
  | mtile (c : CoreId) (gd ga gb : GReg)
  /-- R146. -/
  | attemptTrouble (c : CoreId)
  /-- R118. -/
  | tileComplete (c : CoreId)
  -- the vector class (R120–R126)
  /-- R122. -/
  | vadd (c : CoreId) (vd va vb : VReg)
  /-- R122. -/
  | vsub (c : CoreId) (vd va vb : VReg)
  /-- R122. -/
  | vmul (c : CoreId) (vd va vb : VReg)
  /-- R122. -/
  | vfma (c : CoreId) (vd va vb vc : VReg)
  /-- R122. -/
  | vmax (c : CoreId) (vd va vb : VReg)
  /-- R122. -/
  | vmin (c : CoreId) (vd va vb : VReg)
  /-- R124. -/
  | vexp (c : CoreId) (vd va : VReg)
  /-- R124. -/
  | vrcp (c : CoreId) (vd va : VReg)
  /-- R124. -/
  | vrsq (c : CoreId) (vd va : VReg)
  /-- R123. -/
  | vrsum (c : CoreId) (vd va : VReg)
  /-- R121. -/
  | vrmax (c : CoreId) (vd va : VReg)
  /-- R121. -/
  | vsplat (c : CoreId) (vd : VReg) (ga : GReg)
  /-- R125. -/
  | vld (c : CoreId) (v : VReg) (ga : GReg) (efmt : BitVec 4) (off : BitVec 12)
  /-- R125. -/
  | vst (c : CoreId) (v : VReg) (ga : GReg) (efmt : BitVec 4) (off : BitVec 12)
  /-- R126. -/
  | vqnt (c : CoreId) (va : VReg) (ga gb gi : GReg) (fmt : BitVec 4)
  -- the memory class (R127–R130)
  /-- R128. -/
  | xrd (c : CoreId) (glocal gline gcount : GReg)
  /-- R128. -/
  | xwr (c : CoreId) (glocal gline gcount : GReg)
  /-- R130. -/
  | dreq (c : CoreId) (glocal gdesc : GReg)
  /-- R130: the response to the request of `tag` lands through dynamic delivery. -/
  | dynResponseDelivery (c : CoreId) (tag : Fin 16)
  -- slots, units and packets of the bulk mesh
  /-- R44, R64: the sending router of hop `hop` issues the next slot of a logical link; a link that is no tunnel has hop 0 alone. `external`
  is the data of a slot that a from-the-port link takes from its optical port, or a stack's. -/
  | slotIssue (link : Word) (hop : Nat) (external : List Byte)
  /-- R47, R64: the oldest unit on the physical link of hop `hop`, a slot of the logical link, arrives. -/
  | slotLanding (link : Word) (hop : Nat)
  /-- R45: a unit of a packet crosses a physical link. `way` numbers it as R163 numbers logical links, with physical berths: KIND 3 with the
  router port 0 to 3 in bits 15 to 14, KIND 4 with the port 4 to 9 in bits 3 to 0 and bit 20 set from the unit to the router. -/
  | dynamicUnitIssue (way : Word) (packet : Nat)
  /-- R166: the oldest unit in the replay buffer of a physical link fails its check. -/
  | unitRetry (way : Word)
  /-- R174. -/
  | ringHop (packet : Nat)
  /-- R176. -/
  | deliveryHop (packet : Nat)
  /-- R173. `crcBad` says that the end-to-end header check fails. -/
  | packetArrival (packet : Nat) (crcBad : Bool)
  -- the Chamois network and epoch control
  /-- R182. `resent` says that a flit of the message failed its parity and was sent again (R194). -/
  | arrive (n : ChNode) (resent : Bool)
  /-- R181. -/
  | release (m : ReleaseMeasure)
  /-- R446. -/
  | abort
  /-- R227. -/
  | go
  /-- R446: the oldest FAULT message reaches the fault aggregator. -/
  | fault
  /-- R183. -/
  | timeBroadcast
  /-- R183: TIME reaches the node of berth `b`. -/
  | time (b : Berth) (resent : Bool)
  /-- R179: a message to one node, carrying a register write of the management controller. -/
  | point (n : ChNode) (addr : Nat) (value : Word) (resent : Bool)
  /-- R182. -/
  | barrierTimerExpiry
  /-- R182. -/
  | late
  /-- R178. -/
  | treeLinkFail (n : ChNode)
  /-- R59. -/
  | epochWatchdog
  -- store dies
  /-- R84. `inRefresh` says that a refresh at its deadline, or a targeted one, occupies the line's bank (R507). -/
  | storeReadArrival (b : Berth) (line : BitVec 26) (r : StoreReader) (inRefresh : Bool)
  /-- R84. -/
  | mergeWindowEnd (b : Berth) (line : BitVec 26)
  /-- R84. `mirrorOk` says, for a line of the reserve, that the other copy reads well (R205). -/
  | storeLineReturn (b : Berth) (line : BitVec 26) (e : EccOutcome) (mirrorOk : Bool)
  /-- R199. -/
  | refillWrite (b : Berth)
  /-- R201. `waiting` says that foreground requests wait at the bank. -/
  | refresh (b : Berth) (bank : Fin 2048) (waiting : Bool)
  /-- R201. -/
  | refreshDeadline (b : Berth) (bank : Fin 2048)
  /-- R202. -/
  | targetedRefresh (b : Berth) (bank row : Fin 2048) (waiting : Bool)
  /-- R203. `overwritten` says that a write to the line arrived after the scrub read. -/
  | patrolScrubRead (b : Berth) (line : BitVec 26) (e : EccOutcome) (overwritten : Bool)
  /-- R203. -/
  | scrubPreempt (b : Berth) (bank : Fin 2048)
  /-- R203. -/
  | holdTimeout (b : Berth) (line : BitVec 26)
  /-- R206. -/
  | rowSpared (b : Berth) (bank row : Fin 2048)
  -- the slower tier
  /-- R208. -/
  | hbmRefreshDeadline (k : Stack) (bank : Nat)
  /-- R208. -/
  | zqCalibration (k : Stack)
  /-- R460. -/
  | hbmPatrolScrub (k : Stack) (offset : BitVec 37) (e : EccOutcome)
  /-- R221: the oldest device request waiting at the stack. -/
  | deviceStackRequest (k : Stack) (e : EccOutcome) (unit : Nat)
  /-- R216. `page` counts the stack's own 4 KiB pages. -/
  | pageRetire (k : Stack) (page : Nat) (softRepaired : Bool)
  /-- R376: a host read of 64 B. `linkErr` says that its link met an error that it corrected (R392). -/
  | hostMemRead (p : HostPort) (offset : BitVec 40) (e : EccOutcome) (linkErr : Bool)
  /-- R375: a host write of 64 B. `linkErr` as for a read. -/
  | hostMemWrite (p : HostPort) (offset : BitVec 40) (data : List Byte) (linkErr : Bool)
  -- steps and KV pages
  /-- R233. `tables` says what the pagers met that read an index line, a page table or a node with an error (R283). -/
  | choosePhase (tables : List (Stack × EccOutcome))
  /-- R227. The operands name the logical berths whose batch table, whose sampling records could be written in neither copy, and
  whose sampler tables could not be read, or were corrected (R249, R303). -/
  | preparePhase (batchBad recordBad tableBad tableCorrected : List (Fin 80))
  /-- R239. `logits` holds, for each batch index and each chosen position, the logits that the LM head computed; `tables` is as for CHOOSE_PHASE. -/
  | stepCommit (logits : List (List (List Word))) (tables : List (Stack × EccOutcome))
  /-- R279. `table` says what the pager's reads of nodes and index lines met (R283), here and below. -/
  | prefixInsertResume (k : Stack) (table : EccOutcome)
  /-- R280. -/
  | nodeRemoval (k : Stack) (table : EccOutcome)
  /-- R275. -/
  | locChange (k : Stack) (table : EccOutcome)
  /-- R275. `e` says what the read of the page met. -/
  | demotionCopyDone (k : Stack) (e : EccOutcome)
  /-- R282: the oldest pager request waiting at the pager; `e` says what the read of byte `unit` of the page met. -/
  | readPage (k : Stack) (table e : EccOutcome) (unit : Nat)
  -- stream requests
  /-- R236: the oldest record that the port's request ring has delivered is an OPEN and is applied. -/
  | openStream (p : HostPort)
  /-- R236. `listBad` says that the list read of LIST = 1 meets an uncorrectable unit (R527). -/
  | append (p : HostPort) (listBad : Bool)
  /-- R281. -/
  | truncate (p : HostPort)
  /-- R236. -/
  | close (p : HostPort)
  /-- R241. -/
  | attachKv (p : HostPort)
  /-- R236. -/
  | resume (p : HostPort)
  /-- R243. -/
  | ship (p : HostPort)
  /-- R380. -/
  | outputRecordWrite (p : HostPort)
  /-- R383. -/
  | outputIrqTimer (p : HostPort)
  -- shipments
  /-- R243. -/
  | shipmentRecordSend (st : StreamId)
  /-- R245: a record's bytes, header first, as the serving pager receives them. -/
  | kvShipmentRecord (record : List Byte)
  /-- R245. -/
  | shipmentAcknowledgement (st : StreamId) (seqn : BitVec 24) (refused : Bool)
  /-- R245. -/
  | shipRetry (st : StreamId)
  /-- R245. -/
  | shipAckTimeout (st : StreamId)
  /-- R242. -/
  | shipPageTimeout (st : StreamId)
  -- token selection state
  /-- R294: a write of SMPL_GBASE. -/
  | grammarBind (b : Berth) (v : Word)
  /-- R529. `readBad` says that a read of the check met an uncorrectable unit; `corrected` names berths whose sampler's read was corrected
  (R303). -/
  | grammarCheckDone (slot : Fin 16) (readBad : Bool) (corrected : List Berth)
  /-- R293: a write of SMPL_SGSTATE. -/
  | sgstateReset (b : Berth) (v : Word)
  /-- R296: a write of SMPL_SPCNT. -/
  | spcntClear (b : Berth) (v : Word)
  /-- R295: a write of SMPL_SCFG. -/
  | penEnWrite (b : Berth) (v : Word)
  -- the Lighter and model residency
  /-- R319. `host` is what host memory returned for the descriptor, none when the ring read failed. -/
  | descriptorPoll (p : HostPort) (ch : Channel) (host : Option (List Word))
  /-- R317. -/
  | copyIn (p : HostPort) (ch : Channel)
  /-- R317. -/
  | copyOut (p : HostPort) (ch : Channel)
  /-- R314: the manifest's bytes as they arrive at SECU. -/
  | manifest (p : HostPort) (ch : Channel) (bytes : List Byte)
  /-- R324. -/
  | shard (p : HostPort) (ch : Channel)
  /-- R317, R325: what the peer served for one pull credit, none when it cannot serve the shard. -/
  | peerShard (p : HostPort) (ch : Channel) (reply : Option (List Byte))
  /-- R56: the program image's bytes as they arrive at the step sequencer. -/
  | program (p : HostPort) (ch : Channel) (bytes : List Byte)
  /-- R317: one burst; `host` is what host memory returned for it, none for an error completion, `e` what the read of the slower tier met at byte
  `unit` of the burst. -/
  | lighterBurst (p : HostPort) (ch : Channel) (host : Option (List Byte)) (e : EccOutcome) (unit : Nat)
  /-- R321. `readBackBad` says that the read-back met an uncorrectable unit. -/
  | descriptorComplete (p : HostPort) (ch : Channel) (readBackBad : Bool)
  /-- R324. -/
  | openLoad (p : HostPort)
  /-- R324. -/
  | commit (p : HostPort)
  /-- R313. -/
  | unload (p : HostPort)
  /-- R329. -/
  | openStage (p : HostPort)
  /-- R330. -/
  | swap (p : HostPort)
  /-- R313. -/
  | abandon (p : HostPort)
  /-- R330. -/
  | copyStep
  /-- R326: the pass over `slot` by logical berth `b`, or over its device region (none), ends; `badParts` names programs whose part in that berth
  does not match. -/
  | rehashPass (b : Option (Fin 80)) (slot : ImageSlot) (badParts : List Nat)
  -- Zhoza links
  /-- R344. -/
  | trainingBurst (z : Berth)
  /-- R345. -/
  | admissionWave (w : Fin 14)
  /-- R346. `delay` is the one-way fibre delay in ns measured at CHECK (R357). -/
  | ident (z : Berth) (partner : PartnerIdent) (delay : BitVec 16)
  /-- R344. -/
  | checkRetry (z : Berth)
  /-- R337, R339: a codeword arrives at a port, 544 symbols as received, and with it the frame of a flit that it carries. -/
  | flitReplay (z : Berth) (received : List (BitVec 10)) (frame : List Byte)
  /-- R362. -/
  | lossOfSignal (z : Berth)
  /-- R343. -/
  | chamois (z : Berth) (m : SliceMsg)
  /-- R339. -/
  | ack (z : Berth) (seq : BitVec 12)
  /-- R360: `cls` and `gen` name the buffers, `n` of which were freed. -/
  | credit (z : Berth) (response gen : Bool) (n : Nat)
  /-- R363. -/
  | goingDown (z : Berth)
  /-- R363. -/
  | forwardWindowEnd
  /-- R361: a write of ZLNK_GEN. -/
  | genFlipWrite (b : Berth) (v : Word)
  /-- R361. -/
  | flip (z : Berth) (g : BitVec 8)
  /-- R361: the in-flight count and arrival flag that a subtree reports for generation `g`; `final` marks the whole tree's report. -/
  | drain (z : Berth) (g : BitVec 8) (count : Nat) (arrival : Bool)
  /-- R361. -/
  | bankRelease (z : Berth) (g : BitVec 8)
  /-- R359. -/
  | zhozaPacketForward (pkt : ZhozaPacket)
  /-- R460. -/
  | laneRecalibration (z : Berth)
  /-- R460. -/
  | linkRecalibration (link : Word)
  /-- R460. -/
  | telemetrySample
  -- host ports
  /-- R370, R374: the decoder is committed over `size` bytes, interleaved across `ways` ways at `gran` bytes, and locked when `lock` is set. -/
  | hdmDecoderCommit (p : HostPort) (size ways gran : Nat) (lock : Bool)
  /-- R377: a write of 1 to CXLP_OWN.TAKE. `otherDownMs` is how long the other port's link has been down, in ms. -/
  | take (p : HostPort) (otherDownMs : Nat)
  /-- R377: a write of 1 to CXLP_OWN.RETURN. -/
  | returnPart (p : HostPort)
  /-- R394: a write of CXLP_RQCFG or CXLP_OUTCFG. -/
  | ringEnable (p : HostPort) (k : RingKind) (v : Word)
  /-- R334: a write of LTR_CHCFG. -/
  | channelEnable (p : HostPort) (v : Word)
  /-- R379. `readBad` says that the ring access failed. -/
  | requestRingPoll (p : HostPort) (readBad : Bool)
  /-- R385. -/
  | conventionalReset (p : HostPort) (cause : PortResetCause)
  /-- R385. -/
  | flr (p : HostPort)
  /-- R388. -/
  | portLeavesReset (p : HostPort)
  /-- R370. -/
  | identifyMemoryDevice (p : HostPort)
  /-- R370. -/
  | getEventRecords (p : HostPort)
  /-- R370. -/
  | clearEventRecords (p : HostPort) (handles : List Nat)
  /-- R370. -/
  | getHealthInfo (p : HostPort)
  /-- R370. -/
  | getAlertConfiguration (p : HostPort)
  /-- R370. -/
  | setAlertConfiguration (p : HostPort) (config : List Byte)
  -- resets and the first second
  /-- R385. -/
  | mctpReset
  /-- R385. -/
  | modResetN
  /-- R386: the pins STRAP[3:0] are sampled again (R372). -/
  | warmT0 (straps : BitVec 4)
  /-- R396: `plate` says that the plate supplies the rail (R398). -/
  | coldPowerUp (straps : BitVec 4) (plate : Bool)
  /-- R396. -/
  | brownOut (n : Basin)
  /-- R470. -/
  | firmwareBoot
  /-- R418. -/
  | basinWave (w : Fin 12)
  /-- R387. -/
  | bistTrainingDone (x : TrainSubject) (ok : Bool)
  /-- R387. -/
  | memActive
  /-- R387: `ms` is the time from T0 in ms. -/
  | moduleReady (ms : BitVec 16)
  -- basins and clocks
  /-- R399. -/
  | plateHeartbeat
  /-- R399. -/
  | plateLink
  /-- R406: core-rail phase `i` fails. -/
  | phase1 (n : Basin) (i : Fin 8)
  /-- R406. -/
  | phase2 (n : Basin) (i : Fin 8)
  /-- R407. -/
  | short (n : Basin)
  /-- R405: `mv` is the lowest voltage sampled. -/
  | underv (n : Basin) (mv : BitVec 10)
  /-- R410: `sum` is the reported input current of the zone's other basins, in A. -/
  | wake (b : Berth) (sum : Nat)
  /-- R410. -/
  | wakeStep (b : Berth) (sum : Nat)
  /-- R411. -/
  | zoneOc (z : Fin 6)
  /-- R411. -/
  | zoneOcRelease (z : Fin 6)
  /-- R415. -/
  | powerControlSample (m : PowerSample)
  /-- R412. -/
  | idleGating
  /-- R412. -/
  | spareBist (b : Berth) (ok : Bool)
  /-- R417: the standby root when `standby`. -/
  | lockLoss (standby : Bool)
  /-- R417. -/
  | refLoss
  -- coolant and heat
  /-- R427. -/
  | trayRead (r : TrayReading)
  /-- R428. -/
  | linkLost
  /-- R430: the forecast power in units of 10 W and the forecast inlet in units of 0.125 °C. -/
  | forecast (p60 : Nat) (t60 : Int)
  /-- R429: one site's two sensor readings, signed, in units of 0.125 °C. -/
  | thermalSiteSample (i : Fin 100) (site : Fin 4) (diode ro : BitVec 12)
  /-- R429. -/
  | pairFault (i : Fin 100) (site : Fin 4)
  /-- R432. -/
  | thermalStepRequest (h : Half)
  /-- R432. -/
  | thermalStepRelease (h : Half)
  /-- R432. -/
  | trip (i : Fin 100) (site : Fin 4)
  /-- R433. -/
  | orderlyStop
  /-- R433. -/
  | orderlyResume
  /-- R435: the pin is asserted, or deasserted. -/
  | flowAlertN (asserted : Bool)
  /-- R436. -/
  | coolantRecovery
  /-- R436. -/
  | railDrop
  -- fault handling and repair
  /-- R446: `badSpares` are spares that fail their wake or BIST (R451), `lost` the addresses of logical modules that the slice has lost (R365). -/
  | quiesceComplete (badSpares : List Berth) (lost : List (BitVec 15))
  /-- R446. -/
  | quiesce
  /-- R453. -/
  | spareSelftestDone (ok : Bool)
  /-- R456. -/
  | storeMigrationDone (b : Fin 80)
  /-- R446. -/
  | restore
  /-- R461. -/
  | moduleFatal
  -- security
  /-- R479. -/
  | attestationRequest (nonce : List Byte)
  /-- R476. -/
  | indexReservationAck (ok : Bool)
  /-- R477. -/
  | bottomTreeReady
  /-- R480: the token's bytes, up to its signature. -/
  | debugToken (token : List Byte)
  /-- R482: a write of SECU_SEAL. -/
  | seal (v : Word)
  /-- R471: a write of SECU_SVN. -/
  | svnCommit (v : Word)
  /-- R472: the new copy's bytes; `complete` says that the update was not interrupted. -/
  | firmwareUpdate (copy : List Byte) (complete : Bool)
  -- register writes
  /-- R220: a write of STOR_PART. -/
  | kvBaseWrite (b : Berth) (v : Word)
  /-- R492: a W1C write of the ERR_STS register at BAR0 address `addr`. -/
  | errStsClear (addr : Nat) (v : Word)
  /-- R491: a write of the CTL register at BAR0 address `addr`. -/
  | inject (addr : Nat) (v : Word)
  /-- R422: a write of BSN_VMIN. -/
  | vminRestart (n : Basin) (v : Word)
  /-- R6, R485: a BAR0 write of `size` bytes at `addr` with all byte enables set when `enables`. -/
  | registerWrite (p : HostPort) (addr size : Nat) (enables : Bool) (data : Dword)
  -- further events
  /-- R344. -/
  | laneLock (z : Berth)
  /-- R168. -/
  | seamSync (b : Berth)
  /-- R423: the deviation of REFCLK_100, signed, in units of 0.01 ppm. -/
  | refDev (ppm : BitVec 16)
  /-- R406. -/
  | phase2Timeout (n : Basin)
  /-- R203: firmware rewrote the held line with these bytes. -/
  | heldLineRepaired (b : Berth) (line : BitVec 26) (data : List Byte)
  /-- R388. -/
  | linkInL0 (p : HostPort) (width : BitVec 8) (speed : BitVec 4)
  /-- R388. -/
  | cfgReady (p : HostPort)
  /-- R367. -/
  | berHigh (z : Berth)
  deriving DecidableEq, Repr

end Sys2Proof
end

