-- ==== Sys2Proof/Decode.lean ====
section
/-! DEFINITION. The slots and bundles of a core's instruction blocks (R99–R102, R106–R108, R113, R120, R121, R127): reading the
instruction of a slot word, rejecting reserved encodings, and the word of an instruction. The table of commands gives no bits, so
`decodeTableWord` reads none. -/

namespace Sys2Proof

open Machine

/-- R106: the general register named by the five bits from `lo`. -/
def regAt (w : Word) (lo : Nat) : GReg := ⟨w.toNat / 2 ^ lo % 32, Nat.mod_lt _ (by decide)⟩

/-- R120: the vector register named by the five bits from `lo`. -/
def vregAt (w : Word) (lo : Nat) : VReg := ⟨w.toNat / 2 ^ lo % 32, Nat.mod_lt _ (by decide)⟩

/-- R106: bits [15:0]. -/
def imm16 (w : Word) : BitVec 16 := BitVec.ofNat 16 (w.toNat % 65536)

/-- An instruction, when the bits that its row says are zero are zero (R102). -/
def guardRow (ok : Bool) (i : Instr) : Option Instr := if ok then some i else none

/-- R108: whether SPAR lists an index. -/
def sparListed (i : Nat) : Bool := i < 5 || (0x10 ≤ i && i < 0x40)

/-- R107: the scalar/control slot. -/
def decodeScalar (c : CoreId) (w : Word) : Option Instr :=
  let a := regAt w 21
  let b := regAt w 16
  let d := regAt w 11
  let m := imm16 w
  let zlow := w.toNat % 2048 = 0
  let za := w.toNat / 2 ^ 21 % 32 = 0
  let zb := w.toNat / 2 ^ 16 % 32 = 0
  let zsh := w.toNat % 65536 < 32
  let sh := BitVec.ofNat 5 (w.toNat % 65536)
  match w.toNat / 2 ^ 26 with
  | 0x00 => guardRow (w = 0) (.nop c .scalar 0)
  | 0x01 => guardRow zlow (.add c a b d)
  | 0x02 => guardRow zlow (.sub c a b d)
  | 0x03 => guardRow zlow (.and c a b d)
  | 0x04 => guardRow zlow (.or c a b d)
  | 0x05 => guardRow zlow (.xor c a b d)
  | 0x06 => guardRow zlow (.sll c a b d)
  | 0x07 => guardRow zlow (.srl c a b d)
  | 0x08 => guardRow zlow (.sra c a b d)
  | 0x09 => guardRow zlow (.slt c a b d)
  | 0x0A => guardRow zlow (.sltu c a b d)
  | 0x0B => guardRow zlow (.mul c a b d)
  | 0x10 => some (.addi c a b m)
  | 0x11 => some (.andi c a b m)
  | 0x12 => some (.ori c a b m)
  | 0x13 => guardRow zb (.lui c a m)
  | 0x14 => guardRow zsh (.slli c a b sh)
  | 0x15 => guardRow zsh (.srli c a b sh)
  | 0x16 => guardRow zsh (.srai c a b sh)
  | 0x18 => some (.gld c a b m)
  | 0x19 => some (.gst c a b m)
  | 0x20 => some (.beq c a b m)
  | 0x21 => some (.bne c a b m)
  | 0x22 => some (.blt c a b m)
  | 0x23 => some (.bge c a b m)
  | 0x24 => some (.bltu c a b m)
  | 0x28 => guardRow (za && zb) (.send c m)
  | 0x29 => guardRow (za && zb) (.cancel c m)
  | 0x2A => guardRow zb (.await c a m)
  | 0x2C => guardRow (za && zb && zsh)
      (.dwait c (if w.toNat / 16 % 2 = 1 then .all else .tag ⟨w.toNat % 16, Nat.mod_lt _ (by decide)⟩))
  | 0x2E => guardRow (zb && sparListed (w.toNat % 65536)) (.spar c a m)
  | 0x3F => guardRow (w.toNat % 2 ^ 26 = 0) (.endBlock c)
  | _ => none

/-- R113: the configuration word of the WORD field. -/
def cfgWordAt (w : Word) : CfgWord := match w.toNat % 4 with
  | 0 => .tshape
  | 1 => .tfmt
  | 2 => .tbound
  | _ => .reserved

/-- R113: the matrix slot. -/
def decodeMatrix (c : CoreId) (w : Word) : Option Instr :=
  match w.toNat / 2 ^ 26 with
  | 0x00 => guardRow (w = 0) (.nop c .matrix 0)
  | 0x01 => guardRow (w.toNat / 2 ^ 21 % 32 = 0 && w.toNat / 4 % 2 ^ 14 = 0 && cfgWordAt w != .reserved)
      (.mcfg c (regAt w 16) (cfgWordAt w))
  | 0x02 => guardRow (w.toNat % 2048 = 0) (.mtile c (regAt w 21) (regAt w 16) (regAt w 11))
  | _ => none

/-- R120, R121, R125, R126: the vector slot. -/
def decodeVector (c : CoreId) (w : Word) : Option Instr :=
  let d := vregAt w 21
  let a := vregAt w 16
  let b := vregAt w 11
  let e := vregAt w 6
  let two := w.toNat % 2048 = 0
  let one := w.toNat % 65536 = 0
  let efmt := BitVec.ofNat 4 (w.toNat / 4096 % 16)
  let off := BitVec.ofNat 12 (w.toNat % 4096)
  let fmt := BitVec.ofNat 4 (w.toNat / 4 % 16)
  match w.toNat / 2 ^ 26 with
  | 0x00 => guardRow (w = 0) (.nop c .vector 0)
  | 0x01 => guardRow two (.vadd c d a b)
  | 0x02 => guardRow two (.vsub c d a b)
  | 0x03 => guardRow two (.vmul c d a b)
  | 0x04 => guardRow (w.toNat % 64 = 0) (.vfma c d a b e)
  | 0x05 => guardRow two (.vmax c d a b)
  | 0x06 => guardRow two (.vmin c d a b)
  | 0x07 => guardRow one (.vexp c d a)
  | 0x08 => guardRow one (.vrcp c d a)
  | 0x09 => guardRow one (.vrsq c d a)
  | 0x0A => guardRow one (.vrsum c d a)
  | 0x0B => guardRow one (.vrmax c d a)
  | 0x0C => guardRow one (.vsplat c d (regAt w 16))
  | 0x10 => guardRow (efmt.toNat < 3) (.vld c d (regAt w 16) efmt off)
  | 0x11 => guardRow (efmt.toNat < 3) (.vst c d (regAt w 16) efmt off)
  | 0x12 => guardRow (w.toNat % 4 = 0 && 1 ≤ fmt.toNat && fmt.toNat ≤ 8)
      (.vqnt c d (regAt w 16) (regAt w 11) (regAt w 6) fmt)
  | _ => none

/-- R127: the memory slot. -/
def decodeMemory (c : CoreId) (w : Word) : Option Instr :=
  match w.toNat / 2 ^ 26 with
  | 0x00 => guardRow (w = 0) (.nop c .memory 0)
  | 0x01 => guardRow (w.toNat % 2048 = 0) (.xrd c (regAt w 21) (regAt w 16) (regAt w 11))
  | 0x02 => guardRow (w.toNat % 2048 = 0) (.xwr c (regAt w 21) (regAt w 16) (regAt w 11))
  | 0x03 => guardRow (w.toNat % 65536 = 0) (.dreq c (regAt w 21) (regAt w 16))
  | _ => none

/-- R99, R102: the instruction of a slot, none for a reserved encoding. -/
def decodeSlot (c : CoreId) (u : CoreUnit) (w : Word) : Option Instr := match u with
  | .scalar => decodeScalar c w
  | .matrix => decodeMatrix c w
  | .vector => decodeVector c w
  | .memory => decodeMemory c w

/-- R99: the word of a slot of a bundle. -/
def slotWord (b : Bundle) : CoreUnit → Word
  | .scalar => b.extractLsb' 0 32
  | .matrix => b.extractLsb' 32 32
  | .vector => b.extractLsb' 64 32
  | .memory => b.extractLsb' 96 32

/-- R100, R102: the instructions of a bundle in the order in which they take effect, none when a slot holds a reserved encoding. -/
def decodeBundle (c : CoreId) (b : Bundle) : Option (List Instr) :=
  match decodeSlot c .matrix (slotWord b .matrix), decodeSlot c .vector (slotWord b .vector),
      decodeSlot c .memory (slotWord b .memory), decodeSlot c .scalar (slotWord b .scalar) with
  | some m, some v, some x, some s => some [m, v, x, s]
  | _, _, _, _ => none

/-- The word of an opcode and its fields below bit 26. -/
def slotOf (op low : Nat) : Word := BitVec.ofNat 32 (op * 2 ^ 26 + low)

/-- Three register fields, at bits 21, 16 and 11. -/
def packRegs (a b d : Fin 32) : Nat := a.val * 2 ^ 21 + b.val * 2 ^ 16 + d.val * 2 ^ 11

/-- Two register fields and bits [15:0]. -/
def packImm (a b : Fin 32) (m : Nat) : Nat := a.val * 2 ^ 21 + b.val * 2 ^ 16 + m

/-- R99–R127: the unit and word of a core's instruction, none for a command that is no instruction. -/
def encodeSlot : Instr → Option (CoreUnit × Word)
  | .nop _ u w => some (u, w)
  | .add _ a b d => some (.scalar, slotOf 0x01 (packRegs a b d))
  | .sub _ a b d => some (.scalar, slotOf 0x02 (packRegs a b d))
  | .and _ a b d => some (.scalar, slotOf 0x03 (packRegs a b d))
  | .or _ a b d => some (.scalar, slotOf 0x04 (packRegs a b d))
  | .xor _ a b d => some (.scalar, slotOf 0x05 (packRegs a b d))
  | .sll _ a b d => some (.scalar, slotOf 0x06 (packRegs a b d))
  | .srl _ a b d => some (.scalar, slotOf 0x07 (packRegs a b d))
  | .sra _ a b d => some (.scalar, slotOf 0x08 (packRegs a b d))
  | .slt _ a b d => some (.scalar, slotOf 0x09 (packRegs a b d))
  | .sltu _ a b d => some (.scalar, slotOf 0x0A (packRegs a b d))
  | .mul _ a b d => some (.scalar, slotOf 0x0B (packRegs a b d))
  | .addi _ a b m => some (.scalar, slotOf 0x10 (packImm a b m.toNat))
  | .andi _ a b m => some (.scalar, slotOf 0x11 (packImm a b m.toNat))
  | .ori _ a b m => some (.scalar, slotOf 0x12 (packImm a b m.toNat))
  | .lui _ a m => some (.scalar, slotOf 0x13 (packImm a 0 m.toNat))
  | .slli _ a b s => some (.scalar, slotOf 0x14 (packImm a b s.toNat))
  | .srli _ a b s => some (.scalar, slotOf 0x15 (packImm a b s.toNat))
  | .srai _ a b s => some (.scalar, slotOf 0x16 (packImm a b s.toNat))
  | .gld _ a b m => some (.scalar, slotOf 0x18 (packImm a b m.toNat))
  | .gst _ a b m => some (.scalar, slotOf 0x19 (packImm a b m.toNat))
  | .beq _ a b m => some (.scalar, slotOf 0x20 (packImm a b m.toNat))
  | .bne _ a b m => some (.scalar, slotOf 0x21 (packImm a b m.toNat))
  | .blt _ a b m => some (.scalar, slotOf 0x22 (packImm a b m.toNat))
  | .bge _ a b m => some (.scalar, slotOf 0x23 (packImm a b m.toNat))
  | .bltu _ a b m => some (.scalar, slotOf 0x24 (packImm a b m.toNat))
  | .send _ f => some (.scalar, slotOf 0x28 f.toNat)
  | .cancel _ f => some (.scalar, slotOf 0x29 f.toNat)
  | .await _ a f => some (.scalar, slotOf 0x2A (packImm a 0 f.toNat))
  | .dwait _ (.tag t) => some (.scalar, slotOf 0x2C t.val)
  | .dwait _ .all => some (.scalar, slotOf 0x2C 16)
  | .spar _ a m => some (.scalar, slotOf 0x2E (packImm a 0 m.toNat))
  | .endBlock _ => some (.scalar, slotOf 0x3F 0)
  | .mcfg _ a .tshape => some (.matrix, slotOf 0x01 (packImm 0 a 0))
  | .mcfg _ a .tfmt => some (.matrix, slotOf 0x01 (packImm 0 a 1))
  | .mcfg _ a .tbound => some (.matrix, slotOf 0x01 (packImm 0 a 2))
  | .mcfg _ a .reserved => some (.matrix, slotOf 0x01 (packImm 0 a 3))
  | .mtile _ d a b => some (.matrix, slotOf 0x02 (packRegs d a b))
  | .vadd _ d a b => some (.vector, slotOf 0x01 (packRegs d a b))
  | .vsub _ d a b => some (.vector, slotOf 0x02 (packRegs d a b))
  | .vmul _ d a b => some (.vector, slotOf 0x03 (packRegs d a b))
  | .vfma _ d a b e => some (.vector, slotOf 0x04 (packRegs d a b + e.val * 64))
  | .vmax _ d a b => some (.vector, slotOf 0x05 (packRegs d a b))
  | .vmin _ d a b => some (.vector, slotOf 0x06 (packRegs d a b))
  | .vexp _ d a => some (.vector, slotOf 0x07 (packRegs d a 0))
  | .vrcp _ d a => some (.vector, slotOf 0x08 (packRegs d a 0))
  | .vrsq _ d a => some (.vector, slotOf 0x09 (packRegs d a 0))
  | .vrsum _ d a => some (.vector, slotOf 0x0A (packRegs d a 0))
  | .vrmax _ d a => some (.vector, slotOf 0x0B (packRegs d a 0))
  | .vsplat _ d a => some (.vector, slotOf 0x0C (packRegs d a 0))
  | .vld _ v a f o => some (.vector, slotOf 0x10 (packImm v a (f.toNat * 4096 + o.toNat)))
  | .vst _ v a f o => some (.vector, slotOf 0x11 (packImm v a (f.toNat * 4096 + o.toNat)))
  | .vqnt _ v a b i f => some (.vector, slotOf 0x12 (packRegs v a b + i.val * 64 + f.toNat * 4))
  | .xrd _ l a n => some (.memory, slotOf 0x01 (packRegs l a n))
  | .xwr _ l a n => some (.memory, slotOf 0x02 (packRegs l a n))
  | .dreq _ l d => some (.memory, slotOf 0x03 (packRegs l d 0))
  | _ => none

/-- The command that a word spells by the bits of the table of commands: no row of the table gives any bits, so there is none. -/
def decodeTableWord (_nbits _w : Nat) : Option Instr := none

end Sys2Proof
end

