-- ==== Sys2Proof/Config.lean ====
section
/-! DEFINITION. What the spec leaves open: constants without a body, so that a statement that holds, holds whatever they are. Those
that take a counter are applied to the state's `draws`, which the step advances. -/

namespace Sys2Proof.Config

/-- R147 (log entry 22): which of the kinds of trouble that an attempt contains its unit meets first, on one stepping, from the three
configuration words, the activation source, the weights and the attempt's number. -/
opaque troubleChoice : Stepping → Word → Word → Word → List Byte → List Byte → Nat → Nat

/-- R259, R262 (log entry 23): which of a pager's free frames an allocation takes. -/
opaque frameChoice : Nat → Nat

/-- R230 (log entry 24): where in the reserve region the batch table of a step lies. -/
opaque batchPlace : Nat → Nat

/-- R259 (log entry 184): where in the free room of the index frames a new index column lies. -/
opaque columnChoice : Nat → Nat

/-- R243, R244 (log entry 185): the bytes of a shipped page that has its home on another module of the image, as that module's pager reads them,
and whether it is dropped there. -/
opaque remoteByte : Nat → Nat → Byte
/-- See `remoteByte`. -/
opaque remoteDropped : Nat → Bool

/-- R247, R250 (log entry 186): the positions that an epoch of a program with expert layers sends to a second pass. -/
opaque secondPass : Nat → Nat

/-- R277, R279 (log entry 25): which free 512 B place of the device part a new prefix node takes. -/
opaque nodePlace : Nat → Nat

/-- R272, R274 (log entry 25): which free place of the device part a demoted page or a backup copy takes. -/
opaque copyPlace : Nat → Nat

/-- R324 (log entry 26): the bytes that a shard's destination holds after a digest mismatch. -/
opaque unspecifiedByte : Nat → Nat → Byte

/-- R480 (log entry 27): the debug nonce. -/
opaque nonce : Nat → BitVec 128

/-- R475 (log entry 28): the identity signature of an index over a message; the device secret is fused and not known. -/
opaque identitySign : Nat → List Byte → List Byte

/-- R491 (log entry 29): PAGE_VER.IMPL of a block. -/
opaque implRevision : Blk → BitVec 8

/-- R370 (log entry 30): the payload of Identify Memory Device and of Get Health Info. -/
opaque mailboxPayload : Nat → List Byte

/-- R97, R98, R190, R218, R222, R421 (log entry 31): what only the hardware measures (counters of cycles, temperatures, currents), by
register address, selected quantity and the free values drawn so far. -/
opaque measured : Nat → Nat → Nat → Word

/-- R310, R353 (log entry 32): the order in which equal candidates are met where the spec names none. -/
opaque tieBreak : Nat → Nat

/-- R310, R314 (log entry 190): the store lines that each berth's part of a program takes, by the program's LEN. -/
opaque programPartLines : Nat → Nat

/-- R179, R183 (log entry 196): the 48 bits of DEST and PAYLOAD in which TIME carries a STAMP between modules, with the delay in ns so far. -/
opaque timeFields : Dword → Nat → BitVec 48

/-- R242, R300 (log entry 34): the tokens at the positions of a received shipment, which no record carries. -/
opaque shippedToken : Nat → Nat → Word

/-- R56, R321 (log entry 45): the CODE with which the descriptor of a program image completes that fails a load-time check; any but OK. -/
opaque refusedProgramCode : Nat → Nat

/-- R476 (log entry 48): whether a write of NEXT_FREE took effect whose acknowledgement failed. -/
opaque reservationStuck : Nat → Bool

/-- R479 (log entry 49): the SHA-256 that a report gives over the configuration (0) and over the fences (1): the spec names what is measured and
not how it is laid out. -/
opaque measureDigest : Nat → List Nat → BitVec 256

/-- R183 (log entry 161): the path delay of TIME to a berth's node in PCLK, as measured at the boot that `boot` counts. -/
opaque pathDelay : Nat → Nat → Nat

/-- R97, R190 (log entry 162): the cycles that a counter of cycles counts between two free values: by register address, selected copy and
the free values drawn so far. -/
opaque cycles : Nat → Nat → Nat → Nat

/-- R169 (log entry 163): HCRC, a CRC-16 over a packet's header; the spec gives no polynomial for it. -/
opaque headerCrc : List (BitVec 32) → BitVec 16

/-- R77, R90, R91, R216 (log entry 176): what fails of itself in a PCLK, by the free values drawn so far. -/
opaque upset : Nat → Option Upset

end Sys2Proof.Config
end

