-- ==== Sys2Proof/Machine/Fp.lean ====
section
/-! DEFINITION. The floating-point arithmetic of the vector and matrix units (R122–R124, R531): exact dyadic values, one rounding
to nearest even as if the exponent range were unbounded, overflow to infinity, and results below 2^−126 flushed to zero. -/

namespace Sys2Proof.Machine

/-- A floating-point value as the units read it: a denormal is already a zero of its sign (R122). `fin neg m e` is ±m × 2^e with m
above 0. -/
inductive Fv where
  | nan
  | inf (neg : Bool)
  | zero (neg : Bool)
  | fin (neg : Bool) (m : Nat) (e : Int)
  deriving DecidableEq, Repr, Inhabited

/-- Reads an FP32 bit pattern (R122). -/
def Fv.ofF32 (w : Word) : Fv :=
  let s := w.getLsbD 31
  let e := bits w 30 23
  let f := bits w 22 0
  if e = 255 then (if f = 0 then .inf s else .nan)
  else if e = 0 then .zero s
  else .fin s (f + 2 ^ 23) ((e : Int) - 150)

/-- Reads a BF16 bit pattern, which widens exactly (R125). -/
def Fv.ofBf16 (h : BitVec 16) : Fv := Fv.ofF32 (BitVec.ofNat 32 (h.toNat * 2 ^ 16))

/-- The value rounded to `p` significant bits, to nearest even. `sticky` says that the exact value lies a little above m × 2^e. -/
def roundSig (p m : Nat) (e : Int) (sticky : Bool) : Nat × Int :=
  let len := Nat.log2 m + 1
  if len ≤ p then (m * 2 ^ (p - len), e - ((p - len : Nat) : Int))
  else
    let sh := len - p
    let q := m / 2 ^ sh
    let r := m % 2 ^ sh
    let half := 2 ^ (sh - 1)
    let up := decide (half < r) || (decide (r = half) && (sticky || decide (q % 2 = 1)))
    let q' := if up then q + 1 else q
    if q' = 2 ^ p then (2 ^ (p - 1), e + sh + 1) else (q', e + sh)

/-- Writes a rounded value of `p` significant bits with an 8-bit exponent: ±infinity above the largest finite value, zero of its
sign below 2^−126 (R122, R531). -/
def packSig (p : Nat) (neg : Bool) (q : Nat) (e : Int) : Nat :=
  let s := if neg then 2 ^ (p + 7) else 0
  let ex := e + ((p - 1 : Nat) : Int)
  if 127 < ex then s + 255 * 2 ^ (p - 1)
  else if ex < -126 then s
  else s + (ex + 127).toNat * 2 ^ (p - 1) + (q - 2 ^ (p - 1))

/-- The canonical NaN (R122). -/
def f32Nan : Word := 0x7FC00000#32

/-- Rounds ±m × 2^e to FP32 (R122). -/
def roundF32 (neg : Bool) (m : Nat) (e : Int) (sticky : Bool) : Word :=
  if m = 0 then (if neg then 0x80000000#32 else 0#32)
  else let r := roundSig 24 m e sticky; BitVec.ofNat 32 (packSig 24 neg r.1 r.2)

/-- The FP32 bit pattern of a value, rounded under R122. -/
def Fv.toF32 : Fv → Word
  | .nan => f32Nan
  | .inf s => if s then 0xFF800000#32 else 0x7F800000#32
  | .zero s => if s then 0x80000000#32 else 0#32
  | .fin s m e => roundF32 s m e false

/-- R531: conversion to BF16. -/
def Fv.toBf16 : Fv → BitVec 16
  | .nan => 0x7FC0#16
  | .inf s => if s then 0xFF80#16 else 0x7F80#16
  | .zero s => if s then 0x8000#16 else 0#16
  | .fin s m e => let r := roundSig 8 m e false; BitVec.ofNat 16 (packSig 8 s r.1 r.2)

/-- R531 on an FP32 bit pattern. -/
def bf16OfF32 (w : Word) : BitVec 16 := (Fv.ofF32 w).toBf16

/-- The exact product. -/
def Fv.mul : Fv → Fv → Fv
  | .nan, _ => .nan
  | _, .nan => .nan
  | .inf _, .zero _ => .nan
  | .zero _, .inf _ => .nan
  | .inf a, .inf b => .inf (a != b)
  | .inf a, .fin b _ _ => .inf (a != b)
  | .fin a _ _, .inf b => .inf (a != b)
  | .zero a, .zero b => .zero (a != b)
  | .zero a, .fin b _ _ => .zero (a != b)
  | .fin a _ _, .zero b => .zero (a != b)
  | .fin a m e, .fin b n f => .fin (a != b) (m * n) (e + f)

/-- The signed integer of a finite value at exponent `e`, which does not exceed its own. -/
def scaled (neg : Bool) (m : Nat) (x e : Int) : Int :=
  let v := ((m * 2 ^ (x - e).toNat : Nat) : Int)
  if neg then -v else v

/-- A signed dyadic as a value; an exact zero is +0. -/
def Fv.ofInt (v e : Int) : Fv := if v = 0 then .zero false else .fin (decide (v < 0)) v.natAbs e

/-- The exact sum; an exact cancellation gives +0, and two zeros of one sign keep it (round to nearest). -/
def Fv.add : Fv → Fv → Fv
  | .nan, _ => .nan
  | _, .nan => .nan
  | .inf a, .inf b => if a = b then .inf a else .nan
  | .inf a, _ => .inf a
  | _, .inf b => .inf b
  | .zero a, .zero b => .zero (a && b)
  | .zero _, y => y
  | x, .zero _ => x
  | .fin a m e, .fin b n f =>
    let g := min e f
    Fv.ofInt (scaled a m e g + scaled b n f g) g

/-- The value with its sign turned. -/
def Fv.neg : Fv → Fv
  | .nan => .nan
  | .inf s => .inf (!s)
  | .zero s => .zero (!s)
  | .fin s m e => .fin (!s) m e

/-- VADD (R122). -/
def fadd (x y : Word) : Word := (Fv.add (Fv.ofF32 x) (Fv.ofF32 y)).toF32
/-- VSUB (R122). -/
def fsub (x y : Word) : Word := (Fv.add (Fv.ofF32 x) (Fv.neg (Fv.ofF32 y))).toF32
/-- VMUL (R122). -/
def fmul (x y : Word) : Word := (Fv.mul (Fv.ofF32 x) (Fv.ofF32 y)).toF32
/-- VFMA: one rounding (R121, R122). -/
def ffma (x y z : Word) : Word := (Fv.add (Fv.mul (Fv.ofF32 x) (Fv.ofF32 y)) (Fv.ofF32 z)).toF32

/-- The order of values that are no NaN, with −0 below +0 (R122). -/
def Fv.lt : Fv → Fv → Bool
  | .nan, _ => false
  | _, .nan => false
  | .inf a, .inf b => a && !b
  | .inf a, _ => a
  | _, .inf b => !b
  | .zero a, .zero b => a && !b
  | .zero _, .fin b _ _ => !b
  | .fin a _ _, .zero _ => a
  | .fin a m e, .fin b n f =>
    let g := min e f
    decide (scaled a m e g < scaled b n f g)

/-- VMAX (R122). -/
def fmax (x y : Word) : Word :=
  match Fv.ofF32 x, Fv.ofF32 y with
  | .nan, _ => f32Nan
  | _, .nan => f32Nan
  | a, b => if Fv.lt a b then b.toF32 else a.toF32

/-- VMIN (R122). -/
def fmin (x y : Word) : Word :=
  match Fv.ofF32 x, Fv.ofF32 y with
  | .nan, _ => f32Nan
  | _, .nan => f32Nan
  | a, b => if Fv.lt b a then b.toF32 else a.toF32

/-- VRCP: the correctly rounded reciprocal (R124). -/
def frcp (x : Word) : Word :=
  match Fv.ofF32 x with
  | .nan => f32Nan
  | .inf s => (Fv.zero s).toF32
  | .zero s => (Fv.inf s).toF32
  | .fin s m e => roundF32 s (2 ^ 80 / m) (-80 - e) (decide (2 ^ 80 % m ≠ 0))

/-- ⌊√n⌋ for n below 2^(2i + 2), found bit by bit. -/
def isqrt (n : Nat) : Nat → Nat → Nat
  | 0, r => if (r + 1) * (r + 1) ≤ n then r + 1 else r
  | i + 1, r => let t := r + 2 ^ (i + 1); isqrt n i (if t * t ≤ n then t else r)

/-- VRSQ: the correctly rounded reciprocal square root (R124). -/
def frsq (x : Word) : Word :=
  match Fv.ofF32 x with
  | .nan => f32Nan
  | .inf s => if s then f32Nan else 0#32
  | .zero s => (Fv.inf s).toF32
  | .fin true _ _ => f32Nan
  | .fin false m e =>
    let m' := if e % 2 = 0 then m else 2 * m
    let e' := if e % 2 = 0 then e else e - 1
    let r := isqrt (2 ^ 140 / m') 70 0
    roundF32 false r (-70 - e' / 2) (decide (r * r * m' ≠ 2 ^ 140))

/-- ⌊ln 2 × 2^240⌋. -/
def ln2Fixed : Nat := 1224685061431752149387114016819916847747660333428801675508466606222838698

/-- The Taylor sum of e^r × 2^240 for a fixed-point r, from term `k` on, with at most `fuel` terms. -/
def expTerms (r : Int) : Nat → Nat → Int → Int
  | 0, _, _ => 0
  | fuel + 1, k, t => t + expTerms r fuel (k + 1) (t * r / (2 ^ 240 * (k + 1 : Nat)))

/-- VEXP: e^x rounded to nearest even (R124). The exponential is computed to more than 2^−200 relative, far below the distance at
which an exponential of a nonzero FP32 value can lie from a rounding boundary (log entry 20). -/
def fexp (x : Word) : Word :=
  match Fv.ofF32 x with
  | .nan => f32Nan
  | .inf s => if s then 0#32 else 0x7F800000#32
  | .zero _ => 0x3F800000#32
  | .fin s m e =>
    if 7 < e + (Nat.log2 m : Int) then (if s then 0#32 else 0x7F800000#32)
    else
      let v := scaled s m e (-240)
      let k := (2 * v + ln2Fixed) / (2 * ln2Fixed)
      let t := expTerms (v - k * ln2Fixed) 60 0 (2 ^ 240)
      roundF32 false t.toNat (k - 240) true

/-- A value rounded to the nearest integer, ties to even, when scaled by 2^−e. -/
def roundInt (neg : Bool) (m : Nat) (x e : Int) : Int :=
  let v : Nat :=
    if e ≤ x then m * 2 ^ (x - e).toNat
    else
      let sh := (e - x).toNat
      let q := m / 2 ^ sh
      let r := m % 2 ^ sh
      if 2 ^ sh < 2 * r ∨ (2 * r = 2 ^ sh ∧ q % 2 = 1) then q + 1 else q
  if neg then -(v : Int) else v

/-- R125: conversion of an FP32 value to INT8, to nearest even, saturated; a NaN is written as 0. -/
def int8OfF32 (w : Word) : Byte :=
  match Fv.ofF32 w with
  | .nan => 0
  | .inf s => if s then 0x80#8 else 0x7F#8
  | .zero _ => 0
  | .fin s m e => BitVec.ofInt 8 (max (-128) (min 127 (roundInt s m e 0)))

/-- R125: an INT8 value converted exactly. -/
def f32OfInt8 (b : Byte) : Word := (Fv.ofInt b.toInt 0).toF32

/-- R125: an FP32 value as VLD reads it, a denormal as zero of its sign. -/
def f32Flush (w : Word) : Word := if bits w 30 23 = 0 then w &&& 0x80000000#32 else w

/-- R125: a BF16 value widened exactly, a denormal as zero of its sign. -/
def f32OfBf16 (h : BitVec 16) : Word := f32Flush (BitVec.ofNat 32 (h.toNat * 2 ^ 16))

/-- R123: one level of the fixed tree, sums of adjacent pairs. -/
def pairSums : List Word → List Word
  | a :: b :: t => fadd a b :: pairSums t
  | l => l

/-- R123: the six levels of VRSUM over 64 lanes. -/
def treeSum (l : List Word) : Word :=
  (pairSums (pairSums (pairSums (pairSums (pairSums (pairSums l)))))).headD 0

/-- VRMAX (R121, R122): the largest of the lanes, a NaN if any lane is one. -/
def laneMax : List Word → Word
  | [] => 0xFF800000#32
  | a :: t => t.foldl fmax (fmax a a)

end Sys2Proof.Machine
end

