-- ==== Sys2Proof/Machine/Narrow.lean ====
section
/-! DEFINITION. The narrow arithmetic of the matrix unit (chapter Narrow Arithmetic and Its Error Bounds): BQ codes and arrays,
the choice of a scale, runs, promotion, the BF16 path and the trouble that an attempt contains. -/

namespace Sys2Proof.Machine

/-- R132: the largest code magnitude that quantisation writes at BQ-n. -/
def qmax (n : Nat) : Nat := if n = 1 then 1 else 2 ^ (n - 1) - 1

/-- R133: the raw code of element `i` of the block of BQ-n whose payload begins at `off`. -/
def rawCode (rd : Nat → Byte) (off n i : Nat) : Nat :=
  let lo := n * i
  ((rd (off + lo / 8)).toNat + 256 * (rd (off + lo / 8 + 1)).toNat) / 2 ^ (lo % 8) % 2 ^ n

/-- R132: the value of a code; the most negative code reads as −qmax. -/
def codeValue (n c : Nat) : Int :=
  if n = 1 then (if c = 0 then 1 else -1)
  else if c < 2 ^ (n - 1) then (c : Int)
  else max (-(qmax n : Int)) ((c : Int) - ((2 ^ n : Nat) : Int))

/-- A quantised block of 32 elements (R134, R137): a zero block, a block of codes at scale exponent `e`, or one that cannot be
quantised. -/
inductive QBlock where
  | zero
  | codes (e : Int) (q : List Int)
  | nonfinite
  | underflow
  deriving DecidableEq, Repr, Inhabited

/-- ⌊log2 |x|⌋ of a nonzero finite value. -/
def Fv.log2 : Fv → Option Int
  | .fin _ m e => some (e + (Nat.log2 m : Int))
  | _ => none

/-- The larger of two optional exponents. -/
def maxExp : Option Int → Option Int → Option Int
  | none, y => y
  | x, none => x
  | some a, some b => some (max a b)

/-- Whether a value is a NaN or an infinity. -/
def Fv.nonfinite : Fv → Bool
  | .nan => true
  | .inf _ => true
  | _ => false

/-- R137: the code of one value of a block at scale exponent `e`. -/
def quantOne (n : Nat) (e : Int) : Fv → Int
  | .zero s => if n = 1 then (if s then -1 else 1) else 0
  | .fin s m x =>
    if n = 1 then (if s then -1 else 1)
    else max (-(qmax n : Int)) (min (qmax n : Int) (roundInt s m x e))
  | _ => 0

/-- R137, R138: quantisation of a block of 32 values to BQ-n. -/
def quantBlock (n : Nat) (xs : List Fv) : QBlock :=
  if xs.any Fv.nonfinite then .nonfinite
  else match xs.foldl (fun a x => maxExp a x.log2) none with
    | none => .zero
    | some l =>
      let e := if n = 1 then l else l - ((n : Int) - 2)
      if e < -127 then .underflow else .codes e (xs.map (quantOne n e))

/-- The raw code that spells a code value at BQ-n (R132). -/
def codeBits (n : Nat) (q : Int) : Nat :=
  if n = 1 then (if q < 0 then 1 else 0) else (q % ((2 ^ n : Nat) : Int)).toNat

/-- R133, R134, R126: the scale byte and the payload of a block; one that cannot be quantised is written as a zero block. -/
def blockBytes (n : Nat) : QBlock → Byte × List Byte
  | .codes e q => (BitVec.ofInt 8 (e + 128), leBytes (q.foldr (fun c a => codeBits n c + 2 ^ n * a) 0) (4 * n))
  | _ => (0, List.replicate (4 * n) 0)

/-- The configuration of a tile (R114–R116). -/
structure TileCfg where
  m : Nat
  k : Nat
  n : Nat
  wt : Bool
  outf : Bool
  rangeEn : Bool
  wide : Bool
  run : Nat
  afmt : Nat
  wfmt : Nat
  bound : Word
  deriving DecidableEq, Repr, Inhabited

/-- R114–R116: the tile that the three configuration words name, none when they lie outside their limits. -/
def parseTile (shape fmt bound : Word) : Option TileCfg :=
  let t : TileCfg :=
    { m := bits shape 5 0 + 1, k := (bits shape 23 13 + 1) * 32, n := (bits shape 12 6 + 1) * 32
      wt := bit fmt 17, outf := bit fmt 16, rangeEn := bit fmt 15, wide := bit fmt 14, run := bits fmt 13 8 + 1
      afmt := bits fmt 7 4, wfmt := bits fmt 3 0, bound := bound }
  if bits shape 31 24 = 0 ∧ bits fmt 31 18 = 0 ∧ t.m * t.n ≤ 4096 ∧ 1 ≤ t.wfmt ∧ t.wfmt ≤ 9 ∧
      (t.wide ∨ t.wfmt = 9 ∨ t.afmt ∈ [1, 2, 4, 8, 9]) ∧
      (t.rangeEn → bit bound 31 = false ∧ bits bound 30 23 ≠ 255 ∧ bound ≠ 0) then some t else none

/-- R116: whether the tile's path is BF16. -/
def TileCfg.bf16Path (t : TileCfg) : Bool := t.wide || decide (t.afmt = 9) || decide (t.wfmt = 9)

/-- R118: the format of the first attempt. -/
def TileCfg.firstFmt (t : TileCfg) : Nat := if t.bf16Path then 9 else t.afmt

/-- R118: the format of the attempt after attempt `j` (0 or 1) at format `f`. -/
def nextFmt (j f : Nat) : Nat :=
  if j = 0 then (if f = 1 then 2 else if f = 2 then 4 else if f = 4 then 8 else 9) else 9

/-- R136: the offset of the block scales of a BQ weight array. -/
def TileCfg.scaleOff (t : TileCfg) : Nat := up64 (t.k / 32 * t.n * (4 * t.wfmt))
/-- R136: the offset of the second-level factors. -/
def TileCfg.factorOff (t : TileCfg) : Nat := t.scaleOff + up64 (t.k / 32 * t.n)
/-- R136: the size S_W of the weight array. -/
def TileCfg.weightBytes (t : TileCfg) : Nat :=
  if t.wfmt = 9 then up64 (2 * t.k * t.n) else t.factorOff + up64 (ceilDiv t.k 1024 * t.n * 2)
/-- R117: the bytes of the activation source. -/
def TileCfg.actBytes (t : TileCfg) : Nat := 2 * t.m * t.k
/-- R117: the bytes of the output. -/
def TileCfg.outBytes (t : TileCfg) : Nat := t.m * t.n * (if t.outf then 2 else 4)

/-- A 16-bit little-endian value. -/
def half16 (rd : Nat → Byte) (a : Nat) : BitVec 16 := BitVec.ofNat 16 ((rd a).toNat + 256 * (rd (a + 1)).toNat)

/-- R117: activation element (m, k). -/
def TileCfg.act (t : TileCfg) (a : Nat → Byte) (m k : Nat) : Fv := Fv.ofBf16 (half16 a (2 * (m * t.k + k)))

/-- R136: the index of entry (k, n) among `rows` entries along K. -/
def TileCfg.entry (t : TileCfg) (rows k n : Nat) : Nat := if t.wt then n * rows + k else k * t.n + n

/-- R134: the scale byte of the weight block (kb, n). -/
def TileCfg.wScale (t : TileCfg) (w : Nat → Byte) (kb n : Nat) : Nat := (w (t.scaleOff + t.entry (t.k / 32) kb n)).toNat

/-- R132, R133: the code of weight (k, n). -/
def TileCfg.wCode (t : TileCfg) (w : Nat → Byte) (k n : Nat) : Int :=
  codeValue t.wfmt (rawCode w (t.entry (t.k / 32) (k / 32) n * (4 * t.wfmt)) t.wfmt (k % 32))

/-- R135: the second-level factor of group `kg` of column `n`; 1 for BF16 weights (R144). A denormal factor is read as zero of its sign, as a
BF16 weight is (DESIGN CHOICE, log entry 175). -/
def TileCfg.factor (t : TileCfg) (w : Nat → Byte) (kg n : Nat) : Fv :=
  if t.wfmt = 9 then Fv.ofInt 1 0
  else Fv.ofBf16 (half16 w (t.factorOff + 2 * t.entry (ceilDiv t.k 1024) kg n))

/-- R134, R144: the value of weight (k, n) before its factor. -/
def TileCfg.weight (t : TileCfg) (w : Nat → Byte) (k n : Nat) : Fv :=
  if t.wfmt = 9 then Fv.ofBf16 (half16 w (2 * t.entry t.k k n))
  else
    let e := t.wScale w (k / 32) n
    if e = 0 then .zero false else Fv.ofInt (t.wCode w k n) ((e : Int) - 128)

/-- R144: the sum of a group's products in ascending k. -/
def TileCfg.groupSum (t : TileCfg) (a w : Nat → Byte) (m n kg : Nat) : Word :=
  (List.range (min 1024 (t.k - kg * 1024))).foldl
    (fun s i => fadd s (Fv.mul (t.act a m (kg * 1024 + i)) (t.weight w (kg * 1024 + i) n)).toF32) 0

/-- R144: an output element on the BF16 path. -/
def TileCfg.bf16Element (t : TileCfg) (a w : Nat → Byte) (m n : Nat) : Word :=
  (List.range (ceilDiv t.k 1024)).foldl
    (fun s kg => fadd s (Fv.mul (Fv.ofF32 (t.groupSum a w m n kg)) (t.factor w kg n)).toF32) 0

/-- The activation blocks of one row as an attempt at BQ-`f` quantises them (R137). -/
def TileCfg.rowBlocks (t : TileCfg) (a : Nat → Byte) (f m : Nat) : List QBlock :=
  (List.range (t.k / 32)).map (fun kb => quantBlock f ((List.range 32).map (fun i => t.act a m (kb * 32 + i))))

/-- A product of a narrow attempt: its integer and its combined exponent, none where a zero block takes part. -/
abbrev NarrowProduct := Option (Int × Int)

/-- The products of one block pair (R139). -/
def TileCfg.products (t : TileCfg) (w : Nat → Byte) (blk : QBlock) (kb n : Nat) : List NarrowProduct :=
  let ew := t.wScale w kb n
  match blk with
  | .codes ea q =>
    if ew = 0 then List.replicate 32 none
    else (List.range 32).map (fun i => some (q.getD i 0 * t.wCode w (kb * 32 + i) n, ea + ((ew : Int) - 128)))
  | _ => List.replicate 32 none

/-- The smallest combined exponent of a list of products (R139). -/
def minRef (l : List NarrowProduct) : Option Int :=
  l.foldl (fun a p => match a, p with
    | none, some x => some x.2
    | some e, some x => some (min e x.2)
    | e, none => e) none

/-- R141: the narrow adder over one run; none on a saturation. -/
def runSum (ref : Int) : List NarrowProduct → Int → Option Int
  | [], s => some s
  | none :: t, s => runSum ref t s
  | some (p, c) :: t, s =>
    let x := p * ((2 ^ (c - ref).toNat : Nat) : Int)
    if x < -524288 ∨ 524287 < x ∨ s + x < -524288 ∨ 524287 < s + x then none else runSum ref t (s + x)

/-- A list cut into pieces of `n`, with at most `fuel` pieces. -/
def chunks {α : Type} (n : Nat) : Nat → List α → List (List α)
  | 0, _ => []
  | _ + 1, [] => []
  | fuel + 1, l => l.take n :: chunks n fuel (l.drop n)

/-- R142: adds the promoted runs of one group or block to the accumulator entry; none on a saturation. -/
def addRuns (ref : Int) (g : Fv) : List (List NarrowProduct) → Word → Option Word
  | [], acc => some acc
  | r :: t, acc =>
    match runSum ref r 0 with
    | none => none
    | some s => addRuns ref g t (fadd acc (Fv.mul (Fv.ofInt s ref) g).toF32)

/-- R139, R140: the runs of group `kg` of one output element, with the reference exponent of each piece that has its own: the group in a first
attempt, a block in a repeat. -/
def TileCfg.groupRuns (t : TileCfg) (w : Nat → Byte) (first : Bool) (row : List QBlock) (n kg : Nat) : List (Int × List (List NarrowProduct)) :=
  let blocks := (List.range (min 32 (t.k / 32 - kg * 32))).map (fun j => t.products w (row.getD (kg * 32 + j) .zero) (kg * 32 + j) n)
  if first then [((minRef blocks.flatten).getD 0, chunks t.run 1024 blocks.flatten)]
  else blocks.map (fun b => ((minRef b).getD 0, chunks (min t.run 32) 32 b))

/-- R142: one output element of a narrow attempt over the row's quantised blocks; none on a saturation. -/
def TileCfg.narrowElement (t : TileCfg) (w : Nat → Byte) (first : Bool) (row : List QBlock) (n : Nat) : Option Word :=
  (List.range (ceilDiv t.k 1024)).foldl
    (fun acc kg => (t.groupRuns w first row n kg).foldl (fun acc r => acc.bind (addRuns r.1 (t.factor w kg n) r.2)) acc) (some 0)

/-- R137, R146: whether a block cannot be quantised. -/
def unquantised (b : QBlock) : Bool := decide (b = .nonfinite ∨ b = .underflow)

/-- R146, R147: whether a run saturates in a row that holds a block which cannot be quantised: in a group of 1,024 all of whose blocks can be. -/
def TileCfg.groupSaturates (t : TileCfg) (w : Nat → Byte) (first : Bool) (row : List QBlock) : Bool :=
  (List.range (ceilDiv t.k 1024)).any (fun kg => !((row.drop (kg * 32)).take 32).any unquantised &&
    (List.range t.n).any (fun n => (t.groupRuns w first row n kg).any (fun r => r.2.any (fun p => (runSum r.1 p 0).isNone))))

/-- The kinds of trouble (R146). -/
inductive Trouble where
  | nonfinite | underflow | saturation | range
  deriving DecidableEq, Repr, Inhabited

/-- R119, R150: whether a converted output element raises the range alarm. -/
def TileCfg.alarm (t : TileCfg) (v : Fv) : Bool :=
  t.rangeEn && match v with
    | .nan => true
    | .inf _ => true
    | .zero _ => false
    | .fin _ m e => Fv.lt (Fv.ofF32 t.bound) (.fin false m e)

/-- R142: an accumulator entry as the output holds it, its bytes and its value. -/
def TileCfg.convert (t : TileCfg) (acc : Word) : List Byte × Fv :=
  if t.outf then let h := bf16OfF32 acc; (leBytes h.toNat 2, Fv.ofBf16 h) else (leBytes acc.toNat 4, Fv.ofF32 acc)

/-- What an attempt comes to: the kinds of trouble that its inputs and configuration contain, or the output's bytes and
whether a range alarm is counted (R147, R150). -/
inductive Attempt where
  | trouble (kinds : List Trouble)
  | result (bytes : List Byte) (alarm : Bool)
  deriving DecidableEq, Repr, Inhabited

/-- R144: the accumulator entries that an attempt at BF16 fills. -/
def TileCfg.bf16Sums (t : TileCfg) (a w : Nat → Byte) : List Word :=
  (List.range t.m).flatMap (fun m => (List.range t.n).map (t.bf16Element a w m))

/-- R119: an attempt at BF16 always writes its result. -/
def TileCfg.bf16Attempt (t : TileCfg) (a w : Nat → Byte) : Attempt :=
  let out := (t.bf16Sums a w).map t.convert
  .result (out.flatMap Prod.fst) (out.any (fun x => t.alarm x.2))

/-- R142: the accumulator entries that a narrow attempt at BQ-`f` fills, none where a run saturates. A row that holds a block which cannot be
quantised completes no element. -/
def TileCfg.narrowSums (t : TileCfg) (a w : Nat → Byte) (first : Bool) (f : Nat) : List (Option Word) :=
  ((List.range t.m).map (t.rowBlocks a f)).flatMap (fun row =>
    if row.any unquantised then [] else (List.range t.n).map (t.narrowElement w first row))

/-- R146, R147: a narrow attempt at BQ-`f`. A group of 1,024 that holds a block which cannot be quantised forms no runs (log entry 21). -/
def TileCfg.narrowAttempt (t : TileCfg) (a w : Nat → Byte) (first : Bool) (f : Nat) : Attempt :=
  let rows := (List.range t.m).map (t.rowBlocks a f)
  let elems := (t.narrowSums a w first f).map (fun x => x.map t.convert)
  let kinds :=
    (if rows.any (·.any (fun b => decide (b = .nonfinite))) then [Trouble.nonfinite] else []) ++
    (if rows.any (·.any (fun b => decide (b = .underflow))) then [Trouble.underflow] else []) ++
    (if elems.any Option.isNone || rows.any (fun row => row.any unquantised && t.groupSaturates w first row) then [Trouble.saturation]
      else []) ++
    (if elems.any (fun x => match x with | some y => t.alarm y.2 | none => false) then [Trouble.range] else [])
  if kinds = [] then .result (elems.flatMap (fun x => (x.map Prod.fst).getD [])) false else .trouble kinds

/-- R71, R142, R144: what attempt `j` at format `f` leaves in the accumulator array, a saturated entry aside. -/
def TileCfg.sums (t : TileCfg) (a w : Nat → Byte) (j f : Nat) : List Word :=
  if f = 9 then t.bf16Sums a w else (t.narrowSums a w (j == 0) f).map (fun x => x.getD 0)

/-- R118: attempt `j` of the tile at format `f`. -/
def TileCfg.attempt (t : TileCfg) (a w : Nat → Byte) (j f : Nat) : Attempt :=
  if f = 9 then t.bf16Attempt a w else t.narrowAttempt a w (j == 0) f

/-- R148: the space that an attempt at format `f` needs in the widen reserve. -/
def TileCfg.reserveBytes (t : TileCfg) (f : Nat) : Nat :=
  if f = 9 then up64 (2 * t.m * t.k) else up64 (t.m * t.k * f / 8) + up64 (t.m * t.k / 32)

/-- R148: a BF16 value with a denormal read as zero of its sign; nothing else changes. -/
def noDenormal (h : BitVec 16) : BitVec 16 := if h &&& 0x7F80#16 = 0 then h &&& 0x8000#16 else h

/-- R148, R136: the activation operand that a repeat at format `f` places in the widen reserve. -/
def TileCfg.reserveOperand (t : TileCfg) (a : Nat → Byte) (f : Nat) : List Byte :=
  if f = 9 then
    (List.range (t.m * t.k)).flatMap (fun i => leBytes (noDenormal (half16 a (2 * i))).toNat 2)
  else
    let bl := ((List.range t.m).flatMap (t.rowBlocks a f)).map (blockBytes f)
    let pay := bl.flatMap Prod.snd
    pay ++ List.replicate (up64 pay.length - pay.length) 0 ++ bl.map Prod.fst

/-- R126: VQNT's scales and payload for the two blocks of a vector register's lanes. -/
def quantLanes (n : Nat) (lanes : List Word) : List Byte × List Byte :=
  let b := (chunks 32 2 (lanes.map Fv.ofF32)).map (fun x => blockBytes n (quantBlock n x))
  (b.map Prod.fst, b.flatMap Prod.snd)

end Sys2Proof.Machine
end

