-- ==== Sys2Proof/Machine/State.lean ====
section
/-! DEFINITION. The state of the module as plain data, the reasons a step can stop, and the state right after reset. -/

namespace Sys2Proof.Machine

-- programs as they are resident (R35, R36, R46, R48, R525)

/-- R48: one record of a core's flow table. -/
structure FlowRec where
  flow : Nat
  recv : Bool
  cond : Bool
  addr : Nat
  len : Nat
  deriving DecidableEq, Repr, Inhabited

/-- R78, R525: one declared window. -/
structure Window where
  base : Nat
  size : Nat
  rw : Bool
  deriving DecidableEq, Repr, Inhabited

/-- R525: what one epoch's section holds for one logical core. A core that a program does not list has one bundle that holds END,
no flows and no windows. `reserved` lists the bundles that hold a reserved encoding (R102). -/
structure CoreBlock where
  nbundle : Nat := 1
  flows : List FlowRec := []
  windows : List Window := []
  rbase : Nat := 0
  rsize : Nat := 0
  reserved : List Nat := []
  deriving DecidableEq, Repr, Inhabited

/-- R46: one run of owned slots. -/
structure SlotRun where
  first : Nat
  count : Nat
  cond : Bool
  src : Nat
  flow : Nat
  deriving DecidableEq, Repr, Inhabited

/-- One epoch of a resident program: its cycle hint, the blocks of the cores that have any work, and the slot tables by
logical link number. -/
structure Epoch where
  hint : Nat := 0
  cores : List (Nat × CoreBlock) := []
  links : List (Nat × List SlotRun) := []
  deriving DecidableEq, Repr, Inhabited

/-- A program image that passed the load-time checks of R56. -/
structure Program where
  capacity : Nat := 0
  hints : Bool := false
  modules : Nat := 1
  epochs : List Epoch := []
  deriving DecidableEq, Repr, Inhabited

-- cores (R71–R98, R110–R130)

/-- Where a core stands (R93). `ending` is a core at END that waits for its dynamic requests (R112). -/
inductive CoreSt where
  | run
  | waitFlow (gd : GReg) (flow : Nat)
  | waitDyn (sel : DwaitSel)
  | ending
  | ended
  | arrived
  | blocked
  deriving DecidableEq, Repr, Inhabited

/-- A tile in progress (R118): its configuration words, addresses, the attempt in progress and that attempt's format. -/
structure Tile where
  shape : Word
  fmt : Word
  bound : Word
  out : Nat
  act : Nat
  wgt : Nat
  attempt : Nat
  af : Nat
  deriving DecidableEq, Repr, Inhabited

/-- One line that an XRD waits for (R128): its store line and where it lands. -/
structure LineWait where
  line : Nat
  dst : Nat
  queued : Bool
  deriving DecidableEq, Repr, Inhabited

/-- An outstanding dynamic request (R86, R130). -/
structure DynReq where
  tag : Nat
  write : Bool
  dst : Nat
  len : Nat
  deriving DecidableEq, Repr, Inhabited

/-- The state of one logical core within a step (R71, R73, R113, R98). `acc` is the accumulator array; `damage` lists the 8 B words of the
scratchpad whose check bits no longer fit, true where the error is uncorrectable (R77); `slot` is the first slot of the bundle that has not
taken effect, in the order of R100, and `stalled` says that this very slot waits (R72). -/
structure Core where
  st : CoreSt := .run
  pc : Nat := 0
  g : List (Nat × Word) := []
  v : List (Nat × Word) := []
  scratch : List (Nat × Byte) := []
  tshape : Word := 0
  tfmt : Word := 0
  tbound : Word := 0
  sent : List Nat := []
  cancelled : List Nat := []
  landed : List (Nat × Nat) := []
  readable : List Nat := []
  tile : Option Tile := none
  reads : List LineWait := []
  dyn : List DynReq := []
  issued : Nat := 0
  lines : Nat := 0
  requests : Nat := 0
  acc : List Word := []
  damage : List (Nat × Bool) := []
  slot : Nat := 0
  stalled : Bool := false
  deriving DecidableEq, Repr, Inhabited

/-- What holds for every core at once: no image runs, a run phase, an aborted step (HELD), or gated clocks (R93). -/
inductive CoresMode where
  | idle | run | held
  deriving DecidableEq, Repr, Inhabited

-- links, packets and the Chamois tree

/-- One scheduled slot on its way (R43, R50): its flow, its number within the flow, its data. -/
structure SlotUnit where
  flow : Nat
  k : Nat
  data : List Byte
  deriving DecidableEq, Repr, Inhabited

/-- A unit under way on a physical link (R166, R167): a scheduled slot on hop `hop` of its logical link, or dynamic unit `k` of a packet. -/
inductive LinkUnit where
  | slot (link hop : Nat) (u : SlotUnit)
  | dyn (packet k : Nat)
  deriving DecidableEq, Repr, Inhabited

/-- One logical link in the running epoch (R44, R50, R64): the owned slots that it has issued or skipped, the slots staged at its receiving
end, the flows known from outside to be cancelled (R52), and, while it is a tunnel, the slots staged at the routers that it crosses, each
with the number of hops it has made. -/
structure Link where
  pos : Nat := 0
  staged : List SlotUnit := []
  marks : List Nat := []
  tunnel : List (Nat × SlotUnit) := []
  deriving DecidableEq, Repr, Inhabited

/-- One direction of a physical link (R44, R64, R166, R167, R191): the scheduled slots since the last dynamic unit, the units under way
(the FIFO of a seam bridge, the replay buffer of any other link), the failures of the oldest unit that may fail, what it issued in this
epoch, and whether the last scheduled slot belonged to a tunnel. -/
structure Way where
  sinceDyn : Nat := 0
  inflight : List LinkUnit := []
  fails : Nat := 0
  owned : Nat := 0
  dyn : Nat := 0
  lastTunnel : Bool := false
  deriving DecidableEq, Repr, Inhabited

/-- Where a dynamic packet stands (R173–R176): in its source berth, in a ring buffer of a berth's port (0 = W, 1 = N, 2 = E,
3 = S: the side it came in from), or in a delivery buffer that it reached on that side. -/
inductive PacketAt where
  | source (b : Nat)
  | ring (b port : Nat)
  | delivery (b port : Nat)
  deriving DecidableEq, Repr, Inhabited

/-- Where a packet begins in its source berth: at a logical core of the berth, or at a port 4 to 9 of its router (R159). -/
inductive PacketFrom where
  | core (k : Nat)
  | port (n : Nat)
  deriving DecidableEq, Repr, Inhabited

/-- A dynamic packet in the module: where it began and stands, the physical berth to which it is routed (R172), the logical core that
asked, how many of its units have crossed each physical link since it last stood whole in a buffer (R174), and the store lines that a read has
collected at its unit. -/
structure Packet where
  id : Nat
  h : PacketHeader
  payload : List Byte
  origin : PacketFrom
  loc : PacketAt
  target : Nat
  core : Option Nat
  crossed : List (Nat × Nat) := []
  got : List (Nat × List Byte) := []
  deriving DecidableEq, Repr, Inhabited

/-- R183: a node's own copy of STAMP beside STAMP itself: by how much it runs ahead or behind, and for how many PCLK it still holds. -/
structure NodeClock where
  skew : Int := 0
  hold : Nat := 0
  deriving DecidableEq, Repr, Inhabited

/-- R185, R499: what the table area was last written from for one physical berth. -/
structure TableRow where
  role : Role
  logical : Nat
  removed : List (Nat × Nat)
  skips : Word
  deriving DecidableEq, Repr, Inhabited

-- store dies

/-- R84, R85: a merge entry, open for joins or not; an unmerged read is an entry of one reader that was never open. `data` is what the line
held when a write that arrived later changed it (R198). -/
structure MergeEntry where
  line : Nat
  opened : Bool
  readers : List StoreReader
  data : Option (List Byte) := none
  deriving DecidableEq, Repr, Inhabited

/-- R10, R20, R184, R410: one physical berth. `trained` says that its BIST and training have ended; a wake that waits for its zone has made
`wakeWait` re-checks. `deadPages` names the physical cores whose page logic is dead, `badBypass` the rows of which a bypass failed (R90).
By bank: `debts` the refreshes that are due, less those run ahead, plus 8 (R201), `refreshed` the refreshes of the present refresh window (R200),
`targeted` the banks that have had a targeted refresh since their last due one (R202), `spareRows` the spare rows used (R206). By bank × 2,048 +
row: `activations` the activations in the present window (R202), `rowErrors` the errors of a row with the STAMP of each, true where the line could
not be corrected (R206). `badLines` are lines that R205 has yet to repair, `holdSignal` says that firmware has been signalled of a held line
(R203). -/
structure BerthSt where
  role : Role := .spare
  logical : Nat := 127
  storeOk : Bool := false
  gated : Bool := true
  trained : Bool := false
  removed : List (Nat × Nat) := []
  deadPages : List Nat := []
  badBypass : List Nat := []
  entries : List MergeEntry := []
  held : List Nat := []
  refill : List (Nat × List Byte) := []
  debts : List (Nat × Nat) := []
  refreshed : List (Nat × Nat) := []
  activations : List (Nat × Nat) := []
  targeted : List Nat := []
  rowErrors : List (Nat × Nat × Bool) := []
  badLines : List Nat := []
  holdSignal : Bool := false
  spareRows : List (Nat × Nat) := []
  store : List (Nat × Byte) := []
  waking : Bool := false
  wakeWait : Option Nat := none
  ldiv : Nat := 16
  deriving DecidableEq, Repr, Inhabited

-- the slower tier

/-- A device request waiting at a stack (R221), by the packet that carries it. -/
structure StackReq where
  packet : Nat
  write : Bool
  offset : Nat
  len : Nat
  data : List Byte
  deriving DecidableEq, Repr, Inhabited

/-- R317: one of the 8 Lighter buffers of a KV pager: bytes on their way to a DPA, or to a port's host memory. -/
inductive LighterBuf where
  | toTier (dpa : Nat) (data : List Byte)
  | toHost (key : Nat) (data : List Byte)
  deriving DecidableEq, Repr, Inhabited

/-- One memory stack: whether training or operation (`channelBad`) has found it failed, its waiting device requests, its retired pages, its waiting pager requests, its waiting insertions (R279)
and its pending LOC switches (R275): `demotions` pairs an index line (logical berth × 2^26 + line) with 0 drop, 1 demotion being copied,
2 demotion copied, 3 page being copied back, 4 + 8 × frame page copied back into a frame; `switches` counts the changes since the last
commit. `badUnits` are offsets of units and retired pages whose data is yet to be restored (R205, R216), `lighter` the Lighter buffers in use,
oldest first (R317). -/
structure StackSt where
  trained : Bool := false
  failed : Bool := false
  channelBad : Bool := false
  reqs : List StackReq := []
  pager : List Nat := []
  retired : List Nat := []
  softRepaired : List Nat := []
  halfRate : Bool := false
  inserts : List Nat := []
  demotions : List (Nat × Nat) := []
  switches : Nat := 0
  badUnits : List Nat := []
  lighter : List LighterBuf := []
  deriving DecidableEq, Repr, Inhabited

-- streams

/-- R232. -/
inductive StreamState where
  | free | active | shipping | held
  deriving DecidableEq, Repr, Inhabited

/-- R241–R245: a shipment that a stream receives. -/
structure ShipIn where
  source : Nat
  length : Nat
  left : Nat
  total : Nat
  accepted : List Nat
  deriving DecidableEq, Repr, Inhabited

/-- R243–R245: a shipment of which a stream is the source. `refused` says that the destination has refused record 0 and it has not been sent again
since. -/
structure ShipOut where
  dest : Nat
  dstream : Nat
  length : Nat
  total : Nat
  next : Nat
  unacked : List Nat
  left : Nat
  retries : Nat
  refused : Bool := false
  deriving DecidableEq, Repr, Inhabited

/-- One stream's entry (R232, R252), its configuration in effect (R285, R302) and its sampler state (R293–R299). -/
structure Stream where
  state : StreamState := .free
  image : Nat := 0
  port : Nat := 0
  kvlen : Nat := 0
  queue : List Word := []
  carry : Bool := false
  gen : Nat := 0
  holds : List Nat := []
  indexPending : Bool := false
  readySince : Nat := 0
  hiwrit : Nat := 0
  tokens : List Word := []
  chain : Option (List Nat) := some []
  checkPos : List (Nat × Nat) := []
  shipIn : Option ShipIn := none
  shipOut : Option ShipOut := none
  drafts : List Word := []
  grammar : Nat := 0
  gramReset : Bool := false
  counts : List (Nat × Nat) := []
  overflow : Nat := 0
  clearCounts : Bool := false
  penSince : Bool := false
  kvcfg : Word := 0x00A00840
  pinFrom : Nat := 0
  pinTo : Nat := 0
  scfg : Word := 0
  stemp : Word := 0
  spen : Word := 0x3F800000
  sdraft : Word := 0x00000400
  key : Dword := 0
  seq : Dword := 0
  deriving DecidableEq, Repr, Inhabited

/-- R235: a request record as a ring delivered it. -/
abbrev RequestRec := List Word

/-- R237: an output record before STAMP and OWN are written. -/
structure OutRec where
  stream : Nat
  status : Nat
  last : Bool
  position : Nat
  token : Word
  accepted : Nat
  stamp : Dword
  step : Nat
  deriving DecidableEq, Repr, Inhabited

/-- R291: what a sampling record says of one stream: its values and the masks of its chosen positions (bitmaps, bit t for
token t; an empty list for no mask). -/
structure SampleRec where
  tempRcp : Word
  topk : Nat
  topp : Nat
  rep : Word
  repRcp : Word
  freq : Word
  pen : Bool
  counts : List (Nat × Nat)
  overflow : Nat
  key : Dword
  seq : Dword
  gbase : Nat
  masks : List Nat
  deriving DecidableEq, Repr, Inhabited

/-- R230, R227: one batch entry with the snapshot of its stream. `gram` names the grammar image whose masks the entry takes and the automaton
state, as they stood at the choose phase, and `moved` says that the stream's grammar slot has been bound anew since (R293, R294). -/
structure BatchEntry where
  stream : Nat
  nin : Nat
  ndraft : Nat
  sample : Bool
  firstpos : Nat
  base : Nat
  tokens : List Word
  snapKv : Nat
  snapQueue : List Word
  snapCarry : Bool
  snapGen : Nat
  ring : Bool
  attn : List Word
  srec : Option SampleRec
  gram : Option (Nat × Nat) := none
  moved : Bool := false
  deriving DecidableEq, Repr, Inhabited

/-- R227–R229: one step. `copy` is the layer entry of a copy step (R330). -/
structure Step where
  id : Nat
  image : Nat
  prog : Nat
  copy : Option Nat
  entries : List BatchEntry
  prepared : Bool
  deriving DecidableEq, Repr, Inhabited

/-- The step sequencer (R226–R234, R227). `finished` says that the last epoch's barrier has released, `heldEpoch` in which
epoch the step stood when it was aborted (R94). -/
structure Seq where
  next : Option Step := none
  cur : Option Step := none
  running : Bool := false
  finished : Bool := false
  epoch : Nat := 0
  heldEpoch : Nat := 0
  stepId : Nat := 0
  replay : Nat := 0
  lastImage : Nat := 0
  lastStreams : Nat := 0
  lastPositions : Nat := 0
  lastProg : Nat := 0
  deriving DecidableEq, Repr, Inhabited

/-- R277: a prefix node as the pagers know it: its DPA, the KV heads, layers and modules of its image. -/
structure NodeSt where
  dpa : Nat
  heads : Nat
  layers : Nat
  modules : Nat
  deriving DecidableEq, Repr, Inhabited

-- model residency

/-- R313. -/
inductive SlotSt where
  | empty | loading | ready | staging | staged | swapping | failed
  deriving DecidableEq, Repr, Inhabited

/-- R310: a shard's entry in a manifest. -/
structure Shard where
  layer : Nat
  berth : Nat
  streamed : Bool
  module : Nat
  place : Nat
  len : Nat
  digest : List Byte
  deriving DecidableEq, Repr, Inhabited

/-- R309, R310: a verified manifest. -/
structure Manifest where
  modelId : Dword
  vocabId : Dword
  kvlayout : List Byte
  vocab : Nat
  layers : List Word
  kvheads : Nat
  group : Nat
  modules : Nat
  nprog : Nat
  wbase : Nat
  wlines : Nat
  dbase : Nat
  dbytes : Nat
  slices : List (Nat × Nat)
  progs : List (Nat × Nat × Nat × List Byte)
  shards : List Shard
  digest : List Byte
  keySlot : Nat
  deriving DecidableEq, Repr, Inhabited

/-- R313–R332: one image slot. `mixed` says that its weights are a mixture (FAILED), also while a replacement is staged; `rehashBad` and
`progBad` name the shards and programs in which the re-hash found a mismatch since the image's last commit, `progLost` the programs that wait for the
host since, `passClean` the berths, and 80 for the
device region, whose pass since the last complete one was clean. -/
structure ImageSt where
  st : SlotSt := .empty
  mixed : Bool := false
  manifest : Option Manifest := none
  progs : List (Nat × Program) := []
  present : List Nat := []
  stagedManifest : Option Manifest := none
  stagedProgs : List (Nat × Program) := []
  stagedPresent : List Nat := []
  stageBase : Nat := 0
  bkpEn : Bool := false
  bkpBase : Nat := 0
  result : Nat := 0
  copyNext : Nat := 0
  copyTurn : Bool := false
  swapAsked : Bool := false
  unloadAsked : Bool := false
  abandonAsked : Bool := false
  rehashBad : List Nat := []
  progBad : List Nat := []
  progLost : List Nat := []
  passClean : List Nat := []
  good : Dword := 0
  deriving DecidableEq, Repr, Inhabited

/-- R317, R323–R325: where a shard goes: whether to the staging region, its index and its entry. -/
structure ShardPlace where
  slot : Nat
  staging : Bool
  index : Nat
  shard : Shard
  deriving DecidableEq, Repr, Inhabited

/-- R316, R319–R321: the descriptor that a Lighter channel processes and how far its transfer has come: the address at which it was read, in the
device part or in host memory, and the place to which its shard goes. `renewed` says that the channel has been enabled anew since. -/
structure Job where
  words : List Word
  short : Bool
  kind : Nat
  started : Bool
  moved : Nat
  len : Nat
  code : Nat
  sum : List Byte
  data : List Byte
  finished : Bool
  addr : Nat := 0
  inTier : Bool := false
  place : Option ShardPlace := none
  renewed : Bool := false
  deriving DecidableEq, Repr, Inhabited

/-- R315, R334: one Lighter channel. -/
structure ChannelSt where
  next : Nat := 0
  stopped : Bool := false
  job : Option Job := none
  deriving DecidableEq, Repr, Inhabited

-- links between modules

/-- R344. -/
inductive ZState where
  | down | listen | train | check | up | miscabled
  deriving DecidableEq, Repr, Inhabited

/-- R343: a control message that leaves by a port. -/
inductive CtlMsg where
  | chamois (m : SliceMsg)
  | ack (seq : Nat)
  | credit (response gen : Bool) (n : Nat)
  | goingDown (addr : Nat)
  | flip (g : Nat)
  | drain (g count : Nat) (arrival : Bool)
  | release (g : Nat)
  | ident (p : PartnerIdent)
  deriving DecidableEq, Repr, Inhabited

/-- R336–R368: one optical port. `unacked` counts flits in the replay buffer from sequence number `base` on; `held` lists the packets
that the link has not fully acknowledged, each with the number of flits of the buffer up to its last one; `credits` the free buffers of the
partner by class and generation (class + 2 × generation); `rseq` is the sequence number of the flit expected next, `flitFails` how often it has
failed, `waiting` the control messages that wait for an ACK; `remap` is the port that carries its scheduled slots after a loss (R364). -/
structure ZPort where
  st : ZState := .down
  role : Nat := 15
  index : Nat := 0
  partner : Option PartnerIdent := none
  base : Nat := 0
  unacked : Nat := 0
  rseq : Nat := 0
  waiting : List CtlMsg := []
  flitFails : Nat := 0
  held : List (Nat × Nat) := []
  credits : List (Nat × Nat) := []
  retired : Option Nat := none
  remap : Option Nat := none
  deriving DecidableEq, Repr, Inhabited

/-- R361: a generation change as this module sees it. `zeroRounds` counts the DRAIN rounds in a row that reported nothing; `reports` holds what
the children have reported in this round, by role; `arrived` says that a packet of the old generation arrived since the last round, here or
below. -/
structure GenSt where
  gennum : Nat := 0
  oldFree : Bool := true
  zeroRounds : Nat := 0
  reports : List (Nat × Nat) := []
  arrived : Bool := false
  deriving DecidableEq, Repr, Inhabited

-- host ports

/-- R370: what a mailbox command answered. -/
inductive MboxResp where
  | none
  | busy
  | identify (bytes : Nat) (payload : List Byte)
  | events (records : List (Nat × Nat × Dword))
  | done
  | health (payload : List Byte)
  | alert (config : List Byte)
  deriving DecidableEq, Repr, Inhabited

/-- R376: a General Media Event record. -/
structure EventRec where
  handle : Nat
  dpa : Nat
  stamp : Dword
  deriving DecidableEq, Repr, Inhabited

/-- R393: the state of a port's link. -/
inductive LinkState where
  | reset | training | l0 | down
  deriving DecidableEq, Repr, Inhabited

/-- R370–R395: one host port. `pageReady` says that the port has left reset since the module's last reset (R524), `downSince` is the STAMP at
which its link last left L0, `leftAt` the STAMP at which the port last left reset since T0 (R372). `locked` is a decoder locked on commit (R370),
`commitError` the Commit Error of the last commit (R374). `rdata` is the data of the last CXL.mem read that the port answered, none when it refused it (R376). -/
structure Port where
  link : LinkState := .reset
  width : Nat := 0
  speed : Nat := 0
  cfgReady : Bool := false
  leftReset : Bool := false
  pageReady : Bool := false
  downSince : Dword := 0
  memActive : Bool := false
  leftAt : Option Dword := none
  decoder : Bool := false
  locked : Bool := false
  commitError : Bool := false
  taken : Bool := false
  takenFrom : Bool := false
  rangeMoved : Bool := false
  rqNext : Nat := 0
  outNext : Nat := 0
  rqFresh : Bool := true
  outFresh : Bool := true
  pend : List OutRec := []
  requests : List RequestRec := []
  unsignalled : Nat := 0
  events : List EventRec := []
  eventNext : Nat := 1
  alertCfg : List Byte := []
  resp : MboxResp := .none
  rdata : Option (List Byte) := none
  aer : Nat := 0
  deriving DecidableEq, Repr, Inhabited

-- basins, clocks, coolant

/-- R400, R406, R407: one power basin beside the registers of its page. -/
structure BasinSt where
  regulating : Bool := false
  latched : Bool := false
  phasesLost : List Nat := []
  inpkg : Bool := false
  deriving DecidableEq, Repr, Inhabited

/-- R415: a step that the power controller took: its half, the request before and after it, the power when it was requested and the drop
recorded once it took effect. -/
structure PowerStep where
  half : Half
  before : Nat
  div : Nat
  power : Nat
  drop : Option Nat
  deriving DecidableEq, Repr, Inhabited

/-- R414, R425: the divisor control of one half. `power` and `thermal` are requested divisors, `zones` the divisors requested by
zone overcurrent, `phaseCap` the basins that lost a second phase; `pace` counts the power samples since the last power step. -/
structure HalfSt where
  now : Nat := 4
  power : Nat := 4
  thermal : Nat := 4
  zones : List (Nat × Nat) := []
  phaseCap : List Nat := []
  pace : Nat := 10
  deriving DecidableEq, Repr, Inhabited

/-- The phases of coolant handling (R433–R436, R442); `waitDrop` waits for the tray to remove the rail (R399). -/
inductive CoolSt where
  | normal | orderly | sudden | waitDrop | dropped
  deriving DecidableEq, Repr, Inhabited

/-- R427–R436: what the module holds of the tray's readings: flow in 0.1 L/min, temperatures in 0.125 °C. `recent` holds the flow
readings of the last 200 ms, newest first; `invalid` to `good28` count readings in a row, one every 10 ms. `low`, `capped` and `inletOut`
say which levels of R433 and R434 hold, `flowStop` and `inletStop` why an orderly stop holds, `gated` that it has gated the berths. -/
structure Cool where
  st : CoolSt := .normal
  alertPin : Bool := false
  flow : Nat := 0
  inlet : Int := 0
  outlet : Int := 0
  recent : List Nat := []
  invalid : Nat := 0
  below18 : Nat := 0
  hot38 : Nat := 0
  flowBack : Nat := 0
  inletBack : Nat := 0
  good28 : Nat := 0
  linkLost : Bool := false
  low : Bool := false
  capped : Bool := false
  inletOut : Bool := false
  flowStop : Bool := false
  inletStop : Bool := false
  gated : Bool := false
  t60 : Option Int := none
  cap : Nat := 2200
  deriving DecidableEq, Repr, Inhabited

/-- R429: one hot-spot site: whether its pair is faulty, its two readings in units of 0.125 °C. -/
structure SiteSt where
  faulty : Bool := false
  diode : BitVec 12 := 0
  ro : BitVec 12 := 0
  deriving DecidableEq, Repr, Inhabited

-- faults and security

/-- R446. -/
inductive FltPhase where
  | idle | abort | quiesce | repair | restore | coolant | reset
  deriving DecidableEq, Repr, Inhabited

/-- R443–R449: an error that the fault aggregator handles: its scope (1 step to 5 module), the page's type and instance, the
ERR_STS bit. -/
structure FltErr where
  scope : Nat
  type : Nat
  inst : Nat
  bit : Nat
  deriving DecidableEq, Repr, Inhabited

/-- R446–R466: the fault aggregator. `msgs` are FAULT messages on their way; `repairs` are row repairs (scope 3, instance berth × 156 +
physical core) and berth repairs (scope 4, instance berth) that are due; `rowTest` names rows whose spare core is under test (berth × 12 +
row); `migrating` the logical berths whose store die is being copied or rebuilt; `exec` says that a half has enough berths; `aborted` that
an aborted step with streams has not committed since; `sudden` that the step was aborted by a sudden coolant stop; `fatal` that a
module-fatal error was declared since the module was last ready. -/
structure Flt where
  phase : FltPhase := .idle
  cur : Option FltErr := none
  next : Option FltErr := none
  ovf : Nat := 0
  msgs : List FltErr := []
  repairs : List FltErr := []
  rowTest : List Nat := []
  migrating : List Nat := []
  exec : Bool := true
  aborted : Bool := false
  sudden : Bool := false
  fatal : Bool := false
  deriving DecidableEq, Repr, Inhabited

/-- R468–R484: the SECU block beside the registers of its page. `running` is the copy that runs (true for B); `waiting` the nonce of the
request being served; `bottom` counts the bottom trees of the identity key that have been generated; `noSign` says that debug level 2 was
reached since the last cold power-up (R481). -/
structure Secu where
  sealed : Bool := false
  debug : Nat := 0
  noSign : Bool := false
  nonce : BitVec 128 := 0
  running : Option Bool := none
  svn : Nat := 0
  fwDigest : List Byte := []
  blockNext : Nat := 0
  blockEnd : Nat := 0
  reserving : Bool := false
  bottom : Nat := 0
  building : Bool := false
  waiting : Option (List Byte) := none
  report : List Byte := []
  deriving DecidableEq, Repr, Inhabited

/-- The fuses (R1, R20, R403, R469, R471, R498). -/
structure Fuses where
  stepping : Stepping := .b0
  serial : BitVec 128 := 0
  vtrim : List (Nat × Nat) := []
  repair : List (Nat × Nat) := []
  rollback : Nat := 0
  fwRoot : BitVec 256 := 0
  dbgRoot : BitVec 256 := 0
  deriving DecidableEq, Repr, Inhabited

/-- What flash keeps across resets (R216, R470, R475, R476): the two firmware copies and the selector, the retired pages and soft
repairs of each stack (stack × 2^25 + page), NEXT_FREE, the identity public key and Icbagen's certificate of it, and the standing image
(R384): its manifest, programs and shards. -/
structure Flash where
  copyA : List Byte := []
  copyB : List Byte := []
  preferB : Bool := false
  retired : List Nat := []
  softRepaired : List Nat := []
  nextFree : Nat := 0
  identity : List Byte := []
  cert : List Byte := []
  standManifest : List Byte := []
  standProgs : List (List Byte) := []
  standShards : List (List Byte) := []
  deriving DecidableEq, Repr, Inhabited

/-- A stage of the first second (R498). -/
inductive Stage where
  | firmware | basins | bist | clearing | optical | ready | holdClock | recovery
  deriving DecidableEq, Repr, Inhabited

/-- The whole module. `frames` gives the use of every allocated frame of the KV pools, `columns` the lines of every index column by
logical berth × 2^26 + first line (R259, R260), `nodes` the prefix nodes, `copies` the places of
page and ring copies in the device part, `backups` and `ringCopies` the copies that R272 keeps, by stream, head, page and layer;
`tableArea` is what the distance table and the berth map were last written from (R185, R499); `treeMoved` names the Chamois nodes
whose duplicate serves (R178), `nodeClocks` the copies of STAMP by berth that are not STAMP itself; `uncabled` names the ports
without a cable (R344, R350; log entry 197), `sliceFailed` says that paths or a module of the slice are lost for good (R364, R365); `mctpBusy` says that the last MCTP command was answered BUSY (R390); `unav` counts PCLK of unavailable time that FLT_UNAV does not yet show. `regs` holds every register field that has a home of its own in the register pages, keyed by its BAR0
address, or by address + (i + 1) × 2^28 for the copy that a selector register shows; an unlisted register holds its
reset value. -/
structure State where
  pending : List Instr := []
  stamp : Dword := 0
  /-- Free values taken so far (the model's own field). -/
  draws : Nat := 0
  /-- The free values taken when the counters of cycles last began at zero (the model's own field). -/
  countFrom : Nat := 0
  fuses : Fuses := {}
  flash : Flash := {}
  straps : BitVec 4 := 0
  mctpBusy : Bool := false
  powered : Bool := false
  stage : Stage := .firmware
  tms : Nat := 0
  fwStarted : Bool := false
  refLost : Bool := false
  plateLost : Bool := false
  resetPending : Bool := false
  alert : Bool := false
  dgen : Nat := 0
  dgenBusy : Bool := true
  tableArea : List TableRow := []
  regs : List (Nat × Word) := []
  berths : List (Nat × BerthSt) := []
  cores : List (Nat × Core) := []
  coresMode : CoresMode := .idle
  /-- The CORE pages that hold a bounds capture which ERR_STS.BOUNDS has not been cleared since (R81). -/
  boundsHeld : List Nat := []
  links : List (Nat × Link) := []
  ways : List (Nat × Way) := []
  packets : List Packet := []
  packetNext : Nat := 0
  delivered : List Packet := []
  passed : List ChNode := []
  oneLeft : List ChNode := []
  treeMoved : List ChNode := []
  barrierTimer : Bool := false
  lateSent : Option Nat := none
  timeMsg : Option Dword := none
  nodeClocks : List (Nat × NodeClock) := []
  sliceIn : List SliceMsg := []
  tier : List (Nat × StackSt) := []
  hbm : List (Nat × Byte) := []
  streams : List (Nat × Stream) := []
  seq : Seq := {}
  images : List (Nat × ImageSt) := []
  chans : List (Nat × ChannelSt) := []
  frames : List (Nat × Nat) := []
  columns : List (Nat × Nat) := []
  nodes : List NodeSt := []
  copies : List Nat := []
  backups : List (Nat × Nat) := []
  ringCopies : List (Nat × Nat) := []
  grammarChecks : List Nat := []
  zports : List (Nat × ZPort) := []
  uncabled : List Nat := [0, 11, 47, 72, 83]
  sliceFailed : Bool := false
  portOut : List (Nat × CtlMsg) := []
  gen : GenSt := {}
  forwarding : Bool := false
  portA : Port := {}
  portB : Port := {}
  msix : List (Nat × Nat) := []
  hostMem : List (Nat × Byte) := []
  basins : List (Nat × BasinSt) := []
  west : HalfSt := {}
  east : HalfSt := {}
  powerSteps : List PowerStep := []
  cool : Cool := {}
  sites : List (Nat × SiteSt) := []
  heartbeats : Nat := 0
  unav : Nat := 0
  flt : Flt := {}
  secu : Secu := {}
  deriving DecidableEq, Repr, Inhabited

/-- The state right after reset: nothing has run, every register holds its reset value (R503), every memory reads as zero (R384,
R530; log entry 2 for the device part), the fuses and flash hold the values of log entry 3. -/
def State.reset : State := {}

/-- Why a step faults. No model of the sender's side: each is raised by the command named. -/
inductive Fault where
  /-- A host CXL.mem access outside the port's range or before its decoder is committed, raised by HOST_MEM_READ and HOST_MEM_WRITE:
  R374 and R391 say that such an access cannot occur. Safe: the model stops. -/
  | hostAccess
  deriving DecidableEq, Repr

/-- Why a step refuses a command. -/
inductive Refusal where
  /-- A command without a meaning in this model, raised by its arm of exec alone. Safe: the model stops. -/
  | notModelled (mnemonic : String)
  deriving DecidableEq, Repr

end Sys2Proof.Machine
end

