-- ==== Sys2Proof/Machine/RegMap.lean ====
section
/-! DEFINITION. The register pages as the register tables of the spec give them: where each page lies (R19, R495, R496), which
instance a register exists in, its writable, sealed and firmware-only bits, its reset value and what a write does. -/

namespace Sys2Proof.Machine

/-- What a write to a register does (R6): sets its writable fields; clears its counters when the value is zero; clears its
fields whatever the value. -/
inductive WKind where
  | plain | zeroClears | anyClears
  deriving DecidableEq, Repr

/-- A row of the register tables: the offset in the page, the RW bits, the RWS bits, the bits that only firmware writes (R490), the
reset value, what a write does. -/
structure RegRow where
  off : Nat
  rw : Word
  rws : Word
  fw : Word
  reset : Word
  wk : WKind
  deriving DecidableEq, Repr

/-- BRTH (R29, R30, R31). -/
def rowsBrth : List RegRow := [
  ⟨0x040, 0, 0, 0, 0, .plain⟩,
  ⟨0x044, 0xFE03#32, 0, 0xFE03#32, 0xFE01#32, .plain⟩,
  ⟨0x048, 0, 0, 0, 0, .plain⟩]

/-- CORE (R92, R93, R94, R95, R96, R97, R155, R156, R157). -/
def rowsCore : List RegRow := [
  ⟨0x040, 0, 0, 0, 0, .plain⟩,
  ⟨0x044, 0, 0, 0, 0x8#32, .plain⟩,
  ⟨0x048, 0, 0, 0, 0, .plain⟩,
  ⟨0x04C, 0, 0, 0, 0, .plain⟩,
  ⟨0x050, 0, 0, 0, 0, .plain⟩,
  ⟨0x054, 0x1F00#32, 0, 0, 0, .plain⟩,
  ⟨0x058, 0xFFFFFFFF#32, 0, 0, 0, .zeroClears⟩,
  ⟨0x05C, 0xFFFFFFFF#32, 0, 0, 0, .zeroClears⟩,
  ⟨0x060, 0xFFFF#32, 0, 0, 0, .zeroClears⟩,
  ⟨0x064, 0xFFFFFFFF#32, 0, 0, 0, .anyClears⟩,
  ⟨0x068, 0xFFFFFFFF#32, 0, 0, 0, .anyClears⟩,
  ⟨0x06C, 0, 0, 0, 0, .plain⟩]

/-- MESH (R187, R188, R189, R190, R191, R192, R193). -/
def rowsMesh : List RegRow := [
  ⟨0x040, 0x13F#32, 0, 0, 0, .plain⟩,
  ⟨0x044, 0xFFFFFFFF#32, 0, 0, 0, .zeroClears⟩,
  ⟨0x048, 0xFFFFFFFF#32, 0, 0, 0, .zeroClears⟩,
  ⟨0x04C, 0x1F00FF00#32, 0, 0, 0, .anyClears⟩,
  ⟨0x050, 0xFFFFFFFF#32, 0, 0, 0, .zeroClears⟩,
  ⟨0x054, 0, 0, 0, 0, .plain⟩,
  ⟨0x058, 0xFFFF#32, 0, 0, 0, .zeroClears⟩,
  ⟨0x05C, 0xF#32, 0, 0xF#32, 0, .plain⟩,
  ⟨0x060, 0xF00000#32, 0, 0, 0x404#32, .anyClears⟩]

/-- CHMS (R195). -/
def rowsChms : List RegRow := [
  ⟨0x040, 0, 0, 0, 0, .plain⟩,
  ⟨0x044, 0, 0, 0, 0, .plain⟩,
  ⟨0x048, 0xFF#32, 0, 0, 0, .zeroClears⟩]

/-- STOR (R218, R219, R220). -/
def rowsStor : List RegRow := [
  ⟨0x040, 0xF3#32, 0, 0, 0x82#32, .plain⟩,
  ⟨0x044, 0x1FF#32, 0, 0, 0x118#32, .plain⟩,
  ⟨0x048, 0, 0, 0, 0, .plain⟩,
  ⟨0x04C, 0xFFFFFFFF#32, 0, 0, 0, .zeroClears⟩,
  ⟨0x050, 0xFFF#32, 0, 0, 0, .plain⟩,
  ⟨0x054, 0, 0, 0, 0, .plain⟩]

/-- HBMC (R222, R223). -/
def rowsHbmc : List RegRow := [
  ⟨0x040, 0xFF0000#32, 0, 0, 0x806020#32, .plain⟩,
  ⟨0x044, 0xFFFFFFFF#32, 0, 0, 0, .zeroClears⟩,
  ⟨0x048, 0, 0, 0, 0, .plain⟩,
  ⟨0x04C, 0, 0, 0, 0, .plain⟩,
  ⟨0x050, 0, 0, 0, 0, .plain⟩,
  ⟨0x060, 0, 0xFFF#32, 0, 0xC92#32, .plain⟩,
  ⟨0x064, 0, 0xFFF#32, 0, 0xC92#32, .plain⟩]

/-- SCHD instance 0 (R250, R426). -/
def rowsSchdGlobal : List RegRow := [
  ⟨0x040, 0, 0, 0, 0, .plain⟩,
  ⟨0x044, 0, 0, 0, 0, .plain⟩,
  ⟨0x048, 0, 0, 0, 0, .plain⟩,
  ⟨0x04C, 0xFFFF#32, 0, 0, 0x1F4#32, .plain⟩,
  ⟨0x050, 0xFFFFFFFF#32, 0, 0, 0, .zeroClears⟩,
  ⟨0x054, 0xFFFFFFFF#32, 0, 0, 0, .zeroClears⟩,
  ⟨0x060, 0xFFFF#32, 0, 0, 0x8980898#32, .plain⟩,
  ⟨0x064, 0, 0, 0, 0, .plain⟩]

/-- SCHD instances 1 and 2 (R425). -/
def rowsSchdHalf : List RegRow := [
  ⟨0x040, 0x3E000FF#32, 0, 0, 0x840400#32, .plain⟩,
  ⟨0x044, 0xFFFFFFFF#32, 0, 0, 0, .zeroClears⟩]

/-- STRM (R251, R252). -/
def rowsStrm : List RegRow := [
  ⟨0x040, 0xFF#32, 0, 0, 0, .plain⟩,
  ⟨0x044, 0, 0, 0, 0, .plain⟩,
  ⟨0x048, 0, 0, 0, 0, .plain⟩,
  ⟨0x04C, 0, 0, 0, 0, .plain⟩,
  ⟨0x050, 0, 0, 0, 0, .plain⟩]

/-- KVPG (R284, R285, R286). -/
def rowsKvpg : List RegRow := [
  ⟨0x040, 0xFFFFFFFF#32, 0, 0, 0x10004040#32, .plain⟩,
  ⟨0x044, 0, 0, 0, 0, .plain⟩,
  ⟨0x048, 0, 0x1F#32, 0, 0x14#32, .plain⟩,
  ⟨0x04C, 0, 0xFFFFFFFF#32, 0, 0, .plain⟩,
  ⟨0x050, 0, 0xFFFFFFFF#32, 0, 0, .plain⟩,
  ⟨0x054, 0, 0xFFFFFFFF#32, 0, 0, .plain⟩,
  ⟨0x058, 0, 0xFFFFFFFF#32, 0, 0, .plain⟩,
  ⟨0x05C, 0, 0xFFFFFFFF#32, 0, 0, .plain⟩,
  ⟨0x060, 0xFF#32, 0, 0, 0, .plain⟩,
  ⟨0x064, 0x1FFFFFFF#32, 0, 0, 0xA00840#32, .plain⟩,
  ⟨0x068, 0xFFFFFF#32, 0, 0, 0, .plain⟩,
  ⟨0x06C, 0xFFFFFF#32, 0, 0, 0, .plain⟩,
  ⟨0x070, 0xFFFFFFFF#32, 0, 0, 0, .zeroClears⟩,
  ⟨0x074, 0xFFFFFFFF#32, 0, 0, 0, .zeroClears⟩,
  ⟨0x078, 0xFFFFFFFF#32, 0, 0, 0, .zeroClears⟩,
  ⟨0x07C, 0xFFFFFFFF#32, 0, 0, 0, .zeroClears⟩]

/-- SMPL (R304, R305, R306, R307). -/
def rowsSmpl : List RegRow := [
  ⟨0x040, 0xFF#32, 0, 0, 0, .plain⟩,
  ⟨0x044, 0xFFF#32, 0, 0, 0, .plain⟩,
  ⟨0x048, 0xFFFFFFFF#32, 0, 0, 0, .plain⟩,
  ⟨0x04C, 0xFFFFFFFF#32, 0, 0, 0x3F800000#32, .plain⟩,
  ⟨0x050, 0x80000FFF#32, 0, 0, 0x400#32, .plain⟩,
  ⟨0x054, 0xFFFFFFFF#32, 0, 0, 0, .plain⟩,
  ⟨0x058, 0xFFFFFFFF#32, 0, 0, 0, .plain⟩,
  ⟨0x05C, 0xFFFFFFFF#32, 0, 0, 0, .plain⟩,
  ⟨0x060, 0xFFFFFFFF#32, 0, 0, 0, .plain⟩,
  ⟨0x064, 0, 0, 0, 0, .plain⟩,
  ⟨0x068, 0, 0, 0, 0, .plain⟩,
  ⟨0x070, 0xF#32, 0, 0, 0, .plain⟩,
  ⟨0x074, 0xFFFFFFF#32, 0, 0, 0, .plain⟩,
  ⟨0x078, 0xFFFFFFFF#32, 0, 0, 0, .zeroClears⟩,
  ⟨0x07C, 0xFFFFFFFF#32, 0, 0, 0, .zeroClears⟩]

/-- LTR (R334, R335). -/
def rowsLtr : List RegRow := [
  ⟨0x040, 0xF#32, 0, 0, 0, .plain⟩,
  ⟨0x044, 0xFFFFFFE0#32, 0, 0, 0, .plain⟩,
  ⟨0x048, 0xFFFFFFFF#32, 0, 0, 0, .plain⟩,
  ⟨0x04C, 0xE0FFF7FF#32, 0, 0, 0x42000#32, .plain⟩,
  ⟨0x050, 0, 0, 0, 0, .plain⟩,
  ⟨0x054, 0xFFFFFFFF#32, 0, 0, 0, .zeroClears⟩,
  ⟨0x060, 0x7#32, 0, 0, 0, .plain⟩,
  ⟨0x064, 0, 0, 0, 0, .plain⟩,
  ⟨0x068, 0, 0, 0, 0, .plain⟩,
  ⟨0x06C, 0xFFFFFFF#32, 0, 0, 0, .plain⟩,
  ⟨0x070, 0x8FFFFFFF#32, 0, 0, 0, .plain⟩,
  ⟨0x074, 0xFFFF#32, 0, 0, 0xA#32, .plain⟩,
  ⟨0x078, 0, 0, 0, 0, .plain⟩,
  ⟨0x07C, 0, 0, 0, 0, .plain⟩]

/-- ZLNK (R368, R369). -/
def rowsZlnk : List RegRow := [
  ⟨0x040, 0, 0, 0, 0, .plain⟩,
  ⟨0x044, 0x7F#32, 0, 0x7F#32, 0, .plain⟩,
  ⟨0x048, 0, 0, 0, 0, .plain⟩,
  ⟨0x04C, 0xF#32, 0x100#32, 0xF#32, 0, .plain⟩,
  ⟨0x050, 0, 0, 0, 0, .plain⟩,
  ⟨0x054, 0xFFFFFFFF#32, 0, 0, 0, .zeroClears⟩,
  ⟨0x058, 0xFFFF#32, 0, 0, 0, .zeroClears⟩,
  ⟨0x080, 0, 0x80007FFF#32, 0, 0, .plain⟩,
  ⟨0x084, 0, 0x1FFFF#32, 0, 0, .plain⟩,
  ⟨0x088, 0, 0x800F1FFF#32, 0, 0, .plain⟩,
  ⟨0x08C, 0x7FFF#32, 0, 0, 0, .plain⟩,
  ⟨0x090, 0x80007FFF#32, 0, 0x80007FFF#32, 0, .plain⟩,
  ⟨0x094, 0, 0, 0, 0x10000#32, .plain⟩,
  ⟨0x098, 0xFFFF#32, 0, 0, 0, .plain⟩,
  ⟨0x09C, 0xFF#32, 0, 0, 0xFF#32, .plain⟩,
  ⟨0x0A0, 0, 0, 0, 0, .plain⟩]

/-- CXLP (R393, R394, R395). -/
def rowsCxlp : List RegRow := [
  ⟨0x040, 0, 0, 0, 0, .plain⟩,
  ⟨0x044, 0, 0, 0, 0, .plain⟩,
  ⟨0x048, 0xFFFFFFFF#32, 0, 0, 0, .plain⟩,
  ⟨0x04C, 0x801FFF00#32, 0, 0, 0x40200#32, .plain⟩,
  ⟨0x050, 0xFFFFFFFF#32, 0, 0, 0, .plain⟩,
  ⟨0x054, 0x801FFFFF#32, 0, 0, 0x40210#32, .plain⟩,
  ⟨0x058, 0, 0, 0, 0, .plain⟩,
  ⟨0x05C, 0, 0, 0, 0, .plain⟩,
  ⟨0x060, 0, 0, 0, 0, .plain⟩,
  ⟨0x064, 0, 0, 0, 0, .plain⟩]

/-- BSN (R421, R422). -/
def rowsBsn : List RegRow := [
  ⟨0x040, 0x100#32, 0, 0x100#32, 0, .plain⟩,
  ⟨0x044, 0, 0, 0, 0x1001#32, .plain⟩,
  ⟨0x048, 0, 0, 0, 0, .plain⟩,
  ⟨0x04C, 0, 0, 0, 0x28A#32, .plain⟩,
  ⟨0x050, 0x3FF#32, 0, 0, 0x3FF#32, .anyClears⟩,
  ⟨0x054, 0, 0, 0, 0, .plain⟩,
  ⟨0x058, 0, 0, 0, 0, .plain⟩]

/-- CLKG instances 0 and 1 (R424). -/
def rowsClkgRoot : List RegRow := [
  ⟨0x040, 0, 0, 0, 0, .plain⟩]

/-- CLKG instance 2 (R424). -/
def rowsClkgDist : List RegRow := [
  ⟨0x040, 0x2#32, 0, 0, 0, .plain⟩,
  ⟨0x044, 0, 0, 0, 0, .plain⟩]

/-- THRM (R440). -/
def rowsThrm : List RegRow := [
  ⟨0x040, 0, 0, 0, 0, .plain⟩,
  ⟨0x044, 0, 0, 0, 0, .plain⟩,
  ⟨0x048, 0, 0, 0, 0, .plain⟩,
  ⟨0x04C, 0, 0, 0, 0, .plain⟩,
  ⟨0x050, 0, 0, 0, 0, .plain⟩]

/-- TRAY (R442). -/
def rowsTray : List RegRow := [
  ⟨0x040, 0, 0, 0, 0, .plain⟩,
  ⟨0x044, 0, 0, 0, 0, .plain⟩,
  ⟨0x048, 0, 0, 0, 0x898#32, .plain⟩,
  ⟨0x04C, 0xFF#32, 0, 0, 0x2B#32, .plain⟩]

/-- FLT (R465, R466, R467). -/
def rowsFlt : List RegRow := [
  ⟨0x040, 0, 0, 0, 0, .plain⟩,
  ⟨0x044, 0, 0, 0, 0, .plain⟩,
  ⟨0x048, 0xFFFF#32, 0, 0, 0, .zeroClears⟩,
  ⟨0x04C, 0, 0, 0, 0, .plain⟩,
  ⟨0x050, 0, 0x1#32, 0, 0x1#32, .plain⟩,
  ⟨0x054, 0xFFFFFFFF#32, 0, 0, 0, .zeroClears⟩,
  ⟨0x058, 0xFFFFFFFF#32, 0, 0, 0, .zeroClears⟩,
  ⟨0x05C, 0xFFFFFFFF#32, 0, 0, 0, .zeroClears⟩,
  ⟨0x060, 0xFFFFFFFF#32, 0, 0, 0, .zeroClears⟩,
  ⟨0x064, 0xFFFFFFFF#32, 0, 0, 0, .zeroClears⟩,
  ⟨0x068, 0x80000000#32, 0, 0, 0, .anyClears⟩]

/-- SECU (R484). -/
def rowsSecu : List RegRow := [
  ⟨0x040, 0, 0, 0, 0, .plain⟩,
  ⟨0x044, 0, 0, 0, 0, .plain⟩,
  ⟨0x048, 0x7#32, 0, 0, 0, .plain⟩,
  ⟨0x04C, 0, 0xFFFFFFFF#32, 0, 0, .plain⟩,
  ⟨0x050, 0, 0xFFFFFFFF#32, 0, 0, .plain⟩,
  ⟨0x054, 0, 0xFFFFFFFF#32, 0, 0, .plain⟩,
  ⟨0x058, 0, 0xFFFFFFFF#32, 0, 0, .plain⟩,
  ⟨0x05C, 0, 0xFFFFFFFF#32, 0, 0, .plain⟩,
  ⟨0x060, 0, 0xFFFFFFFF#32, 0, 0, .plain⟩,
  ⟨0x064, 0, 0xFFFFFFFF#32, 0, 0, .plain⟩,
  ⟨0x068, 0, 0xFFFFFFFF#32, 0, 0, .plain⟩,
  ⟨0x06C, 0, 0, 0, 0, .plain⟩,
  ⟨0x070, 0, 0, 0, 0, .plain⟩,
  ⟨0x074, 0, 0, 0, 0, .plain⟩,
  ⟨0x078, 0, 0, 0, 0, .plain⟩,
  ⟨0x07C, 0, 0, 0, 0, .plain⟩]

/-- GLB (R498). -/
def rowsGlb : List RegRow := [
  ⟨0x040, 0, 0, 0, 0x84120000#32, .plain⟩,
  ⟨0x054, 0, 0, 0, 0, .plain⟩,
  ⟨0x058, 0, 0, 0, 0, .plain⟩,
  ⟨0x05C, 0, 0, 0, 0, .plain⟩,
  ⟨0x078, 0, 0, 0, 0x10000#32, .plain⟩]
/-- R489: the rows of the registers that a page defines after its header. -/
def regRows (b : Blk) (inst : Nat) : List RegRow :=
  match b with
  | .glb => rowsGlb
  | .brth => rowsBrth
  | .core => rowsCore
  | .mesh => rowsMesh
  | .chms => rowsChms
  | .stor => rowsStor
  | .hbmc => if inst = 0 then rowsHbmc else rowsHbmc.filter (fun r => r.off < 0x060)
  | .kvpg => if inst = 0 then rowsKvpg else rowsKvpg.filter (fun r => r.off < 0x048 || 0x070 ≤ r.off)
  | .smpl => rowsSmpl
  | .schd => if inst = 0 then rowsSchdGlobal else rowsSchdHalf
  | .strm => rowsStrm
  | .ltr => rowsLtr
  | .zlnk => rowsZlnk
  | .cxlp => rowsCxlp
  | .bsn => rowsBsn
  | .clkg => if inst = 2 then rowsClkgDist else rowsClkgRoot
  | .thrm => rowsThrm
  | .tray => rowsTray
  | .flt => rowsFlt
  | .secu => rowsSecu

/-- The header's writable registers (R491): CTL.INJ_BIT and TEL_SEL. ERR_STS, ERR_MASK and CTL.INJECT act in ways of their own. -/
def headerRows : List RegRow := [⟨0x008, 0x1F00#32, 0, 0, 0, .plain⟩, ⟨0x028, 0xFF#32, 0, 0, 0, .plain⟩]

/-- The row of the register at offset `off`, none where the page defines none (R489). -/
def regRow (b : Blk) (inst off : Nat) : Option RegRow :=
  if off < 0x030 then headerRows.find? (fun r => r.off = off) else (regRows b inst).find? (fun r => r.off = off)

/-- R494: the block type codes. -/
def blkCode : Blk → Nat
  | .glb => 0x01 | .brth => 0x02 | .core => 0x03 | .mesh => 0x04 | .chms => 0x05 | .stor => 0x06 | .hbmc => 0x07
  | .kvpg => 0x08 | .smpl => 0x09 | .schd => 0x0A | .strm => 0x0B | .ltr => 0x0C | .zlnk => 0x0D | .cxlp => 0x0E
  | .bsn => 0x0F | .clkg => 0x10 | .thrm => 0x11 | .tray => 0x12 | .flt => 0x13 | .secu => 0x14

/-- The block of a type code. -/
def blkOfCode (n : Nat) : Option Blk :=
  [Blk.glb, .brth, .core, .mesh, .chms, .stor, .hbmc, .kvpg, .smpl, .schd, .strm, .ltr, .zlnk, .cxlp, .bsn, .clkg, .thrm, .tray,
    .flt, .secu].find? (fun b => blkCode b = n)

/-- R494: the instances of a block. A CORE instance is b × 156 + p. -/
def blkCount : Blk → Nat
  | .glb => 1 | .brth => 84 | .core => 13104 | .mesh => 84 | .chms => 84 | .stor => 84 | .hbmc => 12 | .kvpg => 12 | .smpl => 84
  | .schd => 3 | .strm => 1 | .ltr => 2 | .zlnk => 84 | .cxlp => 2 | .bsn => 100 | .clkg => 3 | .thrm => 100 | .tray => 1
  | .flt => 1 | .secu => 1

/-- R19: the window of physical berth `b`. -/
def berthWindow (b : Nat) : Nat := 0x01000000 + b * 0x00100000

/-- R19, R495, R496: the BAR0 address of a page. -/
def pageBase (b : Blk) (i : Nat) : Nat :=
  match b with
  | .glb => 0
  | .schd => 0x1000 + i * 0x1000
  | .strm => 0x4000
  | .flt => 0x5000
  | .secu => 0x6000
  | .tray => 0x7000
  | .clkg => 0x10000 + i * 0x1000
  | .ltr => 0x20000 + i * 0x1000
  | .cxlp => 0x28000 + i * 0x1000
  | .hbmc => 0x30000 + i * 0x1000
  | .kvpg => 0x40000 + i * 0x1000
  | .chms => 0x100000 + i * 0x1000
  | .brth => berthWindow i
  | .mesh => berthWindow i + 0x1000
  | .stor => berthWindow i + 0x2000
  | .smpl => berthWindow i + 0x3000
  | .zlnk => berthWindow i + 0x4000
  | .bsn => if i < 84 then berthWindow i + 0x5000 else 0x50000 + (i - 84) * 0x1000
  | .thrm => if i < 84 then berthWindow i + 0x6000 else 0x60000 + (i - 84) * 0x1000
  | .core => berthWindow (i / 156) + 0x7000 + i % 156 * 0x1000

/-- R495, R496: the page that holds a BAR0 address, its instance and the offset within it; none where no page lies. The table area
(R499) is no page. -/
def pageAt (a : Nat) : Option (Blk × Nat × Nat) :=
  let o := a % 0x1000
  let n := a / 0x1000
  if 0x01000000 ≤ a then
    let b := (a - 0x01000000) / 0x00100000
    let k := (a - 0x01000000) % 0x00100000 / 0x1000
    if 84 ≤ b then none
    else match k with
      | 0 => some (.brth, b, o) | 1 => some (.mesh, b, o) | 2 => some (.stor, b, o) | 3 => some (.smpl, b, o)
      | 4 => some (.zlnk, b, o) | 5 => some (.bsn, b, o) | 6 => some (.thrm, b, o)
      | _ => if k < 7 + 156 then some (.core, b * 156 + (k - 7), o) else none
  else if n = 0 then some (.glb, 0, o)
  else if n < 4 then some (.schd, n - 1, o)
  else if n = 4 then some (.strm, 0, o)
  else if n = 5 then some (.flt, 0, o)
  else if n = 6 then some (.secu, 0, o)
  else if n = 7 then some (.tray, 0, o)
  else if 0x10 ≤ n ∧ n < 0x13 then some (.clkg, n - 0x10, o)
  else if 0x20 ≤ n ∧ n < 0x22 then some (.ltr, n - 0x20, o)
  else if 0x28 ≤ n ∧ n < 0x2A then some (.cxlp, n - 0x28, o)
  else if 0x30 ≤ n ∧ n < 0x3C then some (.hbmc, n - 0x30, o)
  else if 0x40 ≤ n ∧ n < 0x4C then some (.kvpg, n - 0x40, o)
  else if 0x50 ≤ n ∧ n < 0x60 then some (.bsn, n - 0x50 + 84, o)
  else if 0x60 ≤ n ∧ n < 0x70 then some (.thrm, n - 0x60 + 84, o)
  else if 0x100 ≤ n ∧ n < 0x154 then some (.chms, n - 0x100, o)
  else none

/-- R302, R335, R369: the instance whose page is the one home of a module-wide register. -/
def homeInst (b : Blk) (inst off : Nat) : Nat :=
  match b with
  | .smpl => if 0x040 ≤ off then 0 else inst
  | .ltr => if 0x060 ≤ off then 0 else inst
  | .zlnk => if 0x080 ≤ off then 0 else inst
  | _ => inst

/-- The key of a register in the register file. -/
def regKey (b : Blk) (inst off : Nat) : Nat := pageBase b (homeInst b inst off) + off

/-- The key of the copy `i` of a register that a selector shows. -/
def regKeyI (b : Blk) (inst off i : Nat) : Nat := regKey b inst off + (i + 1) * 2 ^ 28

/-- The reset value of the register whose key is `k` (R503). -/
def regReset (k : Nat) : Word :=
  match pageAt (k % 2 ^ 28) with
  | some (b, inst, off) => match regRow b inst off with
    | some r => r.reset
    | none => 0
  | none => 0

end Sys2Proof.Machine
end

