-- ==== Sys2Proof/Machine/Flags.lean ====
section
/-! DEFINITION. The error flags: the bits of every ERR_STS register, their classes (R443), which of them a mask can hold back (R493)
and what ERR_STS, ERR_FIRST, ERR_NEXT and the stamp become when an error occurs or is cleared (R492). -/

namespace Sys2Proof.Machine

/-- R443: the classes of errors; a Region error is a row shift or a berth handling. -/
inductive ErrClass where
  | corrected | contained | row | berth | fatal
  deriving DecidableEq, Repr, Inhabited

/-- The class of each ERR_STS bit of a page (R91, R186, R194, R217, R221, R249, R283, R303, R333, R367, R392, R420, R423, R439, R441,
R464, R483, R497); none for a reserved bit. Where the class depends on the case, this is the class at the event that the bit's own
row names first; `raiseAs` names another. -/
def errClass (b : Blk) (inst bit : Nat) : Option ErrClass :=
  match b, bit with
  | .glb, 0 => some .corrected | .glb, 1 => some .corrected | .glb, 2 => some .corrected
  | .core, 0 => some .corrected | .core, 1 => some .contained | .core, 2 => some .contained | .core, 3 => some .contained
  | .core, 4 => some .contained | .core, 5 => some .row | .core, 6 => some .row
  | .mesh, 0 => some .corrected | .mesh, 1 => some .contained | .mesh, 2 => some .contained | .mesh, 3 => some .contained
  | .mesh, 4 => some .corrected | .mesh, 5 => some .contained
  | .chms, 0 => some .corrected | .chms, 1 => some .corrected | .chms, 2 => some .row | .chms, 3 => some .contained
  | .stor, 0 => some .corrected | .stor, 1 => some .contained | .stor, 2 => some .corrected | .stor, 3 => some .berth
  | .stor, 4 => some .contained | .stor, 5 => some .corrected | .stor, 6 => some .contained | .stor, 7 => some .corrected
  | .stor, 8 => some .contained
  | .hbmc, 0 => some .corrected | .hbmc, 1 => some .contained | .hbmc, 2 => some .contained | .hbmc, 3 => some .contained
  | .hbmc, 4 => some .corrected | .hbmc, 5 => some .fatal
  | .kvpg, 0 => some .corrected | .kvpg, 1 => some .contained | .kvpg, 2 => some .contained | .kvpg, 3 => some .corrected
  | .kvpg, 4 => some .corrected | .kvpg, 5 => some .corrected
  | .smpl, 0 => some .corrected | .smpl, 1 => some .contained | .smpl, 2 => some .corrected | .smpl, 3 => some .corrected
  | .smpl, 4 => some .corrected | .smpl, 5 => some .contained
  | .schd, 0 => some .contained | .schd, 1 => some .contained
  | .ltr, 0 => some .corrected | .ltr, 1 => some .corrected | .ltr, 2 => some .corrected | .ltr, 3 => some .corrected
  | .ltr, 4 => some .contained
  | .zlnk, 3 => some .contained
  | .zlnk, n => if n < 9 then some .corrected else none
  | .cxlp, n => if n < 5 then some .corrected else none
  | .bsn, 0 => some .corrected
  | .bsn, 1 => some (if inst < 84 then .berth else .corrected)
  | .bsn, 2 => some (if inst < 84 then .berth else if inst < 96 ∨ inst = 98 then .fatal else .corrected)
  | .bsn, 3 => some .contained | .bsn, 4 => some .corrected | .bsn, 5 => some .corrected
  | .bsn, 6 => if inst = 98 then some .corrected else none
  | .clkg, 0 => if inst < 2 then some .fatal else none
  | .clkg, 1 => if inst = 2 then some .fatal else none
  | .clkg, 2 => if inst = 2 then some .corrected else none
  | .thrm, 0 => some .corrected | .thrm, 1 => some .corrected | .thrm, 2 => some .corrected | .thrm, 3 => some .contained
  | .tray, 0 => some .corrected | .tray, 1 => some .corrected | .tray, 2 => some .corrected | .tray, 3 => some .corrected
  | .tray, 4 => some .corrected | .tray, 5 => some .contained | .tray, 6 => some .fatal
  | .flt, 0 => some .corrected | .flt, 1 => some .corrected | .flt, 2 => some .corrected | .flt, 3 => some .corrected
  | .flt, 4 => some .fatal
  | .secu, n => if n < 5 then some .corrected else none
  | _, _ => none

/-- R493: the bits of a page whose mask bits are RW: those of Corrected class in every case; BSN SHORT, CLKG LOCK_LOSS and STOR
HOLD_TIMEOUT in no instance. -/
def maskable (b : Blk) (inst bit : Nat) : Bool :=
  !(b == .bsn && bit == 2) && !(b == .clkg && bit == 0) && !(b == .stor && bit == 4) && errClass b inst bit == some .corrected

/-- The writable bits of a page's ERR_MASK (R493). -/
def maskBits (b : Blk) (inst : Nat) : Word :=
  BitVec.ofNat 32 ((List.range 32).foldl (fun a i => if maskable b inst i then a + 2 ^ i else a) 0)

/-- The error registers of a page (R492). -/
structure ErrRegs where
  sts : Word
  first : Word
  next : Word
  stamp : Dword
  deriving DecidableEq, Repr, Inhabited

/-- R492: an error occurs. `noNext` is the exception of R209 (KL-03): HBMC_ERR_NEXT does not record bit 0. -/
def ErrRegs.record (r : ErrRegs) (bit : Nat) (noNext : Bool) (now : Dword) : ErrRegs :=
  if r.sts = 0 then { sts := field 1 bit, first := field 1 bit, next := r.next, stamp := now }
  else { r with sts := r.sts ||| field 1 bit, next := if noNext then r.next else r.next ||| field 1 bit }

/-- R492: a W1C write; when it leaves ERR_STS at zero, the other registers become zero with it. -/
def ErrRegs.clear (r : ErrRegs) (v : Word) : ErrRegs :=
  let sts := r.sts &&& ~~~v
  if sts = 0 then { sts := 0, first := 0, next := 0, stamp := 0 } else { r with sts := sts }

/-- R444: the order of scopes: 1 step, 2 slice, 3 row, 4 berth, 5 module. `spans` says that the running image spans modules
(R443), `repair` is FLT_CFG.REPAIR_EN (R454). Zero: no handling. -/
def scopeOf (c : ErrClass) (spans repair : Bool) : Nat :=
  match c with
  | .corrected => 0
  | .contained => if spans then 2 else 1
  | .row => if repair then 3 else 5
  | .berth => if repair then 4 else 5
  | .fatal => 5

end Sys2Proof.Machine
end

