-- ==== Sys2Proof/Machine/Geometry.lean ====
section
/-! DEFINITION. Where the parts of the module sit: berths, halves, stacks, rims, default binding, port roles (R7, R9, R14, R22, R26,
R159, R162, R258, R259, R311, R349, R400, R408). -/

namespace Sys2Proof.Machine

/-- R9: the column of a physical berth. -/
def colOf (b : Nat) : Nat := b % 12
/-- R9: the row of a physical berth. -/
def rowOf (b : Nat) : Nat := b / 12
/-- R7: whether a physical berth lies in the East half. -/
def inEast (b : Nat) : Bool := 6 ≤ colOf b
/-- R7: the half of a physical berth. -/
def halfOf (b : Nat) : Half := if inEast b then .east else .west
/-- R184: the hop count between two berths, without wrap paths. -/
def hopsBetween (a b : Nat) : Nat :=
  (max (colOf a) (colOf b) - min (colOf a) (colOf b)) + (max (rowOf a) (rowOf b) - min (rowOf a) (rowOf b))

/-- R13: the default spares. -/
def defaultSpares : List Nat := [0, 11, 72, 83]

/-- R14: the berths of a half in ascending physical number. -/
def halfBerths (h : Half) : List Nat := (List.range 84).filter (fun b => halfOf b = h)

/-- R14, R162: the physical berths under the default spares in the order of their logical numbers. -/
def canonicalList : List Nat :=
  (halfBerths .west).filter (fun b => !defaultSpares.contains b) ++ (halfBerths .east).filter (fun b => !defaultSpares.contains b)

/-- R162: the canonical position of a logical berth. -/
def canonicalPos (l : Nat) : Nat := canonicalList.getD l 84

/-- The logical berth whose canonical position is physical berth `b`. -/
def canonicalAt (b : Nat) : Option Nat := (List.range 80).find? (fun l => canonicalPos l = b)

/-- R22: the two rim berths that a stack adjoins. -/
def rimBerths (k : Nat) : Nat × Nat := if k < 6 then (2 * k, 2 * k + 1) else (72 + 2 * (k - 6), 73 + 2 * (k - 6))

/-- R22: the stack that a rim berth adjoins. -/
def stackAt (b : Nat) : Option Nat :=
  if rowOf b = 0 then some (colOf b / 2) else if rowOf b = 6 then some (6 + colOf b / 2) else none

/-- R23: the half of a stack. -/
def stackHalf (k : Nat) : Half := if k % 6 < 3 then .west else .east

/-- R26: the attach berth of harbour die 0 NW, 1 SE, 2 SW, 3 NE. -/
def attachBerth (d : Nat) : Nat := [0, 83, 72, 11].getD d 0

/-- R259: the order of the pagers of a half. -/
def pagerOrder (h : Half) : List Nat := match h with
  | .west => [0, 1, 2, 6, 7, 8]
  | .east => [3, 4, 5, 9, 10, 11]

/-- R12: the half of a logical berth. -/
def logicalHalf (l : Nat) : Half := if l < 40 then .west else .east

/-- R259: the pager that serves logical berth `l`. -/
def pagerOf (l : Nat) : Nat := (pagerOrder (logicalHalf l)).getD (l % 40 % 6) 0

/-- R259: the logical berths that pager `k` serves. -/
def servedBy (k : Nat) : List Nat := (List.range 80).filter (fun l => pagerOf l = k)

/-- R258: the home of page `j` of head `h` of `heads`, for an image over `m` modules: its module and logical berth. -/
def pageHome (heads m h j : Nat) : Nat × Nat :=
  let r := (j + 7 * h) % (40 * m)
  (r / 40, (if h < heads / 2 then 0 else 40) + r % 40)

/-- R311: the DPA of byte `k` of a half's sequence in a half-ordered region with base `d`. -/
def halfOrderedDpa (d : Nat) (h : Half) (k : Nat) : Nat :=
  let q := k / 4096
  let w := (pagerOrder h).getD (q % 6) 0
  (d / 4096 + 12 * (q / 6) + w) * 4096 + k % 4096

/-- R210: the stack of a DPA. -/
def dpaStack (dpa : Nat) : Nat := dpa / 4096 % 12
/-- R210: the stack offset of a DPA. -/
def dpaOffset (dpa : Nat) : Nat := dpa / 4096 / 12 * 4096 + dpa % 4096
/-- R210: the DPA of an offset in a stack. -/
def stackDpa (k off : Nat) : Nat := (off / 4096 * 12 + k) * 4096 + off % 4096
/-- R210: the bytes of the slower tier. -/
def tierBytes : Nat := 864000000000
/-- R221: the bytes of one stack. -/
def stackBytes : Nat := 72000000000

/-- R408: the plate zone of a basin. -/
def zoneOf (n : Nat) : Nat :=
  if n < 84 then colOf n / 2
  else if n < 96 then (n - 84) % 6
  else if n = 96 ∨ n = 98 then 0 else 5

/-- R408: the basins of a zone. -/
def zoneBasins (z : Nat) : List Nat := (List.range 100).filter (fun n => zoneOf n = z)

/-- R408: the half of a zone. -/
def zoneHalf (z : Nat) : Half := if z < 3 then .west else .east

/-- R401: the core-rail phases of a basin. -/
def phaseCount (n : Nat) : Nat := if n < 84 then 8 else if n < 96 then 4 else 3

/-- R349: the role code of each physical berth's port (0 P1, 1 P2, 2–14 D0–D12, 15 spare). -/
def portRoleTable : List Nat := [
  15, 0, 1, 2, 3, 4, 4, 3, 2, 1, 0, 15,
  5, 0, 1, 2, 3, 4, 4, 3, 2, 1, 0, 5,
  5, 0, 1, 2, 3, 4, 4, 3, 2, 1, 0, 5,
  5, 0, 1, 2, 3, 4, 4, 3, 2, 1, 0, 15] ++ [
  5, 6, 7, 8, 9, 10, 13, 9, 8, 7, 6, 5,
  11, 6, 7, 8, 9, 10, 14, 9, 8, 7, 6, 5,
  15, 11, 12, 12, 13, 14, 14, 13, 12, 11, 10, 15]

/-- R349: the role of the port of physical berth `b`. -/
def portRole (b : Nat) : Nat := portRoleTable.getD b 15

/-- R349: the index of the port within its role. -/
def portIndex (b : Nat) : Nat :=
  if portRole b = 15 then 0 else ((List.range b).filter (fun c => portRole c = portRole b)).length

/-- R345: the admission wave of a role; a spare has none. -/
def roleWave (r : Nat) : Nat := if r < 2 then 0 else r - 1

/-- R348: the neighbour of module T × 4 + m in a role, by role code. -/
def neighbourAddr (addr role : Nat) : Nat :=
  let t := addr / 4
  let m := addr % 4
  if role = 0 then t * 4 + (m + 1) % 3
  else if role = 1 then t * 4 + (m + 2) % 3
  else
    let k := role - 2
    let s := if t / 2 ^ k % 2 = 0 then k else 3 * k - k
    (t ^^^ 2 ^ k) * 4 + (m + s) % 3

/-- R350: the role that a port of a role is cabled to. -/
def pairedRole (r : Nat) : Nat := if r = 0 then 1 else if r = 1 then 0 else r

/-- R344: the port as reset leaves it. -/
def zportReset (z : Nat) : ZPort := { role := portRole z, index := portIndex z }

/-- R17, R20: the physical core that serves logical core index `k` of a berth whose removed columns are listed by row. -/
def physCore (removed : List (Nat × Nat)) (i : Nat) : Nat :=
  let r := i / 12
  let k := i % 12
  let f := Sparse.get (fun _ => 15) removed r
  r * 13 + (if k < f then k else k + 1)

/-- R20: the logical core index that physical core `p` serves, none for a removed or idle column. -/
def logCore (removed : List (Nat × Nat)) (p : Nat) : Option Nat :=
  let r := p / 13
  let c := p % 13
  let f := Sparse.get (fun _ => 15) removed r
  if c = f then none
  else if c < f then (if c < 12 then some (r * 12 + c) else none)
  else some (r * 12 + (c - 1))

end Sys2Proof.Machine
end

