-- ==== Sys2Proof/Machine/Hash.lean ====
section
/-! DEFINITION. The hash functions and the generator that the spec names: SHA-256 (R37, R324), HSS verification under RFC 8554
(R468), SipHash-2-4 (R276), CRC-32C (R244) and Philox-4x32-10 (R290). -/

namespace Sys2Proof.Machine

/-- The round constants of SHA-256. -/
def shaK : List Word :=
  [0x428A2F98#32, 0x71374491#32, 0xB5C0FBCF#32, 0xE9B5DBA5#32, 0x3956C25B#32, 0x59F111F1#32, 0x923F82A4#32, 0xAB1C5ED5#32] ++
  [0xD807AA98#32, 0x12835B01#32, 0x243185BE#32, 0x550C7DC3#32, 0x72BE5D74#32, 0x80DEB1FE#32, 0x9BDC06A7#32, 0xC19BF174#32] ++
  [0xE49B69C1#32, 0xEFBE4786#32, 0x0FC19DC6#32, 0x240CA1CC#32, 0x2DE92C6F#32, 0x4A7484AA#32, 0x5CB0A9DC#32, 0x76F988DA#32] ++
  [0x983E5152#32, 0xA831C66D#32, 0xB00327C8#32, 0xBF597FC7#32, 0xC6E00BF3#32, 0xD5A79147#32, 0x06CA6351#32, 0x14292967#32] ++
  [0x27B70A85#32, 0x2E1B2138#32, 0x4D2C6DFC#32, 0x53380D13#32, 0x650A7354#32, 0x766A0ABB#32, 0x81C2C92E#32, 0x92722C85#32] ++
  [0xA2BFE8A1#32, 0xA81A664B#32, 0xC24B8B70#32, 0xC76C51A3#32, 0xD192E819#32, 0xD6990624#32, 0xF40E3585#32, 0x106AA070#32] ++
  [0x19A4C116#32, 0x1E376C08#32, 0x2748774C#32, 0x34B0BCB5#32, 0x391C0CB3#32, 0x4ED8AA4A#32, 0x5B9CCA4F#32, 0x682E6FF3#32] ++
  [0x748F82EE#32, 0x78A5636F#32, 0x84C87814#32, 0x8CC70208#32, 0x90BEFFFA#32, 0xA4506CEB#32, 0xBEF9A3F7#32, 0xC67178F2#32]

/-- The initial hash value of SHA-256. -/
def shaInit : List Word :=
  [0x6A09E667#32, 0xBB67AE85#32, 0x3C6EF372#32, 0xA54FF53A#32, 0x510E527F#32, 0x9B05688C#32, 0x1F83D9AB#32, 0x5BE0CD19#32]

/-- A big-endian number from its bytes. -/
def beNat (l : List Byte) : Nat := l.foldl (fun a b => a * 256 + b.toNat) 0

/-- The `n` low bytes of a number, big-endian. -/
def beBytes (v n : Nat) : List Byte := (leBytes v n).reverse

/-- The message schedule: `w` holds the words so far, latest first. -/
def shaSchedule : Nat → List Word → List Word
  | 0, w => w.reverse
  | n + 1, w =>
    let a := w.getD 15 0
    let b := w.getD 14 0
    let c := w.getD 6 0
    let d := w.getD 1 0
    let s0 := (b.rotateRight 7) ^^^ (b.rotateRight 18) ^^^ (b >>> 3)
    let s1 := (d.rotateRight 17) ^^^ (d.rotateRight 19) ^^^ (d >>> 10)
    shaSchedule n ((a + s0 + c + s1) :: w)

/-- One round of SHA-256 over the eight working words. -/
def shaRound (v : List Word) (kw : Word) : List Word :=
  match v with
  | [a, b, c, d, e, f, g, h] =>
    let s1 := (e.rotateRight 6) ^^^ (e.rotateRight 11) ^^^ (e.rotateRight 25)
    let ch := (e &&& f) ^^^ (~~~e &&& g)
    let t1 := h + s1 + ch + kw
    let s0 := (a.rotateRight 2) ^^^ (a.rotateRight 13) ^^^ (a.rotateRight 22)
    let mj := (a &&& b) ^^^ (a &&& c) ^^^ (b &&& c)
    [t1 + (s0 + mj), a, b, c, d + t1, e, f, g]
  | l => l

/-- The 32-bit big-endian words of a byte string, `n` of them. -/
def beWords : Nat → List Byte → List Word
  | 0, _ => []
  | n + 1, l => BitVec.ofNat 32 (beNat (l.take 4)) :: beWords n (l.drop 4)

/-- The compression function over `n` blocks of 64 B. -/
def shaBlocks : Nat → List Word → List Byte → List Word
  | 0, h, _ => h
  | n + 1, h, l =>
    let w := shaSchedule 48 (beWords 16 (l.take 64)).reverse
    let v := (List.zipWith (· + ·) shaK w).foldl shaRound h
    shaBlocks n (List.zipWith (· + ·) h v) (l.drop 64)

/-- SHA-256 of a byte string. -/
def sha256 (m : List Byte) : List Byte :=
  let z := (64 - (m.length + 9) % 64) % 64
  let p := m ++ [0x80#8] ++ List.replicate z 0 ++ beBytes (8 * m.length) 8
  (shaBlocks (p.length / 64) shaInit p).flatMap (fun w => beBytes w.toNat 4)

/-- The Winternitz chain of RFC 8554, section 4.3, from step `j` on with `n` steps left. -/
def otsChain (pre : List Byte) : Nat → Nat → List Byte → List Byte
  | 0, _, t => t
  | n + 1, j, t => otsChain pre n (j + 1) (sha256 (pre ++ beBytes j 1 ++ t))

/-- The candidate public key of an LM-OTS signature with W = 8 (RFC 8554, algorithm 4b). -/
def otsCandidate (ident : List Byte) (q : Nat) (sig msg : List Byte) : List Byte :=
  let c := (sig.drop 4).take 32
  let hash := sha256 (ident ++ beBytes q 4 ++ [0x81#8, 0x81#8] ++ c ++ msg)
  let sum := (hash.map (fun b => 255 - b.toNat)).sum
  let digits := hash ++ beBytes sum 2
  let z := (digits.zipIdx).flatMap (fun d =>
    otsChain (ident ++ beBytes q 4 ++ beBytes d.2 2) (255 - d.1.toNat) d.1.toNat ((sig.drop (36 + 32 * d.2)).take 32))
  sha256 (ident ++ beBytes q 4 ++ [0x80#8, 0x80#8] ++ z)

/-- The Merkle root that a leaf and its path give (RFC 8554, algorithm 6a). -/
def lmsRoot (ident : List Byte) : List Byte → Nat → Nat → List Byte → List Byte
  | _, 0, _, t => t
  | path, n + 1, node, t =>
    let sib := path.take 32
    let pre := ident ++ beBytes (node / 2) 4 ++ [0x83#8, 0x83#8]
    lmsRoot ident (path.drop 32) n (node / 2) (sha256 (if node % 2 = 1 then pre ++ sib ++ t else pre ++ t ++ sib))

/-- One LMS signature of height `h` verifies `msg` under a 56 B public key (RFC 8554, algorithm 6); `lms` is the type code. -/
def lmsVerify (lms h : Nat) (pub sig msg : List Byte) : Bool :=
  let ident := (pub.drop 8).take 16
  let q := beNat (sig.take 4)
  let ots := (sig.drop 4).take 1124
  decide (pub.length = 56) && decide (sig.length = 1132 + 32 * h) && decide (beNat (pub.take 4) = lms) &&
  decide (beNat ((pub.drop 4).take 4) = 4) && decide (beNat (ots.take 4) = 4) && decide (beNat ((sig.drop 1128).take 4) = lms) &&
  decide (q < 2 ^ h) &&
  (let leaf := sha256 (ident ++ beBytes (2 ^ h + q) 4 ++ [0x82#8, 0x82#8] ++ otsCandidate ident q ots msg)
   decide (lmsRoot ident (sig.drop 1132) h (2 ^ h + q) leaf = pub.drop 24))

/-- HSS verification with two levels of LMS_SHA256_M32_H15 and LMOTS_SHA256_N32_W8 (R468; RFC 8554, algorithm 11). -/
def hssVerify (pub sig msg : List Byte) : Bool :=
  let top := pub.drop 4
  let sig0 := (sig.drop 4).take 1612
  let pub1 := (sig.drop 1616).take 56
  let sig1 := sig.drop 1672
  decide (pub.length = 60) && decide (sig.length = 3284) && decide (beNat (pub.take 4) = 2) && decide (beNat (sig.take 4) = 1) &&
  lmsVerify 7 15 top sig0 pub1 && lmsVerify 7 15 pub1 sig1 msg

/-- One SipRound. -/
def sipRound (v : Dword × Dword × Dword × Dword) : Dword × Dword × Dword × Dword :=
  let (v0, v1, v2, v3) := v
  let v0 := v0 + v1
  let v1 := v1.rotateLeft 13 ^^^ v0
  let v0 := v0.rotateLeft 32
  let v2 := v2 + v3
  let v3 := v3.rotateLeft 16 ^^^ v2
  let v0 := v0 + v3
  let v3 := v3.rotateLeft 21 ^^^ v0
  let v2 := v2 + v1
  let v1 := v1.rotateLeft 17 ^^^ v2
  let v2 := v2.rotateLeft 32
  (v0, v1, v2, v3)

/-- The compression of one 64-bit message word with two rounds. -/
def sipWord (v : Dword × Dword × Dword × Dword) (m : Dword) : Dword × Dword × Dword × Dword :=
  let w := sipRound (sipRound (v.1, v.2.1, v.2.2.1, v.2.2.2 ^^^ m))
  (w.1 ^^^ m, w.2)

/-- The little-endian 64-bit words of a byte string, `n` of them. -/
def leDwords : Nat → List Byte → List Dword
  | 0, _ => []
  | n + 1, l => BitVec.ofNat 64 (leNat (l.take 8)) :: leDwords n (l.drop 8)

/-- SipHash-2-4 under the 128-bit key k1:k0 (R276). -/
def sipHash (k0 k1 : Dword) (m : List Byte) : Dword :=
  let v : Dword × Dword × Dword × Dword :=
    (k0 ^^^ 0x736F6D6570736575#64, k1 ^^^ 0x646F72616E646F6D#64, k0 ^^^ 0x6C7967656E657261#64, k1 ^^^ 0x7465646279746573#64)
  let n := m.length / 8
  let last := BitVec.ofNat 64 (leNat (m.drop (8 * n)) + (m.length % 256) * 2 ^ 56)
  let w := sipWord ((leDwords n m).foldl sipWord v) last
  let x := sipRound (sipRound (sipRound (sipRound (w.1, w.2.1, w.2.2.1 ^^^ 0xFF#64, w.2.2.2))))
  x.1 ^^^ x.2.1 ^^^ x.2.2.1 ^^^ x.2.2.2

/-- Eight bit steps of CRC-32C. -/
def crcBits : Nat → Word → Word
  | 0, c => c
  | n + 1, c => crcBits n (if c.getLsbD 0 then (c >>> 1) ^^^ 0x82F63B78#32 else c >>> 1)

/-- CRC-32C (Castagnoli) of a byte string (R244). -/
def crc32c (m : List Byte) : Word :=
  ~~~ (m.foldl (fun c b => crcBits 8 (c ^^^ b.setWidth 32)) 0xFFFFFFFF#32)

/-- One round of Philox-4x32. -/
def philoxRound (c : Word × Word × Word × Word) (k0 k1 : Word) : Word × Word × Word × Word :=
  let p0 := 0xD2511F53 * c.1.toNat
  let p1 := 0xCD9E8D57 * c.2.2.1.toNat
  (BitVec.ofNat 32 (p1 / 2 ^ 32) ^^^ c.2.1 ^^^ k0, BitVec.ofNat 32 p1, BitVec.ofNat 32 (p0 / 2 ^ 32) ^^^ c.2.2.2 ^^^ k1,
    BitVec.ofNat 32 p0)

/-- `n` rounds of Philox-4x32, the key stepping between rounds. -/
def philoxRounds (n : Nat) (c : Word × Word × Word × Word) (k0 k1 : Word) : Word × Word × Word × Word :=
  (List.range n).foldl (fun c i => philoxRound c (k0 + BitVec.ofNat 32 (i * 0x9E3779B9)) (k1 + BitVec.ofNat 32 (i * 0xBB67AE85))) c

/-- R290: the first output word of Philox-4x32-10 for position `p`. -/
def philoxOut (p : Nat) (key seq : Dword) : Word :=
  (philoxRounds 10 (BitVec.ofNat 32 p, 0, seq.setWidth 32, (seq >>> 32).setWidth 32) (key.setWidth 32)
    ((key >>> 32).setWidth 32)).1

end Sys2Proof.Machine
end

