-- ==== Sys2Proof/Machine/Ops.lean ====
section
/-! DEFINITION. The named operations over the state that the meanings share: reading and writing its parts, register fields, errors,
records, holds, interrupts and free values. -/

namespace Sys2Proof.Machine

/-- The outcome of every command. -/
abbrev Res := Host.Outcome State Fault Refusal

/-- The first value listed under a key. -/
def lookup {α : Type} (l : List (Nat × α)) (k : Nat) : Option α := (l.find? (fun e => e.1 = k)).map Prod.snd

/-- The elements of a list with element `i` replaced. -/
def setAt {α : Type} : List α → Nat → α → List α
  | [], _, _ => []
  | _ :: t, 0, v => v :: t
  | a :: t, i + 1, v => a :: setAt t i v

/-- Port A is 0 and port B is 1 (R494). -/
def portIx : HostPort → Nat
  | .a => 0
  | .b => 1

/-- The key of a byte of a port's host memory. -/
def hostKey (p : HostPort) (a : Nat) : Nat := portIx p * 2 ^ 64 + a % 2 ^ 64

/-- The other host port. -/
def otherPort : HostPort → HostPort
  | .a => .b
  | .b => .a

/-- The port of an instance number. -/
def portOf (i : Nat) : HostPort := if i = 0 then .a else .b

-- reading and writing the parts of the state

/-- A physical berth. -/
def State.berth (s : State) (b : Nat) : BerthSt := Sparse.get (fun _ => {}) s.berths b
/-- Writes a physical berth. -/
def State.setBerth (s : State) (b : Nat) (x : BerthSt) : State := { s with berths := Sparse.set (fun _ => {}) s.berths b x }
/-- A logical core; one that the list does not hold is as GO leaves it (R73). -/
def State.core (s : State) (c : Nat) : Core := Sparse.get (fun _ => {}) s.cores c
/-- Writes a logical core. -/
def State.setCore (s : State) (c : Nat) (x : Core) : State := { s with cores := Sparse.set (fun _ => {}) s.cores c x }
/-- A logical link in the running epoch. -/
def State.link (s : State) (l : Nat) : Link := Sparse.get (fun _ => {}) s.links l
/-- Writes a logical link. -/
def State.setLink (s : State) (l : Nat) (x : Link) : State := { s with links := Sparse.set (fun _ => {}) s.links l x }
/-- One direction of a physical link. -/
def State.way (s : State) (w : Nat) : Way := Sparse.get (fun _ => {}) s.ways w
/-- Writes a physical link. -/
def State.setWay (s : State) (w : Nat) (x : Way) : State := { s with ways := Sparse.set (fun _ => {}) s.ways w x }
/-- A memory stack. -/
def State.stack (s : State) (k : Nat) : StackSt := Sparse.get (fun _ => {}) s.tier k
/-- Writes a memory stack. -/
def State.setStack (s : State) (k : Nat) (x : StackSt) : State := { s with tier := Sparse.set (fun _ => {}) s.tier k x }
/-- A stream's entry. -/
def State.stream (s : State) (i : Nat) : Stream := Sparse.get (fun _ => {}) s.streams i
/-- Writes a stream's entry. -/
def State.setStream (s : State) (i : Nat) (x : Stream) : State := { s with streams := Sparse.set (fun _ => {}) s.streams i x }
/-- An image slot. -/
def State.image (s : State) (i : Nat) : ImageSt := Sparse.get (fun _ => {}) s.images i
/-- Writes an image slot. -/
def State.setImage (s : State) (i : Nat) (x : ImageSt) : State := { s with images := Sparse.set (fun _ => {}) s.images i x }
/-- A Lighter channel, port × 16 + channel. -/
def State.chan (s : State) (i : Nat) : ChannelSt := Sparse.get (fun _ => {}) s.chans i
/-- Writes a Lighter channel. -/
def State.setChan (s : State) (i : Nat) (x : ChannelSt) : State := { s with chans := Sparse.set (fun _ => {}) s.chans i x }
/-- An optical port. -/
def State.zport (s : State) (z : Nat) : ZPort := Sparse.get zportReset s.zports z
/-- Writes an optical port. -/
def State.setZport (s : State) (z : Nat) (x : ZPort) : State := { s with zports := Sparse.set zportReset s.zports z x }
/-- A power basin. -/
def State.basin (s : State) (n : Nat) : BasinSt := Sparse.get (fun _ => {}) s.basins n
/-- Writes a power basin. -/
def State.setBasin (s : State) (n : Nat) (x : BasinSt) : State := { s with basins := Sparse.set (fun _ => {}) s.basins n x }
/-- A hot-spot site, instance × 4 + site. -/
def State.site (s : State) (i : Nat) : SiteSt := Sparse.get (fun _ => {}) s.sites i
/-- Writes a hot-spot site. -/
def State.setSite (s : State) (i : Nat) (x : SiteSt) : State := { s with sites := Sparse.set (fun _ => {}) s.sites i x }
/-- A host port. -/
def State.port (s : State) : HostPort → Port
  | .a => s.portA
  | .b => s.portB
/-- Writes a host port. -/
def State.setPort (s : State) (p : HostPort) (x : Port) : State := match p with
  | .a => { s with portA := x }
  | .b => { s with portB := x }
/-- The divisor control of a half. -/
def State.half (s : State) : Half → HalfSt
  | .west => s.west
  | .east => s.east
/-- Writes the divisor control of a half. -/
def State.setHalf (s : State) (h : Half) (x : HalfSt) : State := match h with
  | .west => { s with west := x }
  | .east => { s with east := x }

/-- A stored register (R491). -/
def State.reg (s : State) (b : Blk) (inst off : Nat) : Word := Sparse.get regReset s.regs (regKey b inst off)
/-- Writes a stored register. -/
def State.setReg (s : State) (b : Blk) (inst off : Nat) (v : Word) : State :=
  { s with regs := Sparse.set regReset s.regs (regKey b inst off) v }
/-- Copy `i` of a register that a selector shows. -/
def State.regI (s : State) (b : Blk) (inst off i : Nat) : Word := Sparse.get regReset s.regs (regKeyI b inst off i)
/-- Writes copy `i` of a register that a selector shows. -/
def State.setRegI (s : State) (b : Blk) (inst off i : Nat) (v : Word) : State :=
  { s with regs := Sparse.set regReset s.regs (regKeyI b inst off i) v }

/-- Replaces bits `hi` to `lo` of a word by a number. -/
def putBits (w : Word) (hi lo v : Nat) : Word :=
  let m := field (2 ^ (hi + 1 - lo) - 1) lo
  (w &&& ~~~m) ||| field (v % 2 ^ (hi + 1 - lo)) lo

/-- A 32-bit counter that wraps counts `n` more. -/
def State.count (s : State) (b : Blk) (inst off n : Nat) : State :=
  s.setReg b inst off (s.reg b inst off + BitVec.ofNat 32 n)

/-- A counter in bits `hi` to `lo` that saturates counts one more. -/
def State.countSat (s : State) (b : Blk) (inst off hi lo : Nat) : State :=
  let w := s.reg b inst off
  s.setReg b inst off (putBits w hi lo (min (bits w hi lo + 1) (2 ^ (hi + 1 - lo) - 1)))

/-- A free value (a value that the spec leaves open): the number of draws so far, and the state with one more. -/
def State.drawn (s : State) : State := { s with draws := s.draws + 1 }

-- configuration read from registers

/-- R223, R211: SPLIT in bytes, as treated. -/
def State.split (s : State) : Nat := min (bits (s.reg .hbmc 0 0x060) 11 0) 0xC92 * 2 ^ 28
/-- R223, R211: HOST_LIMIT in bytes, as treated. -/
def State.hostLimit (s : State) : Nat := max s.split (min (bits (s.reg .hbmc 0 0x064) 11 0) 0xC92 * 2 ^ 28)
/-- R211: whether `n` bytes from a DPA lie in the device part. -/
def State.inDevicePart (s : State) (dpa n : Nat) : Bool := s.hostLimit ≤ dpa && dpa + n ≤ tierBytes
/-- R220: KV_BASE of a physical berth in units of 2 MiB, as treated. -/
def State.kvBase (s : State) (b : Nat) : Nat := min (bits (s.reg .stor b 0x050) 11 0) 3968
/-- R10: whether a berth is DARK. -/
def State.dark (s : State) (b : Nat) : Bool := (s.berth b).role == .dark
/-- R12, R30: the physical berth to which a logical berth is bound. -/
def State.physOf (s : State) (l : Nat) : Option Nat :=
  (List.range 84).find? (fun b => (s.berth b).role == .inService && (s.berth b).logical == l)
/-- R454: FLT_CFG.REPAIR_EN. -/
def State.repairEn (s : State) : Bool := bit (s.reg .flt 0 0x050) 0
/-- R369: this module's address, none while it is not programmed. -/
def State.address (s : State) : Option Nat :=
  let w := s.reg .zlnk 0 0x080
  if bit w 31 ∧ bits w 1 0 ≠ 3 then some (bits w 14 0) else none

/-- R351, R352: the addresses of the logical modules of this module's slice in ascending 3t + m; none while it is this module alone. -/
def State.sliceModules (s : State) : Option (List Nat) :=
  let w := s.reg .zlnk 0 0x088
  match s.address with
  | none => none
  | some _ =>
    if bit w 31 then
      let d := min (bits w 19 16) 13
      let base := bits w 12 0 / 2 ^ d * 2 ^ d
      let spares := bit (s.reg .zlnk 0 0x084) 16
      some (((List.range (2 ^ d)).flatMap (fun t => [0, 1, 2].map (fun m => (base + t) * 4 + m))).filter
        (fun a => !(spares && a % 4 == 2 && a / 4 % 32 == 31)))
    else none

/-- R352: the number of logical modules of the slice. -/
def State.moduleCount (s : State) : Nat := match s.sliceModules with
  | none => 1
  | some l => l.length

/-- R365, R369: the logical module whose ZLNK_LMDATA names a physical address, none where none of the slice's does. -/
def State.boundAt (s : State) (a : Nat) : Option Nat :=
  (List.range s.moduleCount).find? (fun n => s.regI .zlnk 0 0x090 n == (field a 0 ||| field 1 31))

/-- R108, R352, R365: the index of this module within the slice; a reserved spare takes that of the logical module bound to it. -/
def State.moduleIndex (s : State) : Nat := match s.sliceModules, s.address with
  | some l, some a => if l.contains a then l.idxOf a else (s.boundAt a).getD l.length
  | _, _ => 0

/-- R524: STS.READY of a page. -/
def State.blockReady (s : State) (b : Blk) (i : Nat) : Bool :=
  let basin := fun (n : Nat) => (s.basin n).regulating || (s.basin n).latched
  match b with
  | .glb => s.powered
  | .secu => s.fwStarted
  | .flt => s.fwStarted
  | .tray => s.fwStarted
  | .clkg => s.fwStarted
  | .bsn => basin i
  | .thrm => basin i
  | .zlnk => basin i
  | .cxlp => (s.port (portOf i)).pageReady
  | .brth => (s.berth i).trained
  | .core => (s.berth (i / 156)).trained
  | .mesh => (s.berth i).trained
  | .chms => (s.berth i).trained
  | .stor => (s.berth i).trained
  | .hbmc => (s.stack i).trained
  | .schd => s.stage == .ready
  | .strm => s.stage == .ready
  | .ltr => s.stage == .ready
  | .kvpg => s.stage == .ready
  | .smpl => s.stage == .ready

/-- R19: the physical berth in whose window a page lies. -/
def pageBerth (b : Blk) (i : Nat) : Option Nat := match b with
  | .brth => some i
  | .mesh => some i
  | .stor => some i
  | .smpl => some i
  | .zlnk => some i
  | .bsn => if i < 84 then some i else none
  | .thrm => if i < 84 then some i else none
  | .core => some (i / 156)
  | _ => none

/-- R488: whether a page lies in a DARK berth's window. -/
def State.pageDark (s : State) (b : Blk) (i : Nat) : Bool := match pageBerth b i with
  | some d => s.dark d
  | none => false

/-- R488, R524: whether a page's registers after the header accept writes. -/
def State.pageWrites (s : State) (b : Blk) (i : Nat) : Bool := !s.pageDark b i && s.blockReady b i

-- interrupts and alerts

/-- R383: raises an MSI-X vector of a port. -/
def State.msi (s : State) (p : Nat) (v : Nat) : State :=
  let k := p * 2048 + v
  { s with msix := Sparse.set (fun _ => 0) s.msix k (Sparse.get (fun _ => 0) s.msix k + 1) }

/-- R383: raises vector 0 on both ports. -/
def State.msiFault (s : State) : State := (s.msi 0 0).msi 1 0

/-- R384: asserts ALERT_OUT_N. -/
def State.alerted (s : State) : State := { s with alert := true }

-- errors

/-- The error registers of a page. -/
def State.errRegs (s : State) (b : Blk) (i : Nat) : ErrRegs :=
  let k := pageBase b i
  let get := Sparse.get regReset s.regs
  { sts := get (k + 0x10), first := get (k + 0x18), next := get (k + 0x1C)
    stamp := BitVec.ofNat 64 ((get (k + 0x20)).toNat + 2 ^ 32 * (get (k + 0x24)).toNat) }

/-- Writes the error registers of a page. -/
def State.setErrRegs (s : State) (b : Blk) (i : Nat) (e : ErrRegs) : State :=
  let k := pageBase b i
  let put := fun (m : List (Nat × Word)) (o : Nat) (v : Word) => Sparse.set regReset m (k + o) v
  { s with regs := put (put (put (put (put s.regs 0x10 e.sts) 0x18 e.first) 0x1C e.next) 0x20
      (BitVec.ofNat 32 e.stamp.toNat)) 0x24 (BitVec.ofNat 32 (e.stamp.toNat / 2 ^ 32)) }

/-- The mask register of a page (R493). -/
def State.errMask (s : State) (b : Blk) (i : Nat) : Word := Sparse.get regReset s.regs (pageBase b i + 0x14)

/-- R229, R330: the image that the step now in handling spans more than one module. -/
def State.spansModules (s : State) : Bool := match s.seq.cur with
  | none => false
  | some t => match (s.image t.image).manifest with
    | none => false
    | some m => decide (1 < m.modules)

/-- R465: the wafer-wide instance that FLT_CUR names. -/
def fltErr (scope : Nat) (b : Blk) (i bit : Nat) : FltErr := { scope := scope, type := blkCode b, inst := i, bit := bit }

/-- R492, R443: an error of class `c` sets bit `bit` of a page. A Corrected error that no mask holds back is counted in FLT_CNT_CORR; every
other error sends a FAULT message. -/
def State.raiseAs (s : State) (b : Blk) (i bit : Nat) (c : ErrClass) : State :=
  let s := s.setErrRegs b i ((s.errRegs b i).record bit (b == .hbmc && bit == 0) s.stamp)
  match c with
  | .corrected =>
    if (s.errMask b i).getLsbD bit then s else s.count .flt 0 0x054 1
  | _ => { s with flt := { s.flt with msgs := s.flt.msgs ++ [fltErr (scopeOf c s.spansModules s.repairEn) b i bit] } }

/-- An error of the class that its bit's row gives. -/
def State.raise (s : State) (b : Blk) (i bit : Nat) : State := match errClass b i bit with
  | some c => s.raiseAs b i bit c
  | none => s

/-- Whether an error bit of a page stands. -/
def State.errSet (s : State) (b : Blk) (i bit : Nat) : Bool := (s.errRegs b i).sts.getLsbD bit

/-- Raises an error once: an event that stands on its condition sets its bit when the condition comes about. -/
def State.raiseOnce (s : State) (b : Blk) (i bit : Nat) : State := if s.errSet b i bit then s else s.raise b i bit

-- programs and the running epoch

/-- R226: the program that the current step runs. -/
def State.curProg (s : State) : Option Program := match s.seq.cur with
  | none => none
  | some t => match t.copy with
    | none => lookup (s.image t.image).progs t.prog
    | some _ => lookup (s.image t.image).stagedProgs t.prog

/-- R38: the running epoch. -/
def State.curEpoch (s : State) : Epoch := match s.curProg with
  | none => {}
  | some p => p.epochs.getD s.seq.epoch {}

/-- R525: the block of a core in the running epoch. -/
def State.block (s : State) (c : Nat) : CoreBlock := (lookup s.curEpoch.cores c).getD {}

/-- R43: the slot table of a link in the running epoch. -/
def State.table (s : State) (l : Nat) : List SlotRun := (lookup s.curEpoch.links l).getD []

/-- R46: the owned slots of a table in ascending index order: index, flow and SRC. -/
def expandRuns (t : List SlotRun) : List (Nat × SlotRun) := t.flatMap (fun r => (List.range r.count).map (fun i => (r.first + i, r)))

-- streams, holds and records

/-- R232: whether a stream is ready. -/
def Stream.ready (x : Stream) : Bool := x.state == .active && !x.queue.isEmpty

/-- Writes a stream's entry; one that becomes ready takes the present STAMP as the time at which it did (R233). -/
def State.putStream (s : State) (i : Nat) (x : Stream) : State :=
  if x.ready && !(s.stream i).ready then s.setStream i { x with readySince := s.stamp.toNat } else s.setStream i x

/-- R528: adds a hold cause. -/
def State.hold (s : State) (i c : Nat) : State :=
  let x := s.stream i
  if x.state = .free then s
  else s.putStream i { x with state := if x.state = .shipping then .shipping else .held, holds := x.holds.filter (· ≠ c) ++ [c] }

/-- R528: lifts a hold cause; the stream returns to ACTIVE when none is left. -/
def State.lift (s : State) (i c : Nat) : State :=
  let x := s.stream i
  let h := x.holds.filter (· ≠ c)
  s.putStream i { x with holds := h, state := if x.state = .held ∧ h = [] then .active else x.state }

/-- The streams that are not FREE, in ascending number. -/
def State.liveStreams (s : State) : List Nat := (s.streams.filter (fun e => e.2.state ≠ .free)).map Prod.fst

/-- The streams bound to an image slot. -/
def State.streamsOf (s : State) (img : Nat) : List Nat := s.liveStreams.filter (fun i => (s.stream i).image = img)

/-- Adds a hold cause to every stream of a list. -/
def State.holdAll (s : State) (l : List Nat) (c : Nat) : State := l.foldl (fun s i => s.hold i c) s

/-- Lifts a hold cause from every stream of a list. -/
def State.liftAll (s : State) (l : List Nat) (c : Nat) : State := l.foldl (fun s i => s.lift i c) s

/-- R380, R382: an output record joins its port's pending queue. -/
def State.emit (s : State) (p : Nat) (r : OutRec) : State :=
  let q := s.port (portOf p)
  s.setPort (portOf p) { q with pend := q.pend ++ [r] }

/-- R237, R238: a record that carries only a status. -/
def State.status (s : State) (p stream code step : Nat) : State :=
  s.emit p { stream := stream, status := code, last := true, position := 0, token := 0xFFFFFFFF, accepted := 0,
             stamp := s.stamp, step := step }

/-- Whether a stream takes part in the step that runs or is being handled. -/
def State.inStep (s : State) (i : Nat) : Bool := match s.seq.cur with
  | none => false
  | some t => t.entries.any (fun e => e.stream = i)

/-- Whether a stream takes part in a step that has been prepared. -/
def State.inNext (s : State) (i : Nat) : Bool := match s.seq.next with
  | none => false
  | some t => t.entries.any (fun e => e.stream = i)

end Sys2Proof.Machine
end

