-- ==== Sys2Proof/Machine/Divisors.lean ====
section
/-! DEFINITION. The CCLK divisors of the two halves (R62, R403, R404, R414–R416, R425) and the core rails that follow them. -/

namespace Sys2Proof.Machine

/-- R413: the divisors. -/
def divisorList : List Nat := [4, 5, 6, 8, 16]

/-- R425: a FLOOR as treated; a value above 16 has no larger divisor and is taken as 16. -/
def treatDiv (n : Nat) : Nat := (divisorList.find? (fun d => n ≤ d)).getD 16

/-- One divisor step up from a divisor. -/
def divUp (n : Nat) : Nat := (divisorList.find? (fun d => n < d)).getD 16

/-- One divisor step down from a divisor. -/
def divDown (n : Nat) : Nat := ((divisorList.filter (fun d => d < n)).getLast?).getD 4

/-- R425: the SCHD instance of a half. -/
def halfInst : Half → Nat
  | .west => 1
  | .east => 2

/-- The other half. -/
def otherHalf : Half → Half
  | .west => .east
  | .east => .west

/-- R435: whether a sudden stop holds both halves at divisor 16. -/
def State.stopped (s : State) : Bool := s.cool.st == .sudden || s.cool.st == .waitDrop

/-- R414: what the first five requesters request for a half, in the table's order. -/
def State.divRequests (s : State) (h : Half) : List Nat :=
  let x := s.half h
  [x.power, if s.stopped then 16 else x.thermal, if x.phaseCap.isEmpty then 4 else 8, (x.zones.map Prod.snd).foldl max 4,
   treatDiv (bits (s.reg .schd (halfInst h) 0x040) 25 21)]

/-- R414: the largest request for a half. -/
def State.ownTarget (s : State) (h : Half) : Nat := (s.divRequests h).foldl max 4

/-- R416: whether two divisors form the pair that A1 does not support. -/
def seamPair (st : Stepping) (a b : Nat) : Bool := st == .a1 && ((a == 4 && b == 5) || (a == 5 && b == 4))

/-- R414, R416: the target of a half. -/
def State.targetDiv (s : State) (h : Half) : Nat :=
  let t := s.ownTarget h
  if t = 5 && seamPair s.fuses.stepping t (s.ownTarget (otherHalf h)) then 6 else t

/-- R425: SOURCE of a half: the requesters whose request is the target. A request of 4 by any requester but FLOOR is none. -/
def State.divSource (s : State) (h : Half) : Nat :=
  if s.targetDiv h ≠ s.ownTarget h then 32
  else ((List.range 5).zip (s.divRequests h)).foldl (fun a e =>
    if e.2 = s.targetDiv h ∧ (4 < e.2 ∨ e.1 = 4) then a + 2 ^ e.1 else a) 0

/-- R425: SOURCE and TARGET follow the requests. -/
def State.retarget (s : State) : State :=
  [Half.west, Half.east].foldl (fun s h =>
    s.setReg .schd (halfInst h) 0x040 (putBits (putBits (s.reg .schd (halfInst h) 0x040) 31 26 (s.divSource h)) 20 16 (s.targetDiv h))) s

/-- R403: VTRIM of a berth in mV; log entry 3 for a berth that the fuses do not list. -/
def State.vtrim (s : State) (b : Nat) : Nat := (lookup s.fuses.vtrim b).getD 800

/-- R403: the core rail of a berth at a divisor, in mV. -/
def State.railAt (s : State) (b d : Nat) : Nat := match d with
  | 4 => s.vtrim b
  | 5 => 740
  | 6 => 710
  | 8 => 680
  | _ => 650

/-- R404, R410: the core-rail setpoint of a basin in mV; the rails of a half are raised before it changes to a smaller divisor. -/
def State.setpoint (s : State) (n : Nat) : Nat :=
  let x := s.berth n
  if n < 84 then
    if x.waking then s.railAt n x.ldiv else if x.gated then 650 else s.railAt n (min x.ldiv (s.targetDiv (halfOf n)))
  else 650

/-- R405: a sample of a basin's core rail; the lowest is kept with its STAMP. -/
def State.seeRail (s : State) (n mv : Nat) : State :=
  if mv < bits (s.reg .bsn n 0x050) 9 0 then
    ((s.setReg .bsn n 0x050 (field mv 0)).setReg .bsn n 0x054 (BitVec.ofNat 32 s.stamp.toNat)).setReg .bsn n 0x058
      (BitVec.ofNat 32 (s.stamp.toNat / 2 ^ 32))
  else s

/-- R403, R410: the local divisor of a berth changes, and its rail with it. -/
def State.setLdiv (s : State) (b d : Nat) : State :=
  let s := s.setBerth b { s.berth b with ldiv := d }
  s.seeRail b (s.setpoint b)

/-- R62, R409, R410, R425: a half's divisor changes; a berth that is awake follows, and one that wakes never lies below it. -/
def State.setDivisor (s : State) (h : Half) (d : Nat) : State :=
  let s := (s.setHalf h { s.half h with now := d }).count .schd (halfInst h) 0x044 1
  (halfBerths h).foldl (fun s b =>
    let x := s.berth b
    if x.waking then (if x.ldiv < d then s.setLdiv b d else s)
    else if x.gated then s else s.setLdiv b d) s

/-- R404, R416: one half's change takes effect: a larger divisor at once, a smaller one when its rails have settled, and on A1 none that
would form the pair 4 and 5 with the other half's present divisor. -/
def State.stepDivisor (s : State) (h : Half) (settled : Bool) : State :=
  let t := s.targetDiv h
  let n := (s.half h).now
  if t = n ∨ (t < n ∧ settled = false) ∨ seamPair s.fuses.stepping t (s.half (otherHalf h)).now then s else s.setDivisor h t

/-- R62: the changes that are due, the larger divisors first. -/
def State.applyDivisors (s : State) (settledW settledE : Bool) : State :=
  (((s.retarget.stepDivisor .west false).stepDivisor .east false).stepDivisor .west settledW).stepDivisor .east settledE

/-- R409: whether a physical berth's cores may take part in epochs. -/
def State.awake (s : State) (b : Nat) : Bool := !(s.berth b).gated && !(s.berth b).waking

/-- R404, R409: a berth's cores are clock-gated; a wake under way is abandoned. -/
def State.gateBerth (s : State) (b : Nat) : State :=
  let s := s.setBerth b { s.berth b with gated := true, waking := false, wakeWait := none, ldiv := 16 }
  s.seeRail b 650

/-- R435: the cores of every berth are clock-gated. -/
def State.gateAll (s : State) : State :=
  (List.range 84).foldl (fun s b => if s.dark b || (s.berth b).gated && !(s.berth b).waking then s else s.gateBerth b) s

end Sys2Proof.Machine
end

