-- ==== Sys2Proof/Machine/Operands.lean ====
section
/-! DEFINITION. A core's operands: its registers (R71, R105), scratchpad addresses (R103), the region rules of the bounds check
(R79, R80, R104), the interlock (R72), bounds faults (R81, R95) and how a bundle ends (R100, R101). -/

namespace Sys2Proof.Machine

-- registers

/-- R105: a general register; g0 reads as zero. -/
def gReg (k : Core) (r : GReg) : Word := if r.val = 0 then 0 else Sparse.get (fun _ => 0) k.g r.val

/-- R105: writes a general register; a write to g0 is discarded. -/
def setG (k : Core) (r : GReg) (v : Word) : Core :=
  if r.val = 0 then k else { k with g := Sparse.set (fun _ => 0) k.g r.val v }

/-- R71: lane `i` of a vector register. -/
def vLane (k : Core) (r : VReg) (i : Nat) : Word := Sparse.get (fun _ => 0) k.v (r.val * 64 + i)

/-- R71: the 64 lanes of a vector register. -/
def vLanes (k : Core) (r : VReg) : List Word := (List.range 64).map (vLane k r)

/-- Lanes from number `i` of a vector register written in ascending order. -/
def putLanes (m : List (Nat × Word)) (r : VReg) : Nat → List Word → List (Nat × Word)
  | _, [] => m
  | i, w :: t => putLanes (Sparse.set (fun _ => 0) m (r.val * 64 + i) w) r (i + 1) t

/-- Writes the 64 lanes of a vector register. -/
def setV (k : Core) (r : VReg) (l : List Word) : Core := { k with v := putLanes k.v r 0 (l.take 64) }

-- addresses

/-- R107: sext(imm16). -/
def sext16 (m : BitVec 16) : Word := m.signExtend 32
/-- R107: zext(imm16). -/
def zext16 (m : BitVec 16) : Word := m.zeroExtend 32
/-- R107: the address of a scalar word, its low 2 bits ignored. The sum wraps modulo 2^32 (log entry 36). -/
def scalarAddr (ga : Word) (m : BitVec 16) : Nat := (ga + sext16 m * 4).toNat / 4 * 4
/-- R120: the address of a vector access, its low 6 bits ignored. The sum wraps modulo 2^32 (log entry 36). -/
def vectorAddr (ga : Word) (off : BitVec 12) : Nat := (ga + (off.zeroExtend 32) * 64).toNat / 64 * 64
/-- R103: an address with its low 6 bits ignored. -/
def align64 (ga : Word) : Nat := ga.toNat / 64 * 64
/-- R103: an address with its low 7 bits ignored. -/
def align128 (ga : Word) : Nat := ga.toNat / 128 * 128

-- the bounds check

/-- The accesses that R79 tells apart. -/
inductive Access where
  | read | write | land
  deriving DecidableEq, Repr, Inhabited

/-- Whether `a` lies in the `n` bytes from `base`. -/
def within (a base n : Nat) : Bool := base ≤ a && a < base + n

/-- R79, R80: the cause code for which an access to one address is refused, none when it is permitted. The source buffer of a
cancelled flow has passed no send point, so it stays writable (log entry 37). -/
def refusal (k : Core) (blk : CoreBlock) (acc : Access) (a : Nat) : Option Nat :=
  if within a blk.rbase blk.rsize then some 5
  else match blk.windows.find? (fun w => within a w.base w.size) with
    | some w => if w.rw || acc == .read then none else some 1
    | none => match blk.flows.find? (fun f => within a f.addr f.len) with
      | none => some 0
      | some f =>
        if f.recv then
          if acc == .read then (if k.readable.contains f.flow then none else some 3) else some 4
        else match acc with
          | .read => none
          | .write => if k.sent.contains f.flow then some 2 else none
          | .land => some 2

/-- R104: the addresses at which a range can change regions, rising: its first byte, every multiple of 64 within it and every end
of a flow's buffer within it. -/
def granules (blk : CoreBlock) (a n : Nat) : List Nat :=
  (a :: (List.range ((a + n - 1) / 64 - a / 64)).map (fun i => (a / 64 + i + 1) * 64)).flatMap
    (fun g => g :: (blk.flows.map (fun f => f.addr + f.len)).filter (fun e => g < e && e < a + n && e < (g / 64 + 1) * 64))

/-- R104: the cause and the lowest refused address of a range, none when all of it is permitted. No region lies at 0x300000 or
above (R103), so a range that passes it is refused there at the latest. -/
def refused (k : Core) (blk : CoreBlock) (acc : Access) (a n : Nat) : Option (Nat × Nat) :=
  if n = 0 then none
  else (granules blk a (if 0x300000 ≤ a then 1 else min n (0x300001 - a))).findSome? (fun x => (refusal k blk acc x).map (fun c => (c, x)))

-- which physical core serves a logical core

/-- R18, R20: the CORE page instance of a logical core, none while its berth is bound nowhere. -/
def State.coreInst (s : State) (c : Nat) : Option Nat :=
  (s.physOf (c / 144)).map (fun b => b * 156 + physCore (s.berth b).removed (c % 144))

/-- R81, R91, R95: a bounds fault of a core, with its unit, cause and address. The capture keeps the first fault since ERR_STS.BOUNDS was last
cleared (log entry 38). An address of 2^22 or more is recorded by its low 22 bits (DESIGN CHOICE, log entry 172). -/
def State.boundsFault (s : State) (c unit cause addr : Nat) : State :=
  match s.coreInst c with
  | none => s
  | some i =>
    let s := if s.boundsHeld.contains i then s
      else { s.setReg .core i 0x050 (field unit 25 ||| field cause 22 ||| field (addr % 2 ^ 22) 0) with boundsHeld := s.boundsHeld ++ [i] }
    s.raise .core i (if cause = 6 then 3 else 2)

/-- R91, R102: a bundle that the fetch could not deliver intact, as which a reserved encoding counts, sets FETCH and the core stops issuing. -/
def State.fetchFault (s : State) (c : Nat) : State :=
  let s := s.setCore c { s.core c with st := .blocked }
  match s.coreInst c with
  | none => s
  | some i => s.raise .core i 4

-- issue and the interlock

/-- R72, R93: whether a core issues: a step's run phase is under way and the core is not waiting, ended or stopped. -/
def State.issuing (s : State) (k : Core) : Bool := s.coresMode == .run && k.st == .run

/-- Whether two byte ranges meet. -/
def meet (a n b m : Nat) : Bool := a < b + m && b < a + n

/-- R72: whether an access has to wait for the tile in progress or for lines of an XRD that have not landed. -/
def interlocked (k : Core) (a n : Nat) (wr : Bool) : Bool :=
  k.reads.any (fun r => meet a n r.dst 128) ||
  match k.tile with
  | none => false
  | some t => match parseTile t.shape t.fmt t.bound with
    | none => false
    | some g => meet a n t.out g.outBytes || (wr && (meet a n t.act g.actBytes || meet a n t.wgt g.weightBytes))

/-- R100: a unit's place in the order in which the operations of a bundle take effect. -/
def slotOrder : CoreUnit → Nat
  | .matrix => 0
  | .vector => 1
  | .memory => 2
  | .scalar => 3

/-- R72, R100: whether an operation of a unit comes next in a core's bundle: no later slot has taken effect, and none before it waits. -/
def slotOpen (k : Core) (u : CoreUnit) : Bool := if k.stalled then k.slot == slotOrder u else k.slot ≤ slotOrder u

/-- Runs an operation of a unit on a core that issues, with the slots of its bundle up to this one taken; an operation sent to another core, or
out of the order of R100, is turned away with no effect (log entry 35). A bundle that holds a reserved encoding does not issue (R102). -/
def State.onCore (s : State) (c : CoreId) (u : CoreUnit) (f : Core → State) : State :=
  let k := s.core c.val
  if !(s.issuing k && slotOpen k u) then s
  else if (s.block c.val).reserved.contains k.pc then s.fetchFault c.val
  else f { k with slot := slotOrder u + 1, stalled := false }

/-- R72: the interlock holds an operation: its slot waits, and the later slots of its bundle behind it. -/
def State.stall (s : State) (c : CoreId) (u : CoreUnit) (k : Core) : State :=
  s.setCore c.val { k with slot := slotOrder u, stalled := true }

/-- R100, R101: the bundle has taken effect and the core goes on at bundle `t`; a fetch outside the block is a reserved encoding. -/
def State.endBundleAt (s : State) (c : CoreId) (k : Core) (t : Int) : State :=
  let k := { k with issued := k.issued + 1, slot := 0, stalled := false }
  if 0 ≤ t ∧ t < ((s.block c.val).nbundle : Int) then s.setCore c.val { k with pc := t.toNat }
  else (s.setCore c.val k).fetchFault c.val

/-- R100: the bundle has taken effect and the core goes on at the next one. -/
def State.endBundle (s : State) (c : CoreId) (k : Core) : State := s.endBundleAt c k ((k.pc : Int) + 1)

-- check bits (R77)

/-- R77: the words with bad check bits that a range of a core's scratchpad touches. -/
def damagedIn (k : Core) (a n : Nat) : List (Nat × Bool) := k.damage.filter (fun e => meet (8 * e.1) 8 a n)

/-- R77: whether a read of a range finds an uncorrectable error and so delivers nothing. -/
def unreadable (k : Core) (a n : Nat) : Bool := (damagedIn k a n).any (fun e => e.2)

/-- R77: bytes written to a core's scratchpad, with fresh check bits for the words that they touch (log entry 176). -/
def Core.put (k : Core) (a : Nat) (data : List Byte) : Core :=
  { k with scratch := Memory.write k.scratch a data, damage := k.damage.filter (fun e => !meet (8 * e.1) 8 a data.length) }

/-- R155, R156, R97: a saturating counter of a core's page counts. -/
def State.countCore (s : State) (c off hi lo : Nat) : State := match s.coreInst c with
  | none => s
  | some i => s.countSat .core i off hi lo

/-- R77, R91, R97: what a read of a range of a core's scratchpad records: an uncorrectable error, or a corrected one, which is counted. -/
def State.noteRead (s : State) (c : Nat) (k : Core) (a n : Nat) : State := match damagedIn k a n, s.coreInst c with
  | [], _ => s
  | _, none => s
  | _, some i => if unreadable k a n then s.raise .core i 1 else (s.countCore c 0x060 15 0).raise .core i 0

/-- An access of a core's instruction: it waits while the interlock holds it, it faults where R79 refuses any part of
the range, and otherwise it is done; a read that finds an uncorrectable error delivers nothing (R77). `pass` is the instruction without
effect. -/
def State.checked (s : State) (c : CoreId) (u : CoreUnit) (k : Core) (unit : Nat) (acc : Access) (a n : Nat) (pass done : State → State) :
    State :=
  if interlocked k a n (acc != .read) then s.stall c u k
  else match refused k (s.block c.val) acc a n with
    | some (cause, x) => pass (s.boundsFault c.val unit cause x)
    | none =>
      if acc == .read then
        let t := s.noteRead c.val k a n
        if unreadable k a n then pass t else done t
      else done s

end Sys2Proof.Machine
end

