-- ==== Sys2Proof/Machine/Links.lean ====
section
/-! DEFINITION. Logical links (R158, R162–R164): their numbers and classes, the link or core from which a link's sending router takes
a slot, and how far a flow has come along its path (R44, R47, R52). -/

namespace Sys2Proof.Machine

-- link numbers (R163)

/-- R163: KIND. -/
def linkKind (l : Nat) : Nat := l / 2 ^ 28
/-- R163: the (sending) logical berth. -/
def linkBerth (l : Nat) : Nat := l / 2 ^ 21 % 128
/-- R163: the logical core of a core output link or of core ingest. -/
def linkCore (l : Nat) : Nat := l / 2 ^ 13 % 256
/-- R163: the direction of a core output link or the side of an edge link. -/
def linkDir (l : Nat) : Nat := l / 2 ^ 10 % 4
/-- R163: i of an edge link. -/
def linkIndex (l : Nat) : Nat := l / 2 ^ 6 % 16
/-- R163: the receiving berth of a bridge. -/
def linkTo (l : Nat) : Nat := l / 2 ^ 14 % 128
/-- R163: the stack of a stack bridge. -/
def linkStack (l : Nat) : Nat := l / 2 ^ 17 % 16
/-- R163: whether a stack bridge leads towards the berth. -/
def linkFromStack (l : Nat) : Bool := l / 2 ^ 16 % 2 = 1
/-- R163: whether an optical link comes from the port. -/
def linkFromPort (l : Nat) : Bool := l / 2 ^ 20 % 2 = 1

/-- R163: a core output link. -/
def outLink (b core dir : Nat) : Nat := b * 2 ^ 21 + core * 2 ^ 13 + dir * 2 ^ 10
/-- R163: core ingest. -/
def ingestLink (b core : Nat) : Nat := 2 ^ 28 + b * 2 ^ 21 + core * 2 ^ 13
/-- R163: an edge link. -/
def edgeLink (b side i : Nat) : Nat := 2 * 2 ^ 28 + b * 2 ^ 21 + side * 2 ^ 10 + i * 2 ^ 6
/-- R163: a bridge between berths. -/
def bridgeLink (a b : Nat) : Nat := 3 * 2 ^ 28 + a * 2 ^ 21 + b * 2 ^ 14
/-- R163: a stack bridge. -/
def stackLink (b k : Nat) (fromStack : Bool) : Nat :=
  4 * 2 ^ 28 + b * 2 ^ 21 + k * 2 ^ 17 + (if fromStack then 2 ^ 16 else 0)
/-- R163: an optical link. -/
def opticalLink (b : Nat) (fromPort : Bool) : Nat := 5 * 2 ^ 28 + b * 2 ^ 21 + (if fromPort then 2 ^ 20 else 0)

/-- The opposite of a direction (0 = W, 1 = N, 2 = E, 3 = S). -/
def opposite (d : Nat) : Nat := (d + 2) % 4

/-- R158: the neighbour of a logical core within its berth, none at the berth's edge. -/
def coreNeighbour (core d : Nat) : Option Nat :=
  let r := core / 12
  let k := core % 12
  match d with
  | 0 => if k = 0 then none else some (core - 1)
  | 1 => if r = 0 then none else some (core - 12)
  | 2 => if k = 11 then none else some (core + 1)
  | _ => if r = 11 then none else some (core + 12)

/-- R158: i of the edge link that a core on side `d` meets: its logical row on W and E, its logical column on N and S. -/
def edgeIndex (core d : Nat) : Nat := if d % 2 = 0 then core / 12 else core % 12

/-- R158: the edge core of side `d` at row or column `i`. -/
def edgeCore (d i : Nat) : Nat := match d with
  | 0 => i * 12
  | 1 => i
  | 2 => i * 12 + 11
  | _ => 132 + i

/-- R162: the logical berth whose canonical position neighbours that of `l` in direction `d`. -/
def canonNeighbour (l d : Nat) : Option Nat :=
  let p := canonicalPos l
  match d with
  | 0 => if colOf p = 0 then none else canonicalAt (p - 1)
  | 1 => if rowOf p = 0 then none else canonicalAt (p - 12)
  | 2 => if colOf p = 11 then none else canonicalAt (p + 1)
  | _ => if rowOf p = 6 then none else canonicalAt (p + 12)

/-- R164: the side of berth `a` on which its bridge to berth `b` leaves. -/
def bridgeSide (a b : Nat) : Option Nat := (List.range 4).find? (fun d => canonNeighbour a d = some b)

/-- R41: the classes of links. -/
inductive LinkClass where
  | core | ingest | bridge | seam | optical
  deriving DecidableEq, Repr, Inhabited

/-- R41, R158, R162: the class of a link number. -/
def linkClass (l : Nat) : LinkClass := match linkKind l with
  | 0 => .core
  | 1 => .ingest
  | 2 => .core
  | 3 =>
    let x := colOf (canonicalPos (linkBerth l))
    let y := colOf (canonicalPos (linkTo l))
    if (x = 5 ∧ y = 6) ∨ (x = 6 ∧ y = 5) then .seam else .bridge
  | 4 => .bridge
  | _ => .optical

/-- R41: the number of slot indices of a class. -/
def classRange : LinkClass → Nat
  | .core => 896 | .ingest => 896 | .bridge => 12288 | .seam => 4096 | .optical => 1536

/-- R163, R158, R162: whether the fields of a link number name a valid pair. An optical link is valid for the berths that `slice` lists. -/
def linkValid (slice : List Nat) (l : Nat) : Bool :=
  let b := linkBerth l
  b < 80 && match linkKind l with
  | 0 => linkCore l < 144 && l == outLink b (linkCore l) (linkDir l)
  | 1 => linkCore l < 144 && l == ingestLink b (linkCore l)
  | 2 => linkIndex l < 12 && l == edgeLink b (linkDir l) (linkIndex l)
  | 3 => linkTo l < 80 && (bridgeSide b (linkTo l)).isSome && l == bridgeLink b (linkTo l)
  | 4 => stackAt (canonicalPos b) == some (linkStack l) && l == stackLink b (linkStack l) (linkFromStack l)
  | 5 => slice.contains b && l == opticalLink b (linkFromPort l)
  | _ => false

-- where a slot comes from (R164)

/-- R164: what a SRC code names: the core itself, an arriving link, or something outside the links of the module. -/
inductive Origin where
  | core (c : Nat)
  | link (l : Nat)
  | outside
  | none
  deriving DecidableEq, Repr, Inhabited

/-- R164: the link that arrives on side `d` of a core. -/
def coreInput (b core d : Nat) : Origin := match coreNeighbour core d with
  | some n => .link (outLink b n (opposite d))
  | Option.none => .link (edgeLink b d (edgeIndex core d))

/-- R164: the bridge that arrives on side `d` of a berth. -/
def bridgeInput (b d : Nat) : Origin := match canonNeighbour b d with
  | some n => .link (bridgeLink n b)
  | Option.none => .none

/-- R164: the stack bridge of a berth, towards it. -/
def stackInput (b : Nat) : Origin := match stackAt (canonicalPos b) with
  | some k => .link (stackLink b k true)
  | Option.none => .none

/-- R164: the input that a SRC code names on a link; none for a code that R164 does not list for it. -/
def slotOrigin (l src : Nat) : Origin :=
  let b := linkBerth l
  let core := linkCore l
  match linkKind l with
  | 0 => if src = 0 then .core (b * 144 + core) else if src ≤ 4 then coreInput b core (src - 1) else .none
  | 1 => if 1 ≤ src ∧ src ≤ 4 then coreInput b core (src - 1) else .none
  | 2 =>
    if src = 0 then stackInput b
    else if src = 1 then .link (opticalLink b true)
    else if 0xC ≤ src then bridgeInput b (src - 0xC) else .none
  | 3 => match bridgeSide b (linkTo l) with
    | Option.none => .none
    | some o =>
      if src < 0xC then .link (outLink b (edgeCore o src) o)
      else if src - 0xC = o then stackInput b
      else bridgeInput b (src - 0xC)
  | 4 =>
    if linkFromStack l then (if src = 0 then .outside else .none)
    else
      let o := if linkStack l < 6 then 1 else 3
      if src < 0xC then .link (outLink b (edgeCore o src) o) else bridgeInput b (src - 0xC)
  | _ =>
    if linkFromPort l then (if src = 0 then .outside else .none)
    else if src < 0xC then .link (outLink b (edgeCore 1 src) 1) else .none

-- flows in the running epoch

/-- The record of a flow in a core's flow table, sent or received. -/
def flowRec (blk : CoreBlock) (recv : Bool) (flow : Nat) : Option FlowRec :=
  blk.flows.find? (fun f => f.flow = flow && f.recv == recv)

/-- R47: the slots of a flow of LEN bytes. -/
def slotCount (len : Nat) : Nat := ceilDiv len 512

/-- R46: the flow of the owned slot at position `i` of a link's table, with its SRC and COND. -/
def ownedAt (t : List SlotRun) (i : Nat) : Option SlotRun := ((expandRuns t)[i]?).map Prod.snd

/-- R47: how many of the first `i` owned slots of a table belong to a flow. -/
def flowSlots (t : List SlotRun) (i flow : Nat) : Nat := (((expandRuns t).take i).filter (fun e => e.2.flow = flow)).length

/-- The run of a flow on a link, none when the link is not on the flow's path. -/
def runOf (t : List SlotRun) (flow : Nat) : Option SlotRun := t.find? (fun r => r.flow = flow)

/-- R52: whether a link knows that a flow was cancelled: its path is followed back to the source core, or to the link on which the mark
of a cancelled flow came in from outside. -/
def State.cancelKnown (s : State) (flow : Nat) : Nat → Nat → Bool
  | 0, _ => false
  | fuel + 1, l => match runOf (s.table l) flow with
    | none => false
    | some r => match slotOrigin l r.src with
      | .core c => (s.core c).cancelled.contains flow
      | .link u => s.cancelKnown flow fuel u
      | .outside => (s.link l).marks.contains flow
      | .none => false

/-- There are fewer links than this, so no path is longer. -/
def pathFuel : Nat := 65536

/-- R52: whether a flow that core `c` receives is known to be cancelled. -/
def State.flowCancelled (s : State) (c flow : Nat) : Bool :=
  s.cancelKnown flow pathFuel (ingestLink (c / 144) (c % 144))

/-- R47: whether all slots of a flow have landed at core `c`. -/
def State.flowLanded (s : State) (c : Nat) (r : FlowRec) : Bool :=
  slotCount r.len ≤ (lookup (s.core c).landed r.flow).getD 0

end Sys2Proof.Machine
end

