-- ==== Sys2Proof/Machine/Packets.lean ====
section
/-! DEFINITION. Dynamic packets (R169–R177): headers, the berth to which a packet is routed, its next hop, the buffers of a ring,
injection and refusal, and how a request completes. -/

namespace Sys2Proof.Machine

-- codes of R169–R171

/-- R169: DUNIT of the store controller. -/
def unitStore : Nat := 0xE0
/-- R169: DUNIT of the sampler. -/
def unitSampler : Nat := 0xE1
/-- R169: DUNIT of the berth controller. -/
def unitBerth : Nat := 0xE2
/-- R169: DUNIT of the optical port. -/
def unitPortCode : Nat := 0xE3
/-- R169: DST of the optical port that the inter-module table chooses. -/
def dstOptical : Nat := 0xFE

/-- R170: the codes of TYPE in use. -/
def typeListed (t : Nat) : Bool := t ≤ 4 || (8 ≤ t && t ≤ 0xC)

/-- R170: whether a packet is a response. -/
def isResponse (h : PacketHeader) : Bool := 8 ≤ h.type.toNat

/-- R171: the request types that function `u` of harbour die `d` (0 NW, 1 SE, 2 SW, 3 NE) accepts, none when it is not listed. -/
def harbourAccepts (d u : Nat) : Option (List Nat) := match d, u with
  | 0, 0 => some [0, 1]
  | 0, 1 => some [3]
  | 1, 0 => some [0, 1]
  | 1, 1 => some [3]
  | 2, 0 => some [3]
  | 2, 1 => some [3]
  | 2, 2 => some [3]
  | 2, 3 => some [0]
  | 3, 0 => some [3]
  | 3, 1 => some [3]
  | 3, 2 => some [3]
  | _, _ => none

/-- R170, R171: whether a header's TYPE and unit may be injected. -/
def headerAccepted (h : PacketHeader) : Bool :=
  let d := h.dst.toNat
  typeListed h.type.toNat &&
  (if 0x60 ≤ d ∧ d ≤ 0x63 then match harbourAccepts (d - 0x60) h.dunit.toNat with
    | none => false
    | some l => isResponse h || l.contains h.type.toNat
  else true)

-- the header's words (R169)

/-- R169: the words of a header, HCRC apart. -/
def headerBody (h : PacketHeader) : List Word :=
  let b := fun (x : Bool) => if x then 1 else 0
  [BitVec.ofNat 32 (h.type.toNat + 2 ^ 4 * b h.gen + 2 ^ 5 * b h.fwd + 2 ^ 8 * h.dst.toNat + 2 ^ 16 * h.dunit.toNat + 2 ^ 24 * h.src.toNat),
   BitVec.ofNat 32 (h.sunit.toNat + 2 ^ 8 * h.tag.toNat + 2 ^ 16 * h.len.toNat),
   BitVec.ofNat 32 h.addr.toNat, BitVec.ofNat 32 (h.addr.toNat / 2 ^ 32)]

/-- R169: the four words of a header. -/
def headerWords (h : PacketHeader) : List Word :=
  let l := headerBody h
  l.take 3 ++ [l.getD 3 0 ||| field (Config.headerCrc l).toNat 16]

/-- R169: whether HCRC of a header's words is right. -/
def headerIntact (l : List Word) : Bool :=
  let body := l.take 3 ++ [field (bits (l.getD 3 0) 15 0) 0]
  bits (l.getD 3 0) 31 16 == (Config.headerCrc body).toNat

/-- R358: the two words of the prefix between header and payload of a packet that leaves its module. -/
def prefixWords (h : PacketHeader) : List Word :=
  [field h.dmod.toNat 0 ||| field h.smod.toNat 16, field h.dlb.toNat 0 ||| field h.hops.toNat 8]

/-- R169, R358: the header that four words and the prefix's two spell; without a prefix its fields are 0. -/
def headerOf (l : List Word) : PacketHeader :=
  let w := fun i => l.getD i 0
  { type := BitVec.ofNat 4 (bits (w 0) 3 0), gen := bit (w 0) 4, fwd := bit (w 0) 5, dst := BitVec.ofNat 8 (bits (w 0) 15 8)
    dunit := BitVec.ofNat 8 (bits (w 0) 23 16), src := BitVec.ofNat 8 (bits (w 0) 31 24), sunit := BitVec.ofNat 8 (bits (w 1) 7 0)
    tag := BitVec.ofNat 4 (bits (w 1) 11 8), len := BitVec.ofNat 14 (bits (w 1) 29 16)
    addr := BitVec.ofNat 48 ((w 2).toNat + 2 ^ 32 * bits (w 3) 15 0), dmod := BitVec.ofNat 15 (bits (w 4) 14 0)
    smod := BitVec.ofNat 15 (bits (w 4) 30 16), dlb := BitVec.ofNat 7 (bits (w 5) 6 0), hops := BitVec.ofNat 5 (bits (w 5) 12 8) }

-- routes

/-- R160, R161: the moves from position `x` to position `y` of a ring of `n` in steps of `d` (1 or n − 1): berths that `dark` names
are passed over. -/
def ringMoves (n : Nat) (dark : Nat → Bool) (d : Nat) : Nat → Nat → Nat → Nat
  | 0, _, _ => 0
  | fuel + 1, x, y =>
    if x = y then 0
    else
      let z := (x + d) % n
      (if dark z && z != y then 0 else 1) + ringMoves n dark d fuel z y

/-- R173: the direction of the row leg from column `x` to column `y` in row `r`: the shorter way round, a tie going east. -/
def rowDir (s : State) (r x y : Nat) : Nat :=
  let dark := fun c => s.dark (r * 12 + c)
  if ringMoves 12 dark 1 12 x y ≤ ringMoves 12 dark 11 12 x y then 2 else 0

/-- R173: the direction of the column leg in column `c` from row `x` to row `y`: the shorter way round, a tie going south. -/
def colDir (s : State) (c x y : Nat) : Nat :=
  let dark := fun r => s.dark (r * 12 + c)
  if ringMoves 7 dark 1 7 x y ≤ ringMoves 7 dark 6 7 x y then 3 else 1

/-- R160: the next berth on its ring in a direction. -/
def ringNext (b d : Nat) : Nat := match d with
  | 0 => rowOf b * 12 + (colOf b + 11) % 12
  | 1 => (rowOf b + 6) % 7 * 12 + colOf b
  | 2 => rowOf b * 12 + (colOf b + 1) % 12
  | _ => (rowOf b + 1) % 7 * 12 + colOf b

/-- A move of a packet: along or onto a ring in a direction, or a delivery hop (R176). `turns` says that it enters the ring. -/
inductive Move where
  | ring (b d : Nat) (turns : Bool)
  | delivery (b : Nat)
  | arrived
  | unformable
  deriving DecidableEq, Repr, Inhabited

/-- R192: whether a port uses the skip path over its neighbour. -/
def State.skipOn (s : State) (b d : Nat) : Bool := bit (s.reg .mesh b 0x05C) d

/-- R161, R192: the berth that a ring port joins: its neighbour, or the one behind it while the port uses the skip path. -/
def State.ringFar (s : State) (b d : Nat) : Nat := if s.skipOn b d then ringNext (ringNext b d) d else ringNext b d

/-- R175, R177, R192: the straight move from a berth in a direction, over the skip path where the port uses it; a packet cannot end a leg at
the berth that a skip path passes over, nor pass over two DARK berths. -/
def straight (s : State) (b d target : Nat) (turns : Bool) : Move :=
  if (s.skipOn b d && ringNext b d == target) || s.dark (s.ringFar b d) then .unformable else .ring (s.ringFar b d) d turns

/-- R173: the column leg of a packet at berth `b`. -/
def columnMove (s : State) (b target : Nat) (turns : Bool) : Move :=
  straight s b (colDir s (colOf b) (rowOf b) (rowOf target)) (rowOf target * 12 + colOf b) turns

/-- R176: the direction of a delivery hop along the destination row. -/
def deliveryDir (b target : Nat) : Nat := if ringNext b 0 = target then 0 else 2

/-- R173, R176: the next move of a packet that is at berth `b`; `column` says that it is on a column ring. -/
def nextMove (s : State) (b target : Nat) (column fresh : Bool) : Move :=
  if b = target then .arrived
  else if s.dark target then .unformable
  else if column then
    if rowOf b = rowOf target then (if s.skipOn b (deliveryDir b target) then .unformable else .delivery target)
    else columnMove s b target false
  else if colOf b = colOf target then columnMove s b target true
  else
    let d := rowDir s (rowOf b) (colOf b) (colOf target)
    let n := ringNext b d
    if rowOf b ≠ rowOf target ∧ colOf n = colOf target ∧ s.dark n then columnMove s b target true
    else straight s b d target fresh

/-- Where a packet stands, with whether it is on a column ring and whether it has yet to enter a ring. -/
def packetAt : PacketAt → Nat × Bool × Bool
  | .source b => (b, false, true)
  | .ring b d => (b, d % 2 = 1, false)
  | .delivery b _ => (b, true, false)

/-- The next move of a packet. -/
def State.moveOf (s : State) (p : Packet) : Move :=
  let (b, col, fresh) := packetAt p.loc
  nextMove s b p.target col fresh

/-- R177: whether the route from berth `b` to berth `target` can be formed. -/
def routeOk (s : State) (target : Nat) : Nat → Nat → Bool → Bool
  | 0, _, _ => false
  | fuel + 1, b, col => match nextMove s b target col false with
    | .arrived => true
    | .unformable => false
    | .delivery _ => true
    | .ring n d _ => routeOk s target fuel n (d % 2 = 1)

/-- R172: the number of ring hops from a berth to another. -/
def ringHops (s : State) (a b : Nat) : Nat :=
  let dr := fun c => s.dark (rowOf a * 12 + c)
  let dc := fun r => s.dark (r * 12 + colOf b)
  min (ringMoves 12 dr 1 12 (colOf a) (colOf b)) (ringMoves 12 dr 11 12 (colOf a) (colOf b)) +
  min (ringMoves 7 dc 1 7 (rowOf a) (rowOf b)) (ringMoves 7 dc 6 7 (rowOf a) (rowOf b))

/-- R172: the rim berth to which a packet for a stack is addressed from berth `b`. -/
def rimFor (s : State) (b k : Nat) : Nat :=
  let (x, y) := rimBerths k
  if s.dark x then y else if s.dark y then x
  else if ringHops s b x ≤ ringHops s b y then x else y

-- the inter-module table (R359)

/-- R344: whether a port carries packets. -/
def portLive (s : State) (z : Nat) : Bool := !s.dark z && (s.zport z).st == .up

/-- R346, R354: whether a port is fenced: by its FENCE bit, while the module has no address, or by a partner of another tenant. -/
def State.fenced (s : State) (z : Nat) : Bool :=
  bit (s.reg .zlnk z 0x04C) 8 || s.address.isNone || (match (s.zport z).partner with
    | some p => p.tenant.toNat != bits (s.reg .zlnk 0 0x084) 15 0
    | none => true)

/-- R354: whether a port carries slots, packets and messages. -/
def State.portOpen (s : State) (z : Nat) : Bool := portLive s z && !s.fenced z

/-- R354, R359: the live ports of a role, by index; a fenced port is none (DESIGN CHOICE, log entry 195). -/
def livePorts (s : State) (role : Nat) : List Nat := (List.range 84).filter (fun z => s.portOpen z && (s.zport z).role == role)

/-- R342: a control message takes its place among those that wait: barrier messages before the others. -/
def insCtl (m : CtlMsg) (l : List CtlMsg) : List CtlMsg :=
  let urgent := fun (m : CtlMsg) => match m with
    | .chamois .arrive | .chamois .release | .chamois .abort => true
    | _ => false
  if urgent m then l.takeWhile urgent ++ [m] ++ l.dropWhile urgent else l ++ [m]

/-- R354: whether a fenced port carries a control message. -/
def crossesFence (m : CtlMsg) : Bool := match m with
  | .ack _ | .ident _ => true
  | _ => false

/-- R339, R342, R343, R354: a control message leaves by a port as one flit, or waits while 4,095 flits are outstanding. -/
def State.sendCtl (s : State) (z : Nat) (m : CtlMsg) : State :=
  let x := s.zport z
  if s.fenced z && !crossesFence m then s
  else if 4095 ≤ x.unacked ∨ x.waiting ≠ [] then s.setZport z { x with waiting := insCtl m x.waiting }
  else ({ s with portOut := s.portOut ++ [(z, m)] }).setZport z { x with unacked := x.unacked + 1 }

/-- R339: the control messages that waited leave as far as the window allows. -/
def State.sendWaiting (s : State) (z : Nat) : State :=
  let l := (s.zport z).waiting
  l.foldl (fun s m => s.sendCtl z m) (s.setZport z { s.zport z with waiting := [] })

/-- R339: `n` flits have come in in order at a port: they are acknowledged (log entry 112). -/
def State.received (s : State) (z n : Nat) : State :=
  let q := ((s.zport z).rseq + n) % 4096
  (s.setZport z { s.zport z with rseq := q, flitFails := 0 }).sendCtl z (.ack ((q + 4095) % 4096))

/-- R359: the byte of a routing bank for a destination address. -/
def routeByte (s : State) (bank dest : Nat) : Word := s.regI .zlnk 0 0x09C (bank * 32768 + dest)

/-- R359: the port by which a packet leaves, none when it has no route. -/
def opticalExit (s : State) (h : PacketHeader) : Option Nat :=
  let w := routeByte s (if h.gen then 1 else 0) h.dmod.toNat
  let pick := fun role =>
    let l := livePorts s role
    if role = 15 ∨ l = [] then none else l[(h.src.toNat + h.dunit.toNat) % l.length]?
  match pick (bits w 3 0) with
  | some z => some z
  | none => pick (bits w 7 4)

/-- R169–R172, R359: the berth to which a packet from berth `b` is routed; none when its DST names nothing or it has no route. -/
def targetOf (s : State) (b : Nat) (h : PacketHeader) : Option Nat :=
  let d := h.dst.toNat
  if d < 84 then some d
  else if d < 0x60 then some (rimFor s b (d - 0x54))
  else if d ≤ 0x63 then some (attachBerth (d - 0x60))
  else if d = dstOptical then opticalExit s h
  else none

-- physical links (R158–R161, R173)

/-- The number of a ring port's outgoing link: KIND 3 of R163's layout with the physical berth, the port in bits 15 to 14. -/
def ringWay (b d : Nat) : Nat := 3 * 2 ^ 28 + b * 2 ^ 21 + d * 2 ^ 14

/-- The number of the link at port 4 to 9 of a router, from the attached unit when `from_`. -/
def portWay (b n : Nat) (from_ : Bool) : Nat := 4 * 2 ^ 28 + b * 2 ^ 21 + (if from_ then 2 ^ 20 else 0) + n

/-- The ring port of a ring link. -/
def wayPort (w : Nat) : Nat := w / 2 ^ 14 % 4

/-- R159: the port 4 to 9 of a port link. -/
def unitPortOf (w : Nat) : Nat := w % 16

/-- R173: the core output links from a core to the berth's edge in a direction. -/
def coreWaysOut (b d : Nat) : Nat → Nat → List Nat
  | 0, _ => []
  | fuel + 1, k => outLink b k d :: (match coreNeighbour k d with
    | some n => coreWaysOut b d fuel n
    | none => [])

/-- R173: the core output links from a core on towards another core of its line, then core ingest there. -/
def coreWaysIn (b d k : Nat) : Nat → Nat → List Nat
  | 0, _ => []
  | fuel + 1, j => if j = k then [ingestLink b k] else outLink b j d :: (match coreNeighbour j d with
    | some n => coreWaysIn b d k fuel n
    | none => [])

/-- R173: the links from a berth's router to a core, entering on a side. -/
def coreWays (b side k : Nat) : List Nat :=
  let i := edgeIndex k side
  edgeLink b side i :: coreWaysIn b (opposite side) k 13 (edgeCore side i)

/-- R159: the router port of a unit of a berth, none for a core. -/
def unitPort (u : Nat) : Nat := if u = unitStore then 7 else if u = unitSampler then 8 else if u = unitPortCode then 6 else 9

/-- R173: the links from the source router's berth up to the router: along the core's row for a row leg, along its column otherwise. -/
def leaveWays (b side : Nat) : PacketFrom → List Nat
  | .core k => coreWaysOut b side 13 k
  | .port n => [portWay b n true]

/-- R173: the links from the destination router to the unit that a header names; a packet enters the core's row from W or E and its column
from N or S. -/
def arriveWays (s : State) (b side : Nat) (h : PacketHeader) : List Nat :=
  let d := h.dst.toNat
  if d < 84 then
    if h.dunit.toNat < 0x9C then match logCore (s.berth b).removed h.dunit.toNat with
      | some k => coreWays b side k
      | none => [portWay b 9 false]
    else [portWay b (unitPort h.dunit.toNat) false]
  else if d < 0x60 then [portWay b 4 false]
  else if d ≤ 0x63 then [portWay b 5 false]
  else [portWay b 6 false]

/-- R173: the side on which a packet came into the berth in which it stands. One that has not left its source berth enters a core's row from
the west (log entry 160). -/
def sideOf : PacketAt → Nat
  | .source _ => 0
  | .ring _ q => q
  | .delivery _ q => q

/-- R173, R174: the links that a packet crosses, unit by unit, before it stands whole in its next buffer or at its unit. -/
def State.pathOf (s : State) (p : Packet) : List Nat :=
  let b := (packetAt p.loc).1
  let out := fun (side : Nat) => match p.loc with
    | .source _ => leaveWays b side p.origin
    | _ => []
  match s.moveOf p with
  | .ring _ d _ => out d ++ [ringWay b d]
  | .delivery t => out (deliveryDir b t) ++ [ringWay b (deliveryDir b t)]
  | .arrived => out 3 ++ arriveWays s b (sideOf p.loc) p.h
  | .unformable => []

/-- R45, R169: the units of a packet: its 16 B header and its payload in pieces of 512 B. -/
def unitsOf (p : Packet) : Nat := ceilDiv (16 + p.payload.length) 512

/-- R45: the bytes of unit `k` of a packet. -/
def unitBytes (p : Packet) (k : Nat) : Nat := min 512 (16 + p.payload.length - 512 * k)

/-- How many units of a packet have crossed a link since it last stood whole in a buffer. -/
def crossedOn (p : Packet) (w : Nat) : Nat := (lookup p.crossed w).getD 0

/-- Whether a packet has crossed all of its path. -/
def State.pathDone (s : State) (p : Packet) : Bool := match (s.pathOf p).getLast? with
  | none => true
  | some w => unitsOf p ≤ crossedOn p w

/-- The link that a packet's path takes after a link. -/
def State.wayAfter (s : State) (p : Packet) (w : Nat) : Option Nat :=
  let l := s.pathOf p
  if l.contains w then l[l.idxOf w + 1]? else none

-- buffers (R174, R176)

/-- Whether a packet is in a ring port's buffer, or its units are on their way into it. -/
def State.inRing (s : State) (b q : Nat) (p : Packet) : Bool :=
  p.loc == .ring b q || (match s.moveOf p with
    | .ring n d _ => n == b && opposite d == q && 0 < crossedOn p (ringWay (packetAt p.loc).1 d)
    | _ => false)

/-- Whether a packet is in a router's delivery buffer, reached through ring port `q`, or its units are on their way into it. -/
def State.inDelivery (s : State) (b q : Nat) (p : Packet) : Bool :=
  p.loc == .delivery b q || (match s.moveOf p with
    | .delivery t =>
      let d := deliveryDir (packetAt p.loc).1 t
      t == b && opposite d == q && 0 < crossedOn p (ringWay (packetAt p.loc).1 d)
    | _ => false)

/-- The packets of a traffic class that hold a buffer of a ring port. -/
def ringLoad (s : State) (b d : Nat) (resp : Bool) : Nat :=
  (s.packets.filter (fun p => isResponse p.h == resp && s.inRing b d p)).length

/-- The packets of a traffic class that hold a router's delivery buffer. -/
def deliveryLoad (s : State) (b : Nat) (resp : Bool) : Nat :=
  (s.packets.filter (fun p => isResponse p.h == resp && (List.range 4).any (fun q => s.inDelivery b q p))).length

/-- R174: the units that stand in the 512 B buffers at the end of a link inside a berth, of the classes that `resp` names. -/
def State.unitsHeld (s : State) (w : Nat) (resp : Bool → Bool) : Nat :=
  (s.packets.filter (fun p => resp (isResponse p.h) && (match s.wayAfter p w with
    | some v => crossedOn p v < crossedOn p w
    | none => false))).length

/-- R174, R176: whether the buffer into which a packet moves next may take it. A sink always accepts. -/
def State.bufferFree (s : State) (p : Packet) : Bool := match s.moveOf p with
  | .ring n d turns => ringLoad s n (opposite d) (isResponse p.h) + (if turns then 2 else 1) ≤ 3
  | .delivery t => deliveryLoad s t (isResponse p.h) == 0
  | _ => true

/-- R45, R174: whether the next unit of a packet may cross a link: it has come that far, and the buffer that receives it is free. -/
def State.unitReady (s : State) (w : Nat) (p : Packet) : Bool :=
  let l := s.pathOf p
  let i := l.idxOf w
  l.contains w && crossedOn p w < unitsOf p && (i == 0 || decide (crossedOn p w < crossedOn p (l.getD (i - 1) 0))) &&
  (if i + 1 = l.length then crossedOn p w != 0 || s.bufferFree p else s.unitsHeld w (· == isResponse p.h) == 0)

-- injection and completion

/-- Removes a packet from the mesh. -/
def State.dropPacket (s : State) (id : Nat) : State := { s with packets := s.packets.filter (fun p => p.id ≠ id) }

/-- A packet in the mesh by its number. -/
def State.packet? (s : State) (id : Nat) : Option Packet := s.packets.find? (fun p => p.id = id)

/-- A request that reached its unit by its number. -/
def State.served? (s : State) (id : Nat) : Option Packet := s.delivered.find? (fun p => p.id = id)

/-- Removes a packet that its unit has dealt with. -/
def State.dropServed (s : State) (id : Nat) : State := { s with delivered := s.delivered.filter (fun p => p.id ≠ id) }

/-- R169, R170: the header of the response to a request: its source and unit become the destination. -/
def responseHeader (h : PacketHeader) (len : Nat) : PacketHeader :=
  { h with type := h.type ||| 8#4, dst := h.src, dunit := h.sunit, src := h.dst, sunit := h.dunit, len := BitVec.ofNat 14 len, dmod := h.smod,
           smod := h.dmod }

/-- A request of a core that ends without data: its empty response waits for DYN_RESPONSE_DELIVERY (R130, R166). Other requesters
repeat their request themselves. -/
def State.failRequest (s : State) (p : Packet) : State := match p.core with
  | none => s
  | some _ =>
    if isResponse p.h then { s with delivered := s.delivered ++ [{ p with payload := [] }] }
    else { s with delivered := s.delivered ++ [{ p with h := responseHeader p.h 0, payload := [] }] }

/-- R170, R175, R177: a packet enters at berth `b`, or is refused there with ROUTE and its request ends without data. -/
def State.inject (s : State) (b : Nat) (h : PacketHeader) (payload : List Byte) (origin : PacketFrom) (core : Option Nat) : State :=
  let p : Packet := { id := s.packetNext, h := h, payload := payload, origin := origin, loc := .source b, target := b, core := core }
  match targetOf s b h with
  | none =>
    if h.dst.toNat = dstOptical then (s.raise .zlnk b 6).failRequest p else (s.raise .mesh b 3).failRequest p
  | some t =>
    if headerAccepted h && routeOk s t 24 b false then
      { s with packets := s.packets ++ [{ p with target := t }], packetNext := s.packetNext + 1 }
    else (s.raise .mesh b 3).failRequest p

/-- R159: the router port of the unit that a request reached. -/
def servedPort (h : PacketHeader) : Nat :=
  let d := h.dst.toNat
  if d < 84 then unitPort h.dunit.toNat else if d < 0x60 then 4 else if d ≤ 0x63 then 5 else 6

/-- R170: a unit answers a request that it has served. The response leaves by the berth at which the request arrived; one to another module
carries the request's SRC in DLB (log entry 47). -/
def State.respond (s : State) (p : Packet) (data : List Byte) : State :=
  let h := responseHeader p.h data.length
  let away := { h with dst := BitVec.ofNat 8 dstOptical, dlb := BitVec.ofNat 7 p.h.src.toNat, gen := decide (s.gen.gennum % 2 = 1), hops := 0 }
  (s.dropServed p.id).inject p.target (if p.h.fwd then away else h) data (.port (servedPort p.h)) p.core

-- traffic counters (R187–R191)

/-- R187: the selector copy of a port's counter, output side when `out`. -/
def portSel (port : Nat) (out : Bool) : Nat := (if out then 64 else 0) + port

/-- Adds to a wrapping counter of a router port. -/
def State.countPort (s : State) (b off port : Nat) (out : Bool) (n : Nat) : State :=
  s.setRegI .mesh b off (portSel port out) (s.regI .mesh b off (portSel port out) + BitVec.ofNat 32 n)

/-- R159, R187: the router ports that a physical link joins: berth, port and side (output when true), first at its sending end. -/
def State.wayPorts (s : State) (w : Nat) : List (Nat × Nat × Bool) :=
  let b := linkBerth w
  match linkKind w with
  | 0 => match coreNeighbour (linkCore w) (linkDir w) with
    | some _ => []
    | none => [(b, 16 + 12 * linkDir w + edgeIndex (linkCore w) (linkDir w), false)]
  | 2 => [(b, 16 + 12 * linkDir w + linkIndex w, true)]
  | 3 => [(b, wayPort w, true), (s.ringFar b (wayPort w), opposite (wayPort w), false)]
  | 4 => [(b, unitPortOf w, !linkFromPort w)]
  | _ => []

/-- R188: traffic that passes over a link is counted at the router ports that it joins, on one side. -/
def State.countWay (s : State) (w off : Nat) (out : Bool) (n : Nat) : State :=
  ((s.wayPorts w).filter (fun e => e.2.2 == out)).foldl (fun s e => s.countPort e.1 off e.2.1 out n) s

/-- R168: whether a link crosses the seam by its bridge. -/
def State.seamWay (s : State) (w : Nat) : Bool :=
  let b := linkBerth w
  let d := wayPort w
  linkKind w == 3 && !s.skipOn b d && ((colOf b == 5 && d == 2) || (colOf b == 6 && d == 0))

/-- R166, R167: the units that may be under way on a link: the 16 entries of a seam bridge's FIFO, else the 4 of the replay buffer. -/
def State.wayRoom (s : State) (w : Nat) : Nat := if s.seamWay w then 16 else 4

-- units under way (R166, R168)

/-- R166: the units of a link that may still fail: the last 4 that were sent. -/
def retryWindow (l : List LinkUnit) : List LinkUnit := l.drop (l.length - 4)

/-- A link with other units under way; failures are counted of the oldest unit that may fail. -/
def Way.flight (x : Way) (l : List LinkUnit) : Way :=
  { x with inflight := l, fails := if (retryWindow l).head? = (retryWindow x.inflight).head? then x.fails else 0 }

/-- R166, R167: dynamic units at the head of the units under way have been received: their packet's next buffer is theirs already. -/
def readHeads : List LinkUnit → List LinkUnit
  | .dyn _ _ :: t => readHeads t
  | l => l

/-- R168, R446: a link as a barrier or an abort leaves it: its dynamic units are kept. -/
def Way.kept (x : Way) : Way := ({ fails := x.fails, inflight := x.inflight } : Way).flight (x.inflight.filter (fun u => match u with
  | .dyn _ _ => true
  | _ => false))

/-- R168: the links without their scheduled slots, at the start of an epoch or after an abort. -/
def State.keepDynamic (s : State) : State := { s with links := [], ways := (s.ways.map (fun e => (e.1, e.2.kept))).filter (fun e => e.2 ≠ {}) }

-- the physical links of a logical one (R64, R162, R177)

/-- R64, R177: the links of a tunnel from berth `b` to berth `target`, none when its route cannot be formed. -/
def tunnelWays (s : State) (target : Nat) : Nat → Nat → Bool → Option (List Nat)
  | 0, _, _ => none
  | fuel + 1, b, col => match nextMove s b target col true with
    | .arrived => some []
    | .unformable => none
    | .delivery t => some [ringWay b (deliveryDir b t)]
    | .ring n d _ => (tunnelWays s target fuel n (d % 2 = 1)).map (ringWay b d :: ·)

/-- R353, R354, R364: the port by which an optical link's slots cross, none when it has been lost and not remapped, or is fenced. -/
def opticalPort (s : State) (l : Nat) : Option Nat :=
  let z := canonicalPos (linkBerth l)
  if s.portOpen z then some z
  else match (s.zport z).remap with
    | some y => if s.portOpen y then some y else none
    | none => none

/-- R64, R162: the physical links over which a logical link's slots travel at present: one while its ends adjoin, else those of a tunnel;
none when no route can be formed. -/
def State.linkWays (s : State) (l : Nat) : Option (List Nat) := match s.physOf (linkBerth l) with
  | none => none
  | some b => match linkKind l with
    | 0 => some [outLink b (linkCore l) (linkDir l)]
    | 1 => some [ingestLink b (linkCore l)]
    | 2 => some [edgeLink b (linkDir l) (linkIndex l)]
    | 3 => match s.physOf (linkTo l) with
      | none => none
      | some c => tunnelWays s c 24 b false
    | 4 =>
      let r := if stackAt b = some (linkStack l) then b else rimFor s b (linkStack l)
      if linkFromStack l then (tunnelWays s b 24 r false).map (portWay r 4 true :: ·)
      else (tunnelWays s r 24 b false).map (· ++ [portWay r 4 false])
    | _ => match opticalPort s l with
      | none => none
      | some z =>
        if linkFromPort l then (tunnelWays s b 24 z false).map (portWay z 6 true :: ·)
        else (tunnelWays s z 24 b false).map (· ++ [portWay z 6 false])

end Sys2Proof.Machine
end

