-- ==== Sys2Proof/Machine/StoreOps.lean ====
section
/-! DEFINITION. Operations on a berth's store die (R128, R196, R205, R214, R219) that several commands share. -/

namespace Sys2Proof.Machine

/-- R196: the lines of a store die. -/
def storeLines : Nat := 2 ^ 26

/-- The bytes of a line of a physical berth's store die. -/
def State.line (s : State) (b line : Nat) : List Byte := Memory.read (s.berth b).store (line % storeLines * 128) 128

/-- Bytes from an offset of a store die. -/
def State.storeBytes (s : State) (b off n : Nat) : List Byte := Memory.read (s.berth b).store off n

/-- Writes bytes from an offset of a store die, behind the store controller's back. -/
def State.storePut (s : State) (b off : Nat) (data : List Byte) : State :=
  let x := s.berth b
  s.setBerth b { x with store := Memory.write x.store off data }

/-- R196: the bank of a line (vault × 16 + bank, R220). -/
def bankOf (line : Nat) : Nat := line % 128 * 16 + line / 128 % 16
/-- R196: the line's place within its row. -/
def lineInRow (line : Nat) : Nat := line / 2 ^ 11 % 16
/-- R196: the row of a line within its bank. -/
def rowOfLine (line : Nat) : Nat := line / 2 ^ 15 % 2048
/-- A row of a berth's store die: bank × 2,048 + row. -/
def rowKey (line : Nat) : Nat := bankOf line * 2048 + rowOfLine line
/-- R196: the line at a place of a row. -/
def lineOf (key place : Nat) : Nat := key / 2048 / 16 + key / 2048 % 16 * 128 + place * 2 ^ 11 + key % 2048 * 2 ^ 15

/-- The lines that a range of bytes touches. -/
def linesOf (off n : Nat) : List Nat := if n = 0 then [] else (List.range ((off + n - 1) / 128 - off / 128 + 1)).map (· + off / 128)

/-- R202: an access activates the row of its line (log entry 182). -/
def activate (x : BerthSt) (line : Nat) : BerthSt :=
  { x with activations := Sparse.set (fun _ => 0) x.activations (rowKey line) (Sparse.get (fun _ => 0) x.activations (rowKey line) + 1) }

/-- R83, R198: reads of a line that arrived before a write return what the line held, and later ones join none of their entries (log entry
180). -/
def keepReads (x : BerthSt) (lines : List Nat) : BerthSt :=
  { x with entries := x.entries.map (fun m =>
      if lines.contains m.line then { m with opened := false, data := m.data.or (some (Memory.read x.store (m.line * 128) 128)) } else m) }

/-- R198: writes bytes from an offset of a store die, after the accesses that arrived before. -/
def State.storeWrite (s : State) (b off : Nat) (data : List Byte) : State :=
  let l := linesOf off data.length
  (s.setBerth b (l.foldl activate (keepReads (s.berth b) l))).storePut b off data

/-- R128: lines written in ascending order, wrapping within the die. -/
def State.writeLines (s : State) (b : Nat) : Nat → Nat → List Byte → State
  | 0, _, _ => s
  | n + 1, line, data => (s.storeWrite b (line % storeLines * 128) (data.take 128)).writeLines b n (line + 1) (data.drop 128)

/-- R214: the region of a line: 0 weight region, 1 KV pool, 2 reserve. -/
def State.regionOf (s : State) (b line : Nat) : Nat :=
  if 0x3E00000 ≤ line then 2 else if s.kvBase b * 16384 ≤ line then 1 else 0

/-- R214, R230: the line of the other mirror copy of a line of the reserve. -/
def mirrorLine (line : Nat) : Nat := if line < 0x3F00000 then line + 0x100000 else line - 0x100000

/-- R219: the first uncorrectable line since UNCORR was cleared is recorded. -/
def State.logStoreError (s : State) (b line : Nat) : State :=
  if bit (s.reg .stor b 0x048) 31 then s
  else s.setReg .stor b 0x048 (flag true 31 ||| field (s.regionOf b line) 28 ||| field line 0)

/-- R206, R220: the spare rows used in a bank. -/
def sparesUsed (x : BerthSt) (bank : Nat) : Nat := (lookup x.spareRows bank).getD 0

/-- R206: 24 hours in PCLK. -/
def dayPclk : Nat := 86400 * 212500000

/-- R206: an error of a line's row is noted, with those of the last 24 hours. -/
def State.noteRow (s : State) (b line : Nat) (lost : Bool) : State :=
  let x := s.berth b
  let now := s.stamp.toNat
  s.setBerth b { x with rowErrors := x.rowErrors.filter (fun e => now < e.2.1 + dayPclk) ++ [(rowKey line, now, lost)] }

/-- R206: whether a row is to be remapped: it returned an uncorrectable error, or 16 corrected ones within 24 hours. -/
def rowDue (x : BerthSt) (now key : Nat) : Bool :=
  let l := x.rowErrors.filter (fun e => e.1 = key && now < e.2.1 + dayPclk)
  l.any (fun e => e.2.2) || decide (16 ≤ l.length)

/-- R204, R206, R217: a line was corrected. -/
def State.lineCorrected (s : State) (b line : Nat) : State := (s.noteRow b line false).raise .stor b 0

/-- R205, R206, R219: a line could not be corrected: it is recorded and waits for its repair. -/
def State.lineLost (s : State) (b line : Nat) : State :=
  let s := (s.logStoreError b line).noteRow b line true
  let x := s.berth b
  s.setBerth b { x with badLines := x.badLines.filter (· ≠ line) ++ [line] }

end Sys2Proof.Machine
end

