-- ==== Sys2Proof/Machine/Mesh.lean ====
section
/-! DEFINITION. The bulk mesh: scheduled slots and dynamic units on links (R43–R52, R166), dynamic packets on the rings and at their
destinations (R173–R177), and the counters of the MESH page (R186–R193). -/

namespace Sys2Proof.Machine

-- scheduled slots

/-- R43, R47: the bytes of slot `k` of a flow in its source core's scratchpad. -/
def slotData (k : Core) (r : FlowRec) (i : Nat) : List Byte := Memory.read k.scratch (r.addr + 512 * i) (min 512 (r.len - 512 * i))

/-- R77: what the egress read of a slot records at its source core. -/
def State.noteEgress (s : State) (l : Nat) (src : Nat) (u : SlotUnit) : State := match slotOrigin l src with
  | .core c => match flowRec (s.block c) false u.flow with
    | some f => s.noteRead c (s.core c) (f.addr + 512 * u.k) u.data.length
    | none => s
  | _ => s

/-- R77: whether the egress read of a slot meets an uncorrectable error, so that nothing is delivered. -/
def State.egressLost (s : State) (l : Nat) (src : Nat) (u : SlotUnit) : Bool := match slotOrigin l src with
  | .core c => match flowRec (s.block c) false u.flow with
    | some f => unreadable (s.core c) (f.addr + 512 * u.k) u.data.length
    | none => false
  | _ => false

/-- R44: the data of the next owned slot of a link, none while it is not ready. -/
def State.slotReady (s : State) (l : Nat) (external : List Byte) : Option SlotUnit :=
  let t := s.table l
  let lk := s.link l
  match ownedAt t lk.pos with
  | none => none
  | some r =>
    let i := flowSlots t lk.pos r.flow
    match slotOrigin l r.src with
    | .core c =>
      if (s.core c).sent.contains r.flow then
        (flowRec (s.block c) false r.flow).map (fun f => { flow := r.flow, k := i, data := slotData (s.core c) f i })
      else none
    | .link u => (s.link u).staged.find? (fun x => x.flow = r.flow && x.k = i && !x.data.isEmpty)
    | .outside => if external.isEmpty then none else some { flow := r.flow, k := i, data := external.take 512 }
    | .none => none

/-- R50: a staged slot leaves its buffer once every link that takes it from there has issued it. -/
def State.releaseStaged (s : State) (u flow i : Nat) : State :=
  let waiting := s.curEpoch.links.any (fun e => match runOf e.2 flow with
    | none => false
    | some r => slotOrigin e.1 r.src == .link u && flowSlots e.2 (s.link e.1).pos flow ≤ i)
  if waiting then s
  else
    let x := s.link u
    s.setLink u { x with staged := x.staged.filter (fun y => !(y.flow = flow && y.k = i && !y.data.isEmpty)) }

-- physical links (R64, R166, R167)

/-- R44: whether the next slot of hop `hop` of a logical link is ready. -/
def State.hopReady (s : State) (l hop : Nat) : Bool :=
  if hop = 0 then (s.slotReady l []).isSome else (s.link l).tunnel.any (fun e => e.1 = hop)

/-- R64: the logical links whose slots cross a physical link, with the hop that crosses it and whether they are tunnels. -/
def State.slotsOver (s : State) (w : Nat) : List (Nat × Nat × Bool) :=
  s.curEpoch.links.flatMap (fun e => match s.linkWays e.1 with
    | none => []
    | some l => if l.contains w then [(e.1, l.idxOf w, decide (1 < l.length))] else [])

/-- R64: whether a slot gives way on a link: the last slot was of its kind (of a tunnel, or the link's own), and one of the other kind is
ready. -/
def State.givesWay (s : State) (w : Nat) (tunnel : Bool) : Bool :=
  (s.way w).lastTunnel == tunnel && (s.slotsOver w).any (fun e => e.2.2 != tunnel && s.hopReady e.1 e.2.1)

/-- R336, R339: whether a link leads to an optical port. -/
def towardsPort (w : Nat) : Bool := linkKind w == 4 && unitPortOf w == 6 && !linkFromPort w

/-- R336, R339: whether the replay buffer of an optical port has room for the 8 flits of a slot. -/
def State.windowFree (s : State) (w : Nat) : Bool := !towardsPort w || decide ((s.zport (linkBerth w)).unacked + 8 ≤ 4095)

/-- R336, R339: the flits of a slot that leaves by an optical port are held until they are acknowledged. -/
def State.useWindow (s : State) (w : Nat) : State :=
  if towardsPort w then s.setZport (linkBerth w) { s.zport (linkBerth w) with unacked := (s.zport (linkBerth w)).unacked + 8 } else s

/-- R339: the flits of a slot that an optical port has received are acknowledged. -/
def State.ackSlot (s : State) (w : Nat) : State :=
  if linkKind w = 4 ∧ unitPortOf w = 6 ∧ linkFromPort w = true then s.received (linkBerth w) 8 else s

/-- R166, R167: the units under way once a link has made what room it can: a seam bridge's FIFO is read by the other half's clock alone. -/
def State.madeRoom (s : State) (w : Nat) : List LinkUnit :=
  let l := (s.way w).inflight
  if l.length < s.wayRoom w || s.seamWay w then l else readHeads l

/-- R44, R45, R64, R167: whether a scheduled slot must wait for a link: no entry is free, dynamic traffic has its turn, or the slot gives
way. -/
def State.slotHeld (s : State) (w : Nat) (tunnel : Bool) : Bool :=
  decide (s.wayRoom w ≤ (s.madeRoom w).length) || (decide (15 ≤ (s.way w).sinceDyn) && s.packets.any (s.unitReady w)) || s.givesWay w tunnel ||
  !s.windowFree w

/-- R193: the peak occupancy of a seam bridge's outgoing FIFO, kept minus one. -/
def State.trackSeam (s : State) (w : Nat) : State :=
  if s.seamWay w then
    let b := linkBerth w
    let r := s.reg .mesh b 0x060
    s.setReg .mesh b 0x060 (putBits r 23 20 (max (bits r 23 20) (min 15 ((s.way w).inflight.length - 1))))
  else s

/-- A unit of `flits` flits issues onto a link, whose counts `f` updates. -/
def State.issueOn (s : State) (w : Nat) (u : LinkUnit) (flits : Nat) (f : Way → Way) : State :=
  let x := (s.way w).flight (s.madeRoom w ++ [u])
  ((s.setWay w (f x)).countWay w 0x044 true flits).trackSeam w

/-- A scheduled slot issues onto a link; `own` says that the logical link's sending router sends it (R191). -/
def State.issueSlot (s : State) (w l hop : Nat) (u : SlotUnit) (tunnel own : Bool) : State :=
  ((s.issueOn w (.slot l hop u) (ceilDiv u.data.length 64) (fun x =>
    { x with sinceDyn := x.sinceDyn + 1, owned := x.owned + (if own then 1 else 0), lastTunnel := tunnel })).useWindow w).ackSlot w

-- SLOT_ISSUE

/-- R44, R47: the next owned slot of a logical link. A cancelled flow's slot is skipped (R52); a slot that is not ready holds back every later
one. A slot that was to cross a lost port sets SCHED_LOST (R364). -/
def State.issueOwned (s : State) (l : Nat) (external : List Byte) : State :=
  let lk := s.link l
  match ownedAt (s.table l) lk.pos with
  | none => s
  | some r =>
    if r.cond && s.cancelKnown r.flow pathFuel l then s.setLink l { lk with pos := lk.pos + 1 }
    else if slotOrigin l r.src == .outside && external.isEmpty && r.cond then
      s.setLink l { lk with pos := lk.pos + 1, marks := lk.marks.filter (· ≠ r.flow) ++ [r.flow] }
    else match s.linkWays l with
      | some (w :: rest) =>
        if s.slotHeld w (!rest.isEmpty) then s
        else match s.slotReady l external with
          | none => s
          | some u =>
            let lost := s.egressLost l r.src u
            let s := s.noteEgress l r.src u
            if lost then s
            else
            let s := (s.setLink l { lk with pos := lk.pos + 1 }).issueSlot w l 0 u (!rest.isEmpty) true
            match slotOrigin l r.src with
            | .link v => s.releaseStaged v u.flow u.k
            | _ => s
      | _ => if linkKind l = 5 ∧ opticalPort s l = none then s.raiseOnce .zlnk (canonicalPos (linkBerth l)) 3 else s

/-- The first element of a list that meets a test, and the others. -/
def takeFirst {α : Type} (p : α → Bool) : List α → Option (α × List α)
  | [] => none
  | a :: t => if p a then some (a, t) else (takeFirst p t).map (fun x => (x.1, a :: x.2))

/-- R64: the oldest slot of a tunnel that is staged before hop `hop` goes on. -/
def State.issueTunnel (s : State) (l hop : Nat) : State :=
  let lk := s.link l
  match (s.linkWays l).bind (fun ws => ws[hop]?), takeFirst (fun e => e.1 == hop) lk.tunnel with
  | some w, some ((_, u), rest) =>
    if s.slotHeld w true then s else (s.setLink l { lk with tunnel := rest }).issueSlot w l hop u true false
  | _, _ => s

/-- R44, R47, R64: SLOT_ISSUE of hop `hop` of a logical link; hop 0 is the sending router's. After 15 owned slots a waiting dynamic unit has
its turn. -/
def execSlotIssue (link : Word) (hop : Nat) (external : List Byte) (s : State) : Res :=
  .next (if s.coresMode ≠ .run then s else if hop = 0 then s.issueOwned link.toNat external else s.issueTunnel link.toNat hop)

-- SLOT_LANDING

/-- R79, R47: a slot lands in the destination buffer of its flow; a core without a record for it refuses the ingest, with ADDR 0 (DESIGN
CHOICE, log entry 170). -/
def State.ingest (s : State) (c : Nat) (u : SlotUnit) : State :=
  let k := s.core c
  match flowRec (s.block c) true u.flow with
  | none => s.boundsFault c 6 0 0
  | some r =>
    let n := (lookup k.landed u.flow).getD 0
    s.setCore c { k.put (r.addr + 512 * u.k) (u.data.take (r.len - 512 * u.k)) with
                         landed := k.landed.filter (fun e => e.1 ≠ u.flow) ++ [(u.flow, n + 1)] }

/-- R189: the peak staging occupancy of the input port that a link feeds. -/
def State.trackStaging (s : State) (l w : Nat) : State :=
  ((s.wayPorts w).filter (fun e => !e.2.2)).foldl (fun s e =>
    let i := portSel e.2.1 false
    let r := s.regI .mesh e.1 0x04C i
    s.setRegI .mesh e.1 0x04C i (putBits r 28 24 (max (bits r 28 24) (min 16 (s.link l).staged.length)))) s

/-- R47, R50, R64: a slot has crossed the last link of its logical link: it is at its destination core, has left for a stack or port, or is
staged. -/
def State.slotEnds (s : State) (l w : Nat) (u : SlotUnit) (tunnel : Bool) : State :=
  if linkKind l = 1 then s.ingest (linkBerth l * 144 + linkCore l) u
  else if (linkKind l = 4 ∧ !linkFromStack l) ∨ (linkKind l = 5 ∧ !linkFromPort l) then s
  else
    let s := s.setLink l { s.link l with staged := (s.link l).staged ++ [u] }
    if tunnel then s else s.trackStaging l w

/-- R47, R50, R64: SLOT_LANDING: the oldest unit on the physical link of hop `hop` is a slot of this logical link and arrives: at the next
router of a tunnel, or at the end. A slot that is no tunnel's needs one of the 16 staging buffers there. -/
def execSlotLanding (link : Word) (hop : Nat) (s : State) : Res :=
  .next (let l := link.toNat
    if s.coresMode ≠ .run then s
    else match s.linkWays l with
      | none => s
      | some ws => match ws[hop]? with
        | none => s
        | some w => match readHeads (s.way w).inflight with
          | .slot l' h' u :: rest =>
            if l' ≠ l ∨ h' ≠ hop ∨ (ws.length = 1 ∧ 16 ≤ (s.link l).staged.length) then s
            else
              let s := (s.setWay w ((s.way w).flight rest)).countWay w 0x044 false (ceilDiv u.data.length 64)
              if hop + 1 < ws.length then s.setLink l { s.link l with tunnel := (s.link l).tunnel ++ [(hop + 1, u)] }
              else s.slotEnds l w u (decide (1 < ws.length))
          | _ => s)

-- dynamic units

/-- R189: the dynamic buffers that are occupied at a router's input port. -/
def State.dynAt (s : State) (b port : Nat) : Nat :=
  if port < 4 then ringLoad s b port false + ringLoad s b port true + (s.packets.filter (s.inDelivery b port)).length
  else if port < 10 then s.unitsHeld (portWay b port true) (fun _ => true)
  else
    let side := (port - 16) / 12
    s.unitsHeld (outLink b (edgeCore side ((port - 16) % 12)) side) (fun _ => true)

/-- R189: the peak dynamic occupancy of the input port that a link feeds. -/
def State.trackDyn (s : State) (w : Nat) : State :=
  ((s.wayPorts w).filter (fun e => !e.2.2)).foldl (fun s e =>
    let i := portSel e.2.1 false
    let r := s.regI .mesh e.1 0x04C i
    s.setRegI .mesh e.1 0x04C i (putBits r 15 8 (max (bits r 15 8) (s.dynAt e.1 e.2.1)))) s

/-- Replaces a packet by its number. -/
def State.setPacket (s : State) (id : Nat) (f : Packet → Packet) : State :=
  { s with packets := s.packets.map (fun p => if p.id = id then f p else p) }

/-- R188: the last unit of a packet has crossed a link: one more packet has passed the ports that the link joins. -/
def State.countPacket (s : State) (w : Nat) (p : Packet) : State :=
  if crossedOn p w + 1 = unitsOf p then (s.countWay w 0x048 true 1).countWay w 0x048 false 1 else s

/-- R44, R45: DYNAMIC_UNIT_ISSUE: the next unit of a packet crosses a physical link of its path while no owned slot is ready there, or after
15 owned slots. -/
def execDynamicUnitIssue (way : Word) (packet : Nat) (s : State) : Res :=
  .next (let w := way.toNat
    match s.packet? packet with
    | none => s
    | some p =>
      if !s.unitReady w p ∨ s.wayRoom w ≤ (s.madeRoom w).length ∨
          ((s.way w).sinceDyn < 15 ∧ s.coresMode = .run ∧ (s.slotsOver w).any (fun e => s.hopReady e.1 e.2.1) = true) then s
      else
        let k := crossedOn p w
        let flits := ceilDiv (unitBytes p k) 64
        let s := (s.issueOn w (.dyn packet k) flits (fun x => { x with sinceDyn := 0, dyn := x.dyn + 1 })).countWay w 0x044 false flits
        ((s.countPacket w p).setPacket packet (fun q => { q with crossed := Sparse.insert q.crossed w (k + 1) })).trackDyn w)

-- retries (R166)

/-- R190: a retry is counted at the router ports of the link. -/
def State.countRetry (s : State) (w : Nat) : State :=
  (s.wayPorts w).foldl (fun s e =>
    let i := portSel e.2.1 e.2.2
    let r := s.regI .mesh e.1 0x058 i
    s.setRegI .mesh e.1 0x058 i (putBits r 15 0 (min (bits r 15 0 + 1) 65535))) s

/-- R166: the ninth failure of a unit ends its transmission; a dynamic unit is then not delivered. -/
def State.ninthFailure (s : State) (w : Nat) : LinkUnit → State
  | .slot _ _ _ => s.setWay w { s.way w with fails := 0 }
  | .dyn id k =>
    let s := s.setWay w { s.way w with fails := 0, inflight := (s.way w).inflight.filter (· ≠ .dyn id k) }
    match s.packet? id with
    | none => s
    | some p => (s.dropPacket id).failRequest p

/-- R166: the oldest unit of a link's replay buffer fails its check; its sending berth reports it. -/
def State.unitFails (s : State) (w : Nat) (u : LinkUnit) : State :=
  let b := linkBerth w
  let s := (s.countRetry w).raise .mesh b 0
  let x := s.way w
  if x.fails + 1 < 9 then s.setWay w { x with fails := x.fails + 1 } else (s.raise .mesh b 1).ninthFailure w u

/-- R166: UNIT_RETRY: the oldest unit of the replay buffer of an on-wafer link fails its check and is retransmitted with every later one, in
their order; the ninth failure ends it. -/
def execUnitRetry (way : Word) (s : State) : Res :=
  .next (let w := way.toNat
    match retryWindow (s.way w).inflight with
    | u :: _ => if linkKind w = 4 ∧ unitPortOf w = 6 then s else s.unitFails w u
    | [] => s)

-- packets on the rings

/-- R174: a packet has moved whole into its next buffer: its units have left the links of its path. -/
def State.movePacket (s : State) (p : Packet) (a : PacketAt) : State :=
  ((s.pathOf p).foldl (fun s w => s.setWay w ((s.way w).flight ((s.way w).inflight.filter (fun u => match u with
    | .dyn id _ => id ≠ p.id
    | _ => true)))) s).setPacket p.id (fun q => { q with loc := a, crossed := [] })

/-- R177: a packet whose route can no longer be formed is refused, and its request ends without data. -/
def State.refusePacket (s : State) (p : Packet) : State :=
  ((s.dropPacket p.id).raise .mesh (packetAt p.loc).1 3).failRequest p

/-- R174: RING_HOP: a packet all of whose units have crossed stands whole in the buffer that its first unit took. -/
def execRingHop (packet : Nat) (s : State) : Res :=
  .next (match s.packet? packet with
    | none => s
    | some p => match s.moveOf p with
      | .ring n d _ => if s.pathDone p then s.movePacket p (.ring n (opposite d)) else s
      | .unformable => s.refusePacket p
      | _ => s)

/-- R176: DELIVERY_HOP: a packet all of whose units have made the hop stands in the class's delivery buffer. -/
def execDeliveryHop (packet : Nat) (s : State) : Res :=
  .next (match s.packet? packet with
    | none => s
    | some p => match s.moveOf p with
      | .delivery t => if s.pathDone p then s.movePacket p (.delivery t (opposite (deliveryDir (packetAt p.loc).1 t))) else s
      | _ => s)

/-- A packet has reached its unit and waits there to be dealt with. -/
def State.deliver (s : State) (p : Packet) : State := { s.dropPacket p.id with delivered := s.delivered ++ [p] }

/-- R169, R20: the logical core that a physical core of a berth serves. -/
def coreOfUnit (s : State) (b u : Nat) : Option Nat :=
  (logCore (s.berth b).removed u).map (fun i => (s.berth b).logical * 144 + i)

/-- R130, R217: a request from outside a berth to its store slice: the range check, then a write at once, or a read that waits for its
lines. -/
def State.serveStore (s : State) (p : Packet) : State :=
  if 2 ^ 33 < p.h.addr.toNat + p.h.len.toNat then ((s.dropPacket p.id).raise .stor p.target 8).respond p []
  else if p.h.type = 1 then ((s.dropPacket p.id).storeWrite p.target p.h.addr.toNat (p.payload.take p.h.len.toNat)).respond p []
  else if p.h.type = 0 then s.deliver { p with payload := [] }
  else s.dropPacket p.id

/-- R221, R282: a request that reaches a stack waits at its controller or at its pager. -/
def State.serveStack (s : State) (k : Nat) (p : Packet) : State :=
  let x := s.stack k
  if p.h.dunit = 0 ∧ (p.h.type = 0 ∨ p.h.type = 1) then
    (s.deliver p).setStack k { x with reqs := x.reqs ++
      [{ packet := p.id, write := p.h.type = 1, offset := p.h.addr.toNat, len := p.h.len.toNat, data := p.payload }] }
  else if p.h.dunit = 1 ∧ p.h.type = 2 then (s.deliver p).setStack k { x with pager := x.pager ++ [p.id] }
  else s.dropPacket p.id

/-- R171: a request that reaches a function of a harbour die: a host port reads or writes its host's memory; any other function holds it. -/
def State.serveHarbour (s : State) (p : Packet) : State :=
  if p.h.dunit = 0 ∧ (p.h.dst = 0x60 ∨ p.h.dst = 0x61) then
    let a := hostKey (if p.h.dst = 0x60 then .a else .b) p.h.addr.toNat
    if p.h.type = 1 then ({ s.dropPacket p.id with hostMem := Memory.write s.hostMem a p.payload }).respond p []
    else (s.dropPacket p.id).respond p (Memory.read s.hostMem a p.h.len.toNat)
  else s.deliver p

/-- R169, R171, R173: PACKET_ARRIVAL: all units have reached the unit. A failed header check drops the packet. -/
def execPacketArrival (packet : Nat) (crcBad : Bool) (s : State) : Res :=
  .next (match s.packet? packet with
    | none => s
    | some p =>
      if s.moveOf p ≠ .arrived ∨ s.pathDone p = false ∨ p.h.dst.toNat = dstOptical then s
      else if crcBad then (s.dropPacket packet).raise .mesh p.target 2
      else
        let d := p.h.dst.toNat
        let u := p.h.dunit.toNat
        if isResponse p.h then
          if d < 84 ∧ u < 0x9C then
            s.deliver { p with core := match p.core with | some c => some c | none => coreOfUnit s d u }
          else if 0x60 ≤ d then s.deliver p
          else s.dropPacket packet
        else if d < 84 then (if u = unitStore then s.serveStore p else s.dropPacket packet)
        else if d < 0x60 then s.serveStack (d - 0x54) p
        else s.serveHarbour p)

/-- R168, R186: a seam FIFO has lost alignment. -/
def execSeamSync (b : Berth) (s : State) : Res :=
  .next (if colOf b.val = 5 ∨ colOf b.val = 6 then s.raise .mesh b.val 5 else s)

end Sys2Proof.Machine
end

