-- ==== Sys2Proof/Machine/Slices.lean ====
section
/-! DEFINITION. The tree over a slice (R351, R355, R361): gather members, the edges of this module, and control messages sent over them. -/

namespace Sys2Proof.Machine

/-- The position of the lowest set bit of a number below 2^13; 13 for zero. -/
def lowestBit (t : Nat) : Nat := ((List.range 13).find? (fun k => t.testBit k)).getD 13

/-- R355: the gather member g(t). -/
def gatherMember : Nat → Nat → Nat
  | 0, _ => 0
  | fuel + 1, t => if t = 0 then 0 else (gatherMember fuel (t ^^^ 2 ^ lowestBit t) + lowestBit t) % 3

/-- R351: the dimension of this module's slice; 0 while it is this module alone. -/
def State.sliceDim (s : State) : Nat := match s.sliceModules with
  | none => 0
  | some _ => min (bits (s.reg .zlnk 0 0x088) 19 16) 13

/-- R351: the local triad number and the member number of this module. -/
def State.sliceAt (s : State) : Nat × Nat := match s.address with
  | none => (0, 0)
  | some a => (a / 4 % 2 ^ s.sliceDim, a % 4)

/-- R351, R365: whether an address is that of a reserved spare to which no logical module is bound. -/
def State.spareAddress (s : State) (a : Nat) : Bool :=
  bit (s.reg .zlnk 0 0x084) 16 && a % 4 == 2 && a / 4 % 32 == 31 && (s.boundAt a).isNone

/-- R351: whether this module is a reserved spare. -/
def State.reservedSpare (s : State) : Bool := match s.address with
  | none => false
  | some a => s.spareAddress a

/-- R355: whether this module gathers its triad. -/
def State.gathers (s : State) : Bool := s.sliceAt.2 == gatherMember 13 s.sliceAt.1

/-- R355: the role of the edge to the parent, none at the root or in a slice of one module. -/
def State.parentRole (s : State) : Option Nat :=
  let (t, m) := s.sliceAt
  if s.sliceModules.isNone then none
  else if s.gathers then (if t = 0 then none else some (2 + lowestBit t))
  else some (if (m + 1) % 3 = gatherMember 13 t then 0 else 1)

/-- R351, R355: the roles of the edges to the children: the other members of the triad, then the triads below; without `all`, none to a
reserved spare that gathers nothing, which sends no ARRIVE. -/
def State.edgesDown (s : State) (all : Bool) : List Nat :=
  let (t, m) := s.sliceAt
  if s.sliceModules.isNone || !s.gathers then []
  else
    let spare := fun n => !all && s.spareAddress ((s.address.getD 0) / 4 * 4 + n)
    (if spare ((m + 1) % 3) then [] else [0]) ++ (if spare ((m + 2) % 3) then [] else [1]) ++
    ((List.range (min (lowestBit t) s.sliceDim)).map (fun k => 2 + k))

/-- R355: the roles of the edges to the children of the barrier tree. -/
def State.childRoles (s : State) : List Nat := s.edgesDown false

/-- Sends a control message over the edge of a role, by the group's first live port; none is sent while the group has none. -/
def State.sendEdge (s : State) (m : CtlMsg) (role : Nat) : State := match (livePorts s role).head? with
  | some z => s.sendCtl z m
  | none => s

/-- Sends a Chamois message of SCOPE 3 to the parent. -/
def State.sendUp (s : State) (m : SliceMsg) : State := match s.parentRole with
  | some r => s.sendEdge (.chamois m) r
  | none => s

/-- Sends a Chamois message of SCOPE 3 to every child. -/
def State.sendDown (s : State) (m : SliceMsg) : State := s.childRoles.foldl (fun s r => s.sendEdge (.chamois m) r) s

/-- R357: TIME goes down to every module below. -/
def State.sendTime (s : State) (t : Dword) (ns : Nat) : State := (s.edgesDown true).foldl (fun s r => s.sendEdge (.chamois (.time t ns)) r) s

/-- The ARRIVE messages of children that have come in. -/
def State.arrivals (s : State) : Nat := (s.sliceIn.filter (· == .arrive)).length

/-- R355: whether this module and every subtree below it have arrived. -/
def State.subtreeArrived (s : State) : Bool := (s.reservedSpare || s.passed.contains .root) && s.childRoles.length ≤ s.arrivals

/-- R355: this module's ARRIVE goes up once its subtree has arrived. -/
def State.passUp (s : State) : State := if s.subtreeArrived then s.sendUp .arrive else s

end Sys2Proof.Machine
end

