-- ==== Sys2Proof/Machine/Chamois.lean ====
section
/-! DEFINITION. The Chamois network (R178–R183, R194, R195): arrivals, the barrier's release, the barrier timer, TIME and tree links. -/

namespace Sys2Proof.Machine

-- arrivals (R178, R182)

/-- The physical berths in service that a node covers. -/
def State.covered (s : State) (n : ChNode) : List Nat :=
  ((List.range 84).filter (fun b => (s.berth b).role == .inService)).filter (fun b => match n with
    | .row a _ => b == a.val
    | .berth a => b == a.val
    | .halfRow h y => halfOf b == h && rowOf b == y.val
    | .half h => halfOf b == h
    | .root => true)

/-- R182: a node runs while it covers a berth in service. -/
def State.nodeRuns (s : State) (n : ChNode) : Bool := !(s.covered n).isEmpty

/-- R178: the children of a node above the row combiners. -/
def childNodes (n : ChNode) : List ChNode := match n with
  | .row _ _ => []
  | .berth b => (List.range 12).filterMap (fun r => if h : r < 12 then some (.row b ⟨r, h⟩) else none)
  | .halfRow h y => (List.range 84).filterMap (fun b => if k : b < 84 then (if halfOf b = h ∧ rowOf b = y.val then some (.berth ⟨b, k⟩) else none) else none)
  | .half h => (List.range 7).filterMap (fun y => if k : y < 7 then some (.halfRow h ⟨y, k⟩) else none)
  | .root => [.half .west, .half .east]

/-- R178: the logical cores below a row combiner. -/
def State.rowCores (s : State) (b r : Nat) : List Nat := (List.range 12).map (fun k => (s.berth b).logical * 144 + r * 12 + k)

/-- R182: the running children of a node that have not arrived, and whether the only one missing is a core or itself one left. -/
def State.missingBelow (s : State) (n : ChNode) : Nat × Bool := match n with
  | .row b r =>
    let l := (s.rowCores b.val r.val).filter (fun c => (s.core c).st != .arrived)
    (l.length, l.length == 1)
  | _ => match (childNodes n).filter (fun m => s.nodeRuns m && !s.passed.contains m) with
    | [m] => (1, s.oneLeft.contains m)
    | l => (l.length, false)

-- where the nodes sit (R178)

/-- R178: the berth that holds a node under no move. -/
def nodeBase (n : ChNode) : Nat := match n with
  | .row b _ => b.val
  | .berth b => b.val
  | .halfRow h y => y.val * 12 + (if h = .west then 5 else 6)
  | .half h => if h = .west then 41 else 42
  | .root => 41

/-- R178: the berth of a node's duplicate, in the same row on the side away from the seam; none at levels 1 and 2. -/
def nodeDup (n : ChNode) : Option Nat := match n with
  | .row _ _ => none
  | .berth _ => none
  | .halfRow h y => some (y.val * 12 + (if h = .west then 4 else 7))
  | .half h => some (if h = .west then 40 else 43)
  | .root => some 40

/-- R178: the berth that holds a node's role. -/
def State.nodeBerth (s : State) (n : ChNode) : Nat := if s.treeMoved.contains n then (nodeDup n).getD (nodeBase n) else nodeBase n

/-- R178: a node runs in every berth role except DARK. -/
def State.nodeLive (s : State) (n : ChNode) : Bool := !s.dark (s.nodeBerth n)

/-- R178: the nodes of levels 3 to 5. -/
def upperNodes : List ChNode :=
  [.root, .half .west, .half .east] ++
  (List.range 7).flatMap (fun y => if h : y < 7 then [.halfRow .west ⟨y, h⟩, .halfRow .east ⟨y, h⟩] else [])

/-- R178: firmware moves the roles of nodes in DARK berths to their duplicates. -/
def State.moveNodes (s : State) : State :=
  { s with treeMoved := s.treeMoved ++ upperNodes.filter (fun n => s.dark (nodeBase n) && !s.treeMoved.contains n) }

/-- R178, R194: TREE_LINK_FAIL: the link of a node fails; a node of levels 3 to 5 moves to its duplicate. -/
def execTreeLinkFail (n : ChNode) (s : State) : Res :=
  .next (let t := if (nodeDup n).isSome && !s.treeMoved.contains n then { s with treeMoved := s.treeMoved ++ [n] } else s
    if s.nodeLive n then t.raise .chms (s.nodeBerth n) 3 else t)

/-- R194: a flit of a message to a node fails its parity and is resent. -/
def State.resendFlit (s : State) (n : ChNode) (resent : Bool) : State :=
  if resent && s.nodeLive n then s.raise .chms (s.nodeBerth n) 0 else s

/-- R178: the nodes from a berth's node up to the root. -/
def pathUp (b : Berth) : List ChNode :=
  [.berth b, .halfRow (halfOf b.val) (Fin.ofNat 7 (rowOf b.val)), .half (halfOf b.val), .root]

/-- R180, R182: whether a node has an ARRIVE to send, or one marked one left. -/
def State.arriveDue (s : State) (n : ChNode) : Bool :=
  s.coresMode == .run && s.nodeRuns n && s.nodeLive n && !s.passed.contains n && (match s.missingBelow n with
    | (0, _) => true
    | (_, true) => !s.oneLeft.contains n
    | _ => false)

/-- R182: ARRIVE passes a node, or is marked one left there; at the root, one left starts the barrier timer. -/
def execArrive (n : ChNode) (resent : Bool) (s : State) : Res :=
  .next (if !s.arriveDue n then s
    else
      let t := s.resendFlit n resent
      match s.missingBelow n with
      | (0, _) =>
        let t := { t with passed := s.passed ++ [n], oneLeft := s.oneLeft.filter (· ≠ n), barrierTimer := s.barrierTimer && n != .root }
        if n = .root ∧ s.spansModules then t.passUp else t
      | _ => { t with oneLeft := s.oneLeft ++ [n], barrierTimer := s.barrierTimer || n == .root })

/-- The logical cores in service that have not arrived. -/
def State.missingCores (s : State) : List Nat :=
  (s.covered .root).flatMap (fun b => ((List.range 144).map (fun i => (s.berth b).logical * 144 + i)).filter (fun c => (s.core c).st != .arrived))

/-- R182: the barrier timer expires; the root sends LATE along the path of the missing arrivals. -/
def execBarrierTimerExpiry (s : State) : Res :=
  .next (if s.barrierTimer then { s with barrierTimer := false, lateSent := s.missingCores.head? } else s)

/-- R182, R195: a late core is recorded in its berth node, and LATE is set in its page; the two start one row handling. -/
def State.recordLate (s : State) (c : Nat) : State := match s.physOf (c / 144) with
  | none => s
  | some b =>
    let p := physCore (s.berth b).removed (c % 144)
    let s := if s.errSet .chms b 2 then s else s.setReg .chms b 0x044 (flag true 31 ||| field (c % 144) 8 ||| field p 0)
    (s.raise .core (b * 156 + p) 6).raise .chms b 2

-- the release (R39, R62, R67, R181, R191, R195)

/-- R191: MESH_SLOTUTIL of every output describes the epoch that ended. -/
def State.recordSlots (s : State) : State :=
  let mine := fun (k : Nat) => 2 ^ 28 ≤ k && (match pageAt (k % 2 ^ 28) with | some (.mesh, _, o) => o == 0x054 | _ => false)
  s.ways.foldl (fun s e =>
    ((s.wayPorts e.1).filter (fun x => x.2.2)).foldl (fun s x =>
      let i := portSel x.2.1 true
      let w := s.regI .mesh x.1 0x054 i
      s.setRegI .mesh x.1 0x054 i (field (min (bits w 31 16 + e.2.dyn) 65535) 16 ||| field (min (bits w 15 0 + e.2.owned) 65535) 0)) s)
    { s with regs := s.regs.filter (fun e => !mine e.1) }

/-- R67: an epoch that exceeded its hint by more than 25% is counted. -/
def State.compareHint (s : State) (cycles : Nat) : State := match s.curProg with
  | none => s
  | some p => if p.hints && decide (5 * s.curEpoch.hint < 4 * cycles) then s.count .schd 0 0x050 1 else s

/-- R246, R310: whether the running step is a token step of an image with expert layers. -/
def State.hasExperts (s : State) : Bool := match s.seq.cur with
  | none => false
  | some t => t.copy.isNone && (match (s.image t.image).manifest with
    | some m => m.layers.any (fun w => bit w 10)
    | none => false)

/-- R247, R250: the positions that an epoch sent to a second pass are counted (log entry 186). -/
def State.countSecond (s : State) : State := if s.hasExperts then s.drawn.count .schd 0 0x054 (Config.secondPass s.draws) else s

/-- R195: each berth's node counts the barrier and keeps the longest time to the release of its last core. -/
def State.countBarrier (s : State) (relNclk : List Nat) : State :=
  ((List.range 84).filter (fun b => !s.dark b)).foldl (fun s b =>
    let w := s.reg .chms b 0x040
    let m := s.reg .chms b 0x048
    (s.setReg .chms b 0x040 (putBits w 15 0 (bits w 15 0 + 1))).setReg .chms b 0x048 (putBits m 7 0 (max (bits m 7 0) (min (relNclk.getD b 0) 255)))) s

/-- R73, R110: a core as an epoch finds it: registers and scratchpad stay, what belongs to the epoch begins again. -/
def freshCore (k : Core) : Core :=
  { k with st := .run, pc := 0, tshape := 0, tfmt := 0, tbound := 0, sent := [], cancelled := [], landed := [], readable := [], tile := none
           slot := 0, stalled := false }

/-- R38, R40, R227: the next epoch begins, or the last one has ended. -/
def State.nextEpoch (s : State) : State :=
  let n := match s.curProg with | some p => p.epochs.length | none => 0
  let s : State := { s.keepDynamic with passed := [], oneLeft := [], barrierTimer := false, lateSent := none, sliceIn := [] }
  if s.seq.epoch + 1 < n then
    { s with seq := { s.seq with epoch := s.seq.epoch + 1 }, cores := (s.cores.map (fun e => (e.1, freshCore e.2))).filter (fun e => e.2 ≠ {}) }
  else { s with seq := { s.seq with finished := true, running := false }, coresMode := .idle }

/-- R355: whether the barrier may release here: the module has arrived, and over a slice the root has every subtree's ARRIVE and every other
module its parent's RELEASE. -/
def State.mayRelease (s : State) : Bool :=
  s.passed.contains .root && (!s.spansModules || (if s.parentRole.isNone then s.subtreeArrived else s.sliceIn.contains .release))

/-- R180, R181: whether a RELEASE or an ABORT is to leave the root; every other message waits for it. -/
def State.rootBusy (s : State) : Bool := (s.coresMode == .run && s.mayRelease) || s.flt.phase == .abort

/-- R181: RELEASE. -/
def execRelease (m : ReleaseMeasure) (s : State) : Res :=
  .next (if s.coresMode ≠ .run || !s.mayRelease then s
    else
      let s := if s.spansModules then s.sendDown .release else s
      (((s.recordSlots.compareHint m.cycles).countBarrier m.relNclk).countSecond.applyDivisors m.settledW m.settledE).nextEpoch)

/-- R180, R182: LATE reaches the berth node of the late core. -/
def execLate (s : State) : Res :=
  .next (match s.lateSent with
    | none => s
    | some c => if s.rootBusy then s else ({ s with lateSent := none }).recordLate c)

-- TIME

/-- R183: the root broadcasts TIME with its STAMP; over a slice, the slice root's goes down the tree (R357). -/
def execTimeBroadcast (s : State) : Res :=
  .next ((if s.parentRole.isNone then s.sendTime s.stamp 0 else s) |> fun s => { s with timeMsg := some s.stamp })

/-- R183: the copy of STAMP at the node of a berth. -/
def State.nodeClock (s : State) (b : Nat) : NodeClock := Sparse.get (fun _ => {}) s.nodeClocks b

/-- R183: a node corrects its copy `c` of STAMP to `v`; one that would run backwards holds its value until real time catches up. -/
def State.correctClock (s : State) (b : Nat) (c v : Int) : State :=
  let k : NodeClock := if c ≤ v then { skew := v - s.stamp.toNat, hold := 0 } else { skew := c - s.stamp.toNat, hold := (c - v).toNat }
  { s with nodeClocks := Sparse.set (fun _ => {}) s.nodeClocks b k }

/-- R183: one PCLK of the nodes that hold their copies. -/
def State.holdClocks (s : State) : State :=
  { s with nodeClocks := (s.nodeClocks.map (fun e =>
      (e.1, if e.2.hold = 0 then e.2 else { skew := e.2.skew - 1, hold := e.2.hold - 1 }))).filter (fun e => e.2 ≠ {}) }

/-- R180, R183: TIME reaches the node of a berth, which adds the path delay that was measured for it at boot (log entry 161). -/
def execTime (b : Berth) (resent : Bool) (s : State) : Res :=
  .next (match s.timeMsg with
    | none => s
    | some t =>
      if s.dark b.val || s.rootBusy then s
      else
        let s := s.resendFlit (.berth b) resent
        let v : Int := t.toNat + Config.pathDelay b.val s.countFrom
        let c : Int := s.stamp.toNat + (s.nodeClock b.val).skew
        let s := s.correctClock b.val c v
        if 1 < (v - c).natAbs then s.raise .chms b.val 1 else s)

-- message layout (R179)

/-- R179: the TYPE of a Chamois message. -/
inductive ChType where
  | arrive | release | abort | go | fault | time | point | late
  deriving DecidableEq, Repr, Inhabited

/-- R179: SCOPE. -/
inductive ChScope where
  | module | half | berth | across
  deriving DecidableEq, Repr, Inhabited

/-- R179: a Chamois message. -/
structure ChMsg where
  type : ChType
  scope : ChScope
  seq : BitVec 8
  dest : BitVec 16
  payload : BitVec 32
  deriving DecidableEq, Repr, Inhabited

/-- R179: the codes of TYPE in ascending order. -/
def chTypes : List ChType := [.arrive, .release, .abort, .go, .fault, .time, .point, .late]

/-- R179: the codes of SCOPE in ascending order. -/
def chScopes : List ChScope := [.module, .half, .berth, .across]

/-- R179: whether a message is a single flit. -/
def ChType.single (t : ChType) : Bool := t == .arrive || t == .release

/-- R179: the flits of a message, from bit 63 downward. -/
def ChMsg.flits (m : ChMsg) : List (BitVec 16) :=
  let head := BitVec.ofNat 16 (chTypes.idxOf m.type * 4096 + chScopes.idxOf m.scope * 256 + m.seq.toNat)
  if m.type.single then [head] else [head, m.dest, BitVec.ofNat 16 (m.payload.toNat / 65536), BitVec.ofNat 16 m.payload.toNat]

/-- R179: the message that flits spell; none for a reserved TYPE or SCOPE, or another number of flits. -/
def ChMsg.parse (l : List (BitVec 16)) : Option ChMsg :=
  let head := (l.headD 0).toNat
  match chTypes[head / 4096]?, chScopes[head / 256 % 16]? with
  | some t, some c =>
    if l.length ≠ (if t.single then 1 else 4) then none
    else some { type := t, scope := c, seq := BitVec.ofNat 8 head, dest := l.getD 1 0
                payload := BitVec.ofNat 32 ((l.getD 2 0).toNat * 65536 + (l.getD 3 0).toNat) }
  | _, _ => none

/-- R180: whether a message goes before every other that is waiting. -/
def ChType.urgent (t : ChType) : Bool := t == .arrive || t == .release || t == .abort

end Sys2Proof.Machine
end

