-- ==== Sys2Proof/Machine/TierOps.lean ====
section
/-! DEFINITION. Operations on the slower tier (R209–R216, R221–R223) that several commands share. -/

namespace Sys2Proof.Machine

/-- Bytes from an offset of a stack. -/
def State.stackRead (s : State) (k off n : Nat) : List Byte := (List.range n).map (fun i => Memory.byte s.hbm (stackDpa k (off + i)))

/-- The memory of the tier with bytes written from an offset of a stack. -/
def stackPut (m : List (Nat × Byte)) (k : Nat) : Nat → List Byte → List (Nat × Byte)
  | _, [] => m
  | off, v :: t => stackPut (Memory.setByte m (stackDpa k off) v) k (off + 1) t

/-- Writes bytes from an offset of a stack. -/
def State.stackWrite (s : State) (k off : Nat) (data : List Byte) : State := { s with hbm := stackPut s.hbm k off data }

/-- The 4 KiB pages of a stack that a range touches. -/
def pagesOf (off n : Nat) : List Nat := if n = 0 then [] else (List.range ((off + n - 1) / 4096 - off / 4096 + 1)).map (· + off / 4096)

/-- R25, R216, R407: whether nothing in the module can reach a stack: it or one of its channels has failed, its basin has latched off, or both of its rim berths are
DARK. -/
def State.stackCut (s : State) (k : Nat) : Bool :=
  (s.stack k).failed || (s.stack k).channelBad || (s.basin (84 + k)).latched || (s.dark (rimBerths k).1 && s.dark (rimBerths k).2)

/-- R25, R216: whether an access to a page of a stack moves no data: the page is retired, or the stack cannot be reached. -/
def State.pageRetired (s : State) (k page : Nat) : Bool := s.stackCut k || (s.stack k).retired.contains page

/-- R216: whether bytes from a DPA touch a retired page. -/
def State.dpaRetired (s : State) (dpa n : Nat) : Bool :=
  (pagesOf dpa n).any (fun p => s.pageRetired (p % 12) (p / 12))

/-- R222: the first uncorrectable unit since UNCORR was cleared is recorded. -/
def State.logTierError (s : State) (k off : Nat) : State :=
  if bit (s.reg .hbmc k 0x04C) 31 then s
  else (s.setReg .hbmc k 0x048 (BitVec.ofNat 32 off)).setReg .hbmc k 0x04C (flag true 31 ||| field (off / 2 ^ 32 % 32) 0)

/-- R205, R216: the data of a unit or page of a stack is to be restored. -/
def State.unitLost (s : State) (k off : Nat) : State :=
  let x := s.stack k
  s.setStack k { x with badUnits := x.badUnits.filter (· ≠ off) ++ [off] }

/-- R215, R222: an uncorrectable unit of a stack is recorded; its data is to be restored. -/
def State.tierLost (s : State) (k off : Nat) : State := (s.logTierError k off).unitLost k off

/-- R209, R222: a corrected unit is counted. -/
def State.correctUnit (s : State) (k : Nat) : State := (s.countSat .hbmc k 0x044 31 0).raise .hbmc k 0

/-- R211, R377: the port that presents the host part in which a DPA lies. -/
def ownerPort (s : State) (dpa : Nat) : Option HostPort :=
  if dpa < s.split then some (if s.portB.taken then .b else .a)
  else if dpa < s.hostLimit then some (if s.portA.taken then .a else .b)
  else none

/-- R216, R376: a General Media Event record for a port. -/
def State.mediaEvent (s : State) (p : HostPort) (dpa : Nat) : State :=
  let x := s.port p
  s.setPort p { x with events := x.events ++ [{ handle := x.eventNext, dpa := dpa, stamp := s.stamp }], eventNext := x.eventNext + 1 }

/-- R376: the port that presents a DPA records a retired page there. -/
def State.mediaAt (s : State) (a : Nat) : State := (ownerPort s a).elim s (fun p => s.mediaEvent p a)

/-- R216: a page is retired, recorded in flash and reported; more than 4,096 in one stack are a failed stack. -/
def State.retirePage (s : State) (k page : Nat) : State :=
  let x := s.stack k
  if x.retired.contains page then s
  else
    let s := s.setStack k { x with retired := x.retired ++ [page] }
    let s := { s with flash := { s.flash with retired := s.flash.retired ++ [k * 2 ^ 25 + page] } }
    let s := s.raise .hbmc k 4
    let s := (s.mediaAt (stackDpa k (page * 4096))).unitLost k (page * 4096)
    if 4096 < x.retired.length + 1 then s.raise .hbmc k 5 else s

end Sys2Proof.Machine
end

