-- ==== Sys2Proof/Machine/Regions.lean ====
section
/-! DEFINITION. Where a package's shards lie (R310, R311, R328, R329): places in the store dies, the device region, the backup region and the
staging region of every image slot. -/

namespace Sys2Proof.Machine

/-- R310, R352: the MODULE number under which a manifest names this module. -/
def State.myModule (s : State) (m : Manifest) : Nat := if m.modules ≤ 1 then 0 else s.moduleIndex

/-- R310: a shard of a manifest by its index, when it is one of this module. -/
def State.shard? (s : State) (m : Manifest) (i : Nat) : Option Shard := match m.shards[i]? with
  | some x => if x.module = s.myModule m then some x else none
  | none => none

/-- The indices of this module's shards. -/
def State.ownShards (s : State) (m : Manifest) : List Nat := (List.range m.shards.length).filter (fun i => (s.shard? m i).isSome)

/-- R311: the bytes that a shard takes of a backup or staging sequence: each starts at a 4,096 B boundary. -/
def shardSpan (len : Nat) : Nat := ceilDiv len 4096 * 4096

/-- R311: where a shard begins in its half's sequence of a backup or staging region. -/
def State.sequenceOff (s : State) (m : Manifest) (i : Nat) : Nat := match s.shard? m i with
  | none => 0
  | some x => ((List.range i).map (fun k => match s.shard? m k with
      | some y => if logicalHalf y.berth = logicalHalf x.berth then shardSpan y.len else 0
      | none => 0)).sum

/-- R311: the bytes of a half's sequence. -/
def State.sequenceLen (s : State) (m : Manifest) (h : Half) : Nat :=
  ((s.ownShards m).map (fun k => match s.shard? m k with
    | some y => if logicalHalf y.berth = h then shardSpan y.len else 0
    | none => 0)).sum

/-- R311: the bytes of the slower tier that a half-ordered region takes whose longer sequence has `n` bytes. -/
def regionBytes (n : Nat) : Nat := 49152 * ceilDiv n 24576

/-- R311: reads bytes of a half's sequence. -/
def State.regionRead (s : State) (base : Nat) (h : Half) (off n : Nat) : List Byte :=
  (List.range n).map (fun i => Memory.byte s.hbm (halfOrderedDpa base h (off + i)))

/-- R311: the memory of the tier with bytes of a half's sequence written. -/
def regionPut (m : List (Nat × Byte)) (base : Nat) (h : Half) : Nat → List Byte → List (Nat × Byte)
  | _, [] => m
  | off, v :: t => regionPut (Memory.setByte m (halfOrderedDpa base h off) v) base h (off + 1) t

/-- R311: writes bytes of a half's sequence. -/
def State.regionWrite (s : State) (base : Nat) (h : Half) (off : Nat) (data : List Byte) : State :=
  { s with hbm := regionPut s.hbm base h off data }

/-- R314, R329: the device, backup and staging regions of an image slot: base and bytes. -/
def State.slotRegions (s : State) (i : Nat) : List (Nat × Nat) :=
  let x := s.image i
  let long := fun (m : Option Manifest) => match m with
    | some m => max (s.sequenceLen m .west) (s.sequenceLen m .east)
    | none => 0
  let device := match x.manifest with
    | some m => [(m.dbase, regionBytes m.dbytes)]
    | none => []
  let backup := if x.bkpEn && x.st != .empty then [(x.bkpBase, regionBytes (long x.manifest))] else []
  let staging := if x.st = .staging ∨ x.st = .staged ∨ x.st = .swapping then [(x.stageBase, max 49152 (regionBytes (long x.stagedManifest)))] else []
  device ++ backup ++ staging

/-- The device, backup and staging regions of every image slot. -/
def State.regions (s : State) : List (Nat × Nat) := (List.range 8).flatMap s.slotRegions

/-- Whether a range meets none of a list of regions. -/
def clearOf (a n : Nat) (l : List (Nat × Nat)) : Bool := l.all (fun r => !meet a n r.1 r.2)

end Sys2Proof.Machine
end

