-- ==== Sys2Proof/Machine/KvOps.lean ====
section
/-! DEFINITION. The KV cache's storage (R253–R262, R280, R281): homes, page tables, index lines, frames, reservation and release. -/

namespace Sys2Proof.Machine

-- shapes and homes

/-- What the KV cache needs of an image: KV heads, layers, modules (R309, R310). -/
structure KvShape where
  heads : Nat
  layers : Nat
  modules : Nat
  deriving DecidableEq, Repr, Inhabited

/-- The shape of an image slot's KV cache. -/
def State.kvShape (s : State) (img : Nat) : KvShape := match (s.image img).manifest with
  | none => { heads := 0, layers := 0, modules := 1 }
  | some m => { heads := m.kvheads, layers := m.layers.length, modules := max 1 m.modules }

/-- R258: the home berth of page `j` of head `h`, none when it lies on another module of the image. -/
def State.homeHere (s : State) (k : KvShape) (h j : Nat) : Option Nat :=
  let (m, b) := pageHome k.heads k.modules h j
  if m = (if k.modules = 1 then 0 else s.moduleIndex) then some b else none

/-- Bytes of the store die that serves a logical berth. -/
def State.lbRead (s : State) (lb off n : Nat) : List Byte := match s.physOf lb with
  | some b => s.storeBytes b off n
  | none => List.replicate n 0

/-- Firmware's or the sequencer's write of the store die that serves a logical berth. -/
def State.lbPut (s : State) (lb off : Nat) (data : List Byte) : State := match s.physOf lb with
  | some b => s.storeWrite b off data
  | none => s

/-- R199: whether bytes from an offset lie in the weight region or the KV pool. -/
def inPools (off n : Nat) : Bool := off + n ≤ 0x3E00000 * 128

/-- R199, R217: a write of the KV pager, refused outside the weight region and the KV pool. -/
def State.pagerWrite (s : State) (b off : Nat) (data : List Byte) : State :=
  if inPools off data.length then s.storeWrite b off data else s.raise .stor b 6

/-- R199: a write of the KV pager to the store die that serves a logical berth. -/
def State.lbWrite (s : State) (lb off : Nat) (data : List Byte) : State := match s.physOf lb with
  | some b => s.pagerWrite b off data
  | none => s

/-- A 32-bit word of the store die that serves a logical berth. -/
def State.lbWord (s : State) (lb off : Nat) : Word := BitVec.ofNat 32 (leNat (s.lbRead lb off 4))

/-- Bytes from a mirror copy to the other: 0x10_0000 lines. -/
def mirrorBytes : Nat := 0x100000 * 128

/-- Writes both mirror copies of the reserve (R214, R230, R260), which is no pager's write in the sense of R199 (log entry 183). -/
def State.lbMirror (s : State) (lb off : Nat) (data : List Byte) : State := (s.lbPut lb off data).lbPut lb (off + mirrorBytes) data

-- page tables (R260)

/-- R260: the byte offset of a page-table entry. -/
def ptOffset (k : KvShape) (st h j : Nat) : Nat :=
  0x3E80000 * 128 + 4 * ((st * 8 + h % (k.heads / 2)) * 205 + j / (40 * k.modules))

/-- R260: the index column of a page, none when the entry is not valid. -/
def State.column (s : State) (k : KvShape) (lb st h j : Nat) : Option Nat :=
  let w := s.lbWord lb (ptOffset k st h j)
  if bit w 31 then some (bits w 25 0) else none

/-- R260: writes a page-table entry in both copies. -/
def State.setColumn (s : State) (k : KvShape) (lb st h j : Nat) (line : Option Nat) : State :=
  s.lbMirror lb (ptOffset k st h j) (leBytes (match line with | some l => (field l 0 ||| flag true 31).toNat | none => 0) 4)

-- index lines (R261)

/-- R261: a word of an index line. -/
def State.ixWord (s : State) (lb line off : Nat) : Word := s.lbWord lb (line * 128 + off)
/-- R261: writes a word of an index line. -/
def State.setIxWord (s : State) (lb line off : Nat) (w : Word) : State := s.lbWrite lb (line * 128 + off) (leBytes w.toNat 4)
/-- R261: LOC. -/
def State.loc (s : State) (lb line : Nat) : Word := s.ixWord lb line 0x44
/-- R261: TIER. -/
def State.locTier (s : State) (lb line : Nat) : Nat := bits (s.loc lb line) 27 26
/-- R261: REFS. -/
def State.refs (s : State) (lb line : Nat) : Nat := bits (s.ixWord lb line 0x60) 15 0
/-- R261: COPY_DPA. -/
def State.copyDpa (s : State) (lb line : Nat) : Nat := leNat (s.lbRead lb (line * 128 + 0x48) 8)

/-- R273: both scores 1.0 and both tags 0. -/
def freshScores : List Byte := leBytes 0x3F800000 4 ++ leBytes 0 4 ++ leBytes 0x3F800000 4 ++ leBytes 0 4

/-- R261: writes REFS; a page whose REFS returns to 1 starts its scores again (R275). -/
def State.setRefs (s : State) (lb line n : Nat) : State :=
  let w := s.ixWord lb line 0x60
  let s' := s.setIxWord lb line 0x60 (putBits w 15 0 n)
  if n = 1 ∧ 1 < bits w 15 0 then s'.lbWrite lb (line * 128 + 0x50) freshScores else s'

/-- R262: a new index line. -/
def freshIndexLine (frame layer h j : Nat) : List Byte :=
  List.replicate 0x44 0 ++ leBytes (field frame 0).toNat 4 ++ List.replicate 8 0 ++ freshScores ++
  leBytes (field 1 0 ||| field layer 16 ||| field h 24).toNat 4 ++ leBytes j 4 ++ List.replicate 24 0

-- frames (R259)

/-- R259: the frames of a logical berth's KV pool. -/
def State.frameTotal (s : State) (lb : Nat) : Nat := match s.physOf lb with
  | some b => (0x3E00000 - s.kvBase b * 16384) / 264
  | none => 0

/-- The key of a frame. -/
def frameKey (lb f : Nat) : Nat := lb * 2 ^ 20 + f

/-- The allocated frames of a logical berth, rising. -/
def State.framesOf (s : State) (lb : Nat) : List Nat :=
  (s.frames.filter (fun e => e.1 / 2 ^ 20 = lb)).map (fun e => e.1 % 2 ^ 20)

/-- R284: free frames of a logical berth. -/
def State.framesFree (s : State) (lb : Nat) : Nat := s.frameTotal lb - (s.framesOf lb).length

/-- The line at which a frame begins. -/
def State.frameLine (s : State) (lb f : Nat) : Nat := match s.physOf lb with
  | some b => s.kvBase b * 16384 + f * 264
  | none => 0

/-- The frame that begins at a line. -/
def State.frameOf (s : State) (lb line : Nat) : Nat := match s.physOf lb with
  | some b => (line - s.kvBase b * 16384) / 264
  | none => 0

/-- The `n`-th number that a rising list does not hold. -/
def nthFree : List Nat → Nat → Nat
  | [], n => n
  | u :: t, n => if u ≤ n then nthFree t (n + 1) else n

/-- R284: KVPG_CFG.LOW of the pager that serves a logical berth. -/
def lowMark (s : State) (lb : Nat) : Nat := bits (s.reg .kvpg (pagerOf lb) 0x040) 31 16

/-- R259, R283: a free frame is taken (which one is a free value, log entry 23) for a use: 1 page, 2 + 4 × owner tail ring, 3 index column.
A berth that falls below LOW sets POOL_LOW. -/
def State.takeFrame (s : State) (lb use : Nat) : Option (State × Nat) :=
  let n := s.framesFree lb
  if n = 0 then none
  else
    let f := nthFree (s.framesOf lb) (Config.frameChoice s.draws % n)
    let s' := { s.drawn with frames := Sparse.set (fun _ => 0) s.frames (frameKey lb f) use }
    some (if n - 1 < lowMark s lb ∧ lowMark s lb ≤ n then s'.raise .kvpg (pagerOf lb) 5 else s', f)

/-- R280: a frame is freed. -/
def State.freeFrame (s : State) (lb f : Nat) : State := { s with frames := Sparse.erase s.frames (frameKey lb f) }

/-- The owner code of a tail ring. -/
def ringUse (st layer h : Nat) : Nat := 2 + 4 * (st * 4096 + layer * 16 + h)

/-- R255, R258: the line of the tail ring of a stream, layer and head, at the home of page 0. -/
def State.ringLine (s : State) (k : KvShape) (st layer h : Nat) : Option (Nat × Nat) :=
  match s.homeHere k h 0 with
  | none => none
  | some lb => (s.frames.find? (fun e => e.1 / 2 ^ 20 = lb && e.2 = ringUse st layer h)).map (fun e => (lb, s.frameLine lb (e.1 % 2 ^ 20)))

/-- Frees the tail rings of a stream and their copies (R272). -/
def State.freeRings (s : State) (st : Nat) : State :=
  let mine := (s.ringCopies.filter (fun e => e.1 / 4096 = st)).map Prod.snd
  { s with frames := s.frames.filter (fun e => !(e.2 % 4 = 2 && e.2 / 4 / 4096 = st))
           ringCopies := s.ringCopies.filter (fun e => e.1 / 4096 ≠ st), copies := s.copies.filter (fun a => !mine.contains a) }

-- columns

/-- The bytes of a page's frame, from whichever tier holds it (R282). -/
def State.pageBytes (s : State) (lb line : Nat) : List Byte :=
  if s.locTier lb line = 0 then s.lbRead lb (bits (s.loc lb line) 25 0 * 128) 33792
  else Memory.read s.hbm (s.copyDpa lb line) 33792

/-- R262: one index line of a new column with its page frame. -/
def newLayer (lb col h j : Nat) (s : State) (l : Nat) : Option State :=
  (s.takeFrame lb 1).map (fun (s, f) => s.lbWrite lb ((col + l) * 128) (freshIndexLine (s.frameLine lb f) l h j))

/-- The key of an index line of a logical berth. -/
def ixKey (lb line : Nat) : Nat := lb * 2 ^ 26 + line

/-- R259: the index columns that lie in a frame: first line and lines. -/
def State.columnsIn (s : State) (lb f : Nat) : List (Nat × Nat) :=
  (s.columns.filter (fun e => within e.1 (ixKey lb (s.frameLine lb f)) 264)).map (fun e => (e.1 - ixKey lb 0, e.2))

/-- R259: the lines of a logical berth's index frames at which a column of `n` lines fits. -/
def State.columnRoom (s : State) (lb n : Nat) : List Nat :=
  (s.frames.filter (fun e => e.1 / 2 ^ 20 = lb && e.2 = 3)).flatMap (fun e =>
    let f := e.1 % 2 ^ 20
    ((List.range (265 - n)).map (fun o => s.frameLine lb f + o)).filter (fun a => (s.columnsIn lb f).all (fun c => !meet a n c.1 c.2)))

/-- R259: room for an index column of `n` lines, in an index frame that has it or else in a new one (DESIGN CHOICE, log entry 184). -/
def State.takeColumn (s : State) (lb n : Nat) : Option (State × Nat) :=
  let put := fun (s : State) (line : Nat) => ({ s.drawn with columns := Sparse.set (fun _ => 0) s.columns (ixKey lb line) n }, line)
  match (s.columnRoom lb n)[Config.columnChoice s.draws % (s.columnRoom lb n).length]? with
  | some line => some (put s line)
  | none => (s.takeFrame lb 3).map (fun (s, f) => put s (s.frameLine lb f + Config.columnChoice s.draws % (265 - n)))

/-- R280: an index column is freed, and its frame once it holds no other. -/
def State.freeColumn (s : State) (lb line : Nat) : State :=
  let s := { s with columns := Sparse.erase s.columns (ixKey lb line) }
  if (s.columnsIn lb (s.frameOf lb line)).isEmpty then s.freeFrame lb (s.frameOf lb line) else s

/-- R262: a new column for page `j` of head `h`, with a frame for every layer. -/
def State.newColumn (s : State) (k : KvShape) (lb h j : Nat) : Option (State × Nat) :=
  match s.takeColumn lb k.layers with
  | none => none
  | some (s, col) => ((List.range k.layers).foldlM (newLayer lb col h j) s).map (fun s => (s, col))

/-- Drops a change of LOC that waits for a page; a frame taken for it is free again. -/
def State.dropSwitch (s : State) (lb line : Nat) : State :=
  let k := pagerOf lb
  let x := s.stack k
  match lookup x.demotions (ixKey lb line) with
  | none => s
  | some v =>
    let s := s.setStack k { x with demotions := x.demotions.filter (fun e => e.1 ≠ ixKey lb line) }
    if v % 8 = 4 then s.freeFrame lb (v / 8) else s

/-- Gives up the slower-tier copy of a page. -/
def State.dropCopy (s : State) (dpa : Nat) : State :=
  { s with copies := s.copies.filter (· ≠ dpa), backups := s.backups.filter (fun e => e.2 ≠ dpa) }

/-- R280: frees a page's frame and any copy of it. -/
def State.freePage (s : State) (lb line : Nat) : State :=
  let w := s.loc lb line
  let s := s.dropSwitch lb line
  let s := if bits w 27 26 = 0 then s.freeFrame lb (s.frameOf lb (bits w 25 0)) else s
  if bit w 29 then s.dropCopy (s.copyDpa lb line) else s

/-- R280: lowers REFS on every line of a column; what reaches 0 is freed. -/
def State.releaseColumn (s : State) (k : KvShape) (lb col : Nat) : State :=
  let n := s.refs lb col
  let s := (List.range k.layers).foldl (fun s l =>
    if s.refs lb (col + l) ≤ 1 then (s.freePage lb (col + l)).setRefs lb (col + l) 0
    else s.setRefs lb (col + l) (s.refs lb (col + l) - 1)) s
  if n ≤ 1 then s.freeColumn lb col else s

/-- R276, R279: raises REFS on every line of a column. -/
def State.raiseRefs (s : State) (k : KvShape) (lb col : Nat) : State :=
  (List.range k.layers).foldl (fun s l => s.setRefs lb (col + l) (s.refs lb (col + l) + 1)) s

/-- R272: the key of a page that a stream has a copy of. -/
def backupKey (st h j l : Nat) : Nat := ((st * 2 ^ 8 + h) * 2 ^ 16 + j) * 2 ^ 8 + l

/-- R280: one layer of a shared column is copied; a page that is dropped stays so. -/
def State.copyLayer (s : State) (lb old new : Nat) : State :=
  let page := s.pageBytes lb old
  let frame := bits (s.loc lb new) 25 0
  let w := s.loc lb old
  let s := s.lbWrite lb (new * 128) (s.lbRead lb (old * 128) 0x44)
  let s := if 2 ≤ bits w 27 26 then (s.freeFrame lb (s.frameOf lb frame)).setIxWord lb new 0x44 (field (bits w 27 26) 26 ||| flag (bit w 28) 28)
    else (s.lbWrite lb (frame * 128) page).setIxWord lb new 0x44 (field frame 0 ||| flag (bit w 28) 28)
  s.setRefs lb old (s.refs lb old - 1)

/-- R280: a private copy of a shared column for a stream; the old column loses one reference. -/
def State.copyColumn (s : State) (k : KvShape) (lb st h j col : Nat) : Option State :=
  match s.newColumn k lb h j with
  | none => none
  | some (s, c) =>
    let s := (List.range k.layers).foldl (fun s l => s.copyLayer lb (col + l) (c + l)) s
    let s := { s with backups := s.backups.filter (fun e => e.1 / 2 ^ 8 ≠ backupKey st h j 0 / 2 ^ 8) }
    some ((s.setColumn k lb st h j (some c)).count .kvpg (pagerOf lb) 0x078 1)

/-- R262: a page that a step is about to write has its frame in the store die, and a copy of what it held before is given up (DEDUCED, log entry
187). -/
def State.openPage (s : State) (lb line : Nat) : Option State :=
  let s := s.dropSwitch lb line
  let w := s.loc lb line
  let back := if bits w 27 26 = 1 then (s.takeFrame lb 1).map (fun (t, f) =>
      (t.lbWrite lb (t.frameLine lb f * 128) (s.pageBytes lb line)).setIxWord lb line 0x44 (putBits (putBits w 27 26 0) 25 0 (t.frameLine lb f)))
    else some s
  back.map (fun s => if bit w 29 then (s.dropCopy (s.copyDpa lb line)).setIxWord lb line 0x44 (putBits (s.loc lb line) 29 29 0) else s)

/-- R262, R280: page `j` of head `h` is there for a step that writes positions from `first` up to `last`. -/
def State.ensurePage (s : State) (k : KvShape) (st first last : Nat) (hj : Nat × Nat) : Option State :=
  match s.homeHere k hj.1 hj.2 with
  | none => some s
  | some lb => match s.column k lb st hj.1 hj.2 with
    | none => (s.newColumn k lb hj.1 hj.2).map (fun (s, c) => s.setColumn k lb st hj.1 hj.2 (some c))
    | some c =>
      if 128 * hj.2 + 128 ≤ first ∨ last ≤ 128 * hj.2 then some s
      else if 1 < s.refs lb c then s.copyColumn k lb st hj.1 hj.2 c
      else (List.range k.layers).foldlM (fun s l => s.openPage lb (c + l)) s

/-- R262: the tail ring of a layer and head is there. -/
def State.ensureRing (s : State) (k : KvShape) (st : Nat) (lh : Nat × Nat) : Option State :=
  match s.homeHere k lh.2 0 with
  | none => some s
  | some lb => match s.ringLine k st lh.1 lh.2 with
    | some _ => some s
    | none => (s.takeFrame lb (ringUse st lh.1 lh.2)).map Prod.fst

/-- All pairs of two ranges. -/
def pairs (m n : Nat) : List (Nat × Nat) := (List.range m).flatMap (fun a => (List.range n).map (fun b => (a, b)))

/-- R262, R258, R233: reserves what a stream needs up to position `last`, writing from `first`; none when an allocation cannot be made, and
then nothing is allocated. -/
def State.reserve (s : State) (st first last : Nat) : Option State :=
  let k := s.kvShape (s.stream st).image
  if 1048576 < last then none
  else
    match (pairs k.heads (ceilDiv last 128)).foldlM (fun s hj => s.ensurePage k st first last hj) s with
    | none => none
    | some s => (pairs k.layers k.heads).foldlM (fun s lh => s.ensureRing k st lh) s

/-- R280, R281: releases the pages of a stream from page `j0` on. -/
def State.releasePages (s : State) (st j0 : Nat) : State :=
  let k := s.kvShape (s.stream st).image
  let x := s.stream st
  let n := ceilDiv (max (max x.kvlen x.hiwrit) (match x.shipIn with | some h => h.length | none => 0)) 128
  (pairs k.heads (n + 1)).foldl (fun s hj =>
    if hj.2 < j0 then s
    else match s.homeHere k hj.1 hj.2 with
      | none => s
      | some lb => match s.column k lb st hj.1 hj.2 with
        | none => s
        | some c => (s.releaseColumn k lb c).setColumn k lb st hj.1 hj.2 none)
    { s with backups := s.backups.filter (fun e => !(e.1 / 2 ^ 32 = st && j0 ≤ e.1 / 2 ^ 8 % 2 ^ 16)) }

/-- R280: CLOSE releases every column of a stream and frees its tail rings. -/
def State.releaseAll (s : State) (st : Nat) : State := (s.releasePages st 0).freeRings st

-- the rollback (R281)

/-- R253: byte offset in the frame of the V payload of a dimension at a position. -/
def vOffset (n p : Nat) : Nat := 0x4200 + 32 * (128 * (p / 32) + n) + p % 32

/-- R281, R255: a value of a sealed V block as BF16. -/
def sealedValue (page : List Byte) (p n : Nat) : List Byte :=
  let e := (page.getD (0x8200 + 128 * (p / 32) + n) 0).toNat
  let q := codeValue 8 (page.getD (vOffset n p) 0).toNat
  leBytes (if e = 0 then (0#16) else (Fv.ofInt q ((e : Int) - 128)).toBf16).toNat 2

/-- R281: the ring row of a position rewritten from the sealed block, for one layer and head. -/
def State.rewriteRow (s : State) (k : KvShape) (st layer h p : Nat) : State :=
  match s.homeHere k h (p / 128), s.ringLine k st layer h with
  | some lb, some (rb, ring) => match s.column k lb st h (p / 128) with
    | none => s
    | some c =>
      let page := s.pageBytes lb (c + layer)
      s.lbWrite rb (ring * 128 + p % 128 * 256) ((List.range 128).flatMap (sealedValue page (p % 128)))
  | _, _ => s

/-- R281: the ring rows that a truncation to `len` needs. -/
def State.rewriteRing (s : State) (st len hiwrit : Nat) : State :=
  let k := s.kvShape (s.stream st).image
  let f := len / 32 * 32
  if hiwrit ≤ f + 128 then s
  else (pairs k.layers k.heads).foldl (fun s lh => (List.range (len - f)).foldl (fun s i => s.rewriteRow k st lh.1 lh.2 (f + i)) s) s

end Sys2Proof.Machine
end

