-- ==== Sys2Proof/Machine/Pager.lean ====
section
/-! DEFINITION. The KV pagers (R270–R282, R511): places in the device part, eviction scores and LOC changes, the prefix tree, backup copies
and pager requests. -/

namespace Sys2Proof.Machine

-- places in the device part (log entry 25)

/-- R284: the base and the bytes of the hash table. -/
def State.hashTable (s : State) : Nat × Nat :=
  let t := bits (s.reg .kvpg 0 0x048) 4 0
  ((s.reg .kvpg 0 0x04C).toNat * 4096, 8 * 2 ^ (if 16 ≤ t ∧ t ≤ 28 then t else 20))

/-- R277: whether the hash table lies in the device part; without one there is no prefix tree. -/
def State.treeThere (s : State) : Bool := s.inDevicePart s.hashTable.1 s.hashTable.2

/-- Whether a place in the device part is free for the pagers. -/
def State.placeFree (s : State) (n a : Nat) : Bool :=
  s.inDevicePart a n && !s.dpaRetired a n && s.nodes.all (fun b => !meet a n b.dpa 512) && s.copies.all (fun b => !meet a n b 33792) &&
  !meet a n s.hashTable.1 s.hashTable.2 && clearOf a n s.regions

/-- The ends of everything that the device part holds. -/
def State.placeEnds (s : State) : List Nat :=
  [s.hostLimit, s.hashTable.1 + s.hashTable.2] ++ s.nodes.map (fun b => b.dpa + 512) ++ s.copies.map (· + 33792) ++
  s.regions.map (fun r => r.1 + r.2) ++ (List.range 12).flatMap (fun k => (s.stack k).retired.map (fun p => stackDpa k (p * 4096) + 4096))

/-- A free place of `n` bytes, aligned: where a free value says, or directly after something that is held. -/
def State.place (s : State) (align n pick : Nat) : Option Nat :=
  let first := ceilDiv s.hostLimit align * align
  ([first + pick % ((tierBytes - first) / align) * align] ++ s.placeEnds.map (fun a => ceilDiv a align * align)).find? (s.placeFree n)

-- scores and LOC (R273–R275)

/-- R273: a score after the halvings of its age. -/
def aged (score : Word) (len at_ hl : Nat) : Fv :=
  let n := ((len : Int) - at_).fdiv (2 ^ hl)
  match Fv.ofF32 score with
  | .fin neg m e => Fv.ofF32 (Fv.fin neg m (e - n)).toF32
  | v => v

/-- R273: the effective score of a page at committed length `len`. -/
def State.score (s : State) (lb line len hl : Nat) : Fv :=
  let a := bits (s.ixWord lb line 0x54) 23 0
  let b := bits (s.ixWord lb line 0x5C) 23 0
  let useA := if a ≤ len ∧ b ≤ len then b ≤ a else if a ≤ len then True else if b ≤ len then False else a ≤ b
  if useA then aged (s.ixWord lb line 0x50) len a hl else aged (s.ixWord lb line 0x58) len b hl

/-- R285: the fields of a stream's KV configuration as treated. -/
def cfgHl (w : Word) : Nat := bits w 24 20
/-- R285: THR. -/
def cfgThr (w : Word) : Nat := bits w 19 12
/-- R285: WINDOW as treated. -/
def cfgWindow (w : Word) : Nat := min 16 (max 1 (bits w 11 7))
/-- R285: K as treated. -/
def cfgK (w : Word) : Nat := min 64 (bits w 6 0)

/-- R267, R285: whether page `j` is pinned: one of the 64 lowest of the pin range. -/
def pinned (x : Stream) (j : Nat) : Bool :=
  x.pinFrom < x.pinTo && 128 * j < x.pinTo && x.pinFrom < 128 * j + 128 && j < x.pinFrom / 128 + 64

/-- R267: whether page `j` is one of the WINDOW pages that end with the page of a step's last position. -/
def recent (x : Stream) (last j : Nat) : Bool := last / 128 < j + cfgWindow x.kvcfg

/-- R284: SWITCH as treated. -/
def State.switchLimit (s : State) (k : Nat) : Nat := max 1 (bits (s.reg .kvpg k 0x040) 15 8)

/-- R275: whether a pager may still decide to drop a page: every drop takes effect before the next GO, within SWITCH (DEDUCED, log entry
188). -/
def State.mayDrop (s : State) (k : Nat) : Bool := ((s.stack k).demotions.filter (fun e => e.2 = 0)).length < s.switchLimit k

/-- A waiting change of LOC joins its pager's list. -/
def State.addSwitch (s : State) (lb line v : Nat) : State :=
  let k := pagerOf lb
  let x := s.stack k
  s.setStack k { x with demotions := x.demotions ++ [(ixKey lb line, v)] }

/-- R274, R275: a pager examines one index line at the commit of a step whose last position was `last`: it decides to drop, to demote or to copy
back. -/
def State.examine (s : State) (x : Stream) (last : Nat) (e : Nat × Nat × Nat) : State :=
  let (lb, line, j) := e
  let thr := cfgThr x.kvcfg
  let v := s.score lb line x.kvlen (cfgHl x.kvcfg)
  if (lookup (s.stack (pagerOf lb)).demotions (ixKey lb line)).isSome then s
  else if s.locTier lb line = 0 then
    if thr ≠ 0 && 128 * j + 128 ≤ x.kvlen && !recent x last j && !pinned x j && s.refs lb line == 1 && Fv.lt v (.fin false 1 (-(thr : Int))) then
      if bit x.kvcfg 25 then (if s.mayDrop (pagerOf lb) then s.addSwitch lb line 0 else s) else s.addSwitch lb line (if bit (s.loc lb line) 29 then 2 else 1)
    else s
  else if s.locTier lb line = 1 ∧ !Fv.lt v (.fin false 1 (1 - (thr : Int))) then s.addSwitch lb line 3
  else s

/-- R274: the index lines of a stream in berths that a pager serves, by head, page and layer, each after its place in that order. -/
def State.pagerLines (s : State) (st k : Nat) : List (Nat × Nat × Nat × Nat) :=
  let sh := s.kvShape (s.stream st).image
  (pairs sh.heads (ceilDiv (s.stream st).kvlen 128)).flatMap (fun hj => match s.homeHere sh hj.1 hj.2 with
    | none => []
    | some lb => if pagerOf lb ≠ k then [] else match s.column sh lb st hj.1 hj.2 with
      | none => []
      | some c => (List.range sh.layers).map (fun l => ((hj.1 * 2 ^ 13 + hj.2) * 2 ^ 8 + l, lb, c + l, hj.2)))

/-- R274: a pager examines the next CHECK index lines of a stream in cyclic order. -/
def State.scan (s : State) (st k last : Nat) : State :=
  let l := s.pagerLines st k
  let x := s.stream st
  let pos := (lookup x.checkPos k).getD 0
  let due := (l.filter (fun e => pos ≤ e.1) ++ l.filter (fun e => e.1 < pos)).take (bits (s.reg .kvpg k 0x040) 7 0)
  match due.getLast? with
  | none => s
  | some z =>
    if x.shipOut.isSome then s
    else
      let s := due.foldl (fun s e => s.examine x last e.2) s
      s.setStream st { s.stream st with checkPos := Sparse.insert x.checkPos k (z.1 + 1) }

/-- A pending change of LOC of an index line takes its next value. -/
def State.nextSwitch (s : State) (lb line w : Nat) : State :=
  let x := s.stack (pagerOf lb)
  s.setStack (pagerOf lb) { x with demotions := x.demotions.map (fun e => if e.1 = ixKey lb line then (e.1, w) else e) }

/-- R275: a page is copied to place `a` of the device part. -/
def State.pageOut (s : State) (lb line a : Nat) : State :=
  let page := s.pageBytes lb line
  let s := { s.drawn with hbm := Memory.write s.hbm a page, copies := s.copies ++ [a] }
  (s.lbWrite lb (line * 128 + 0x48) (leBytes a 8)).nextSwitch lb line 2

/-- R275: a page is copied back into the frame that was taken for it. -/
def pageIn (lb line : Nat) (x : State × Nat) : State :=
  (x.1.lbWrite lb (x.1.frameLine lb x.2 * 128) (x.1.pageBytes lb line)).nextSwitch lb line (4 + 8 * x.2)

/-- R275: a change of LOC becomes ready: the copy of a demoted page stands in the device part, or a page copied back in a free frame. -/
def State.copyDone (s : State) (lb line : Nat) (v : Nat) : Option State :=
  if v = 1 then (s.place 64 33792 (Config.copyPlace s.draws)).map (s.pageOut lb line)
  else if v = 3 then (s.takeFrame lb 1).map (pageIn lb line)
  else none

/-- R204, R209, R275: what the read of a page that is copied out (value 1) or back met; nothing is copied from a page that cannot be read. -/
def State.copyRead (s : State) (lb line v : Nat) (e : EccOutcome) : State :=
  let d := s.copyDpa lb line
  match e, s.physOf lb with
  | .clean, _ => s
  | _, none => s
  | .corrected, some b => if v = 1 then s.lineCorrected b (bits (s.loc lb line) 25 0) else s.correctUnit (dpaStack d)
  | .uncorrectable, some b => if v = 1 then (s.lineLost b (bits (s.loc lb line) 25 0)).raise .stor b 1
    else (s.tierLost (dpaStack d) (dpaOffset d)).raise .hbmc (dpaStack d) 1

/-- R275: DEMOTION_COPY_DONE: the oldest copy under way at a pager is done. -/
def execDemotionCopyDone (k : Stack) (r : EccOutcome) (s : State) : Res :=
  .next (match (s.stack k.val).demotions.find? (fun e => e.2 = 1 || e.2 = 3) with
    | none => s
    | some e =>
      let s := s.copyRead (e.1 / 2 ^ 26) (e.1 % 2 ^ 26) e.2 r
      if r = .uncorrectable then s else (s.copyDone (e.1 / 2 ^ 26) (e.1 % 2 ^ 26) e.2).getD s)

/-- R243: whether a page belongs to a stream that is the source of a shipment. -/
def State.sourcePage (s : State) (lb line : Nat) : Bool :=
  let w := s.ixWord lb line 0x60
  let j := bits (s.ixWord lb line 0x64) 12 0
  s.streams.any (fun t => t.2.shipOut.isSome && s.column (s.kvShape t.2.image) lb t.1 (bits w 31 24) j == some (line - bits w 23 16))

/-- R275: the first change of LOC that a pager may make in this interval, within SWITCH: a drop, or else a ready one. -/
def State.dueSwitch (s : State) (k : Nat) : Option (Nat × Nat) :=
  let x := s.stack k
  let l := x.demotions.filter (fun e => !s.sourcePage (e.1 / 2 ^ 26) (e.1 % 2 ^ 26))
  if s.switchLimit k ≤ x.switches then none
  else (l.find? (fun e => e.2 = 0)).or (l.find? (fun e => e.2 = 2 || e.2 % 8 = 4))

/-- R261, R274, R275: one change of LOC. -/
def State.switchLoc (s : State) (k : Nat) (e : Nat × Nat) : State :=
  let lb := e.1 / 2 ^ 26
  let line := e.1 % 2 ^ 26
  let x := s.stack k
  let w := s.loc lb line
  let s := s.setStack k { x with demotions := x.demotions.filter (fun f => f.1 ≠ e.1), switches := x.switches + 1 }
  let frame := s.frameOf lb (bits w 25 0)
  if e.2 = 0 then
    let s := (s.freeFrame lb frame).setIxWord lb line 0x44 (putBits (putBits w 27 26 2) 29 29 0)
    (if bit w 29 then s.dropCopy (s.copyDpa lb line) else s).count .kvpg k 0x074 1
  else if e.2 = 2 then
    ((s.freeFrame lb frame).setIxWord lb line 0x44 (putBits w 27 26 1 ||| flag true 29)).count .kvpg k 0x070 1
  else s.setIxWord lb line 0x44 (putBits (putBits w 27 26 0) 25 0 (s.frameLine lb (e.2 / 8)))

/-- R283: what a pager's read of an index line, a page table or a node met. -/
def State.tableRead (s : State) (k : Nat) (e : EccOutcome) : State := match e with
  | .clean => s
  | .corrected => s.raise .kvpg k 0
  | .uncorrectable => s.raise .kvpg k 1

/-- R283: what the pagers met in a phase of the sequencer. -/
def State.tableReads (s : State) (l : List (Stack × EccOutcome)) : State := l.foldl (fun s e => s.tableRead e.1.val e.2) s

/-- Whether some pager could not read its tables in a phase. -/
def tablesLost (l : List (Stack × EccOutcome)) : Bool := l.any (fun e => e.2 == .uncorrectable)

/-- R275, R283: LOC_CHANGE, in the interval between a commit and the next GO. -/
def execLocChange (k : Stack) (table : EccOutcome) (s : State) : Res :=
  .next (match s.seq.cur, s.dueSwitch k.val with
    | none, some e => if table = .uncorrectable then s.tableRead k.val table else (s.tableRead k.val table).switchLoc k.val e
    | _, _ => s)

-- the prefix tree (R276–R280)

/-- R277: fields of a node. -/
def State.nodeWord (s : State) (a off : Nat) : Nat := leNat (Memory.read s.hbm (a + off) 8)

/-- R276: the hash key's two halves. -/
def State.hashKey (s : State) : Dword × Dword :=
  let w := fun i => (s.reg .kvpg 0 (0x050 + 4 * i)).toNat
  (BitVec.ofNat 64 (w 0 + 2 ^ 32 * w 1), BitVec.ofNat 64 (w 2 + 2 ^ 32 * w 3))

/-- R276: 64 tokens as bytes. -/
def tokenBytes (l : List Word) : List Byte := l.flatMap (fun t => leBytes t.toNat 4)

/-- R276: the key of a block under a parent node (0 for the first block). -/
def State.blockKey (s : State) (img parent : Nat) (tokens : List Word) : Nat :=
  let model := match (s.image img).manifest with | some m => m.modelId.toNat | none => 0
  let up := if parent = 0 then 0 else s.nodeWord parent 0
  (sipHash s.hashKey.1 s.hashKey.2 (leBytes model 8 ++ leBytes up 8 ++ tokenBytes tokens)).toNat

/-- R277: the address of a key's bucket. -/
def State.bucket (s : State) (key : Nat) : Nat := s.hashTable.1 + 8 * (key % (s.hashTable.2 / 8))

/-- R277: the nodes of a bucket chain from a DPA on. -/
def State.chainFrom (s : State) : Nat → Nat → List Nat
  | 0, _ => []
  | n + 1, a => if a = 0 then [] else a :: s.chainFrom n (s.nodeWord a 0x10)

/-- R278: a block's node, and whether its key met other tokens or another parent. -/
def State.findNode (s : State) (key parent : Nat) (tokens : List Word) : Option Nat × Bool :=
  let l := (s.chainFrom s.nodes.length (s.nodeWord (s.bucket key) 0)).filter (fun a => s.nodeWord a 0 = key)
  match l.find? (fun a => s.nodeWord a 8 = parent && Memory.read s.hbm (a + 0x80) 256 == tokenBytes tokens) with
  | some a => (some a, false)
  | none => (none, !l.isEmpty)

/-- The pager that deals with block `i` of a stream: the one at the home of head 0's page (log entry 42). -/
def State.blockPager (s : State) (st i : Nat) : Nat :=
  match s.homeHere (s.kvShape (s.stream st).image) 0 (i / 2) with
  | some lb => pagerOf lb
  | none => 0

/-- R277: the column that a node names for a head. -/
def State.nodeColumn (s : State) (a h : Nat) : Option Nat :=
  let w := BitVec.ofNat 32 (leNat (Memory.read s.hbm (a + 0x40 + 4 * h) 4))
  if bit w 31 then some (bits w 25 0) else none

/-- Runs an operation for every head whose page `j` has its home in this module. -/
def State.eachHead (s : State) (k : KvShape) (j : Nat) (f : State → Nat → Nat → State) : State :=
  (List.range k.heads).foldl (fun s h => match s.homeHere k h j with
    | none => s
    | some lb => f s lb h) s

/-- R278: the stream's entry for a page takes a node's column. -/
def State.adoptColumn (s : State) (k : KvShape) (st j a lb h : Nat) : State :=
  match s.nodeColumn a h with
  | none => s
  | some c =>
    let s := match s.column k lb st h j with
      | some old => s.releaseColumn k lb old
      | none => s
    (s.raiseRefs k lb c).setColumn k lb st h j (some c)

/-- R278: whether a stream already uses a node's columns for a page. -/
def State.usesColumns (s : State) (k : KvShape) (st j a : Nat) : Bool :=
  (List.range k.heads).all (fun h => match s.homeHere k h j with
    | none => true
    | some lb => s.column k lb st h j == s.nodeColumn a h)

/-- R277: LASTUSE. -/
def State.touchNode (s : State) (a : Nat) : State := { s with hbm := Memory.setDword s.hbm (a + 0x18) s.stamp }

/-- R278: whether matching is tried for a stream's next block. -/
def State.matchable (s : State) (st : Nat) : Bool :=
  let x := s.stream st
  bit x.kvcfg 27 && x.state == .active && x.kvlen % 64 == 0 && 65 ≤ x.queue.length && s.treeThere &&
  (match x.chain with | some c => c.length == x.kvlen / 64 | none => false) &&
  (s.stack (s.blockPager st (x.kvlen / 64))).inserts.isEmpty

/-- R278: one block is tried; `true` says that it was adopted. -/
def State.matchBlock (s : State) (st : Nat) : State × Bool :=
  let x := s.stream st
  if !s.matchable st then (s, false)
  else
    let chain := x.chain.getD []
    let parent := chain.getLastD 0
    let tokens := x.queue.take 64
    let k := s.kvShape x.image
    let j := x.kvlen / 128
    match s.findNode (s.blockKey x.image parent tokens) parent tokens with
    | (none, c) => (if c then s.raise .kvpg (s.blockPager st (x.kvlen / 64)) 3 else s, false)
    | (some a, _) =>
      if x.kvlen % 128 ≠ 0 ∧ !s.usesColumns k st j a then (s, false)
      else
        let pager := s.blockPager st (x.kvlen / 64)
        let s := if x.kvlen % 128 = 0 then s.eachHead k j (fun s lb h => s.adoptColumn k st j a lb h) else s
        let s := (s.touchNode a).count .kvpg pager 0x07C 1
        (s.setStream st { x with kvlen := x.kvlen + 64, queue := x.queue.drop 64, carry := false, tokens := x.tokens ++ tokens
                                 chain := some (chain ++ [a]) }, true)

/-- R278: at most `n` blocks are matched, up to the first miss. -/
def State.matchBlocks (s : State) (st : Nat) : Nat → State
  | 0 => s
  | n + 1 => match s.matchBlock st with
    | (s, true) => s.matchBlocks st n
    | (s, false) => s

/-- R277: the bytes of a new node. -/
def State.nodeBytes (s : State) (k : KvShape) (st i key parent next : Nat) (tokens : List Word) : List Byte :=
  let cols := (List.range 16).flatMap (fun h => leBytes (match (if h < k.heads then s.homeHere k h (i / 2) else none) with
    | none => 0
    | some lb => match s.column k lb st h (i / 2) with
      | some c => c + 2 ^ 31
      | none => 0) 4)
  leBytes key 8 ++ leBytes parent 8 ++ leBytes next 8 ++ leBytes s.stamp.toNat 8 ++ leBytes 0 2 ++ leBytes (i % 2) 2 ++
  leBytes (i / 2) 4 ++ List.replicate 24 0 ++ cols ++ tokenBytes tokens ++ List.replicate 128 0

/-- R277: CHILDREN of a node. -/
def State.children (s : State) (a : Nat) : Nat := leNat (Memory.read s.hbm (a + 0x20) 2) % 2 ^ 13

/-- Writes CHILDREN of a node. -/
def State.setChildren (s : State) (a n : Nat) : State := { s with hbm := Memory.write s.hbm (a + 0x20) (leBytes n 2) }

/-- What became of a block at a commit (R279). -/
inductive Inserted where
  | done | waits | stop
  deriving DecidableEq, Repr, Inhabited

/-- R277, R279: a node of block `i` of a stream at place `a`, the first of its bucket's chain. -/
def State.addNode (s : State) (st i key parent : Nat) (tokens : List Word) (a : Nat) : State :=
  let k := s.kvShape (s.stream st).image
  let head := s.bucket key
  let node := s.nodeBytes k st i key parent (s.nodeWord head 0) tokens
  let s := { s.drawn with hbm := Memory.write (Memory.write s.hbm a node) head (leBytes a 8)
                          nodes := s.nodes ++ [NodeSt.mk a k.heads k.layers k.modules] }
  let s := if parent = 0 then s else s.setChildren parent (s.children parent + 1)
  s.eachHead k (i / 2) (fun s lb h => match s.column k lb st h (i / 2) with
    | some c => s.raiseRefs k lb c
    | none => s)

/-- R279: the next completed block of a stream is matched, or gets a node; an insertion under a full node waits. -/
def State.insertBlock (s : State) (st : Nat) : State × Inserted :=
  let x := s.stream st
  let chain := x.chain.getD []
  let i := chain.length
  let k := s.kvShape x.image
  if x.chain.isNone ∨ !bit x.kvcfg 27 ∨ !s.treeThere ∨ x.kvlen < 64 * (i + 1) then (s, .stop)
  else
    let parent := chain.getLastD 0
    let tokens := (x.tokens.drop (64 * i)).take 64
    let key := s.blockKey x.image parent tokens
    let move := fun (s : State) (a : Nat) => s.setStream st { s.stream st with chain := some (chain ++ [a]) }
    match s.findNode key parent tokens with
    | (some a, _) => (move (s.touchNode a) a, .done)
    | (none, c) =>
      let pager := s.blockPager st i
      let s := if c then s.raise .kvpg pager 3 else s
      if parent ≠ 0 ∧ 4096 ≤ s.children parent then (s, .waits)
      else (s.place 512 512 (Config.nodePlace s.draws)).elim (s, .stop)
        (fun a => (move (s.addNode st i key parent tokens a) a, .done))

/-- R279: the completed blocks of a stream in ascending order; one that must wait, or that meets a pager with an insertion waiting, joins
that pager's list. -/
def State.insertBlocks (s : State) (st : Nat) : Nat → State
  | 0 => s
  | n + 1 =>
    let pager := s.blockPager st ((s.stream st).chain.getD []).length
    let wait := fun (s : State) => let y := s.stack pager; s.setStack pager { y with inserts := y.inserts ++ [st] }
    if !(s.stack pager).inserts.isEmpty then
      if (s.stream st).kvlen < 64 * (((s.stream st).chain.getD []).length + 1) then s else wait s
    else match s.insertBlock st with
      | (s, .done) => s.insertBlocks st n
      | (s, .waits) => wait (s.raise .kvpg pager 4)
      | (s, .stop) => s

/-- R279, R283: the first insertion waiting at a pager proceeds once its node has room, and the walks behind it follow. -/
def execPrefixInsertResume (k : Stack) (table : EccOutcome) (s : State) : Res :=
  .next (let x := s.stack k.val
    match x.inserts with
    | [] => s
    | st :: rest =>
      let s := s.tableRead k.val table
      if table = .uncorrectable then s
      else match (s.setStack k.val { x with inserts := [] }).insertBlock st with
      | (_, .waits) => s
      | (s', .done) =>
        let s' := s'.setStack k.val { s'.stack k.val with inserts := rest }
        if (s'.stream st).kvlen < 64 * (((s'.stream st).chain.getD []).length + 1) then s'
        else if s'.blockPager st ((s'.stream st).chain.getD []).length = k.val then s'.setStack k.val { s'.stack k.val with inserts := st :: rest }
        else s'.insertBlocks st 16384
      | (s', .stop) => s'.setStack k.val { s'.stack k.val with inserts := rest })

/-- R280: whether a berth that a pager serves is below LOW. -/
def State.poolLow (s : State) (k : Nat) : Bool := (servedBy k).any (fun lb => s.framesFree lb < lowMark s lb)

/-- Takes a node out of its bucket chain. -/
def State.unlink (s : State) (a : Nat) : State :=
  let head := s.bucket (s.nodeWord a 0)
  let next := s.nodeWord a 0x10
  let l := s.chainFrom s.nodes.length (s.nodeWord head 0)
  let slot := match l.find? (fun b => s.nodeWord b 0x10 = a) with
    | some b => b + 0x10
    | none => head
  { s with hbm := Memory.write s.hbm slot (leBytes next 8) }

/-- R280: a node is removed and lowers the REFS that it held; the chains of streams end before it. -/
def State.removeNode (s : State) (n : NodeSt) : State :=
  let a := n.dpa
  let k : KvShape := { heads := n.heads, layers := n.layers, modules := n.modules }
  let j := leNat (Memory.read s.hbm (a + 0x24) 4) % 2 ^ 13
  let parent := s.nodeWord a 8
  let s := s.unlink a
  let s := { s with nodes := s.nodes.filter (fun m => m.dpa ≠ a) }
  let s := if parent = 0 then s else s.setChildren parent (s.children parent - 1)
  let s := s.eachHead k j (fun s lb h => match s.nodeColumn a h with
    | some c => s.releaseColumn k lb c
    | none => s)
  s.liveStreams.foldl (fun s i =>
    let x := s.stream i
    s.setStream i { x with chain := x.chain.map (fun c => c.takeWhile (fun b => b ≠ a)) }) s

/-- The element of a list with the least key, the first of equal ones. -/
def least {α : Type} (f : α → Nat) : List α → Option α
  | [] => none
  | a :: t => match least f t with
    | none => some a
    | some b => if f a ≤ f b then some a else some b

/-- R280, R283: while a berth that a pager serves is below LOW, the node without children that was used longest ago is removed. -/
def execNodeRemoval (k : Stack) (table : EccOutcome) (s : State) : Res :=
  .next (if s.poolLow k.val then
      match least (fun n => s.nodeWord n.dpa 0x18) (s.nodes.filter (fun n => s.children n.dpa = 0)) with
      | some n => if table = .uncorrectable then s.tableRead k.val table else (s.tableRead k.val table).removeNode n
      | none => s
    else s)

-- backup copies (R272)

/-- R272: the backup copy of a page at place `a`. -/
def State.backupPageAt (s : State) (key lb line a : Nat) : State :=
  let page := s.pageBytes lb line
  let s := { s.drawn with hbm := Memory.write s.hbm a page, copies := s.copies ++ [a], backups := s.backups ++ [(key, a)] }
  (s.lbWrite lb (line * 128 + 0x48) (leBytes a 8)).setIxWord lb line 0x44 (s.loc lb line ||| flag true 29)

/-- R272: a page that has filled is copied to the slower tier. -/
def State.backupPage (s : State) (st h j l lb line : Nat) : State :=
  if (lookup s.backups (backupKey st h j l)).isSome then s
  else if bit (s.loc lb line) 29 then { s with backups := s.backups ++ [(backupKey st h j l, s.copyDpa lb line)] }
  else if s.locTier lb line ≠ 0 then s
  else (s.place 64 33792 (Config.copyPlace s.draws)).elim s (s.backupPageAt (backupKey st h j l) lb line)

/-- R272: the first backup copy of a ring, at place `a`. -/
def State.backupRingAt (s : State) (key : Nat) (rows : List Byte) (a : Nat) : State :=
  { s.drawn with hbm := Memory.write s.hbm a rows, copies := s.copies ++ [a], ringCopies := s.ringCopies ++ [(key, a)] }

/-- R272: a tail ring's rows are copied to the slower tier. -/
def State.backupRing (s : State) (k : KvShape) (st l h : Nat) : State :=
  let key := st * 4096 + l * 16 + h
  match s.ringLine k st l h with
  | none => s
  | some (lb, line) =>
    let rows := s.lbRead lb (line * 128) 32768
    (lookup s.ringCopies key).elim
      ((s.place 64 33792 (Config.copyPlace s.draws)).elim s (s.backupRingAt key rows))
      (fun a => { s with hbm := Memory.write s.hbm a rows })

/-- R272: what a commit copies for a stream with BACKUP = 1. -/
def State.backup (s : State) (st : Nat) : State :=
  let x := s.stream st
  let k := s.kvShape x.image
  if !bit x.kvcfg 26 then s
  else
    let s := (pairs k.heads (x.kvlen / 128)).foldl (fun s hj => match s.homeHere k hj.1 hj.2 with
      | none => s
      | some lb => match s.column k lb st hj.1 hj.2 with
        | none => s
        | some c => (List.range k.layers).foldl (fun s l => s.backupPage st hj.1 hj.2 l lb (c + l)) s) s
    (pairs k.layers k.heads).foldl (fun s lh => s.backupRing k st lh.1 lh.2) s

-- ring mode (R270)

/-- R270: whether a stream has a valid summary on every full page. -/
def State.summarised (s : State) (st : Nat) : Bool :=
  let x := s.stream st
  let k := s.kvShape x.image
  (pairs k.heads (x.kvlen / 128)).all (fun hj => match s.homeHere k hj.1 hj.2 with
    | none => true
    | some lb => match s.column k lb st hj.1 hj.2 with
      | none => true
      | some c => (List.range k.layers).all (fun l => 2 ≤ s.locTier lb (c + l) || bit (s.loc lb (c + l)) 28))

-- pager requests (R282)

/-- R212, R282, R283: READ_PAGE. A page that is dropped or absent, or a code other than READ_PAGE, returns no data and sets GONE; `unit` counts to
the byte whose line or unit failed. -/
def execReadPage (k : Stack) (table e : EccOutcome) (unit : Nat) (s : State) : Res :=
  .next (let x := s.stack k.val
    match x.pager with
    | [] => s
    | id :: rest =>
      let s := s.setStack k.val { x with pager := rest }
      match s.served? id with
      | none => s
      | some p =>
        let s := s.tableRead k.val table
        if table = .uncorrectable then s.respond p [] else
        let a := p.h.addr.toNat
        let st := a / 2 ^ 4 % 256
        let h := a / 2 ^ 12 % 16
        let l := a / 2 ^ 16 % 256
        let j := a / 2 ^ 24 % 2 ^ 13
        let off := a / 2 ^ 37 % 2 ^ 10 * 64
        let sh := s.kvShape (s.stream st).image
        let line := if a % 16 = 1 ∧ h < sh.heads ∧ l < sh.layers then
            match s.homeHere sh h j with
            | some lb => (s.column sh lb st h j).map (fun c => (lb, c + l))
            | none => none
          else none
        let gone := (s.raise .kvpg k.val 2).respond p []
        match line with
        | none => gone
        | some (lb, ix) =>
          if 2 ≤ s.locTier lb ix then gone
          else if s.locTier lb ix = 0 then
            let at_ := bits (s.loc lb ix) 25 0
            match e, s.physOf lb with
            | .uncorrectable, some b => ((s.lineLost b (at_ + (off + unit % p.h.len.toNat) / 128)).raise .stor b 1).respond p []
            | .corrected, some b => (s.lineCorrected b (at_ + off / 128)).respond p (s.lbRead lb (at_ * 128 + off) p.h.len.toNat)
            | _, _ => s.respond p (s.lbRead lb (at_ * 128 + off) p.h.len.toNat)
          else
            let d := s.copyDpa lb ix + off
            let u := d + unit % p.h.len.toNat / 64 * 64
            if d < s.hostLimit then (s.raise .hbmc (dpaStack d) 2).respond p []
            else if s.dpaRetired d p.h.len.toNat then ((s.logTierError (dpaStack d) (dpaOffset d)).raise .hbmc (dpaStack d) 1).respond p []
            else match e with
            | .uncorrectable => ((s.tierLost (dpaStack u) (dpaOffset u)).raise .hbmc (dpaStack u) 1).respond p []
            | .corrected => (s.correctUnit (dpaStack d)).respond p (Memory.read s.hbm d p.h.len.toNat)
            | .clean => s.respond p (Memory.read s.hbm d p.h.len.toNat))

end Sys2Proof.Machine
end

