-- ==== Sys2Proof/Machine/Sampler.lean ====
section
/-! DEFINITION. Token selection (R287–R296, R302–R307, R529): how one token is chosen, grammar images and their slots, penalty counts,
and the SMPL registers that act in ways of their own. -/

namespace Sys2Proof.Machine

-- the configuration as a sampling record holds it (R291, R305)

/-- R291, R305: TEMP_RCP of a TEMP as treated. -/
def tempRcp (h : BitVec 16) : Word :=
  if h.toNat < 0x0080 ∨ 0x7F80 ≤ h.toNat then 0
  else if 0x7E80 < h.toNat then 0x00800000#32
  else frcp (f32OfBf16 h)

/-- R305: REP as treated. -/
def repTreated (h : BitVec 16) : BitVec 16 :=
  if h.toNat < 0x3F80 ∨ 0x7F80 < h.toNat then 0x3F80#16 else if h.toNat = 0x7F80 then 0x7F7F#16 else h

/-- R305: FREQ as treated. -/
def freqTreated (h : BitVec 16) : Word :=
  if 0x7F80 < h.toNat % 0x8000 then 0 else f32OfBf16 h

-- one token (R287–R290)

/-- Whether an FP32 value is above zero. -/
def positive (l : Word) : Bool := Fv.lt (.zero false) (Fv.ofF32 l)

/-- R287, R296: the count of a token: its entry's, or the overflow bucket's. -/
def countOf (counts : List (Nat × Nat)) (ovf t : Nat) : Nat := (lookup counts t).getD ovf

/-- R287: step 2, the penalty on a logit whose token has count `c`. -/
def penalised (r : SampleRec) (c : Nat) (l : Word) : Word :=
  if r.pen = false ∨ c = 0 then l
  else ffma (r.freq ^^^ 0x80000000#32) (Fv.ofInt c 0).toF32 (fmul l (if positive l then r.repRcp else r.rep))

/-- R287: z of a logit before the mask. -/
def zOf (r : SampleRec) (t : Nat) (l : Word) : Word :=
  let x := penalised r (countOf r.counts r.overflow t) l
  if r.tempRcp = 0 then x else fmul x r.tempRcp

/-- R288: z of a token, none when it is not allowed. -/
def allowed (r : SampleRec) (vocab : Nat) (mask : Option Nat) (t : Nat) (logits : List Word) : Option Word :=
  if vocab ≤ t ∨ (mask.any (fun m => !m.testBit t)) = true then none
  else match logits[t]? with
    | none => none
    | some l =>
      let z := zOf r t l
      match Fv.ofF32 z with
      | .nan => none
      | .inf true => none
      | _ => some z

/-- Descending z: whether `a` ranks before `b`; zeros of both signs are equal. -/
def ranksBefore (a b : Word) : Bool := match Fv.ofF32 b, Fv.ofF32 a with
  | .zero _, .zero _ => false
  | x, y => Fv.lt x y

/-- R288: an entry takes its place after every entry that ranks before it or is equal. -/
def insEntry (e : Word × Nat) : List (Word × Nat) → List (Word × Nat)
  | [] => [e]
  | x :: t => if ranksBefore e.1 x.1 then e :: x :: t else x :: insEntry e t

/-- R288: the 64 largest of entries in ascending token order, a tie going to the lower token. -/
def largest (l : List (Word × Nat)) : List (Word × Nat) := l.foldl (fun a e => (insEntry e a).take 64) []

/-- R288: a slice's candidates: z of each of its tokens in order, none where the token is not allowed. -/
def sliceZ (r : SampleRec) (vocab : Nat) (mask : Option Nat) (logits : List Word) (sl : Nat × Nat) : List (Option Word) :=
  (List.range sl.2).map (fun i => allowed r vocab mask (sl.1 + i) logits)

/-- R152, R288: the slice maximum and the sum of exponentials of a slice with an allowed token. -/
def sliceSum (zs : List (Option Word)) : Option (Word × Word) := match zs.filterMap id with
  | [] => none
  | l =>
    let m := laneMax l
    let e := zs.map (fun z => match z with | some v => fexp (fsub v m) | none => 0)
    match (chunks 64 (zs.length / 64 + 1) e).map treeSum with
    | [] => none
    | s :: t => some (m, t.foldl fadd s)

/-- R153, R288: the maximum and the sum over all slices. -/
def combine (l : List (Word × Word)) : Word × Word :=
  let m := laneMax (l.map Prod.fst)
  match l.map (fun e => fmul (fexp (fsub e.1 m)) e.2) with
  | [] => (m, 0)
  | s :: t => (m, t.foldl fadd s)

/-- R289: running sums in list order. -/
def running : Word → List Word → List Word
  | _, [] => []
  | a, p :: t => fadd a p :: running (fadd a p) t

/-- R289: the running sums of a list of probabilities. -/
def sums : List Word → List Word
  | [] => []
  | p :: t => p :: running p t

/-- R289: the entries up to the first at which the running sum reaches TOPP / 65,536. -/
def nucleus (topp : Nat) (l : List (Nat × Word)) : List (Nat × Word) :=
  if topp = 0 then l
  else l.take ((((sums (l.map Prod.snd)).takeWhile (fun c => Fv.lt (Fv.ofF32 c) (.fin false topp (-16)))).length) + 1)

/-- R290: u of a position. -/
def uniform (p : Nat) (key seq : Dword) : Word := (Fv.fin false (2 * ((philoxOut p key seq).toNat / 512) + 1) (-24)).toF32

/-- R289: the draw among the kept entries. -/
def draw (keep : List (Nat × Word)) (u : Word) : Option Nat :=
  let c := sums (keep.map Prod.snd)
  let bound := fmul u (c.getLastD 0)
  match (keep.zip c).find? (fun e => Fv.lt (Fv.ofF32 bound) (Fv.ofF32 e.2)) with
  | some e => some e.1.1
  | none => (keep.getLast?).map Prod.fst

/-- R288: the slices of a manifest that are not empty, in ascending VBASE. -/
def slicesOf (m : Manifest) : List (Nat × Nat) :=
  (m.slices.filter (fun s => s.2 ≠ 0)).foldl (fun a s => Sparse.insert a s.1 s.2) []

/-- R287–R290: the token chosen at position `p`, none when the position has no token. -/
def chooseToken (m : Manifest) (r : SampleRec) (mask : Option Nat) (p : Nat) (logits : List Word) : Option Nat :=
  let per := (slicesOf m).map (fun sl => (sl.1, sliceZ r m.vocab mask logits sl))
  let all := per.flatMap (fun e => ((List.range e.2.length).zip e.2).filterMap (fun x => x.2.map (fun z => (z, e.1 + x.1))))
  match largest all with
  | [] => none
  | top :: rest =>
    if r.tempRcp = 0 ∨ Fv.ofF32 top.1 = .inf false then some top.2
    else
      let (mx, sum) := combine (per.filterMap (fun e => sliceSum e.2))
      let rcp := frcp sum
      let keep := ((top :: rest).take r.topk).map (fun e => (e.2, fmul (fexp (fsub e.1 mx)) rcp))
      draw (nucleus r.topp keep) (uniform p r.key r.seq)

-- grammar images (R292)

/-- R292: the header of a grammar image. -/
structure Gram where
  base : Nat
  nstates : Nat
  nmasks : Nat
  start : Nat
  ntrans : Nat
  stateOff : Nat
  maskOff : Nat
  transOff : Nat
  deriving DecidableEq, Repr, Inhabited

/-- A little-endian number of `n` bytes in the tier. -/
def State.tierNat (s : State) (a n : Nat) : Nat := leNat (Memory.read s.hbm a n)

/-- R292: the header of the image at a DPA. -/
def State.gram (s : State) (a : Nat) : Gram :=
  { base := a, nstates := s.tierNat (a + 4) 2, nmasks := s.tierNat (a + 6) 2, start := s.tierNat (a + 8) 2, ntrans := s.tierNat (a + 12) 4,
    stateOff := s.tierNat (a + 16) 8, maskOff := s.tierNat (a + 24) 8, transOff := s.tierNat (a + 32) 8 }

/-- R529: where the parts of an image lie, from its start. -/
def Gram.parts (g : Gram) : List (Nat × Nat) :=
  [(0, 64), (g.stateOff, 16 * g.nstates), (g.maskOff, 32768 * g.nmasks), (g.transOff, 8 * g.ntrans)].filter (fun e => e.2 ≠ 0)

/-- Whether no two ranges of a list meet. -/
def apart : List (Nat × Nat) → Bool
  | [] => true
  | e :: t => t.all (fun f => !meet e.1 e.2 f.1 f.2) && apart t

/-- R292: word `i` of a state's entry. -/
def State.gramState (s : State) (g : Gram) (q i : Nat) : Nat := s.tierNat (g.base + g.stateOff + 16 * q + 4 * i) 4

/-- R292: the token of a transition. -/
def State.transToken (s : State) (g : Gram) (i : Nat) : Nat := s.tierNat (g.base + g.transOff + 8 * i) 4

/-- R292: the next state of a transition. -/
def State.transNext (s : State) (g : Gram) (i : Nat) : Nat := s.tierNat (g.base + g.transOff + 8 * i + 4) 4

/-- R292: the transitions of a state are in strictly ascending token order. -/
def rising : List Nat → Bool
  | a :: b :: t => a < b && rising (b :: t)
  | _ => true

/-- R292: the entry of a state is well formed. -/
def State.stateOk (s : State) (g : Gram) (q : Nat) : Bool :=
  let first := s.gramState g q 1
  let n := s.gramState g q 2
  s.gramState g q 0 < g.nmasks && s.gramState g q 3 < g.nstates && first + n ≤ g.ntrans &&
  rising ((List.range n).map (fun i => s.transToken g (first + i)))

/-- R292, R529: the binding check: first the extents, then the header, the states and the transitions. A retired page fails it. -/
def State.gramOk (s : State) (a : Nat) : Bool :=
  let g := s.gram a
  let free := fun o n => s.inDevicePart (a + o) n
  free 0 64 && !s.dpaRetired a 64 && s.tierNat a 4 == 0x52475A4E &&
  (Memory.read s.hbm (a + 0x0A) 2 ++ Memory.read s.hbm (a + 0x28) 24).all (· == 0) &&
  1 ≤ g.nstates && g.nstates ≤ 4096 && 1 ≤ g.nmasks && g.nmasks ≤ 4096 && g.start < g.nstates &&
  g.stateOff % 64 == 0 && g.maskOff % 64 == 0 && g.transOff % 64 == 0 && apart g.parts && g.parts.all (fun e => free e.1 e.2) &&
  !s.dpaRetired (a + g.stateOff) (16 * g.nstates) && !s.dpaRetired (a + g.transOff) (8 * g.ntrans) &&
  (List.range g.nstates).all (s.stateOk g) &&
  (List.range g.ntrans).all (fun i => s.transToken g i < 262144 && s.transNext g i < g.nstates)

/-- R293: the mask of a state, bit t for token t. -/
def State.maskOf (s : State) (g : Gram) (q : Nat) : Nat := s.tierNat (g.base + g.maskOff + 32768 * s.gramState g q 0) 32768

/-- R292: the state after a token. -/
def State.gramNext (s : State) (g : Gram) (q t : Nat) : Nat :=
  match (List.range (s.gramState g q 2)).find? (fun i => s.transToken g (s.gramState g q 1 + i) = t) with
  | some i => s.transNext g (s.gramState g q 1 + i)
  | none => s.gramState g q 3

/-- R293: the masks for the chosen positions of a stream in state `q`: one, and one more after each draft that is allowed. -/
def State.masksFor (s : State) (g : Gram) : Nat → List Word → List Nat
  | q, [] => [s.maskOf g q]
  | q, d :: t =>
    let m := s.maskOf g q
    if m.testBit d.toNat then m :: s.masksFor g (s.gramNext g q d.toNat) t else [m]

-- grammar slots (R294, R307)

/-- R307: BASE of a grammar slot as a DPA. -/
def State.slotDpa (s : State) (g : Nat) : Nat := bits (s.regI .smpl 0 0x074 g) 27 0 * 4096

/-- R307: VALID of a grammar slot. -/
def State.slotBound (s : State) (g : Nat) : Bool := bit (s.regI .smpl 0 0x074 g) 31

/-- R305: GSLOT of a SMPL_SCFG value. -/
def gslotOf (w : Word) : Nat := bits w 11 8

/-- R293: START of the image bound to a slot; 0 while none is. -/
def State.startOf (s : State) (g : Nat) : Nat := if s.slotBound g then (s.gram (s.slotDpa g)).start else 0

/-- R294: a chosen entry keeps the masks of the old image, and its stream's automaton, which begins anew, will not advance. -/
def dropGrammar (l : List Nat) (e : BatchEntry) : BatchEntry := if l.contains e.stream then { e with moved := true } else e

/-- R294: every stream whose GSLOT names a slot starts at START of the image bound there. -/
def State.restart (s : State) (g : Nat) : State :=
  let l := s.liveStreams.filter (fun i => gslotOf (s.stream i).scfg = g)
  let s' := l.foldl (fun s i => s.setStream i { s.stream i with grammar := s.startOf g }) s
  let drop := fun (t : Option Step) => t.map (fun t => { t with entries := t.entries.map (dropGrammar l) })
  { s' with seq := { s'.seq with cur := drop s'.seq.cur, next := drop s'.seq.next } }

/-- R294: a write of SMPL_GBASE unbinds the slot shown; a nonzero one starts the check. A write through a DARK berth has no effect
(R302). -/
def State.writeGbase (s : State) (v : Word) : State :=
  let g := bits (s.reg .smpl 0 0x070) 3 0
  let s := s.setRegI .smpl 0 0x074 g (field (bits v 27 0) 0)
  let checks := s.grammarChecks.filter (· ≠ g)
  ({ s with grammarChecks := if bits v 27 0 = 0 then checks else checks ++ [g] }).restart g

/-- R294: the command. -/
def execGrammarBind (b : Berth) (v : Word) (s : State) : Res :=
  .next (if s.pageWrites .smpl b.val then s.writeGbase v else s)

/-- R303: an error of the module-wide bits, set in every instance that is not DARK. -/
def State.raiseSampler (s : State) (n : Nat) : State :=
  ((List.range 84).filter (fun b => !s.dark b)).foldl (fun s b => s.raise .smpl b n) s

/-- R303: corrected reads of tables or grammars, each in the instance of its berth. -/
def State.readsCorrected (s : State) (l : List Nat) : State := (l.filter (fun b => !s.dark b)).foldl (fun s b => s.raise .smpl b 0) s

/-- R529, R294, R303: the check of a slot ends. -/
def execGrammarCheckDone (slot : Fin 16) (readBad : Bool) (corrected : List Berth) (s : State) : Res :=
  .next (if s.grammarChecks.contains slot.val then
      let s := s.readsCorrected (corrected.map (fun b => b.val))
      let s := { s with grammarChecks := s.grammarChecks.filter (· ≠ slot.val) }
      if !readBad && s.gramOk (s.slotDpa slot.val) then
        (s.setRegI .smpl 0 0x074 slot.val (s.regI .smpl 0 0x074 slot.val ||| flag true 31)).restart slot.val
      else s.raiseSampler 2
    else s)

-- the selected stream's registers (R302–R306)

/-- R304: the stream that SMPL_SSEL selects. -/
def State.smplSel (s : State) : Nat := bits (s.reg .smpl 0 0x040) 7 0

/-- R306, R293: a write of SMPL_SGSTATE with RESET set; the automaton returns to START at the stream's next choose phase (R302). -/
def State.writeSgstate (s : State) (v : Word) : State :=
  if !bit v 31 then s else s.setStream s.smplSel { s.stream s.smplSel with gramReset := true }

/-- R306, R293: the command. -/
def execSgstateReset (b : Berth) (v : Word) (s : State) : Res :=
  .next (if s.pageWrites .smpl b.val then s.writeSgstate v else s)

/-- R296: a write of SMPL_SPCNT with CLEAR set; the table empties at the stream's next choose phase. -/
def State.writeSpcnt (s : State) (v : Word) : State :=
  if !bit v 31 then s else s.setStream s.smplSel { s.stream s.smplSel with clearCounts := true }

/-- R296: the command. -/
def execSpcntClear (b : Berth) (v : Word) (s : State) : Res :=
  .next (if s.pageWrites .smpl b.val then s.writeSpcnt v else s)

/-- R295: the streams that count towards the 32 with penalties. -/
def State.penalised (s : State) : Nat := (s.streams.filter (fun e => e.2.penSince)).length

/-- R295, R305: a write of SMPL_SCFG. -/
def State.writeScfg (s : State) (v : Word) : State :=
  let i := s.smplSel
  let x := s.stream i
  let g := gslotOf v
  let mask := bit v 7 && (s.slotBound g || s.grammarChecks.contains g)
  let pen := bit v 6 && (x.penSince || s.penalised < 32)
  (s.setRegI .smpl 0 0x044 i (field g 8 ||| flag mask 7 ||| flag pen 6 ||| field (bits v 5 0) 0)).setStream i { x with penSince := pen }

/-- R295, R305: the command. -/
def execPenEnWrite (b : Berth) (v : Word) (s : State) : Res :=
  .next (if s.pageWrites .smpl b.val then s.writeScfg v else s)

-- count tables (R296)

/-- R296: one emission of a token; every count saturates. -/
def countToken (x : Stream) (t : Nat) : Stream :=
  match lookup x.counts t with
  | some c => { x with counts := x.counts.map (fun e => if e.1 = t then (t, min (c + 1) (2 ^ 32 - 1)) else e) }
  | none =>
    if x.counts.length < 8192 then { x with counts := Sparse.insert x.counts t 1 }
    else { x with overflow := min (x.overflow + 1) (2 ^ 32 - 1) }

end Sys2Proof.Machine
end

