-- ==== Sys2Proof/Machine/Scalar.lean ====
section
/-! DEFINITION. The scalar/control class (R99–R112, R130): arithmetic, scratchpad words, branches, flow points, completion waits,
step parameters and the end of the block. -/

namespace Sys2Proof.Machine

-- shared operations

/-- R107: a scalar instruction whose result is a function of the core's registers. -/
def alu (s : State) (c : CoreId) (gd : GReg) (f : Core → Word) : State :=
  s.onCore c .scalar (fun k => s.endBundle c (setG k gd (f k)))

/-- R107: a branch to the bundle's own index plus the sign-extended offset when `p` holds (R101). -/
def branch (s : State) (c : CoreId) (off : BitVec 16) (p : Core → Bool) : State :=
  s.onCore c .scalar (fun k => if p k then s.endBundleAt c k ((k.pc : Int) + off.toInt) else s.endBundle c k)

/-- R107: signed order. -/
def ltS (a b : Word) : Bool := a.toInt < b.toInt
/-- R107: unsigned order. -/
def ltU (a b : Word) : Bool := a.toNat < b.toNat
/-- A truth value as a register holds it. -/
def truth (p : Bool) : Word := if p then 1 else 0

/-- R102: a slot of a unit that no row decodes stops the core. -/
def reservedSlot (s : State) (c : CoreId) (u : CoreUnit) : State := s.onCore c u (fun _ => s.fetchFault c.val)

-- no-operation and arithmetic

/-- R99, R102: NOP of a unit; in the scalar slot it ends the bundle. -/
def execNop (c : CoreId) (u : CoreUnit) (w : Word) (s : State) : Res :=
  .next (if w ≠ 0 then reservedSlot s c u else s.onCore c u (fun k => if u = .scalar then s.endBundle c k else s.setCore c.val k))

/-- R107: ADD. -/
def execAdd (c : CoreId) (gd ga gb : GReg) (s : State) : Res := .next (alu s c gd (fun k => gReg k ga + gReg k gb))
/-- R107: SUB. -/
def execSub (c : CoreId) (gd ga gb : GReg) (s : State) : Res := .next (alu s c gd (fun k => gReg k ga - gReg k gb))
/-- R107: AND. -/
def execAnd (c : CoreId) (gd ga gb : GReg) (s : State) : Res := .next (alu s c gd (fun k => gReg k ga &&& gReg k gb))
/-- R107: OR. -/
def execOr (c : CoreId) (gd ga gb : GReg) (s : State) : Res := .next (alu s c gd (fun k => gReg k ga ||| gReg k gb))
/-- R107: XOR. -/
def execXor (c : CoreId) (gd ga gb : GReg) (s : State) : Res := .next (alu s c gd (fun k => gReg k ga ^^^ gReg k gb))
/-- R107: SLL. -/
def execSll (c : CoreId) (gd ga gb : GReg) (s : State) : Res :=
  .next (alu s c gd (fun k => gReg k ga <<< ((gReg k gb).toNat % 32)))
/-- R107: SRL. -/
def execSrl (c : CoreId) (gd ga gb : GReg) (s : State) : Res :=
  .next (alu s c gd (fun k => gReg k ga >>> ((gReg k gb).toNat % 32)))
/-- R107: SRA. -/
def execSra (c : CoreId) (gd ga gb : GReg) (s : State) : Res :=
  .next (alu s c gd (fun k => (gReg k ga).sshiftRight ((gReg k gb).toNat % 32)))
/-- R107: SLT. -/
def execSlt (c : CoreId) (gd ga gb : GReg) (s : State) : Res := .next (alu s c gd (fun k => truth (ltS (gReg k ga) (gReg k gb))))
/-- R107: SLTU. -/
def execSltu (c : CoreId) (gd ga gb : GReg) (s : State) : Res := .next (alu s c gd (fun k => truth (ltU (gReg k ga) (gReg k gb))))
/-- R107: MUL. -/
def execMul (c : CoreId) (gd ga gb : GReg) (s : State) : Res := .next (alu s c gd (fun k => gReg k ga * gReg k gb))
/-- R107: ADDI. -/
def execAddi (c : CoreId) (gd ga : GReg) (imm : BitVec 16) (s : State) : Res := .next (alu s c gd (fun k => gReg k ga + sext16 imm))
/-- R107: ANDI. -/
def execAndi (c : CoreId) (gd ga : GReg) (imm : BitVec 16) (s : State) : Res := .next (alu s c gd (fun k => gReg k ga &&& zext16 imm))
/-- R107: ORI. -/
def execOri (c : CoreId) (gd ga : GReg) (imm : BitVec 16) (s : State) : Res := .next (alu s c gd (fun k => gReg k ga ||| zext16 imm))
/-- R107: LUI. -/
def execLui (c : CoreId) (gd : GReg) (imm : BitVec 16) (s : State) : Res := .next (alu s c gd (fun _ => zext16 imm <<< 16))
/-- R107: SLLI. -/
def execSlli (c : CoreId) (gd ga : GReg) (sh : BitVec 5) (s : State) : Res := .next (alu s c gd (fun k => gReg k ga <<< sh.toNat))
/-- R107: SRLI. -/
def execSrli (c : CoreId) (gd ga : GReg) (sh : BitVec 5) (s : State) : Res := .next (alu s c gd (fun k => gReg k ga >>> sh.toNat))
/-- R107: SRAI. -/
def execSrai (c : CoreId) (gd ga : GReg) (sh : BitVec 5) (s : State) : Res :=
  .next (alu s c gd (fun k => (gReg k ga).sshiftRight sh.toNat))

-- scratchpad words

/-- R107, R104: GLD. A refused read leaves gd as it is. -/
def execGld (c : CoreId) (gd ga : GReg) (imm : BitVec 16) (s : State) : Res :=
  .next (s.onCore c .scalar (fun k =>
    let a := scalarAddr (gReg k ga) imm
    s.checked c .scalar k 0 .read a 4 (fun s => s.endBundle c k)
      (fun s => s.endBundle c (setG k gd (Memory.word k.scratch a)))))

/-- R107, R104: GST. -/
def execGst (c : CoreId) (gd ga : GReg) (imm : BitVec 16) (s : State) : Res :=
  .next (s.onCore c .scalar (fun k =>
    let a := scalarAddr (gReg k ga) imm
    s.checked c .scalar k 0 .write a 4 (fun s => s.endBundle c k)
      (fun s => s.endBundle c (k.put a (leBytes (gReg k gd).toNat 4)))))

-- branches

/-- R107: BEQ. -/
def execBeq (c : CoreId) (ga gb : GReg) (off : BitVec 16) (s : State) : Res := .next (branch s c off (fun k => gReg k ga == gReg k gb))
/-- R107: BNE. -/
def execBne (c : CoreId) (ga gb : GReg) (off : BitVec 16) (s : State) : Res := .next (branch s c off (fun k => gReg k ga != gReg k gb))
/-- R107: BLT. -/
def execBlt (c : CoreId) (ga gb : GReg) (off : BitVec 16) (s : State) : Res := .next (branch s c off (fun k => ltS (gReg k ga) (gReg k gb)))
/-- R107: BGE. -/
def execBge (c : CoreId) (ga gb : GReg) (off : BitVec 16) (s : State) : Res := .next (branch s c off (fun k => !ltS (gReg k ga) (gReg k gb)))
/-- R107: BLTU. -/
def execBltu (c : CoreId) (ga gb : GReg) (off : BitVec 16) (s : State) : Res := .next (branch s c off (fun k => ltU (gReg k ga) (gReg k gb)))

-- flow points

/-- R110: ADDR of a flow fault: the core's record for the flow, or 0. -/
def flowAddr (blk : CoreBlock) (flow : Nat) : Nat := match blk.flows.find? (fun f => f.flow = flow) with
  | some r => r.addr
  | none => 0

/-- R110: a flow instruction that its flow table refuses. -/
def flowFault (s : State) (c : CoreId) (k : Core) (cause flow : Nat) : State :=
  (s.boundsFault c.val 0 cause (flowAddr (s.block c.val) flow)).endBundle c k

/-- R110: whether a flow has reached a send or cancel point. -/
def reached (k : Core) (flow : Nat) : Bool := k.sent.contains flow || k.cancelled.contains flow

/-- R110, R111: SEND waits while the interlock holds the source buffer. -/
def execSend (c : CoreId) (flow : BitVec 16) (s : State) : Res :=
  .next (s.onCore c .scalar (fun k => match flowRec (s.block c.val) false flow.toNat with
    | none => flowFault s c k 2 flow.toNat
    | some r =>
      if reached k r.flow then flowFault s c k 2 r.flow
      else if interlocked k r.addr r.len false then s.stall c .scalar k
      else s.endBundle c { k with sent := k.sent ++ [r.flow] }))

/-- R110, R52: CANCEL. -/
def execCancel (c : CoreId) (flow : BitVec 16) (s : State) : Res :=
  .next (s.onCore c .scalar (fun k => match flowRec (s.block c.val) false flow.toNat with
    | none => flowFault s c k 2 flow.toNat
    | some r =>
      if reached k r.flow || !r.cond then flowFault s c k 2 r.flow
      else s.endBundle c { k with cancelled := k.cancelled ++ [r.flow] }))

/-- R110: an arrival wait returns gd = 1 with data, the buffer becoming readable, or gd = 0 for a cancelled flow. -/
def awaitDone (s : State) (c : CoreId) (k : Core) (gd : GReg) (flow : Nat) (data : Bool) : State :=
  let k := if data && !k.readable.contains flow then { k with readable := k.readable ++ [flow] } else k
  s.endBundle c (setG { k with st := .run } gd (truth data))

/-- R110: what an arrival wait on a record finds: the data, a cancelled flow, or neither yet. -/
def arrivalOf (s : State) (c : Nat) (r : FlowRec) : Option Bool :=
  if s.flowLanded c r then some true else if s.flowCancelled c r.flow then some false else none

/-- R110: AWAIT returns at once when the flow has landed or is known to be cancelled, and else starts an arrival wait. -/
def execAwait (c : CoreId) (gd : GReg) (flow : BitVec 16) (s : State) : Res :=
  .next (s.onCore c .scalar (fun k => match flowRec (s.block c.val) true flow.toNat with
    | none => flowFault s c k 3 flow.toNat
    | some r => match arrivalOf s c.val r with
      | some d => awaitDone s c k gd r.flow d
      | none => s.setCore c.val { k with st := .waitFlow gd r.flow }))

/-- R110: the arrival wait in which a core stands returns, once it can. -/
def execAwaitReturn (c : CoreId) (s : State) : Res :=
  .next (let k := s.core c.val
    if s.coresMode ≠ .run then s
    else match k.st with
      | .waitFlow gd flow => match flowRec (s.block c.val) true flow with
        | none => s
        | some r => match arrivalOf s c.val r with
          | some d => awaitDone s c k gd flow d
          | none => s
      | _ => s)

-- completion waits

/-- R107, R130: whether the requests that a completion wait names are still outstanding. -/
def dynWaits (k : Core) : DwaitSel → Bool
  | .all => !k.dyn.isEmpty
  | .tag t => k.dyn.any (fun r => r.tag = t.val)

/-- R130: DWAIT returns at once when nothing that it names is outstanding. -/
def execDwait (c : CoreId) (sel : DwaitSel) (s : State) : Res :=
  .next (s.onCore c .scalar (fun k => if dynWaits k sel then s.setCore c.val { k with st := .waitDyn sel } else s.endBundle c k))

/-- R65: the completion wait in which a core stands returns, once it can. -/
def execDwaitReturn (c : CoreId) (s : State) : Res :=
  .next (let k := s.core c.val
    if s.coresMode ≠ .run then s
    else match k.st with
      | .waitDyn sel => if dynWaits k sel then s else s.endBundle c { k with st := .run }
      | _ => s)

-- step parameters

/-- R230, R260, log entry 24: BATCH_LINE of a step. What follows the table stays below the page table, at line 0x3E8_0000, and apart from
the table of the step before. -/
def batchLine (step : Nat) : Nat := 0x3E00000 + step % 2 * 0x40000 + Config.batchPlace step % 0x10000

/-- R230: the positions of a batch. -/
def positions (l : List BatchEntry) : Nat := (l.map (fun e => e.nin + e.ndraft)).sum

/-- R229, R250: PROGRAM of a step, 2 bits: a copy program that follows four step programs reads 0 (DESIGN CHOICE, log entry 178). -/
def Step.program (t : Step) : Nat := t.prog % 4
/-- R229, R330: the positions of a step; a copy step reads as one. -/
def Step.positions (t : Step) : Nat := if t.copy.isSome then 1 else Machine.positions t.entries
/-- R229, R330: the streams of a step; a copy step reads as one. -/
def Step.streams (t : Step) : Nat := if t.copy.isSome then 1 else t.entries.length

/-- R229: word `i` of the current step descriptor. -/
def descriptorWord (s : State) (i : Nat) : Word := match s.seq.cur with
  | none => 0
  | some t => match i with
    | 0 => BitVec.ofNat 32 t.id
    | 1 => field t.positions 0 ||| field t.streams 16 ||| field t.program 24
    | 2 => field (batchLine t.id) 0
    | 3 => field (match s.curProg with | some p => p.capacity | none => 0) 0
    | _ => 0

/-- R108: the step parameter of an index that SPAR lists. -/
def stepParameter (s : State) (c : Nat) (i : Nat) : Word := match i with
  | 0 => BitVec.ofNat 32 c
  | 1 => BitVec.ofNat 32 (c / 144)
  | 2 => BitVec.ofNat 32 (c % 144)
  | 3 => BitVec.ofNat 32 s.moduleIndex
  | 4 => BitVec.ofNat 32 (match s.seq.cur with | some t => t.image | none => 0)
  | _ => descriptorWord s (i - 0x10)

/-- R108: SPAR. -/
def execSpar (c : CoreId) (gd : GReg) (index : BitVec 16) (s : State) : Res :=
  .next (if sparListed index.toNat then alu s c gd (fun _ => stepParameter s c.val index.toNat) else reservedSlot s c .scalar)

-- the end of the block

/-- R112: the first sending record that has reached no point, in the order of the flow table (DESIGN CHOICE, log entry 173). -/
def unsentRec (blk : CoreBlock) (k : Core) : Option FlowRec := blk.flows.find? (fun f => !f.recv && !reached k f.flow)

/-- R112: with no dynamic request outstanding, END checks the sending records; the block has then ended. -/
def State.endChecked (s : State) (c : Nat) (k : Core) : State :=
  match unsentRec (s.block c) k with
  | some r => (s.setCore c { k with st := .blocked }).boundsFault c 0 2 r.addr
  | none => s.setCore c { k with st := .ended }

/-- R112: END waits for the core's dynamic requests. Its bundle counts as issued. -/
def execEndBlock (c : CoreId) (s : State) : Res :=
  .next (s.onCore c .scalar (fun k =>
    let k := { k with issued := k.issued + 1, slot := 0 }
    if k.dyn.isEmpty then s.endChecked c.val k else s.setCore c.val { k with st := .ending }))

/-- R39: whether every slot of a flow has left its source core. -/
def State.flowSent (s : State) (c : Nat) (r : FlowRec) : Bool :=
  s.curEpoch.links.all (fun e => match runOf e.2 r.flow with
    | none => true
    | some run => slotOrigin e.1 run.src != .core c ||
        slotCount r.len ≤ flowSlots e.2 (s.link e.1).pos r.flow)

/-- R39: whether a core's block has ended and its flows and writes are complete. -/
def State.mayArrive (s : State) (c : Nat) : Bool :=
  let k := s.core c
  k.st == .ended && k.tile.isNone && k.reads.isEmpty && (s.block c).flows.all (fun r =>
    if r.recv then s.flowLanded c r || s.flowCancelled c r.flow
    else k.cancelled.contains r.flow || s.flowSent c r)

/-- R39: a core arrives at the barrier. -/
def execBarrierArrival (c : CoreId) (s : State) : Res :=
  .next (if s.coresMode == .run && s.mayArrive c.val then s.setCore c.val { s.core c.val with st := .arrived } else s)

end Sys2Proof.Machine
end

