-- ==== Sys2Proof/Machine/Steps.lean ====
section
/-! DEFINITION. The step sequencer's choose, prepare and commit phases (R227–R239, R268, R291, R297–R301). -/

namespace Sys2Proof.Machine

-- the length pointer (R281)

/-- R278, R281: the further effects of TRUNCATE, and the length pointer's move. The chain of a stream that keeps no whole block starts again at the
root. -/
def State.rollback (s : State) (st len : Nat) : State :=
  let x := s.stream st
  let s := (s.rewriteRing st len x.hiwrit).releasePages st (ceilDiv len 128)
  let y := s.stream st
  s.setStream st { y with kvlen := len, hiwrit := len, tokens := y.tokens.take len, chain := if len < 64 then some [] else y.chain.map (fun c => c.take (len / 64)) }

-- draft links (R297–R301)

/-- R305: DRAFT_EN. -/
def draftEn (x : Stream) : Bool := bit x.sdraft 31
/-- R305: DRAFT_STREAM. -/
def draftStream (x : Stream) : Nat := bits x.sdraft 7 0
/-- R305: DEPTH as treated. -/
def draftDepth (x : Stream) : Nat := min 8 (max 1 (bits x.sdraft 11 8))

/-- R299: the target that a stream is linked to as its draft stream. -/
def State.targetOf (s : State) (d : Nat) : Option Nat :=
  s.liveStreams.find? (fun t => t ≠ d && draftEn (s.stream t) && draftStream (s.stream t) = d)

/-- R297: DRAFT_EN is cleared. -/
def State.unlinkDraft (s : State) (t : Nat) : State :=
  let s := s.setRegI .smpl 0 0x050 t (putBits (s.regI .smpl 0 0x050 t) 31 31 0)
  s.setStream t { s.stream t with sdraft := putBits (s.stream t).sdraft 31 31 0, drafts := [] }

/-- R297: whether a target's link is valid. -/
def State.linkValid (s : State) (t : Nat) : Bool :=
  let x := s.stream t
  let d := draftStream x
  let y := s.stream d
  let others := s.liveStreams.filter (fun u => u ≠ t && draftEn (s.stream u))
  d != t && y.state == .active && !bit x.scfg 6 && !draftEn y &&
  others.all (fun u => draftStream (s.stream u) ≠ t && draftStream (s.stream u) ≠ d) &&
  (match (s.image x.image).manifest, (s.image y.image).manifest with
   | some m, some n => m.vocabId == n.vocabId
   | _, _ => false)

/-- R297: the link of a stream is checked at its choose phase. -/
def State.checkLink (s : State) (t : Nat) : State :=
  if draftEn (s.stream t) && !s.linkValid t then (s.unlinkDraft t).raiseSampler 3 else s

/-- R300: the draft stream follows a commit or TRUNCATE of its target. -/
def State.resync (s : State) (t : Nat) : State :=
  let s := s.setStream t { s.stream t with drafts := [] }
  let x := s.stream t
  let d := draftStream x
  let y := s.stream d
  if !draftEn x ∨ y.state = .free then s
  else
    let len := min y.kvlen x.kvlen
    let carry := if x.carry then x.queue.take 1 else []
    let queue := (x.tokens.take x.kvlen).drop len ++ carry
    if 1024 < queue.length then (s.unlinkDraft t).raiseSampler 3
    else
      let s := if len < y.kvlen then s.rollback d len else s
      s.putStream d { s.stream d with queue := queue, carry := false, gen := if x.carry ∧ x.queue.length = 1 then draftDepth x else 0 }

-- a stream's choose phase

/-- R285, R302, R293, R296: what the host wrote for a stream takes effect. Drafts belong to a link and go with it (R299). -/
def State.applyConfig (s : State) (i : Nat) : State :=
  let x := s.stream i
  let r := fun o => s.regI .smpl 0 o i
  let k := fun o => s.regI .kvpg 0 o i
  let scfg := r 0x044
  let linked := draftEn x && bit (r 0x050) 31 && bits (r 0x050) 7 0 == draftStream x
  let start := x.gramReset || (bit scfg 7 && (!bit x.scfg 7 || gslotOf scfg != gslotOf x.scfg))
  s.setStream i { x with
    scfg := scfg, stemp := r 0x048, spen := r 0x04C, sdraft := r 0x050, drafts := if linked then x.drafts else []
    key := BitVec.ofNat 64 ((r 0x054).toNat + 2 ^ 32 * (r 0x058).toNat), seq := BitVec.ofNat 64 ((r 0x05C).toNat + 2 ^ 32 * (r 0x060).toNat)
    kvcfg := k 0x064, pinFrom := bits (k 0x068) 23 0, pinTo := bits (k 0x06C) 23 0
    grammar := if start then s.startOf (gslotOf scfg) else x.grammar, gramReset := false
    counts := if x.clearCounts then [] else x.counts, overflow := if x.clearCounts then 0 else x.overflow, clearCounts := false }

/-- Whether a stream stands in no step that runs or is prepared. -/
def State.outOfStep (s : State) (i : Nat) : Bool := !s.inStep i && !s.inNext i

-- the choose phase (R233)

/-- R313: whether an image is stepped and accepts OPEN. -/
def State.serves (s : State) (img : Nat) : Bool :=
  let x := s.image img
  (x.st == .ready || x.st == .staging || x.st == .staged) && !x.mixed

/-- R394, R382: whether both rings of a port are enabled. -/
def State.ringsOn (s : State) (p : Nat) : Bool := bit (s.reg .cxlp p 0x04C) 31 && bit (s.reg .cxlp p 0x054) 31

/-- R382: whether a stream has a record in its port's pending queue. -/
def State.recordWaits (s : State) (i : Nat) : Bool := (s.port (portOf (s.stream i).port)).pend.any (fun r => r.stream = i)

/-- R301: whether a stream's link partner stands in the running step. -/
def State.partnerRuns (s : State) (i : Nat) : Bool :=
  (draftEn (s.stream i) && s.inStep (draftStream (s.stream i))) || (match s.targetOf i with | some t => s.inStep t | none => false)

/-- R456: whether an image slot has shards at a logical berth of this module. -/
def State.hasShards (s : State) (img lb : Nat) : Bool := match (s.image img).manifest with
  | none => false
  | some m => (s.image img).st != .empty &&
      m.shards.any (fun x => x.berth == lb && x.module == (if m.modules ≤ 1 then 0 else s.moduleIndex))

/-- R323, R327, R456: whether every shard of an image slot on this module is present, and every program. -/
def State.wholeImage (s : State) (img : Nat) : Bool := match (s.image img).manifest with
  | none => true
  | some m => (s.ownShards m).all (fun i => (s.image img).present.contains i) && (s.image img).progLost.isEmpty

/-- R456: whether shards of an image slot are away: a spare is being filled, or some are absent. -/
def State.shardsAway (s : State) (img : Nat) : Bool := s.flt.migrating.any (s.hasShards img) || !s.wholeImage img

/-- R232, R233, R243, R301, R313, R382, R456, R529: whether a stream may be chosen. -/
def State.eligible (s : State) (i : Nat) : Bool :=
  let x := s.stream i
  x.ready && s.outOfStep i && s.serves x.image && !s.shardsAway x.image && s.ringsOn x.port && !s.recordWaits i && x.shipOut.isNone && !s.partnerRuns i &&
  !(bit x.scfg 7 && s.grammarChecks.contains (gslotOf x.scfg))

/-- Insertion by ascending key; equal keys keep their order. -/
def insKey (f : Nat → Nat) (a : Nat) : List Nat → List Nat
  | [] => [a]
  | b :: t => if f a < f b then a :: b :: t else b :: insKey f a t

/-- R233: the ready streams of an image, oldest ready first; streams ready at the same STAMP in an order that a free value gives (log
entry 32). -/
def State.oldestFirst (s : State) (l : List Nat) : List Nat :=
  let mixed := l.foldl (fun a i => insKey (fun j => Config.tieBreak (s.draws * 256 + j)) i a) []
  mixed.foldl (fun a i => insKey (fun j => (s.stream j).readySince) i a) []

/-- R233: the image whose oldest ready stream became ready earliest; a tie goes to the lower slot. -/
def State.pickImage (s : State) (l : List Nat) : Option Nat :=
  least (fun img => match least (fun i => (s.stream i).readySince) (l.filter (fun i => (s.stream i).image = img)) with
    | some i => (s.stream i).readySince
    | none => 0) ((List.range 8).filter (fun img => l.any (fun i => (s.stream i).image = img)))

/-- R224: the step programs of an image, by index. -/
def State.stepPrograms (s : State) (img : Nat) : List (Nat × Program) :=
  let x := s.image img
  x.progs.filter (fun p => match x.manifest with | some m => p.1 < m.nprog | none => false)

/-- R268, R285: the attention record of a stream. -/
def attentionRecord (x : Stream) : List Word :=
  let c := x.kvcfg
  [flag (x.indexPending || bit c 28) 0 ||| field (cfgK c) 1 ||| field (cfgWindow c) 8 ||| field (cfgThr c) 13 ||| field (cfgHl c) 21 |||
     flag (cfgThr c != 0) 26, BitVec.ofNat 32 x.pinFrom, BitVec.ofNat 32 x.pinTo]

/-- R233: positions for one stream; what is left of the budget and the batch so far go along. -/
def takeIn (a : State × Nat × List BatchEntry) (i : Nat) : State × Nat × List BatchEntry :=
  let (s, budget, l) := a
  if budget = 0 then a
  else
    let s := s.matchBlocks i 64
    let x := s.stream i
    let nin := min 64 (min x.queue.length budget)
    let draftable := !x.drafts.isEmpty && !bit x.scfg 6 && x.carry && x.queue.length == 1 && nin == 1
    let ndr := if draftable then min x.drafts.length (min 8 (budget - nin)) else 0
    let s := if draftable then s else s.setStream i { x with drafts := [] }
    match s.reserve i x.kvlen (x.kvlen + nin + ndr) with
    | none => (s.status x.port i 0x12 0, budget, l)
    | some s =>
      let e : BatchEntry :=
        { stream := i, nin := nin, ndraft := ndr, sample := decide (0 < x.gen), firstpos := x.kvlen, base := 0
          tokens := x.queue.take nin ++ x.drafts.take ndr, snapKv := x.kvlen, snapQueue := x.queue, snapCarry := x.carry, snapGen := x.gen
          ring := x.indexPending || bit x.kvcfg 28, attn := attentionRecord x, srec := none
          gram := if bit x.scfg 7 && s.slotBound (gslotOf x.scfg) then some (s.slotDpa (gslotOf x.scfg), x.grammar) else none }
      (s.setStream i { s.stream i with drafts := [] }, budget - nin - ndr, l ++ [e])

/-- R230: BASE of each entry. -/
def withBases : Nat → List BatchEntry → List BatchEntry
  | _, [] => []
  | b, e :: t => { e with base := b } :: withBases (b + e.nin + e.ndraft) t

/-- R230: the streams are entered in ascending stream number. -/
def inOrder (l : List BatchEntry) : List BatchEntry :=
  withBases 0 ((l.foldl (fun (a : List (Nat × BatchEntry)) e => Sparse.insert a e.stream e) []).map Prod.snd)

/-- R231: the step program with the smallest capacity that is at least POSITIONS. -/
def pickProgram (l : List (Nat × Program)) (n : Nat) : Nat :=
  ((l.find? (fun p => n ≤ p.2.capacity)).map Prod.fst).getD (l.length - 1)

/-- R330: whether some slot is between its copy steps, and whether a step of another image may run now. -/
def State.swapping (s : State) : Bool := s.images.any (fun e => e.2.st == .swapping)
/-- R330: the step of another image that may follow a copy step. -/
def State.swapTurn (s : State) : Bool := !s.swapping || s.images.any (fun e => e.2.st == .swapping && e.2.copyTurn)

/-- R15, R226, R433, R446: whether the sequencer chooses steps. -/
def State.chooses (s : State) : Bool :=
  s.stage == .ready && s.flt.exec && s.flt.phase == .idle && s.cool.st == .normal && s.seq.next.isNone && s.swapTurn

/-- R233, R283: CHOOSE_PHASE. While a pager cannot read its tables, nothing is chosen. -/
def execChoosePhase (tables : List (Stack × EccOutcome)) (s : State) : Res :=
  .next (if !s.chooses then s
    else if tablesLost tables then s.tableReads tables
    else
      let s := s.tableReads tables
      let live := s.liveStreams.filter s.outOfStep
      let s := (live.foldl State.applyConfig s)
      let s := live.foldl State.checkLink s
      let ready := live.filter s.eligible
      match s.pickImage ready with
      | none => s
      | some img =>
        let progs := s.stepPrograms img
        let cands := (s.oldestFirst (ready.filter (fun i => (s.stream i).image = img))).take 64
        let (s, _, l) := cands.foldl takeIn (s.drawn, ((progs.getLast?).map (fun p => p.2.capacity)).getD 0, [])
        if l.isEmpty then s
        else
          let l := inOrder l
          let s := s.count .smpl 0 0x078 (l.map (fun e => e.ndraft)).sum
          { s with seq := { s.seq with next := some { id := s.seq.stepId + 1, image := img, prog := pickProgram progs (positions l), copy := none
                                                      entries := l, prepared := false } } })

-- the prepare phase (R227, R230, R268, R291)

/-- R230: entry `i` of the batch table. -/
def entryBytes (e : BatchEntry) : List Byte :=
  leBytes (field e.stream 0 ||| field e.nin 8 ||| field e.ndraft 15 ||| flag e.sample 19).toNat 4 ++ leBytes (e.firstpos % 2 ^ 24) 4 ++
  leBytes e.base 4 ++ leBytes 0 4

/-- R230: the batch table with its token array. -/
def tableBytes (l : List BatchEntry) : List Byte :=
  l.flatMap entryBytes ++ List.replicate (16 * (64 - l.length)) 0 ++ tokenBytes (l.flatMap (fun e => e.tokens))

/-- R330: the batch table of a copy step. -/
def copyTable (layer base : Nat) : List Byte := leBytes layer 4 ++ leBytes 0 4 ++ leBytes base 8 ++ List.replicate 1008 0

/-- R268: the attention records. -/
def attentionBytes (l : List BatchEntry) : List Byte :=
  l.flatMap (fun e => tokenBytes e.attn ++ List.replicate 52 0) ++ List.replicate (64 * (64 - l.length)) 0

/-- R291, R293: the sampling record of an entry; its masks are those of the grammar image bound at the choose phase. -/
def State.sampleRecord (s : State) (e : BatchEntry) : SampleRec :=
  let x := s.stream e.stream
  let pen := bit x.scfg 6
  let rep := repTreated ((x.spen >>> 16).setWidth 16)
  { tempRcp := tempRcp (x.stemp.setWidth 16), topk := bits x.scfg 5 0 + 1, topp := bits x.stemp 31 16, rep := f32OfBf16 rep
    repRcp := frcp (f32OfBf16 rep), freq := freqTreated (x.spen.setWidth 16), pen := pen, counts := if pen then x.counts else []
    overflow := if pen then x.overflow else 0, key := x.key, seq := x.seq, gbase := (e.gram.map Prod.fst).getD 0
    masks := match e.gram with
      | some (a, q) => if e.sample then s.masksFor (s.gram a) q (e.tokens.drop e.nin) else []
      | none => [] }

/-- R291: an entry with its sampling record. -/
def State.withRecord (s : State) (e : BatchEntry) : BatchEntry := { e with srec := some (s.sampleRecord e) }

/-- R291: the penalty entries of a record for a slice. -/
def penaltyEntries (r : SampleRec) (sl : Nat × Nat) : List (Nat × Nat) := r.counts.filter (fun e => sl.1 ≤ e.1 && e.1 < sl.1 + sl.2)

/-- R291: the masks of a record for a slice. -/
def maskBytes (r : SampleRec) (sl : Nat × Nat) : List Byte := r.masks.flatMap (fun m => leBytes (m / 2 ^ sl.1 % 2 ^ sl.2) (up64 (ceilDiv sl.2 8)))

/-- R291: the penalty entries as bytes. -/
def penaltyBytes (r : SampleRec) (sl : Nat × Nat) : List Byte := (penaltyEntries r sl).flatMap (fun e => leBytes e.1 4 ++ leBytes e.2 4)

/-- R291: a record's header; its masks and then its penalty entries begin at `off`. -/
def headerBytes (r : SampleRec) (sl : Nat × Nat) (off : Nat) : List Byte :=
  let w := fun (x : Word) => leBytes x.toNat 4
  w r.tempRcp ++ w (field r.topk 0 ||| field r.topp 16) ++ w (field r.masks.length 0 ||| field (penaltyEntries r sl).length 16) ++
  leBytes off 4 ++ leBytes (off + (maskBytes r sl).length) 4 ++ w r.repRcp ++ w r.rep ++ w r.freq ++ leBytes r.overflow 4 ++ leBytes 0 4 ++
  leBytes r.key.toNat 8 ++ leBytes r.seq.toNat 8 ++ leBytes 0 8

/-- R291: headers, and the masks and penalty entries that follow them, for the records of a batch. -/
def recordParts (sl : Nat × Nat) : Nat → List SampleRec → List Byte × List Byte
  | _, [] => ([], [])
  | off, r :: t =>
    let body := maskBytes r sl ++ penaltyBytes r sl
    let (h, b) := recordParts sl (off + body.length) t
    (headerBytes r sl off ++ h, body ++ b)

/-- R291: the sampling records of a berth. -/
def recordBytes (l : List SampleRec) (sl : Nat × Nat) : List Byte :=
  let (h, b) := recordParts sl 4096 l
  h ++ List.replicate (64 * (64 - l.length)) 0 ++ b

/-- R288: the vocabulary slice of a logical berth of this module. -/
def State.sliceOf (s : State) (img lb : Nat) : Nat × Nat := match (s.image img).manifest with
  | none => (0, 0)
  | some m => m.slices.getD ((if m.modules ≤ 1 then 0 else s.moduleIndex) * 80 + lb) (0, 0)

/-- R227: the retained inputs of a step are written to a logical berth in both copies. -/
def State.writeInputs (s : State) (t : Step) (lb : Nat) : State :=
  let at_ := batchLine t.id * 128
  match t.copy with
  | some layer => s.lbMirror lb at_ (copyTable layer (s.image t.image).stageBase)
  | none =>
    let s := s.lbMirror lb at_ (tableBytes t.entries)
    let s := s.lbMirror lb (at_ + 32768) (attentionBytes t.entries)
    s.lbMirror lb (at_ + 65536) (recordBytes (t.entries.filterMap (fun e => e.srec)) (s.sliceOf t.image lb))

/-- R227: the inputs of a step that have been chosen leave their queues. -/
def State.takeInputs (s : State) (e : BatchEntry) : State :=
  let x := s.stream e.stream
  s.setStream e.stream { x with queue := x.queue.drop e.nin, carry := false }

/-- R227: PREPARE_PHASE. A berth that could not be written raises BATCH or RECORD, an unreadable sampler table UNCORR, and the step is
not prepared; a corrected one raises CORR (R303). -/
def execPreparePhase (batchBad recordBad tableBad tableCorrected : List (Fin 80)) (s : State) : Res :=
  .next (match s.seq.next with
    | none => s
    | some t =>
      let flag := fun (s : State) (l : List (Fin 80)) (n : Nat) => l.foldl (fun s b => match s.physOf b.val with
        | some p => s.raise .smpl p n
        | none => s) s
      if t.prepared || s.flt.phase != .idle then s
      else if !(batchBad.isEmpty && recordBad.isEmpty && tableBad.isEmpty) then
        flag (flag (flag (if batchBad.isEmpty then s else s.raise .schd 0 1) recordBad 5) tableBad 1) tableCorrected 0
      else
        let s := flag s tableCorrected 0
        let t := { t with prepared := true, entries := t.entries.map s.withRecord }
        let s := t.entries.foldl State.takeInputs s
        let s := (List.range 80).foldl (fun s lb => s.writeInputs t lb) s
        { s with seq := { s.seq with next := some t } })

/-- R227, R228: the snapshot of a step's streams comes back, with their inputs. -/
def State.restoreEntry (s : State) (e : BatchEntry) : State :=
  let x := s.stream e.stream
  if x.state = .free then s
  else s.putStream e.stream { x with kvlen := e.snapKv, queue := e.snapQueue, carry := e.snapCarry, gen := e.snapGen }

/-- A step that has been chosen but not started is given up; its inputs return to their queues. -/
def State.discardNext (s : State) : State := match s.seq.next with
  | none => s
  | some t =>
    let s := { s with seq := { s.seq with next := none } }
    if t.prepared then t.entries.foldl State.restoreEntry s else s

/-- A step that has been chosen and holds a stream that may no longer run is given up; its inputs return to their queues. -/
def State.dropStale (s : State) : State := match s.seq.next with
  | none => s
  | some t => if t.copy.isNone && t.entries.any (fun e => (s.stream e.stream).state ≠ .active) then s.discardNext else s

/-- Holds streams for a cause of the module's own; a step chosen with one of them is given up. -/
def State.holdNow (s : State) (l : List Nat) (c : Nat) : State := (s.holdAll l c).dropStale

-- the commit phase (R239, R298)

/-- R298: accepted drafts, and the tokens that the step chose, in order: the accepted drafts and the one after them, none where a position
has no token. -/
def verify (choose : Nat → Option Nat) : Nat → List Word → Nat × List Nat × Bool
  | i, [] => match choose i with
    | some t => (0, [t], true)
    | none => (0, [], false)
  | i, d :: rest => match choose i with
    | none => (0, [], false)
    | some t =>
      if t = d.toNat then
        let (a, l, ok) := verify choose (i + 1) rest
        (a + 1, t :: l, ok)
      else (0, [t], true)

/-- R293: the automaton advances over emitted tokens. -/
def State.advance (s : State) (g : Gram) : Nat → List Nat → Nat
  | q, [] => q
  | q, t :: rest => s.advance g (s.gramNext g q t) rest

/-- R239: the records of a stream's commit. -/
def State.emitTokens (s : State) (x : Stream) (st step acc first : Nat) (emitted : List Nat) (done : Bool) (len : Nat) : State :=
  let r := fun (code pos : Nat) (tok : Word) (last : Bool) =>
    OutRec.mk st code last pos tok acc s.stamp step
  let n := emitted.length
  let s := ((List.range n).zip emitted).foldl (fun s e =>
    s.emit x.port (r 0 (first + e.1) (BitVec.ofNat 32 e.2) (!done && e.1 + 1 == n))) s
  if done then s.emit x.port (r 1 len 0xFFFFFFFF#32 true) else s

/-- R239, R293, R296, R298, R299: one admitted stream's results at the commit. -/
def State.settle (s : State) (t : Step) (e : BatchEntry) (logits : List (List Word)) : State :=
  let x := s.stream e.stream
  if x.state = .free then s
  else if !e.sample then
    s.putStream e.stream { x with kvlen := e.firstpos + e.nin, tokens := x.tokens.take e.firstpos ++ e.tokens.take e.nin }
  else match (s.image t.image).manifest, e.srec with
    | some m, some r =>
      let choose := fun i => chooseToken m r (if r.gbase = 0 ∧ r.masks.isEmpty then none else r.masks[i]?) (e.firstpos + e.nin + i) (logits.getD i [])
      let (acc, chosen, ok) := verify choose 0 (e.tokens.drop e.nin)
      let emitted := chosen.take e.snapGen
      let kept := min acc emitted.length
      let len := e.firstpos + e.nin + kept
      let gen := if ok then e.snapGen - emitted.length else 0
      let carry := ok && emitted.length == acc + 1 && 0 < gen
      let spilled := x.overflow
      let y := emitted.foldl countToken { x with
        kvlen := len, gen := gen, tokens := x.tokens.take e.firstpos ++ e.tokens.take (e.nin + kept)
        queue := if carry then (emitted.drop acc).map (BitVec.ofNat 32) ++ x.queue else x.queue, carry := carry
        grammar := if r.gbase = 0 ∨ e.moved = true then x.grammar else s.advance (s.gram r.gbase) x.grammar emitted }
      let s := (s.putStream e.stream y).count .smpl 0 0x07C acc
      let s := if spilled = 0 ∧ 0 < y.overflow then s.raiseSampler 4 else s
      match s.targetOf e.stream with
      | some g => s.setStream g { s.stream g with drafts := ((s.stream g).drafts ++ emitted.map (BitVec.ofNat 32)).take 8 }
      | none => s.emitTokens x e.stream t.id acc (e.firstpos + e.nin) emitted (gen = 0) len
    | _, _ => s

/-- R270–R274, R279: what the pagers do for a stream at its commit; `old` is its length before. -/
def State.kvCommit (s : State) (e : BatchEntry) : State :=
  let i := e.stream
  let s := if e.ring ∧ s.summarised i then s.setStream i { s.stream i with indexPending := false } else s
  let waiting := (List.range 12).any (fun k => (s.stack k).inserts.contains i)
  let intact := match (s.stream i).chain with | some c => c.length == e.firstpos / 64 | none => false
  let s := if bit (s.stream i).kvcfg 27 && intact && !waiting then s.insertBlocks i 16384 else s
  (List.range 12).foldl (fun s k => s.scan i k (e.firstpos + e.nin + e.ndraft - 1)) (s.backup i)

/-- R327: the streams of an image whose re-hash found a mismatch are held at the commit of its step, and the shards are absent from then
on. Without a backup region, and for a program (log entry 192), the host is told. -/
def State.holdBad (s : State) (img : Nat) : State :=
  let x := s.image img
  if x.rehashBad.isEmpty && x.progBad.isEmpty then s
  else
    let s := (s.setImage img { x with
      present := x.present.filter (fun i => !x.rehashBad.contains i), rehashBad := [], progLost := x.progLost ++ x.progBad, progBad := [] }).holdNow
        (s.streamsOf img) 2
    if x.bkpEn && x.progBad.isEmpty then s else s.msiFault

/-- R330: a slot becomes SWAPPING and its streams are held. -/
def State.startSwap (s : State) (img : Nat) : State :=
  let x := s.image img
  (s.setImage img { x with st := .swapping, swapAsked := false, copyNext := 0, copyTurn := false }).holdNow (s.streamsOf img) 1

/-- R331, R332: the last copy step has committed: the staged package replaces the resident one. -/
def State.endSwap (s : State) (img : Nat) : State :=
  let x := s.image img
  let model := fun (m : Option Manifest) => m.map (fun m => m.modelId)
  let changed := model x.manifest != model x.stagedManifest
  let s := s.setImage img { x with
    st := .ready, mixed := false, manifest := x.stagedManifest, progs := x.stagedProgs, present := x.stagedPresent
    stagedManifest := none, stagedProgs := [], stagedPresent := [], stageBase := 0, bkpBase := if x.bkpEn then x.stageBase else x.bkpBase
    copyNext := 0, copyTurn := false, rehashBad := [], progBad := [], progLost := [], passClean := [] }
  let s := if changed then (s.streamsOf img).foldl (fun s i => s.setStream i { s.stream i with chain := none }) s else s
  s.liftAll (s.streamsOf img) 1

/-- R330, R331: a copy step commits. -/
def State.copyCommitted (s : State) (img layer : Nat) : State :=
  let x := s.image img
  let n := match x.stagedManifest with | some m => m.layers.length | none => 0
  if layer + 1 < n then s.setImage img { x with copyNext := layer + 1, copyTurn := true } else s.endSwap img

/-- R275: a new interval begins. -/
def State.freshInterval (s : State) : State :=
  (List.range 12).foldl (fun s k => s.setStack k { s.stack k with switches := 0 }) s

/-- R462: the step that was aborted has committed, or is over. -/
def State.stepOver (s : State) : State := { s with flt := { s.flt with aborted := false } }

/-- R433, R435: every live stream is held for a coolant stop. -/
def State.holdStop (s : State) : State := s.holdNow s.liveStreams 3

/-- R433: an orderly stop gates every berth once no step runs. -/
def State.settleStop (s : State) : State :=
  if s.cool.st = .orderly ∧ s.cool.gated = false ∧ s.coresMode ≠ .run ∧ s.seq.finished = false then
    let s := s.gateAll.holdStop
    { s with cool := { s.cool with gated := true } }
  else s

/-- R330: a swap asked for while a step of its image ran begins. -/
def State.dueSwap (s : State) (img : Nat) : State := if (s.image img).swapAsked then s.startSwap img else s

/-- R228, R239, R283: STEP_COMMIT, after the last epoch's barrier has released, while no fault is reported or handled. A pager that cannot read its
tables aborts the step instead. -/
def execStepCommit (logits : List (List (List Word))) (tables : List (Stack × EccOutcome)) (s : State) : Res :=
  .next (match s.seq.cur with
    | none => s
    | some t =>
      if !s.seq.finished || s.flt.phase != .idle || !s.flt.msgs.isEmpty then s
      else if tablesLost tables then s.tableReads tables
      else match t.copy with
        | some layer =>
          (({ s.tableReads tables with seq := { s.seq with cur := none, finished := false }, coresMode := .idle }).stepOver.copyCommitted t.image
            layer).settleStop
        | none =>
          let s := ((List.range t.entries.length).zip t.entries).foldl (fun s e => s.settle t e.2 (logits.getD e.1 [])) (s.tableReads tables)
          let s := ({ s with seq := { s.seq with cur := none, finished := false }, coresMode := .idle }).stepOver
          let s := t.entries.foldl (fun s e => if (s.stream e.stream).state = .free then s else s.kvCommit e) s.freshInterval
          let s := t.entries.foldl (fun s e => s.resync e.stream) s
          let s := t.entries.foldl (fun s e => s.putStream e.stream { s.stream e.stream with readySince := s.stamp.toNat }) s
          ((s.holdBad t.image).dueSwap t.image).settleStop)

end Sys2Proof.Machine
end

