-- ==== Sys2Proof/Machine/Epoch.lean ====
section
/-! DEFINITION. A step's run phase (R227, R228, R446): GO, ABORT, the epoch watchdog (R59, R452), and the end of a fault handling (R446, R450,
R467). -/

namespace Sys2Proof.Machine

-- abort

/-- Removes core readers from a merge entry's list of entries (R93: every core has ended its block). -/
def dropCoreReads (l : List MergeEntry) : List MergeEntry :=
  (l.map (fun m => { m with readers := m.readers.filter (fun r => match r with | .core _ => false | _ => true) })).filter
    (fun m => !m.readers.isEmpty)

/-- R446: every core stops issuing and ends its block; staged slots are discarded. `counted` is false for the aborts of R437. -/
def State.abortRun (s : State) (counted : Bool) : State :=
  match s.seq.cur with
  | none => s
  | some t =>
    if s.coresMode = .held then s
    else
      let cores := (s.cores.map (fun e => (e.1, { e.2 with reads := [], tile := none }))).filter (fun e => e.2 ≠ {})
      let berths := (s.berths.map (fun e => (e.1, { e.2 with entries := dropCoreReads e.2.entries }))).filter (fun e => e.2 ≠ {})
      { s.keepDynamic with
        coresMode := .held, cores := cores, berths := berths, passed := [], oneLeft := [], barrierTimer := false,
        lateSent := none, sliceIn := s.sliceIn.filter (fun m => m == .abort)
        seq := { s.seq with running := false, finished := false, epoch := 0, heldEpoch := s.seq.epoch, replay := s.seq.replay + (if counted then 1 else 0) }
        flt := { s.flt with aborted := s.flt.aborted || (counted && t.copy.isNone) } }

/-- R446: ABORT, in the abort phase of a handling; over a slice it travels to every module (R355). Quiesce follows. -/
def execAbort (s : State) : Res :=
  .next (if s.flt.phase = .abort then
      let s := if s.spansModules && s.coresMode != .held then (s.sendUp .abort).sendDown .abort else s
      let s := s.abortRun (!s.flt.sudden)
      { s with flt := { s.flt with phase := .quiesce } }
    else s)

-- the end of a handling

/-- R450, R467: a handling ends: it is counted by its scope, and the captures clear. -/
def State.endHandling (s : State) : State :=
  let s := match s.flt.cur with
    | none => s
    | some e =>
      let w := s.reg .flt 0 0x05C
      if e.scope < 3 then s.count .flt 0 0x058 1
      else if e.scope = 3 then s.setReg .flt 0 0x05C (putBits w 15 0 (min (bits w 15 0 + 1) 65535))
      else if e.scope = 4 then s.setReg .flt 0 0x05C (putBits w 31 16 (min (bits w 31 16 + 1) 65535))
      else s
  let n := s.reg .flt 0 0x048
  let s := s.setReg .flt 0 0x048 (putBits n 15 0 (bits n 15 0 + 1))
  { s with flt := { s.flt with phase := .idle, cur := none, next := none, ovf := 0, repairs := [], rowTest := [], sudden := false } }

-- GO

/-- R262, R275, R409, R412: whether nothing keeps GO back: no change of LOC is due in the interval after a commit, and every berth in service is
awake. -/
def State.goClear (s : State) : Bool :=
  s.cool.st == .normal && s.stage == .ready && s.flt.exec && (s.seq.cur.isSome || (List.range 12).all (fun k => (s.dueSwitch k).isNone)) &&
  ((List.range 84).all (fun b => (s.berth b).role != .inService || s.awake b))

/-- R62, R73, R227: the cores start epoch 0 of a step, cleared, at the divisors then due. -/
def State.startRun (s : State) (t : Step) : State :=
  let s := s.applyDivisors true true
  { s.keepDynamic with
    coresMode := .run, cores := [], passed := [], oneLeft := [], barrierTimer := false, lateSent := none, sliceIn := []
    seq := { s.seq with cur := some t, running := true, finished := false, epoch := 0, stepId := t.id, lastImage := t.image
                        lastStreams := t.streams, lastPositions := t.positions, lastProg := t.prog } }

/-- R281: HIWRIT of a step's streams. -/
def State.markWritten (s : State) (t : Step) : State :=
  t.entries.foldl (fun s e => s.setStream e.stream { s.stream e.stream with hiwrit := e.firstpos + e.nin + e.ndraft }) s

/-- R330: a step of another image takes the turn between two copy steps. -/
def State.takeTurn (s : State) : State :=
  (List.range 8).foldl (fun s i =>
    let x := s.image i
    if x.st = .swapping then s.setImage i { x with copyTurn := false } else s) s

/-- R227, R446: GO starts the prepared step, or the replay of an aborted one, which ends the handling. -/
def execGo (s : State) : Res :=
  .next (if !s.goClear then s
    else match s.seq.cur with
      | some t =>
        if (s.flt.phase = .restore ∨ s.flt.phase = .coolant) ∧ s.flt.msgs = [] ∧ s.coresMode = .held then
          s.endHandling.startRun t
        else s
      | none => match s.seq.next with
        | none => s
        | some t =>
          if !t.prepared || s.flt.phase != .idle || (t.copy.isNone && !s.swapTurn) then s
          else
            let s := if t.copy.isNone then s.takeTurn else s
            let s := { s with seq := { s.seq with next := none, replay := 0 } }
            (s.markWritten t).startRun t)

-- the epoch watchdog

/-- R59, R356, R452: the epoch watchdog expires, which runs at the slice root; the missing cores decide the scope. -/
def execEpochWatchdog (s : State) : Res :=
  .next (if s.coresMode ≠ .run ∨ (s.spansModules = true ∧ s.parentRole.isSome = true) then s
    else match s.missingCores with
      | [c] => (s.raise .schd 0 0).recordLate c
      | c :: rest =>
        if rest.all (fun d => d / 144 == c / 144) then
          let s := s.raiseAs .schd 0 0 .berth
          match s.physOf (c / 144) with
          | some b => if !s.repairEn then s else { s with flt := { s.flt with repairs := s.flt.repairs ++ [{ scope := 4, type := 0, inst := b, bit := 0 }] } }
          | none => s
        else s.raise .schd 0 0
      | [] => s.raise .schd 0 0)

end Sys2Proof.Machine
end

