-- ==== Sys2Proof/Machine/StreamOps.lean ====
section
/-! DEFINITION. Operations on streams that several commands share: freeing a stream and ending it for lost pages. -/

namespace Sys2Proof.Machine

/-- R297: the links in which a stream stands are cleared. -/
def State.unlinkAll (s : State) (st : Nat) : State :=
  (s.liveStreams.filter (fun t => draftEn (s.stream t) && (t = st || draftStream (s.stream t) = st))).foldl State.unlinkDraft s

/-- R236, R280, R295, R297: a stream's pages and sampler state are freed; its entry is FREE. -/
def State.freeStream (s : State) (st : Nat) : State :=
  let s := (s.unlinkAll st).releaseAll st
  let s := (List.range 12).foldl (fun s k =>
    let x := s.stack k
    s.setStack k { x with inserts := x.inserts.filter (· ≠ st) }) s
  s.setStream st {}

/-- R205, R238, R272: a stream whose page could not be restored ends with KV_LOST. -/
def State.loseStream (s : State) (st : Nat) : State :=
  let x := s.stream st
  if x.state = .free then s else (s.freeStream st).status x.port st 0x20 0

end Sys2Proof.Machine
end

