-- ==== Sys2Proof/Machine/Faults.lean ====
section
/-! DEFINITION. Fault handling and repair (R21, R205, R443–R461): the fault aggregator's phases, row shifts, berth substitution, restore
and escalation. -/

namespace Sys2Proof.Machine

-- what an error requires

/-- R452, R453, R455: the repair that an error requires: a row (instance berth × 156 + physical core) or a berth. -/
def State.repairOf (s : State) (e : FltErr) : Option FltErr :=
  if e.scope = 3 ∧ e.type = blkCode .core then some { scope := 3, type := 0, inst := e.inst, bit := 0 }
  else if e.scope = 3 ∧ e.type = blkCode .chms then some { scope := 3, type := 0, inst := e.inst * 156 + bits (s.reg .chms e.inst 0x044) 7 0, bit := 0 }
  else if e.scope = 4 ∧ (e.type = blkCode .stor ∨ e.type = blkCode .bsn ∨ e.type = blkCode .brth) then some { scope := 4, type := 0, inst := e.inst, bit := 0 }
  else none

/-- The line repairs of R205 and R216 that an error requires: the berth or stack whose log names the line. -/
def State.rewriteOf (e : FltErr) : Option FltErr :=
  if (e.type = blkCode .stor ∨ e.type = blkCode .hbmc) ∧ e.bit = 1 ∧ e.scope ≤ 2 then some { scope := 1, type := e.type, inst := e.inst, bit := 1 }
  else none

/-- Adds a repair that is not yet listed. -/
def addRepair (l : List FltErr) (r : Option FltErr) : List FltErr := match r with
  | none => l
  | some e => if l.contains e then l else l ++ [e]

-- the berth's ends (R206, R272, R456)

/-- R272, R456: the pages and rings of a stream that are homed at a logical berth: head, page and column; layer and head of a ring. -/
def State.homedAt (s : State) (st lb : Nat) : List (Nat × Nat × Nat) × List (Nat × Nat) :=
  let k := s.kvShape (s.stream st).image
  let n := ceilDiv (max (s.stream st).kvlen (s.stream st).hiwrit) 128 + 1
  ((pairs k.heads n).filterMap (fun hj => if s.homeHere k hj.1 hj.2 = some lb then (s.column k lb st hj.1 hj.2).map (fun c => (hj.1, hj.2, c)) else none),
   (pairs k.layers k.heads).filter (fun lh => match s.ringLine k st lh.1 lh.2 with | some r => r.1 == lb | none => false))

/-- R271, R272, R456: whether a stream loses something at a berth whose store die is lost: anything, without BACKUP or with an image too wide for
ring mode; else a page or ring without a copy. -/
def State.losesAt (s : State) (st lb : Nat) : Bool :=
  let (cols, rings) := s.homedAt st lb
  let k := s.kvShape (s.stream st).image
  if !bit (s.stream st).kvcfg 26 ∨ 8 < k.modules then !(cols.isEmpty && rings.isEmpty)
  else
    cols.any (fun e => (List.range k.layers).any (fun l =>
      s.locTier lb (e.2.2 + l) == 0 && (lookup s.backups (backupKey st e.1 e.2.1 l)).isNone)) ||
    rings.any (fun lh => (lookup s.ringCopies (st * 4096 + lh.1 * 16 + lh.2)).isNone)

/-- R323: every resident shard of a logical berth is absent from now on. -/
def State.loseShards (s : State) (lb : Nat) : State :=
  (List.range 8).foldl (fun s i =>
    let x := s.image i
    match x.manifest with
    | none => s
    | some m => s.setImage i { x with present := x.present.filter (fun k => match s.shard? m k with
        | some y => y.streamed || y.berth != lb
        | none => true) }) s

/-- R311, R327, R328: a shard's bytes go from the slot's backup region to its place. -/
def State.rewriteShard (s : State) (x : ImageSt) (m : Manifest) (i : Nat) (y : Shard) : State :=
  let data := s.regionRead x.bkpBase (logicalHalf y.berth) (s.sequenceOff m i) y.len
  if y.streamed then s.regionWrite m.dbase (logicalHalf y.berth) y.place data
  else match s.physOf y.berth with
    | none => s
    | some b => s.storeWrite b (y.place * 128) data

/-- R327, R328, R456: shards that are absent are rewritten from the slot's backup region, where it keeps one. -/
def State.fromBackup (s : State) (img : Nat) : State :=
  let x := s.image img
  match x.manifest with
  | none => s
  | some m =>
    if !x.bkpEn then s
    else (s.ownShards m).foldl (fun s i => match s.shard? m i with
      | none => s
      | some y =>
        let z := s.image img
        if z.present.contains i ∨ (y.streamed = false ∧ s.physOf y.berth = none) then s
        else (s.rewriteShard x m i y).setImage img { z with present := z.present ++ [i] }) s

/-- R272, R456: the bytes of a lost die of which the pagers keep their own record: index frames and page tables (log entry 189). -/
def State.rebuilt (s : State) (lb : Nat) (old : List (Nat × Byte)) : List (Nat × Byte) :=
  let frames := (s.frames.filter (fun e => e.1 / 2 ^ 20 = lb && e.2 = 3)).map (fun e => (s.frameLine lb (e.1 % 2 ^ 20) * 128, 33792))
  let keep := frames ++ [(0x3E80000 * 128, 0x80000 * 128), (0x3F80000 * 128, 0x80000 * 128)]
  old.filter (fun e => keep.any (fun r => within e.1 r.1 r.2))

/-- R272: the summaries of every page homed at a berth are no longer valid, and the streams that use them build their index again. -/
def State.forgetSummaries (s : State) (lb : Nat) : State :=
  s.liveStreams.foldl (fun s st =>
    let (cols, rings) := s.homedAt st lb
    let k := s.kvShape (s.stream st).image
    let s := cols.foldl (fun s e => (List.range k.layers).foldl (fun s l =>
      s.setIxWord lb (e.2.2 + l) 0x44 (putBits (s.loc lb (e.2.2 + l)) 28 28 0)) s) s
    if cols.isEmpty && rings.isEmpty then s else s.setStream st { s.stream st with indexPending := true }) s

/-- R272: the pages and tail rings of a rebuilt berth come back from their copies in the slower tier. -/
def State.restorePages (s : State) (lb : Nat) : State :=
  let lines := (s.columns.filter (fun e => e.1 / 2 ^ 26 = lb)).flatMap (fun e => (List.range e.2).map (fun l => e.1 % 2 ^ 26 + l))
  let s := lines.foldl (fun s line =>
    if s.locTier lb line = 0 ∧ bit (s.loc lb line) 29 = true then
      s.lbPut lb (bits (s.loc lb line) 25 0 * 128) (Memory.read s.hbm (s.copyDpa lb line) 33792)
    else s) s
  s.ringCopies.foldl (fun s e =>
    match s.ringLine (s.kvShape (s.stream (e.1 / 4096)).image) (e.1 / 4096) (e.1 / 16 % 256) (e.1 % 16) with
    | some (rb, line) => if rb = lb then s.lbPut lb (line * 128) (Memory.read s.hbm e.2 32768) else s
    | none => s) s

/-- R277: prefix nodes whose pages at a lost berth have no copy are removed. -/
def State.dropNodesAt (s : State) (lb : Nat) : State :=
  s.nodes.foldl (fun s n =>
    let k : KvShape := { heads := n.heads, layers := n.layers, modules := n.modules }
    let j := leNat (Memory.read s.hbm (n.dpa + 0x24) 4) % 2 ^ 13
    let lost := (List.range n.heads).any (fun h => s.homeHere k h j == some lb && (match s.nodeColumn n.dpa h with
      | some c => (List.range n.layers).any (fun l => s.locTier lb (c + l) == 0 && !bit (s.loc lb (c + l)) 29)
      | none => false))
    if lost then s.removeNode n else s) s

-- berth handling (R16, R455–R459)

/-- R16: the spares of a berth's half, nearest first, a tie going to the lower number. -/
def State.sparesFor (s : State) (b : Nat) : List Nat :=
  ((halfBerths (halfOf b)).filter (fun c => (s.berth c).role == .spare)).foldl (fun a c => insKey (hopsBetween b) c a) []

/-- R177, R458: whether every logical link of a logical berth can be tunnelled when it is bound to berth `c`. -/
def State.bindable (s : State) (lb c : Nat) : Bool :=
  ((List.range 4).all (fun d => match canonNeighbour lb d with
    | none => true
    | some n => match s.physOf n with
      | none => true
      | some p => routeOk s p 24 c false && routeOk s c 24 p false)) &&
  (match stackAt (canonicalPos lb) with
    | none => true
    | some k => routeOk s (rimFor s c k) 24 c false)

/-- R451: a spare that fails its wake or BIST is retired. -/
def State.retire (s : State) (c : Nat) : State := s.setBerth c { s.berth c with role := .retired, logical := 127, gated := true }

/-- R16, R451, R458: the spare that is taken: the first that gives a usable binding and passes its wake and BIST. -/
def State.takeSpare (lb : Nat) (bad : List Nat) : State → List Nat → State × Option Nat
  | s, [] => (s, none)
  | s, c :: rest =>
    if !s.bindable lb c then State.takeSpare lb bad s rest
    else if bad.contains c then State.takeSpare lb bad (s.retire c) rest
    else (s, some c)

/-- The image slots with shards at a logical berth. -/
def State.imagesAt (s : State) (lb : Nat) : List Nat := (List.range 8).filter (fun i => s.hasShards i lb)

/-- R457: the half has no spare left: program execution ends and every stream is held. -/
def State.noSpare (s : State) : State :=
  let s := (s.raise .flt 0 1).msiFault
  ({ s with flt := { s.flt with exec := false } }).holdNow s.liveStreams 2

/-- R272, R456: what a rebuild of a lost store die cannot bring back is given up, and the rest restored. -/
def State.rebuildDie (s : State) (c lb : Nat) : State :=
  let s := (s.liveStreams.filter (fun i => s.losesAt i lb)).foldl State.loseStream s
  let s := s.dropNodesAt lb
  let y := s.berth c
  ((s.setBerth c { y with store := s.rebuilt lb y.store }).restorePages lb |>.forgetSummaries lb).loseShards lb

/-- R456: the logical berth moves to a spare, with KV_BASE; its store die is migrated, where the lines that could not be corrected wait for their
repair, or rebuilt when the berth is DARK or its die unusable. -/
def State.bindSpare (s : State) (b c lb : Nat) : State :=
  let x := s.berth b
  let y := s.berth c
  let bad := if x.role != .dark && x.storeOk then x.badLines ++ x.held.filter (fun l => !x.badLines.contains l) else []
  let s := s.setBerth b { x with logical := 127, store := if x.role = .dark then [] else x.store, held := [], holdSignal := false, badLines := [] }
  let s := s.setBerth c { y with badLines := bad, role := .inService, logical := lb, gated := s.cool.st != .normal, waking := false, ldiv := if s.cool.st = .normal then (s.half (halfOf c)).now else 16, store := x.store }
  let s := s.setReg .stor c 0x050 (s.reg .stor b 0x050)
  let s := if x.role != .dark && x.storeOk then s else s.rebuildDie c lb
  let f := s.flt
  let s := { s with flt := { f with migrating := f.migrating.filter (· ≠ lb) ++ [lb] } }
  s.holdNow ((s.imagesAt lb).flatMap s.streamsOf) 2

/-- R385, R398, R503: a berth's reset: its CORE pages return to their reset values, and its basin takes the last stage that BSN_CFG.NEXT_SRC
names. -/
def State.resetBerth (s : State) (b : Nat) : State :=
  let first := pageBase .core (b * 156)
  let s := { s with regs := s.regs.filter (fun e => !within (e.1 % 2 ^ 28) first (156 * 4096)), boundsHeld := s.boundsHeld.filter (fun i => i / 156 ≠ b) }
  s.setBasin b { s.basin b with inpkg := bit (s.reg .bsn b 0x040) 8 }

/-- R161, R175, R186: the neighbours of a DARK berth use their skip paths over it. -/
def State.skipAround (s : State) (b : Nat) : State :=
  (List.range 4).foldl (fun s d =>
    let n := ringNext b d
    if s.dark n then s
    else (s.setReg .mesh n 0x05C (s.reg .mesh n 0x05C ||| field 1 (opposite d))).raise .mesh n 4) s

/-- R456: a berth handling. With no spare, a berth that lost only a second phase stays in service (R406). The berth that leaves service and the
spare that takes its place are reset (DEDUCED, log entry 202). -/
def State.repairBerth (s : State) (bad : List Nat) (b : Nat) : State :=
  let x := s.berth b
  let lb := x.logical
  let latched := (s.basin b).latched
  let serves := x.role == .inService || (x.role == .dark && lb != 127)
  let h := s.half (halfOf b)
  let uncap := fun (s : State) => (s.setHalf (halfOf b) { h with phaseCap := h.phaseCap.filter (· ≠ b) }).retarget
  if !serves then (if x.role == .spare then uncap (s.setBerth b { x with role := .retired, gated := true }) else s)
  else
    let spares := s.sparesFor b
    if spares.isEmpty && !latched && 2 ≤ (s.basin b).phasesLost.length then s
    else
      let s := s.setBerth b { x with role := if latched then .dark else .retired, gated := true }
      let s := if latched then s else s.resetBerth b
      match State.takeSpare lb bad (uncap s) spares with
      | (s, some c) => (s.resetBerth c).bindSpare b c lb
      | (s, none) =>
        let s := if spares.any (fun c => !s.bindable lb c) then (s.raise .flt 0 2).msiFault else s
        s.noSpare

-- row handling (R21, R453)

/-- An error at least of berth scope. -/
def atLeastBerth (e : FltErr) : FltErr := { e with scope := max e.scope 4 }

/-- R449, R451: the handling widens to berth scope. -/
def State.widenBerth (s : State) : State := { s with flt := { s.flt with cur := s.flt.cur.map atLeastBerth } }

/-- R90, R453: a row is shifted onto its spare core; a second failure in the row, or one in a row whose bypass has failed, is one of the
berth. -/
def State.repairRow (s : State) (bad : List Nat) (inst : Nat) : State :=
  let b := inst / 156
  let p := inst % 156
  let r := p / 13
  let x := s.berth b
  let out := Sparse.get (fun _ => 15) x.removed r
  if x.role ≠ .inService ∨ out = p % 13 then s
  else if out = 15 ∧ !x.badBypass.contains r then
    let s := s.setBerth b { x with removed := Sparse.set (fun _ => 15) x.removed r (p % 13) }
    { s with flt := { s.flt with rowTest := s.flt.rowTest ++ [b * 12 + r] } }
  else
    s.widenBerth.repairBerth bad b

-- line rewrites (R205, R216)

/-- R310, R311: the bytes of a shard at its place, none of them where its berth is lost. -/
def State.shardBytes (s : State) (m : Manifest) (y : Shard) : List Byte :=
  if y.streamed then s.regionRead m.dbase (logicalHalf y.berth) y.place y.len else s.lbRead y.berth (y.place * 128) y.len

/-- R205, R310: the resident shards whose place at a logical berth holds a store line: image slot and index. -/
def State.shardsOver (s : State) (lb line : Nat) : List (Nat × Nat) :=
  (List.range 8).flatMap (fun i => match (s.image i).manifest with
    | none => []
    | some m => ((s.ownShards m).filter (fun k => match s.shard? m k with
        | some y => !y.streamed && y.berth == lb && y.place ≤ line && line * 128 < y.place * 128 + y.len
        | none => false)).map (fun k => (i, k)))

/-- R205, R328: whether every shard that a weight line of a berth belongs to has a backup copy. -/
def State.backedUp (s : State) (b line : Nat) : Bool := (s.shardsOver (s.berth b).logical line).all (fun e => (s.image e.1).bkpEn)

/-- R205, R328: the part of a line that belongs to a shard is rewritten from the backup copy, or the shard is absent and the streams of its image
are held until a peer module or the host has written it again. -/
def State.mendShard (s : State) (b line : Nat) (e : Nat × Nat) : State :=
  let x := s.image e.1
  match x.manifest with
  | none => s
  | some m => match s.shard? m e.2 with
    | none => s
    | some y =>
      let at_ := (line - y.place) * 128
      if x.bkpEn then
        s.storePut b (line * 128) (s.regionRead x.bkpBase (logicalHalf y.berth) (s.sequenceOff m e.2 + at_) (min 128 (y.len - at_)))
      else (s.setImage e.1 { x with present := x.present.filter (· ≠ e.2) }).holdNow (s.streamsOf e.1) 2

/-- R205: a line of the weight region is repaired. -/
def State.mendWeights (s : State) (b line : Nat) : State := (s.shardsOver (s.berth b).logical line).foldl (fun s e => s.mendShard b line e) s

/-- Whether a store line of a logical berth belongs to a page, index column or tail ring of a stream; a page with a copy is not lost. -/
def State.usesLine (s : State) (st lb line : Nat) : Bool :=
  let (cols, rings) := s.homedAt st lb
  let k := s.kvShape (s.stream st).image
  cols.any (fun e => within line e.2.2 264 || (List.range k.layers).any (fun l =>
    s.locTier lb (e.2.2 + l) == 0 && within line (bits (s.loc lb (e.2.2 + l)) 25 0) 264 && !bit (s.loc lb (e.2.2 + l)) 29)) ||
  rings.any (fun lh => match s.ringLine k st lh.1 lh.2 with
    | some r => within line r.2 264 && (lookup s.ringCopies (st * 4096 + lh.1 * 16 + lh.2)).isNone
    | none => false)

/-- R205: a stream's pages and rings over a line of a logical berth that have a copy in the slower tier are restored from it. -/
def State.restoreCopies (s : State) (lb line st : Nat) : State :=
  let (cols, rings) := s.homedAt st lb
  let k := s.kvShape (s.stream st).image
  let s := cols.foldl (fun s e => (List.range k.layers).foldl (fun s l =>
    let frame := bits (s.loc lb (e.2.2 + l)) 25 0
    if s.locTier lb (e.2.2 + l) == 0 && within line frame 264 && bit (s.loc lb (e.2.2 + l)) 29 then
      s.lbPut lb (frame * 128) (Memory.read s.hbm (s.copyDpa lb (e.2.2 + l)) 33792) else s) s) s
  rings.foldl (fun s lh => match s.ringLine k st lh.1 lh.2, lookup s.ringCopies (st * 4096 + lh.1 * 16 + lh.2) with
    | some r, some a => if within line r.2 264 then s.lbPut lb (r.2 * 128) (Memory.read s.hbm a 32768) else s
    | _, _ => s) s

/-- R205: a line of the KV pool is repaired: streams that lose a page there end with KV_LOST, pages with a copy are restored. -/
def State.mendKv (s : State) (b line : Nat) : State :=
  let lb := (s.berth b).logical
  let s := (s.liveStreams.filter (fun i => s.usesLine i lb line)).foldl State.loseStream s
  s.liveStreams.foldl (fun s i => s.restoreCopies lb line i) s

/-- R205: the lines of a berth that wait for their repair are repaired. -/
def State.mendBerth (s : State) (b : Nat) : State :=
  let x := s.berth b
  let s := s.setBerth b { x with badLines := [] }
  if x.role ≠ .inService then s
  else x.badLines.foldl (fun s l => match s.regionOf b l with
    | 0 => s.mendWeights b l
    | 1 => s.mendKv b l
    | _ => s) s

/-- Whether a stream's page whose only copy lies in the slower tier touches a range there. -/
def State.usesTier (s : State) (st dpa n : Nat) : Bool :=
  let k := s.kvShape (s.stream st).image
  (pairs k.heads (ceilDiv (s.stream st).kvlen 128)).any (fun hj => match s.homeHere k hj.1 hj.2 with
    | none => false
    | some lb => match s.column k lb st hj.1 hj.2 with
      | none => false
      | some c => (List.range k.layers).any (fun l => s.locTier lb (c + l) == 1 && meet dpa n (s.copyDpa lb (c + l)) 33792))

/-- R216, R272: a stream's copies of pages and rings over a range of the slower tier are given up; the pages are copied again at the next
commit. -/
def State.forgetCopies (s : State) (st dpa n : Nat) : State :=
  let k := s.kvShape (s.stream st).image
  let s := (pairs k.heads (ceilDiv (s.stream st).kvlen 128)).foldl (fun s hj => match s.homeHere k hj.1 hj.2 with
    | none => s
    | some lb => match s.column k lb st hj.1 hj.2 with
      | none => s
      | some c => (List.range k.layers).foldl (fun s l =>
          if s.locTier lb (c + l) == 0 && bit (s.loc lb (c + l)) 29 && meet dpa n (s.copyDpa lb (c + l)) 33792 then
            (s.dropCopy (s.copyDpa lb (c + l))).setIxWord lb (c + l) 0x44 (putBits (s.loc lb (c + l)) 29 29 0)
          else s) s) s
  let lost := fun (e : Nat × Nat) => e.1 / 4096 == st && meet dpa n e.2 33792
  { s with copies := s.copies.filter (fun a => !(s.ringCopies.filter lost).any (fun e => e.2 = a))
           ringCopies := s.ringCopies.filter (fun e => !lost e) }

/-- R216, R328, R331: what an image slot keeps over a range of the slower tier: streamed shards there are written again from the backup region, or
absent and the image's streams held; the backup region is written again from the shards. -/
def State.mendRegions (s : State) (dpa n i : Nat) : State :=
  let x := s.image i
  match x.manifest with
  | none => s
  | some m =>
    let cut := (s.ownShards m).filter (fun k => match s.shard? m k with
      | some y => y.streamed && (List.range (ceilDiv y.len 4096 + 1)).any (fun q =>
          q * 4096 < y.len && meet dpa n (halfOrderedDpa m.dbase (logicalHalf y.berth) (y.place + q * 4096)) 4096)
      | none => false)
    let s := if cut.isEmpty then s
      else if x.bkpEn then cut.foldl (fun s k => match s.shard? m k with
        | some y => s.rewriteShard x m k y
        | none => s) s
      else (s.setImage i { x with present := x.present.filter (fun k => !cut.contains k) }).holdNow (s.streamsOf i) 2
    let long := max (s.sequenceLen m .west) (s.sequenceLen m .east)
    if x.bkpEn && meet dpa n x.bkpBase (regionBytes long) then
      (s.ownShards m).foldl (fun s k => match s.shard? m k with
        | none => s
        | some y => if !x.present.contains k then s
          else s.regionWrite x.bkpBase (logicalHalf y.berth) (s.sequenceOff m k) (s.shardBytes m y)) s
    else s

/-- R205, R216: the data over a range of the slower tier is restored: a stream whose page has no other copy ends with KV_LOST, prefix nodes there
are removed, and copies are made again. -/
def State.mendTier (s : State) (dpa n : Nat) : State :=
  let s := (s.liveStreams.filter (fun i => s.usesTier i dpa n)).foldl State.loseStream s
  let s := s.liveStreams.foldl (fun s i => s.forgetCopies i dpa n) s
  let s := (s.nodes.filter (fun m => meet dpa n m.dpa 512)).foldl State.removeNode s
  (List.range 8).foldl (fun s i => s.mendRegions dpa n i) s

/-- R205, R216: the units and pages of a stack that wait for it are restored. -/
def State.mendStack (s : State) (k : Nat) : State :=
  let x := s.stack k
  x.badUnits.foldl (fun s off => s.mendTier (stackDpa k off) (if s.pageRetired k (off / 4096) then 4096 else 64))
    (s.setStack k { x with badUnits := [] })

/-- R205, R216: the lines or units that an error's page waits to have repaired are repaired. -/
def State.rewriteLine (s : State) (e : FltErr) : State := if e.type = blkCode .stor then s.mendBerth e.inst else s.mendStack e.inst

/-- R205, R206, R216: whether some repair waits. -/
def State.mendDue (s : State) : Bool := s.berths.any (fun e => !e.2.badLines.isEmpty) || s.tier.any (fun e => !e.2.badUnits.isEmpty)

/-- R205, R216: every repair that waits is made. -/
def State.mendAll (s : State) : State :=
  (s.tier.map Prod.fst).foldl State.mendStack ((s.berths.map Prod.fst).foldl State.mendBerth s)

-- a binding that a DARK berth breaks (R177, R458)

/-- R177, R458: a logical berth that stands off its canonical position moves to another spare once one of its tunnels can no longer be formed;
the berth that it leaves is a SPARE again (DESIGN CHOICE, log entry 179). -/
def State.rebind (s : State) (bad : List Nat) (lb : Nat) : State := match s.physOf lb with
  | none => s
  | some b =>
    if !s.flt.exec || b == canonicalPos lb || s.bindable lb b then s
    else match State.takeSpare lb bad s (s.sparesFor b) with
      | (s, some c) => (s.setBerth b { s.berth b with role := .spare, gated := true }).bindSpare b c lb
      | (s, none) => ((s.raise .flt 0 2).msiFault).noSpare

/-- R177, R458: every binding is usable again, where the half has spares for it. -/
def State.rebindAll (s : State) (bad : List Nat) : State := (List.range 80).foldl (fun s lb => s.rebind bad lb) s

-- the handling's phases

/-- R446, R451: every repair that is due is made, the rows first. -/
def State.repairAll (s : State) (bad : List Nat) : State :=
  let l := s.flt.repairs
  let berths := (l.filter (fun e => e.scope = 4)).map (fun e => e.inst)
  let rows := (l.filter (fun e => e.scope = 3 && !berths.contains (e.inst / 156))).map (fun e => e.inst)
  let s := { s with flt := { s.flt with phase := .repair, repairs := [] } }
  let s := (l.filter (fun e => e.scope ≤ 2)).foldl State.rewriteLine s
  let s := rows.foldl (fun s i => s.repairRow bad i) s
  let s := berths.foldl (fun s b => s.repairBerth bad b) s
  if s.berths.any (fun e => e.2.role == .dark) then s.rebindAll bad else s

/-- R178: the berth through whose node a page's FAULT messages go up, none for a page that reaches the root through a harbour die. -/
def errBerth (e : FltErr) : Option Nat :=
  let own := [Blk.brth, .mesh, .chms, .stor, .smpl, .zlnk].map blkCode
  if e.type = blkCode .core then some (e.inst / 156)
  else if own.contains e.type ∨ ((e.type = blkCode .bsn ∨ e.type = blkCode .thrm) ∧ e.inst < 84) then some e.inst
  else if e.type = blkCode .hbmc ∨ e.type = blkCode .kvpg then some (rimBerths e.inst).1
  else none

/-- R180: whether an ARRIVE waits at a node or on a link that the FAULT message of an error crosses, and so goes before it. -/
def State.faultWaits (s : State) (e : FltErr) : Bool := match errBerth e with
  | none => false
  | some b => (pathUp (Fin.ofNat 84 b)).any s.arriveDue

/-- R180, R446, R449, R461: the oldest FAULT message reaches the fault aggregator, which starts a handling or merges or widens the one under way.
Repairs that join it after its own have been made are made at once. -/
def execFault (s : State) : Res :=
  .next (match s.flt.msgs with
    | [] => s
    | e :: rest =>
      if s.faultWaits e then s
      else
      let s := { s with flt := { s.flt with msgs := rest } }
      let due := fun (l : List FltErr) => if e.scope = 5 then l else addRepair (addRepair l (s.repairOf e)) (State.rewriteOf e)
      match s.flt.cur with
      | none => { s with flt := { s.flt with phase := .abort, cur := some e, repairs := due s.flt.repairs } }
      | some c =>
        let f := s.flt
        let f := if f.next.isNone then { f with next := some e } else { f with ovf := min (f.ovf + 1) 65535 }
        let f := { f with cur := some { c with scope := max c.scope e.scope }, repairs := due f.repairs }
        let s := { s with flt := f }
        if (f.phase = .repair ∨ f.phase = .restore ∨ f.phase = .coolant) ∧ e.scope < 5 then s.repairAll [] else s)

/-- R351, R365: a lost module's logical number is bound to the reserved spare of its block; without a spare that is free the slice has failed. -/
def State.replaceModule (s : State) (a : Nat) : State := match s.boundAt a with
  | none => s
  | some n =>
    let c := a / 128 * 128 + 126
    if s.spareAddress c && a != c then s.setRegI .zlnk 0 0x090 n (field c 0 ||| field 1 31) else { s with sliceFailed := true }

/-- R365, R446: quiesce ends once no held core has a dynamic request outstanding; the repairs follow. -/
def execQuiesceComplete (badSpares : List Berth) (lost : List (BitVec 15)) (s : State) : Res :=
  .next (if s.flt.phase = .quiesce ∧ s.cores.all (fun e => e.2.dyn.isEmpty) ∧ s.flt.cur.any (fun e => e.scope < 5) = true then
      (lost.map BitVec.toNat).foldl State.replaceModule (s.repairAll (badSpares.map (fun b => b.val)))
    else s)

/-- R446, R464: quiesce has exceeded 1 ms. -/
def execQuiesce (s : State) : Res := .next (if s.flt.phase = .quiesce then s.raise .flt 0 4 else s)

/-- R453: the self-test of a row's spare core ends; a failure is a second one in the row. -/
def execSpareSelftestDone (ok : Bool) (s : State) : Res :=
  .next (match s.flt.rowTest with
    | [] => s
    | t :: rest =>
      let s := { s with flt := { s.flt with rowTest := rest } }
      if ok then s
      else s.widenBerth.repairBerth [] (t / 12))

/-- R456: streams that waited for the shards of a logical berth run again, unless another reason holds them. -/
def State.liftRepaired (s : State) (img : Nat) : State :=
  if s.shardsAway img || !s.flt.exec then s else s.liftAll (s.streamsOf img) 2

/-- R456: the copy or rebuild of a spare's store die is complete. -/
def execStoreMigrationDone (b : Fin 80) (s : State) : Res :=
  .next (if s.flt.migrating.contains b.val then
      let s := { s with flt := { s.flt with migrating := s.flt.migrating.filter (· ≠ b.val) } }
      (s.imagesAt b.val).foldl (fun s i => (s.fromBackup i).liftRepaired i) s
    else s)

-- restore and escalation

/-- R330: the step that was aborted is over without a commit; a swap that waited for it begins. -/
def State.giveUp (s : State) : State := match s.seq.cur with
  | none => s
  | some t => ({ s with seq := { s.seq with cur := none }, coresMode := .idle }).stepOver.dueSwap t.image

/-- R448: an escalation: the step's streams return to their snapshot and are held; a copy step leaves its slot FAILED (R331). -/
def State.escalateStep (s : State) (t : Step) : State :=
  let s := match t.copy with
    | some _ =>
      let s := s.setImage t.image { s.image t.image with st := .failed, mixed := true }
      let s := s.holdAll (s.streamsOf t.image) 0
      s.raise .ltr 0 4
    | none => t.entries.foldl (fun (s : State) (e : BatchEntry) =>
        let s := s.restoreEntry e
        let x := s.stream e.stream
        if x.state = StreamState.free then s else State.hold (s.status x.port e.stream 0x22 t.id) e.stream 0) s
  let s := ((s.raise .flt 0 0).msiFault).count .flt 0 0x060 1
  s.giveUp

/-- R456: the entries of a step whose streams may still run. -/
def State.runnable (s : State) (e : BatchEntry) : Bool := (s.stream e.stream).state != .free && !(s.stream e.stream).holds.contains 2

/-- R446, R456: the retained inputs are rewritten in every berth; streams that are held for a repair leave the step. -/
def State.restoreStep (s : State) (t : Step) : State :=
  let gone := t.entries.filter (fun e => !s.runnable e)
  let s := gone.foldl State.restoreEntry s
  let t' := { t with entries := if gone.isEmpty then t.entries else withBases 0 (t.entries.filter s.runnable) }
  if t.copy.isNone && t'.entries.isEmpty then
    s.giveUp
  else (List.range 80).foldl (fun s lb => s.writeInputs t' lb) { s with seq := { s.seq with cur := some t' } }

/-- R448, R457: a fourth abort escalates; when program execution has ended, the step is given up and its streams stay held. -/
def State.escalateOrDrop (s : State) (t : Step) : State :=
  if s.flt.exec then s.escalateStep t else (t.entries.foldl State.restoreEntry s).giveUp

/-- R185, R499, R501: the table area is rewritten when a role, a binding or a row map has changed since it was last written. -/
def State.rewriteTable (s : State) : State :=
  let l := (List.range 84).map (fun b =>
    let x := s.berth b
    ({ role := x.role, logical := if x.role = .inService then x.logical else 127, removed := x.removed, skips := s.reg .mesh b 0x05C } : TableRow))
  if l = s.tableArea then s else { s with tableArea := l, dgen := (s.dgen + 1) % 65536, dgenBusy := false }

/-- R205, R446, R448, R450: RESTORE, once every repair is made, those of lines among them; without a step to replay, and after an escalation, the handling ends. -/
def execRestore (s : State) : Res :=
  .next (if s.flt.phase ≠ .repair ∨ s.flt.rowTest ≠ [] ∨ s.flt.msgs ≠ [] then s
    else
      let s := s.mendAll.moveNodes.rewriteTable
      let s := match s.seq.cur with
        | none => s
        | some t => if 3 < s.seq.replay || !s.flt.exec then s.escalateOrDrop t else s.restoreStep t
      if s.seq.cur.isNone then s.endHandling
      else
        let f := s.flt
        { s with flt := { f with phase := if s.cool.st = CoolSt.normal then .restore else .coolant } })

end Sys2Proof.Machine
end

