-- ==== Sys2Proof/Machine/Bist.lean ====
section
/-! DEFINITION. The end of the basins stage and of BIST and training (R13–R15, R20, R25, R216, R387, R418, R501): what a berth or stack that comes
up, ends its training or goes dark may complete. -/

namespace Sys2Proof.Machine

/-- R438: whether the timeline stands at a stage and may go on from it. -/
def State.atStage (s : State) (g : Stage) : Bool := s.powered && s.stage == g && s.cool.st == .normal && !s.resetPending

/-- R20, R31: the removed columns of a berth under the fused repair map. -/
def State.repairMap (s : State) (b : Nat) : List (Nat × Nat) :=
  (List.range 12).filterMap (fun r => (lookup s.fuses.repair (b * 12 + r)).map (fun c => (r, c)))

/-- R13: of some default spares, the one nearest to a berth, a tie going to the lower number. -/
def nearestSpare (l : List Nat) (b : Nat) : Option Nat := least (hopsBetween b) l

/-- R13: the default spares of a half that stay spare. -/
def State.keptSpares (s : State) (h : Half) : List Nat :=
  let able := fun b => (s.berth b).role == .spare
  let out := (halfBerths h).filter (fun b => !able b && !defaultSpares.contains b)
  out.foldl (fun l b => match nearestSpare l b with
    | some c => l.filter (· ≠ c)
    | none => l) (((halfBerths h).filter able).filter defaultSpares.contains)

/-- R13, R14: the berths of a half go into service in ascending physical number, from logical number `l` on. -/
def State.bindHalf (s : State) (h : Half) (l : Nat) : State :=
  let spares := s.keptSpares h
  let serve := (halfBerths h).filter (fun b => (s.berth b).role == .spare && !spares.contains b)
  ((List.range serve.length).zip serve).foldl (fun s e =>
    s.setBerth e.2 { s.berth e.2 with role := .inService, logical := l + e.1, gated := false, waking := false, ldiv := (s.half h).now }) s

/-- R14: how many berths of a half are in service. -/
def State.inServiceOf (s : State) (h : Half) : Nat := ((halfBerths h).filter (fun b => (s.berth b).role == .inService)).length

/-- R25, R216: whether a stack cannot serve after a reset. -/
def State.stackLost (s : State) (k : Nat) : Bool := s.stackCut k || decide (4096 < (s.stack k).retired.length)

/-- R387: whether every berth and every stack has ended its BIST and training. -/
def State.bistOver (s : State) : Bool :=
  (List.range 84).all (fun b => (s.berth b).trained || s.dark b) && (List.range 12).all (fun k => (s.stack k).trained)

/-- R14, R15, R25, R387, R501: the end of BIST and training: the berths are bound and the table area is written, or the module holds for a
failed stack. -/
def State.endBist (s : State) : State :=
  if !s.bistOver then s
  else if (List.range 12).any s.stackLost then (((List.range 12).filter s.stackLost).foldl (fun s k => s.raiseOnce .hbmc k 5) s).alerted
  else
    let s := (s.bindHalf .west 0).bindHalf .east 40
    { s.rewriteTable with stage := .clearing, flt := { s.flt with exec := s.inServiceOf .west == 40 && s.inServiceOf .east == 40 } }

/-- R387, R418: BIST and training begin when every compute and memory basin is up or latched off. -/
def State.basinsOver (s : State) : Bool := (List.range 96).all (fun n => (s.basin n).regulating || (s.basin n).latched)

/-- R387: the timeline goes on from its basins stage and from BIST and training once nothing is left that they wait for. -/
def State.goOn (s : State) : State :=
  let s := if s.atStage .basins && s.basinsOver then { s with stage := .bist } else s
  if s.atStage .bist then s.endBist else s

/-- R25: whether the module holds for a failed stack, until a cold power-up. -/
def State.stackHold (s : State) : Bool := s.stage == .bist && s.bistOver && (List.range 12).any s.stackLost

end Sys2Proof.Machine
end

