-- ==== Sys2Proof/Machine/Coolant.lean ====
section
/-! DEFINITION. Coolant and heat (R427–R442, R522, R523): the tray's readings, the thermal cap, hot-spot sites, and the orderly and the sudden
stop. -/

namespace Sys2Proof.Machine

-- stops (R433–R438)

/-- R435, R437: a sudden stop begins: the running step is aborted uncounted. -/
def State.beginStop (s : State) : State :=
  let s := s.abortRun (s.flt.phase == .abort)
  { s with cool := { s.cool with st := .sudden, gated := false, good28 := 0 }, flt := { s.flt with sudden := true } }

/-- R435: a sudden stop. The running step is aborted, the cores are gated, both halves go to divisor 16, the streams are held and SUDDEN is
raised. During one nothing changes. -/
def State.suddenStop (s : State) : State :=
  if s.cool.st = .normal ∨ s.cool.st = .orderly then
    ((((s.beginStop.retarget.setDivisor .west 16).setDivisor .east 16).gateAll.holdStop).raise .tray 0 5).msiFault
  else s

/-- R410, R433, R436: streams held for a coolant stop are ACTIVE again once the stop is over and every berth in service is awake. -/
def State.liftStop (s : State) : State :=
  if s.cool.st = .normal && (List.range 84).all (fun b => (s.berth b).role != .inService || s.awake b) then s.liftAll s.liveStreams 3 else s

/-- R436: after a sudden stop the halves return to the divisors requested. -/
def State.restoreDivisors (s : State) : State :=
  let s := s.retarget
  [Half.west, Half.east].foldl (fun s h => if s.targetDiv h = (s.half h).now then s else s.setDivisor h (s.targetDiv h)) s

/-- R427, R435, R520: FLOW_ALERT_N is asserted or deasserted. -/
def execFlowAlertN (asserted : Bool) (s : State) : Res :=
  .next (if !s.powered then s
    else
      let s := { s with cool := { s.cool with alertPin := asserted, good28 := if asserted then 0 else s.cool.good28 } }
      if asserted then s.suddenStop else s)

/-- R433, R434: whether the flow or the inlet calls for an orderly stop. -/
def stopCalled (c : Cool) : Bool := 100 < c.below18 || 1000 < c.hot38

/-- R433, R434: ORDERLY_STOP. -/
def execOrderlyStop (s : State) : Res :=
  .next (if s.cool.st = .normal ∧ s.powered = true ∧ stopCalled s.cool = true then
      let c := s.cool
      let s := { s with cool := { c with st := .orderly, flowStop := decide (100 < c.below18), inletStop := decide (1000 < c.hot38), gated := false } }
      (s.raise .tray 0 4).settleStop
    else s)

/-- R433, R434: whether what called for an orderly stop has passed. -/
def resumeReady (c : Cool) : Bool := (!c.flowStop || 1000 < c.flowBack) && (!c.inletStop || 1000 < c.inletBack)

/-- R433, R434: ORDERLY_RESUME. -/
def execOrderlyResume (s : State) : Res :=
  .next (if s.cool.st = .orderly ∧ resumeReady s.cool = true then
      ({ s with cool := { s.cool with st := .normal, flowStop := false, inletStop := false, gated := false, below18 := 0, hot38 := 0 } }).liftStop
    else s)

/-- R436, R438: COOLANT_RECOVERY: the flow has been back and the alert off for 1 s, over a link that answers. -/
def execCoolantRecovery (s : State) : Res :=
  .next (if s.cool.st = .sudden ∧ s.cool.alertPin = false ∧ s.cool.linkLost = false ∧ 100 < s.cool.good28 then
      (({ s with cool := { s.cool with st := .normal } }).restoreDivisors).liftStop
    else s)

/-- The module without supply: all that is left is what fuses and flash keep, and what lies outside the module. -/
def State.wiped (s : State) : State :=
  { pending := s.pending, draws := s.draws, countFrom := s.draws, fuses := s.fuses, flash := s.flash, hostMem := s.hostMem, msix := s.msix }

/-- R398, R426: whether some compute or memory basin uses in-package delivery. -/
def State.inPackage (s : State) : Bool := (List.range 96).any (fun n => (s.basin n).inpkg)

/-- R399, R436, R441: RAIL_DROP: the rail is dropped and all state is lost but for TRAY's own (log entry 200); a plate that cannot be told leaves every berth gated with
ALERT_OUT_N asserted. -/
def execRailDrop (s : State) : Res :=
  .next (if s.cool.st ≠ .sudden then s
    else if s.plateLost && !(List.range 100).all (fun n => (s.basin n).inpkg) then
      { s with cool := { s.cool with st := .waitDrop }, alert := true }
    else
      let w := { s.wiped with cool := { st := .dropped } }
      w.setErrRegs .tray 0 ((w.errRegs .tray 0).record 6 false s.stamp))

-- the tray's readings (R427, R428, R433–R435, R523)

/-- R523: whether a transaction counts as a valid reading. -/
def readingValid (r : TrayReading) : Bool := r.acked && r.id == 0x005A#16 && r.status.getLsbD 0

/-- R428: the flow and the inlet on which the module acts. -/
def coolNow (c : Cool) : Nat × Int := if c.linkLost then (280, 256) else (c.flow, c.inlet)

/-- One more reading in a row that holds, else none. -/
def countRun (n : Nat) (holds : Bool) : Nat := if holds then n + 1 else 0

/-- R433, R434, R436: the levels and the counts of readings after one more reading. -/
def countLevels (c : Cool) : Cool :=
  let (f, t) := coolNow c
  { c with
    low := decide (f < 320) || (c.low && decide (f < 330)), capped := decide (f < 280) || (c.capped && decide (f < 290))
    inletOut := decide (t < 144) || decide (256 < t)
    below18 := countRun c.below18 (decide (f < 180) || (decide (0 < c.below18) && decide (f < 190))), hot38 := countRun c.hot38 (decide (304 < t))
    flowBack := countRun c.flowBack (decide (220 ≤ f)), inletBack := countRun c.inletBack (decide (t ≤ 256))
    good28 := countRun c.good28 (decide (280 ≤ f) && !c.alertPin && !c.linkLost && c.invalid == 0) }

/-- R442: OUT_MAX as treated, in 0.125 °C. -/
def State.outMax (s : State) : Int :=
  let n := bits (s.reg .tray 0 0x04C) 7 0
  8 * (if 30 ≤ n ∧ n ≤ 60 then (n : Int) else 43)

/-- R431: the thermal cap that a flow in 0.1 L/min allows, in units of 10 W, at most 2,200 (R442). -/
def State.capTarget (s : State) : Nat :=
  let (f, t) := coolNow s.cool
  let t60 := if s.cool.linkLost then 256 else s.cool.t60.getD t
  min 2200 (min (785 * f / 100) ((697 * (f : Int) * (s.outMax - t60)).toNat / 8000))

/-- R431, R442: the cap falls at once, and rises by at most 1 kW when a second has passed. -/
def State.capNow (s : State) (second : Bool) : State :=
  let t := s.capTarget
  let c := if t ≤ s.cool.cap then t else if second then min t (s.cool.cap + 100) else s.cool.cap
  let s := { s with cool := { s.cool with cap := c } }
  s.setReg .tray 0 0x048 (putBits (s.reg .tray 0 0x048) 15 0 c)

/-- R387, R427: whether the tray link is polled: from T0 + 30 ms, in the basins' stage and after. -/
def State.polls (s : State) : Bool := s.powered && s.fwStarted && s.cool.st != .dropped && s.stage != .firmware && s.stage != .recovery

/-- R441: the errors of levels that a reading has newly reached. -/
def State.raiseLevels (s : State) (old : Cool) : State :=
  let s := if s.cool.low && !old.low then s.raise .tray 0 0 else s
  if s.cool.inletOut && !old.inletOut then s.raise .tray 0 1 else s

/-- R427, R428, R433–R435: TRAY_READ. -/
def execTrayRead (r : TrayReading) (s : State) : Res :=
  .next (if !s.polls then s
    else
      let old := s.cool
      let valid := readingValid r && !(s.basin 99).latched
      let f := bits (r.flow.setWidth 32) 9 0
      let fall := valid && decide (2 * f < old.recent.foldl max 0)
      let c := if valid then
          { old with flow := f, inlet := r.inlet.toInt, outlet := r.outlet.toInt, recent := (f :: old.recent).take 20, invalid := 0, linkLost := false }
        else { old with invalid := old.invalid + 1, recent := (0 :: old.recent).take 20 }
      let s := { s with cool := countLevels c }
      let s := if fall then s.suddenStop else s
      ((s.raiseLevels old).capNow false).settleStop)

/-- R428: LINK_LOST: no valid reading for 100 ms. -/
def execLinkLost (s : State) : Res :=
  .next (if s.polls && !s.cool.linkLost && 10 ≤ s.cool.invalid then
      (({ s with cool := { s.cool with linkLost := true } }).raise .tray 0 3).capNow false
    else s)

/-- R430, R431: FORECAST: P60 and T60, the cap, and the error when P60 exceeds it. -/
def execForecast (p60 : Nat) (t60 : Int) (s : State) : Res :=
  .next (if s.stage ≠ .ready then s
    else
      let s := ({ s with cool := { s.cool with t60 := some t60 } }).capNow true
      let s := s.setReg .tray 0 0x048 (putBits (s.reg .tray 0 0x048) 31 16 (min p60 65535))
      if s.cool.cap < p60 then s.raise .tray 0 2 else s)

-- hot-spot sites (R429, R432, R439)

/-- R429: the sites of an instance. -/
def siteCount (i : Nat) : Nat := if i < 84 then 4 else 2

/-- R429: the higher of a site's two sensors. -/
def siteRaw (x : SiteSt) : Int := max x.diode.toInt x.ro.toInt

/-- R429: whether a sensor reads outside −20 to 150 °C. -/
def outOfRange (x : SiteSt) : Bool :=
  x.diode.toInt < -160 || 1200 < x.diode.toInt || x.ro.toInt < -160 || 1200 < x.ro.toInt

/-- R429: whether a pair differs by more than `k` in units of 0.125 K; a sensor out of range counts as more than 15 K. -/
def differs (x : SiteSt) (k : Nat) : Bool := outOfRange x || k < (x.diode.toInt - x.ro.toInt).natAbs

/-- The highest of some readings, none when there are none. -/
def highest : List Int → Option Int
  | [] => none
  | a :: t => some (t.foldl max a)

/-- R429: the readings of an instance's sites that are not faulty. -/
def State.soundSites (s : State) (i : Nat) : List Int :=
  (((List.range (siteCount i)).map (fun k => s.site (i * 4 + k))).filter (fun x => !x.faulty)).map siteRaw

/-- R429: the instances from which one takes its values when all its sites are faulty. -/
def nearSites (i : Nat) : List Nat :=
  if i < 84 then (if colOf i = 0 then [i + 1] else if colOf i = 11 then [i - 1] else [i - 1, i + 1])
  else if i < 96 then [(rimBerths (i - 84)).1, (rimBerths (i - 84)).2]
  else [[0, 83, 72, 11].getD (i - 96) 0]

/-- R429: the readings that an instance's sites give by themselves, none when all are faulty or the region is dark. -/
def State.ownReadings (s : State) (i : Nat) : List Int := match highest (s.soundSites i) with
  | some t => if (s.basin i).latched then [] else
      (List.range (siteCount i)).map (fun k => if (s.site (i * 4 + k)).faulty then t + 80 else siteRaw (s.site (i * 4 + k)))
  | none => []

/-- R429: a site's reading. With no neighbour to read from, it is the site's own pair (log entry 201). -/
def State.siteReading (s : State) (i k : Nat) : Int :=
  let x := s.site (i * 4 + k)
  if !x.faulty then siteRaw x
  else match highest (s.soundSites i) with
    | some t => t + 80
    | none => (highest ((nearSites i).flatMap s.ownReadings)).getD (siteRaw x) + 80

/-- R440: the readings of an instance's sites. -/
def State.siteReadings (s : State) (i : Nat) : List Int := (List.range (siteCount i)).map (s.siteReading i)

/-- R23, R26, R432: the half of an instance. -/
def thermHalf (i : Nat) : Half :=
  if i < 84 then halfOf i else if i < 96 then stackHalf (i - 84) else if i = 96 ∨ i = 98 then .west else .east

/-- R432: the highest site reading of a half; an instance whose basin is latched off has none. -/
def State.hottest (s : State) (h : Half) : Int :=
  (highest (((List.range 100).filter (fun i => thermHalf i = h && !(s.basin i).latched)).flatMap s.siteReadings)).getD 0

/-- R414: the thermal request of a half. -/
def State.askThermal (s : State) (h : Half) (d : Nat) : State := (s.setHalf h { s.half h with thermal := d }).retarget

/-- R432: the junction limit. -/
def State.limitHeat (s : State) (h : Half) : State := if 840 ≤ s.hottest h then s.askThermal h 16 else s

/-- R429, R432, R439: THERMAL_SITE_SAMPLE. -/
def execThermalSiteSample (i : Fin 100) (site : Fin 4) (diode ro : BitVec 12) (s : State) : Res :=
  .next (if siteCount i.val ≤ site.val || (s.basin i.val).latched || !(s.basin i.val).regulating then s
    else
      let k := i.val * 4 + site.val
      let x := s.site k
      let hot := decide (760 ≤ s.siteReading i.val site.val)
      let y := { x with diode := diode, ro := ro }
      let s := s.setSite k y
      let s := if differs y 40 && !differs x 40 then s.raise .thrm i.val 0 else s
      let s := if !hot && decide (760 ≤ s.siteReading i.val site.val) then s.raise .thrm i.val 2 else s
      s.limitHeat (thermHalf i.val))

/-- R429: PAIR_FAULT: a pair has differed by more than 15 K for 100 ms. -/
def execPairFault (i : Fin 100) (site : Fin 4) (s : State) : Res :=
  .next (let k := i.val * 4 + site.val
    let x := s.site k
    if siteCount i.val ≤ site.val || x.faulty || !differs x 120 || (s.basin i.val).latched || !(s.basin i.val).regulating then s
    else ((s.setSite k { x with faulty := true }).raise .thrm i.val 1).limitHeat (thermHalf i.val))

/-- R432: THERMAL_STEP_REQUEST: 10 ms at or above 95 °C. -/
def execThermalStepRequest (h : Half) (s : State) : Res :=
  .next (if 840 ≤ s.hottest h then s.askThermal h 16
    else if 760 ≤ s.hottest h then s.askThermal h (max (s.half h).thermal (divUp (s.half h).now))
    else s)

/-- R432: THERMAL_STEP_RELEASE: 100 ms below 90 °C. -/
def execThermalStepRelease (h : Half) (s : State) : Res :=
  .next (if s.hottest h < 720 then s.askThermal h (divDown (s.half h).thermal) else s)

/-- R432, R435: TRIP: a site has held 115 °C for 1 ms. -/
def execTrip (i : Fin 100) (site : Fin 4) (s : State) : Res :=
  .next (if siteCount i.val ≤ site.val || (s.basin i.val).latched || !(s.basin i.val).regulating || decide (s.siteReading i.val site.val < 920) then s
    else (s.suddenStop).raise .thrm i.val 3)

end Sys2Proof.Machine
end

