-- ==== Sys2Proof/Machine/Hbm.lean ====
section
/-! DEFINITION. The slower tier's commands (R208, R215, R216, R221, R460). -/

namespace Sys2Proof.Machine

/-- R208: a refresh command at its deadline holds its bank for at most 350 ns and does nothing else. -/
def execHbmRefreshDeadline (_k : Stack) (_bank : Nat) (s : State) : Res := .next s

/-- R208: ZQ calibration holds every channel of the stack for at most 1 µs and does nothing else. -/
def execZqCalibration (_k : Stack) (s : State) : Res := .next s

/-- R215, R460: patrol scrub of a stack. The page of an uncorrectable unit is recorded and retired. -/
def execHbmPatrolScrub (k : Stack) (offset : BitVec 37) (e : EccOutcome) (s : State) : Res :=
  .next (match e with
    | .clean => s
    | .corrected => s.correctUnit k.val
    | .uncorrectable => s.retirePage k.val (offset.toNat / 4096))

/-- R221: the check that a device request fails first: its ERR_STS bit. -/
def deviceCheck (s : State) (k off n : Nat) : Option Nat :=
  if stackBytes < off + n then some 3
  else if (pagesOf off n).any (fun p => stackDpa k (p * 4096) < s.hostLimit) then some 2
  else if (pagesOf off n).any (s.pageRetired k) then some 1
  else none

/-- R222: the offset of a failing unit: the unit of `r` that `unit` counts. -/
def failingUnit (r : StackReq) (unit : Nat) : Nat := (r.offset / 64 + unit % max 1 (ceilDiv r.len 64)) * 64

/-- R216, R222: the offset at which a request first touches a page that moves no data. -/
def retiredUnit (s : State) (k : Nat) (r : StackReq) : Nat :=
  max r.offset (((pagesOf r.offset r.len).find? (s.pageRetired k)).getD 0 * 4096)

/-- R130: the request of a packet that a stack has dealt with is answered. -/
def State.answer (s : State) (packet : Nat) (d : List Byte) : State := (s.served? packet).elim s (fun p => s.respond p d)

/-- R221, R130: the oldest device request waiting at a stack is checked and performed. One that fails completes without data; `unit` counts to
the unit that failed. -/
def execDeviceStackRequest (k : Stack) (e : EccOutcome) (unit : Nat) (s : State) : Res :=
  .next (let x := s.stack k.val
    match x.reqs with
    | [] => s
    | r :: rest =>
      let failed := deviceCheck s k.val r.offset r.len
      let s := s.setStack k.val { x with reqs := rest }
      match failed with
      | some b => ((if b = 1 then s.logTierError k.val (retiredUnit s k.val r) else s).raise .hbmc k.val b).answer r.packet []
      | none =>
        if r.write then (s.stackWrite k.val r.offset (r.data.take r.len)).answer r.packet []
        else match e with
          | .clean => s.answer r.packet (s.stackRead k.val r.offset r.len)
          | .corrected => (s.correctUnit k.val).answer r.packet (s.stackRead k.val r.offset r.len)
          | .uncorrectable => ((s.tierLost k.val (failingUnit r unit)).raise .hbmc k.val 1).answer r.packet [])

/-- R216: between an abort and the replay, or at once while no step runs, firmware repairs a row softly, or retires the page when that
fails or the page was repaired before. -/
def execPageRetire (k : Stack) (page : Nat) (softRepaired : Bool) (s : State) : Res :=
  .next (let x := s.stack k.val
    if s.coresMode = .run then s
    else if softRepaired && !x.softRepaired.contains page then
      let s := s.setStack k.val { x with softRepaired := x.softRepaired ++ [page] }
      { s with flash := { s.flash with softRepaired := s.flash.softRepaired ++ [k.val * 2 ^ 25 + page] } }
    else s.retirePage k.val page)

end Sys2Proof.Machine
end

