-- ==== Sys2Proof/Machine/ImageCheck.lean ====
section
/-! DEFINITION. Program images: their layout (R35–R37, R46, R48, R525, R526) and the load-time checks with what the first failing one
reports (R56, R57, R353). -/

namespace Sys2Proof.Machine

/-- The bytes of an object, zero beyond its end. -/
abbrev Bytes := Nat → Byte

/-- The bytes of a list by position. -/
def bytesOf (l : List Byte) : Bytes :=
  let a := l.toArray
  fun i => a.getD i 0

/-- A little-endian number of `n` bytes. -/
def getLe (rd : Bytes) (a n : Nat) : Nat := leNat ((List.range n).map (fun i => rd (a + i)))

/-- Whether `n` bytes are zero. -/
def allZero (rd : Bytes) (a n : Nat) : Bool := (List.range n).all (fun i => rd (a + i) == 0)

/-- Bits `hi` to `lo` of a number. -/
def nbits (w hi lo : Nat) : Nat := w / 2 ^ lo % 2 ^ (hi + 1 - lo)

/-- R525: what a core has in an epoch's section: its bundles, with those that hold a reserved encoding (R102), and as words its flow records,
its window list's head and records. -/
structure RawCore where
  nbundle : Nat
  reserved : List Nat
  flows : List (Nat × Nat × Nat × Nat)
  head : Nat × Nat × Nat × Nat
  wins : List (Nat × Nat)
  deriving DecidableEq, Repr, Inhabited

/-- R525: a section: the cores that have work, and the slot tables by link. -/
structure RawSection where
  cores : List (Nat × RawCore)
  links : List (Nat × List Nat)
  deriving DecidableEq, Repr, Inhabited

/-- R525: whether a part of a section at `off` lies where it must: its offset a multiple of 16 below 2^32, after the header and before
CERT_OFFSET. -/
def partOk (cert off o n : Nat) : Bool := o % 16 == 0 && o < 2 ^ 32 && 256 ≤ off + o && off + o + n ≤ cert

/-- R525: the entry of a core in the directory: BLOCK_OFF, NBUNDLE, NFLOW, FLOW_OFF, WIN_OFF. -/
def coreEntry (rd : Bytes) (a : Nat) : Nat × Nat × Nat × Nat × Nat :=
  (getLe rd a 8, getLe rd (a + 8) 4, getLe rd (a + 12) 4, getLe rd (a + 16) 8, getLe rd (a + 24) 8)

/-- R525: whether a core's entry and all it points to are laid out as they must be. -/
def coreEntryOk (rd : Bytes) (cert off : Nat) (e : Nat × Nat × Nat × Nat × Nat) : Bool :=
  let (bo, nb, nf, fo, wo) := e
  1 ≤ nb && nb ≤ 2 ^ 24 && nf ≤ 65536 && partOk cert off bo (16 * nb) && partOk cert off fo (16 * nf) && partOk cert off wo 16 &&
  partOk cert off wo (16 + 8 * nbits (getLe rd (off + wo) 4) 5 0)

/-- R525: the words of four at an address. -/
def fourWords (rd : Bytes) (a : Nat) : Nat × Nat × Nat × Nat := (getLe rd a 4, getLe rd (a + 4) 4, getLe rd (a + 8) 4, getLe rd (a + 12) 4)

/-- R102: whether the bundle at a place holds a reserved encoding, which does not depend on the core that fetches it. -/
def bundleReserved (rd : Bytes) (a : Nat) : Bool := (decodeBundle 0 (BitVec.ofNat 128 (getLe rd a 16))).isNone

/-- R525: reads a core's part of a section. -/
def readCore (rd : Bytes) (off : Nat) (e : Nat × Nat × Nat × Nat × Nat) : RawCore :=
  let (bo, nb, nf, fo, wo) := e
  { nbundle := nb, reserved := (List.range nb).filter (fun i => bundleReserved rd (off + bo + 16 * i)), flows := (List.range nf).map (fun i => fourWords rd (off + fo + 16 * i)), head := fourWords rd (off + wo)
    wins := (List.range (nbits (getLe rd (off + wo) 4) 5 0)).map (fun i => (getLe rd (off + wo + 16 + 8 * i) 4, getLe rd (off + wo + 20 + 8 * i) 4)) }

/-- A core that one bundle, no flow and an empty window list describe. -/
def idleCore : RawCore := { nbundle := 1, reserved := [], flows := [], head := (0, 0, 0, 0), wins := [] }

/-- R525: the link that the first fault of a section's layout concerns (0 where it concerns none), none where it has no fault. An
entry out of ascending order or repeated concerns its own link, not its predecessor (DESIGN CHOICE, log entry 167). -/
def sectionFault (rd : Bytes) (cert off : Nat) : Option Nat :=
  let cdir := getLe rd off 8
  let ldir := getLe rd (off + 8) 8
  let nlink := getLe rd (off + 16) 4
  let ln := fun (i : Nat) => getLe rd (off + ldir + 16 * i) 4
  if off % 64 ≠ 0 ∨ off < 256 ∨ cert < off + 64 then some 0
  else if !(allZero rd (off + 0x14) 44 && partOk cert off cdir (32 * 11520) && partOk cert off ldir (16 * nlink)) then some 0
  else if !(List.range 11520).all (fun c => coreEntryOk rd cert off (coreEntry rd (off + cdir + 32 * c))) then some 0
  else
    let bad := (List.range nlink).filter (fun i =>
      let n := getLe rd (off + ldir + 16 * i + 4) 4
      (0 < i && ln i ≤ ln (i - 1)) || n == 0 || !partOk cert off (getLe rd (off + ldir + 16 * i + 8) 8) (8 * n))
    (bad.map ln).min?

/-- R525: reads a section that has no fault. -/
def readSection (rd : Bytes) (off : Nat) : RawSection :=
  let cdir := getLe rd off 8
  let ldir := getLe rd (off + 8) 8
  { cores := ((List.range 11520).map (fun c => (c, readCore rd off (coreEntry rd (off + cdir + 32 * c))))).filter (fun e => e.2 ≠ idleCore)
    links := (List.range (getLe rd (off + 16) 4)).map (fun i =>
      let a := off + ldir + 16 * i
      (getLe rd a 4, (List.range (getLe rd (a + 4) 4)).map (fun j => getLe rd (off + getLe rd (a + 8) 8 + 8 * j) 8))) }

-- fields (R46, R48, R525)

/-- R46: FIRST. -/
def runFirst (e : Nat) : Nat := nbits e 13 0
/-- R46: COUNT. -/
def runCount (e : Nat) : Nat := nbits e 17 14
/-- R46: a slot-table entry as a run. -/
def runOfEntry (e : Nat) : SlotRun :=
  { first := runFirst e, count := runCount e, cond := nbits e 18 18 = 1, src := nbits e 22 19, flow := nbits e 47 32 }
/-- R48: a flow record. -/
def flowOfWords (w : Nat × Nat × Nat × Nat) : FlowRec :=
  { flow := nbits w.1 15 0, recv := nbits w.1 16 16 = 1, cond := nbits w.1 17 17 = 1, addr := nbits w.2.1 21 0, len := nbits w.2.2.1 20 0 }
/-- R48: whether a record keeps its rules. -/
def flowWordsOk (w : Nat × Nat × Nat × Nat) : Bool :=
  let f := flowOfWords w
  w.1 < 2 ^ 18 && w.2.1 < 2 ^ 22 && w.2.2.1 < 2 ^ 21 && w.2.2.2 == 0 && f.addr % 64 == 0 && 1 ≤ f.len && f.len ≤ 0x100000
/-- R525: a window record. -/
def windowOfWords (w : Nat × Nat) : Window := { base := nbits w.1 21 0, size := nbits w.2 21 0, rw := nbits w.1 31 31 = 1 }
/-- R525: RBASE and RSIZE. -/
def reserveOf (k : RawCore) : Nat × Nat := (nbits k.head.2.1 21 0, nbits k.head.2.2.1 21 0)
/-- R525: a core's block. -/
def blockOf (k : RawCore) : CoreBlock :=
  { nbundle := k.nbundle, reserved := k.reserved, flows := k.flows.map flowOfWords, windows := k.wins.map windowOfWords, rbase := (reserveOf k).1, rsize := (reserveOf k).2 }

-- checks of one epoch (R56)

/-- R163, R353: whether a link's number is valid for the module that loads. -/
def linkOk (optical : List Nat) (l : Nat) : Bool := linkKind l < 6 && linkValid optical l

/-- R56: the links of an epoch for which a check of a slot table fails. -/
def badLinks (x : RawSection) (optical : List Nat) (p : Nat → List Nat → Bool) : List Nat :=
  ((x.links.filter (fun e => linkOk optical e.1)).filter (fun e => !p e.1 e.2)).map Prod.fst

/-- Check 0x03 (R41). -/
def inRange (l : Nat) (t : List Nat) : Bool := t.all (fun e => runCount e == 0 || runFirst e + runCount e ≤ classRange (linkClass l))

/-- Check 0x04 (R42, R46). -/
def runsOk (t : List Nat) : Bool :=
  t.all (fun e => 1 ≤ runCount e && runFirst e % 16 + runCount e ≤ 15 && nbits e 31 23 == 0 && nbits e 63 48 == 0)

/-- Check 0x05 (R46). -/
def ascendingRuns : List Nat → Bool
  | a :: b :: t => runFirst a < runFirst b && runFirst a + runCount a ≤ runFirst b && ascendingRuns (b :: t)
  | _ => true

/-- Check 0x06 (R164). -/
def sourcesOk (l : Nat) (t : List Nat) : Bool := t.all (fun e => slotOrigin l (nbits e 22 19) ≠ .none)

/-- Check 0x07 for the flows that one slot table names (R47, R48). -/
def flowsOk (recs : List FlowRec) (t : List Nat) : Bool :=
  let runs := t.map runOfEntry
  runs.all (fun r =>
    let mine := recs.filter (fun f => f.flow = r.flow)
    match mine.filter (fun f => !f.recv) with
    | [f] =>
      mine.any (fun g => g.recv) && mine.all (fun g => g.len == f.len && g.cond == f.cond) && r.cond == f.cond &&
      ((runs.filter (fun q => q.flow = r.flow)).map (fun q => q.count)).sum == slotCount f.len
    | _ => false)

/-- R53, R78: the buffers of a core: its declared windows and the buffers that its flow records name. -/
def buffersOf (k : RawCore) : List (Nat × Nat) :=
  k.wins.map (fun w => ((windowOfWords w).base, (windowOfWords w).size)) ++ k.flows.map (fun w => ((flowOfWords w).addr, (flowOfWords w).len))

/-- Whether no two ranges of a list meet. -/
def noneMeet : List (Nat × Nat) → Bool
  | [] => true
  | a :: t => t.all (fun b => !meet a.1 a.2 b.1 b.2) && noneMeet t

/-- Check 0x08 for one core (R53, R78, R525). RBASE is held to its range and to a multiple of 64 also where RSIZE is 0 (DESIGN CHOICE, log
entry 166). -/
def windowsOk (k : RawCore) : Bool :=
  let (rb, rs) := reserveOf k
  let l := buffersOf k
  k.wins.length ≤ 32 && k.head.1 < 64 && k.head.2.1 < 2 ^ 22 && k.head.2.2.1 < 2 ^ 22 && k.head.2.2.2 == 0 &&
  k.wins.all (fun w => nbits w.1 30 22 == 0 && w.2 < 2 ^ 22 && (windowOfWords w).base % 64 == 0 && (windowOfWords w).size % 64 == 0 &&
    0 < (windowOfWords w).size) &&
  rb % 64 == 0 && rs % 64 == 0 && rb + rs ≤ 0x300000 && l.all (fun b => b.1 + b.2 ≤ 0x300000) && noneMeet l &&
  (rs == 0 || l.all (fun b => !meet b.1 b.2 rb rs))

/-- R37: the scratchpad occupancy of a core. -/
def occupancy (k : RawCore) : Nat := ((buffersOf k).map Prod.snd).sum + (reserveOf k).2

/-- R526: the largest owned index of the links of a class, 0xFFFF where it owns none. A link with an invalid pair of fields counts here and not
in `seamCount` (DESIGN CHOICE, log entry 165). -/
def peakIndex (x : RawSection) (c : LinkClass) : Nat :=
  let l := (x.links.filter (fun e => linkKind e.1 < 6 && linkClass e.1 == c)).flatMap (fun e =>
    (e.2.filter (fun r => 0 < runCount r)).map (fun r => runFirst r + runCount r - 1))
  (l.max?).getD 0xFFFF

/-- R526: the owned slots of the seam bridge of row `y` in direction `d`. -/
def seamCount (x : RawSection) (i : Nat) : Nat :=
  let ends := fun (l : Nat) => (canonicalPos (linkBerth l), canonicalPos (linkTo l))
  let y := i / 2
  let want := if i % 2 = 0 then (12 * y + 5, 12 * y + 6) else (12 * y + 6, 12 * y + 5)
  ((x.links.filter (fun e => linkOk [] e.1 && linkKind e.1 == 3 && ends e.1 == want)).map (fun e => (e.2.map runCount).sum)).sum

/-- R526: the summary entry that the tables of an epoch give. -/
def summaryOf (x : RawSection) : List Byte :=
  [LinkClass.core, .ingest, .bridge, .seam, .optical].flatMap (fun c => leBytes (peakIndex x c) 2) ++ leBytes 0 2 ++
  leBytes (((x.cores.map (fun e => occupancy e.2)).max?).getD 0) 4 ++ leBytes (((x.cores.map (fun e => (reserveOf e.2).2)).max?).getD 0) 4 ++
  leBytes 0 12 ++ (List.range 14).flatMap (fun i => leBytes (seamCount x i) 2) ++ leBytes 0 4

-- the checks in their order (R56, R57)

/-- R57: what a refused image reports: the check, its epoch and its logical link. -/
structure LoadFault where
  code : Nat
  epoch : Nat
  link : Nat
  deriving DecidableEq, Repr, Inhabited

/-- R35, R36, R526: whether the header, the place of the directory and the certificate's layout are as they must be. -/
def headerOk (rd : Bytes) (len : Nat) : Bool :=
  let n := getLe rd 0x008 4
  let dir := getLe rd 0x010 8
  let cert := getLe rd 0x018 8
  256 ≤ len && getLe rd 0 4 == 0x49505A4E && getLe rd 4 2 == 3 && getLe rd 6 2 == 0x8412 && 1 ≤ n && n ≤ 65536 && getLe rd 0x020 4 < 2 &&
  allZero rd 0x024 (256 - 0x024) && dir % 16 == 0 && 256 ≤ dir && dir + 16 * n ≤ cert && cert % 64 == 0 && len == cert + 64 + 64 * n &&
  allZero rd (cert + 0x24) 28 &&
  (List.range n).all (fun e =>
    let a := cert + 64 + 64 * e
    allZero rd (a + 0x0A) 2 && allZero rd (a + 0x14) 12 && allZero rd (a + 0x3C) 4)

/-- Check 0x01 for the directory entry and the section of an epoch (R36, R525). -/
def entryFault (rd : Bytes) (e : Nat) : Option LoadFault :=
  let a := getLe rd 0x010 8 + 16 * e
  if getLe rd (a + 12) 4 ≠ 0 ∨ (getLe rd (a + 8) 4 ≠ 0 ∧ getLe rd 0x020 4 % 2 = 0) then some { code := 1, epoch := e, link := 0 }
  else (sectionFault rd (getLe rd 0x018 8) (getLe rd a 8)).map (fun l => { code := 1, epoch := e, link := l })

/-- The first failure of checks 0x03 to 0x08 in one epoch for one code: its link. -/
def epochFault (x : RawSection) (optical : List Nat) (code : Nat) : Option Nat :=
  let recs := x.cores.flatMap (fun e => e.2.flows)
  match code with
  | 3 => (badLinks x optical inRange).min?
  | 4 => (badLinks x optical (fun _ => runsOk)).min?
  | 5 => (badLinks x optical (fun _ => ascendingRuns)).min?
  | 6 => (badLinks x optical sourcesOk).min?
  | 7 => if recs.all flowWordsOk then (badLinks x optical (fun _ => flowsOk (recs.map flowOfWords))).min? else some 0
  | 8 => if x.cores.all (fun e => windowsOk e.2) then none else some 0
  | _ => ((x.links.map Prod.fst).filter (fun l => !linkOk optical l)).min?

/-- R56, R57: the first failing check of an image, none for one that passes. -/
def loadFault (bytes : List Byte) (optical : List Nat) (modules : Nat) : Option LoadFault :=
  let rd := bytesOf bytes
  let n := getLe rd 0x008 4
  let cert := getLe rd 0x018 8
  if !headerOk rd bytes.length then some { code := 1, epoch := 0, link := 0 }
  else match (List.range n).findSome? (entryFault rd) with
    | some f => some f
    | none =>
      if sha256 (bytes.take cert) ≠ (bytes.drop cert).take 32 then some { code := 2, epoch := 0, link := 0 }
      else
        let l := (List.range n).map (fun e => (e, readSection rd (getLe rd (getLe rd 0x010 8 + 16 * e) 8)))
        let first := fun (code : Nat) => l.findSome? (fun e => (epochFault e.2 optical code).map (fun k => LoadFault.mk code e.1 k))
        match [3, 4, 5, 6, 7, 8].findSome? first with
        | some f => some f
        | none => match l.find? (fun e => (bytes.drop (cert + 64 + 64 * e.1)).take 64 ≠ summaryOf e.2) with
          | some e => some { code := 9, epoch := e.1, link := 0 }
          | none => if getLe rd 0x00C 2 ≠ 80 ∨ getLe rd 0x00E 2 ≠ modules then some { code := 10, epoch := 0, link := 0 } else first 10

/-- The program that an image which passes the checks describes, with the capacity that the manifest gives it. -/
def programOf (bytes : List Byte) (capacity : Nat) : Program :=
  let rd := bytesOf bytes
  let dir := getLe rd 0x010 8
  { capacity := capacity, hints := getLe rd 0x020 4 % 2 = 1, modules := getLe rd 0x00E 2
    epochs := (List.range (getLe rd 0x008 4)).map (fun e =>
      let x := readSection rd (getLe rd (dir + 16 * e) 8)
      { hint := getLe rd (dir + 16 * e + 8) 4, cores := (x.cores.map (fun c => (c.1, blockOf c.2))).filter (fun c => c.2 ≠ {})
        links := x.links.map (fun t => (t.1, t.2.map runOfEntry)) }) }

/-- R353: the logical berths whose optical link is valid: their canonical port has a role, and the neighbour in that role is a logical
module of the slice. -/
def State.opticalBerths (s : State) : List Nat := match s.sliceModules, s.address with
  | some l, some a =>
    let members := ((List.range l.length).map (fun n => s.regI .zlnk 0 0x090 n)).filterMap (fun w => if bit w 31 then some (bits w 14 0) else none)
    (List.range 80).filter (fun i => portRole (canonicalPos i) ≠ 15 && members.contains (neighbourAddr a (portRole (canonicalPos i))))
  | _, _ => []

end Sys2Proof.Machine
end

