-- ==== Sys2Proof/Machine/Package.lean ====
section
/-! DEFINITION. Package manifests (R308–R311, R314, R473): their layout, their signature and the conditions under which a slot accepts one. -/

namespace Sys2Proof.Machine

-- completion codes (R321)

/-- R321: the values of a descriptor's CODE. -/
inductive DescCode where
  | ok | digestBad | badDesc | notLoading | targetLost | srcErr | dstErr | sigBad | noFit | incompatible | refusedPart
  deriving DecidableEq, Repr, Inhabited

/-- R321: a CODE as a number. -/
def codeNat : DescCode → Nat
  | .ok => 0 | .digestBad => 1 | .badDesc => 2 | .notLoading => 3 | .targetLost => 4 | .srcErr => 5 | .dstErr => 6 | .sigBad => 7
  | .noFit => 8 | .incompatible => 9 | .refusedPart => 10

-- keys (R468, R473, R484)

/-- R484: the key hash of a slot: FW_ROOT for slot 0, else what SECU_PKHASH0–7 hold. Byte i of a digest is bits 8i + 7 to 8i (log entry 43). -/
def State.keyHash (s : State) (slot : Nat) : Nat :=
  if slot = 0 then s.fuses.fwRoot.toNat
  else (List.range 8).foldl (fun a n => a + (s.regI .secu 0 (0x04C + 4 * n) slot).toNat * 2 ^ (32 * n)) 0

/-- R473: the filled slot whose key hash is that of a public key. -/
def State.keySlotFor (s : State) (pub : List Byte) : Option Nat :=
  (List.range 8).find? (fun i => s.keyHash i ≠ 0 && s.keyHash i == leNat (sha256 pub))

/-- R473: the slot under which an object with its public key and signature at `off` verifies. -/
def State.verifiedBy (s : State) (bytes : List Byte) (off : Nat) : Option Nat :=
  let pub := (bytes.drop off).take 60
  match s.keySlotFor pub with
  | none => none
  | some i => if hssVerify pub ((bytes.drop (off + 60)).take 3284) (bytes.take off) then some i else none

-- the manifest (R309, R310)

/-- R309: SIG_OFF. -/
def sigOff (rd : Bytes) : Nat := getLe rd 0x070 4

/-- R310: entry `i` of the shard table at `a`. -/
def shardAt (rd : Bytes) (bytes : List Byte) (a : Nat) : Shard :=
  { layer := getLe rd a 2, berth := getLe rd (a + 2) 1, streamed := (rd (a + 3)).getLsbD 0, module := getLe rd (a + 4) 2, place := getLe rd (a + 8) 8
    len := getLe rd (a + 16) 4, digest := (bytes.drop (a + 32)).take 32 }

/-- R309, R310: a manifest's fields and tables. -/
def readManifest (bytes : List Byte) (keySlot : Nat) : Manifest :=
  let rd := bytesOf bytes
  let nlayer := getLe rd 0x03C 2
  let nshard := getLe rd 0x044 4
  let modules := getLe rd 0x040 2
  let nprog := getLe rd 0x042 1
  { modelId := BitVec.ofNat 64 (getLe rd 0x008 8), vocabId := BitVec.ofNat 64 (getLe rd 0x010 8), kvlayout := (bytes.drop 0x018).take 32
    vocab := getLe rd 0x038 4, layers := (List.range nlayer).map (fun i => BitVec.ofNat 32 (getLe rd (getLe rd 0x060 4 + 16 * i) 4))
    kvheads := getLe rd 0x03E 1, group := getLe rd 0x03F 1, modules := modules, nprog := nprog, wbase := getLe rd 0x048 4, wlines := getLe rd 0x04C 4
    dbase := getLe rd 0x050 8, dbytes := getLe rd 0x058 8
    slices := (List.range (80 * modules)).map (fun i => (getLe rd (getLe rd 0x064 4 + 16 * i) 4, getLe rd (getLe rd 0x064 4 + 16 * i + 4) 4))
    progs := (List.range (nprog + 1)).map (fun i =>
      let a := getLe rd 0x068 4 + 64 * i
      (getLe rd a 8, getLe rd (a + 8) 2, getLe rd (a + 12) 4, (bytes.drop (a + 32)).take 32))
    shards := (List.range nshard).map (fun i => shardAt rd bytes (getLe rd 0x06C 4 + 64 * i)), digest := sha256 bytes, keySlot := keySlot }

/-- R310: whether a layer entry keeps its layout. -/
def layerOk (rd : Bytes) (a : Nat) : Bool :=
  let c := getLe rd (a + 2) 2
  getLe rd a 1 ≤ 2 && getLe rd (a + 1) 1 < 8 && allZero rd (a + 4) 12 && (if (rd (a + 1)).getLsbD 2 then 1 ≤ c && c ≤ 64 else c == 0)

/-- R310: whether a program entry keeps its layout; the copy program has CAPACITY 0. -/
def progOk (rd : Bytes) (a : Nat) (copy : Bool) : Bool :=
  let c := getLe rd (a + 8) 2
  allZero rd (a + 10) 2 && allZero rd (a + 16) 16 && (if copy then c == 0 else 16 ≤ c && c ≤ 4096)

/-- R310: whether a shard entry keeps its layout. -/
def shardOk (rd : Bytes) (nlayer modules a : Nat) : Bool :=
  let n := getLe rd (a + 16) 4
  getLe rd a 2 < nlayer && getLe rd (a + 2) 1 < 80 && getLe rd (a + 3) 1 < 2 && getLe rd (a + 4) 2 < modules && allZero rd (a + 6) 2 &&
  n % 64 == 0 && 64 ≤ n && n ≤ 0x4000000 && allZero rd (a + 20) 12

/-- R309, R310, R314: whether MAGIC, FORMAT, TARGET, the counts and the reserved bytes are as they must be, and the tables lie before the
signature. -/
def manifestLaidOut (bytes : List Byte) : Bool :=
  let rd := bytesOf bytes
  let nlayer := getLe rd 0x03C 2
  let nshard := getLe rd 0x044 4
  let modules := getLe rd 0x040 2
  let nprog := getLe rd 0x042 1
  let heads := getLe rd 0x03E 1
  let group := getLe rd 0x03F 1
  let inside := fun (off n : Nat) => 0x100 ≤ off && off + n ≤ sigOff rd
  let caps := (List.range nprog).map (fun i => getLe rd (getLe rd 0x068 4 + 64 * i + 8) 2)
  bytes.length ≤ 0x400000 && getLe rd 0 4 == 0x4D505A4E && getLe rd 4 2 == 1 && getLe rd 6 2 == 0x8412 && 1 ≤ nlayer && nlayer ≤ 255 &&
  heads % 2 == 0 && 2 ≤ heads && heads ≤ 16 && 1 ≤ group && group ≤ 8 && 1 ≤ nprog && nprog ≤ 4 && 1 ≤ nshard && nshard ≤ 65535 && 1 ≤ modules &&
  getLe rd 0x050 8 % 49152 == 0 && getLe rd 0x058 8 % 4096 == 0 && allZero rd 0x043 1 && allZero rd 0x074 (0x100 - 0x074) &&
  inside (getLe rd 0x060 4) (16 * nlayer) && inside (getLe rd 0x064 4) (16 * 80 * modules) && inside (getLe rd 0x068 4) (64 * (nprog + 1)) &&
  inside (getLe rd 0x06C 4) (64 * nshard) && (List.range nlayer).all (fun i => layerOk rd (getLe rd 0x060 4 + 16 * i)) &&
  (List.range (80 * modules)).all (fun i => allZero rd (getLe rd 0x064 4 + 16 * i + 8) 8) &&
  (List.range (nprog + 1)).all (fun i => progOk rd (getLe rd 0x068 4 + 64 * i) (i == nprog)) &&
  (List.range (nprog - 1)).all (fun i => caps.getD i 0 < caps.getD (i + 1) 0) &&
  (List.range nshard).all (fun i => shardOk rd nlayer modules (getLe rd 0x06C 4 + 64 * i))

-- acceptance (R314)

/-- R220, R314: whether the weight extent of a manifest fits: below KV_BASE in every berth but a DARK one (log entry 100), clear of the other slots'
extents, and around every resident shard and every program part (log entry 190). -/
def State.extentFits (s : State) (slot : Nat) (m : Manifest) : Bool :=
  ((List.range 84).filter (fun b => !s.dark b)).all (fun b => m.wbase + m.wlines ≤ s.kvBase b * 16384) &&
  ((List.range 8).filter (· ≠ slot)).all (fun i => match (s.image i).manifest with
    | some o => !meet m.wbase m.wlines o.wbase o.wlines
    | none => true) &&
  m.shards.all (fun x => x.streamed || (m.wbase ≤ x.place && x.place + ceilDiv x.len 128 ≤ m.wbase + m.wlines)) &&
  m.progs.all (fun p => m.wbase ≤ p.2.2.1 && p.2.2.1 + max 1 (Config.programPartLines p.1) ≤ m.wbase + m.wlines)

/-- Whether a half-ordered region lies in the device part (R211, R311). -/
def State.regionThere (s : State) (base n : Nat) : Bool := base % 49152 == 0 && s.inDevicePart base n

/-- R314, R318: whether the device region of a manifest fits, and with it the slot's backup or staging region (log entry 44). -/
def State.deviceFits (s : State) (slot : Nat) (m : Manifest) (staging : Bool) : Bool :=
  let x := s.image slot
  let others := ((List.range 8).filter (· ≠ slot)).flatMap s.slotRegions
  let device := (m.dbase, regionBytes m.dbytes)
  let n := regionBytes (max (s.sequenceLen m .west) (s.sequenceLen m .east))
  let own := if staging then [(x.stageBase, n)] else if x.bkpEn then [(x.bkpBase, n)] else []
  let mine := if staging && x.bkpEn then [(x.bkpBase, regionBytes (match x.manifest with
    | some r => max (s.sequenceLen r .west) (s.sequenceLen r .east)
    | none => 0))] else []
  (m.dbytes == 0 || (s.regionThere device.1 device.2 && clearOf device.1 device.2 others)) &&
  own.all (fun r => r.2 == 0 || (s.regionThere r.1 r.2 && clearOf r.1 r.2 (others ++ [device] ++ mine))) &&
  m.shards.all (fun y => !y.streamed || y.place + y.len ≤ m.dbytes)

/-- R314: whether a replacement is compatible with the resident image. -/
def compatible (m r : Manifest) : Bool :=
  m.kvlayout == r.kvlayout && m.vocabId == r.vocabId && m.vocab == r.vocab && m.kvheads == r.kvheads && m.group == r.group &&
  m.modules == r.modules && m.wbase == r.wbase && m.wlines ≤ r.wlines && m.dbase == r.dbase && m.dbytes == r.dbytes

/-- R314: the verdict on a manifest for a slot in LOADING or, with `staging`, STAGING. -/
def State.acceptManifest (s : State) (slot : Nat) (staging : Bool) (bytes : List Byte) : DescCode × Option Manifest :=
  match s.verifiedBy bytes (sigOff (bytesOf bytes)) with
  | none => (.sigBad, none)
  | some key =>
    if !manifestLaidOut bytes then (.badDesc, none)
    else
      let m := readManifest bytes key
      if !s.extentFits slot m || !s.deviceFits slot m staging then (.noFit, none)
      else match staging, (s.image slot).manifest with
        | true, some r => if compatible m r then (.ok, some m) else (.incompatible, none)
        | _, _ => (.ok, some m)

end Sys2Proof.Machine
end

