-- ==== Sys2Proof/Machine/PortOps.lean ====
section
/-! DEFINITION. Operations on host ports and their rings (R211, R374, R377–R383, R394, R395) that several commands share. -/

namespace Sys2Proof.Machine

/-- R211, R374: where the host part of a port's own instance begins. -/
def State.partBase (s : State) : HostPort → Nat
  | .a => 0
  | .b => s.split

/-- R211: the bytes of the host part of a port's own instance. -/
def State.partSize (s : State) : HostPort → Nat
  | .a => s.split
  | .b => s.hostLimit - s.split

/-- R377: the part that a port presents, none while its range is empty: it was taken over, or took a part over and has not been reset since. -/
def State.presented (s : State) (p : HostPort) : Option HostPort :=
  let x := s.port p
  if x.takenFrom then none
  else if x.taken then (if x.rangeMoved then some (otherPort p) else none)
  else some p

/-- R374, R377: the bytes of the range that a port presents. -/
def State.rangeSize (s : State) (p : HostPort) : Nat := match s.presented p with
  | none => 0
  | some q => s.partSize q

/-- R378: the port through which the messages of an instance go out. -/
def State.msiPort (s : State) (p : HostPort) : Nat := if (s.port p).takenFrom then portIx (otherPort p) else portIx p

/-- R394: LOG2N of a ring configuration as treated. -/
def ringLog2 (w : Word) : Nat := let n := bits w 20 16; if 4 ≤ n ∧ n ≤ 16 then n else 16

/-- R379, R380: the DPA of the record at index `i` of a ring. -/
def State.ringDpa (s : State) (p : HostPort) (k : RingKind) (i : Nat) : Nat := match k with
  | .request => s.partBase p + (s.reg .cxlp (portIx p) 0x048).toNat * 4096 + 64 * i
  | .output => s.partBase p + (s.reg .cxlp (portIx p) 0x050).toNat * 4096 + 32 * i

/-- R392: a ring access failed; EN is cleared. -/
def State.ringFailed (s : State) (p : HostPort) (k : RingKind) : State :=
  let off := match k with | .request => 0x04C | .output => 0x054
  (s.setReg .cxlp (portIx p) off (putBits (s.reg .cxlp (portIx p) off) 31 31 0)).raise .cxlp (portIx p) 2

/-- R376, R395: a refused read is recorded. -/
def State.logRefused (s : State) (p : HostPort) (dpa : Nat) : State :=
  let i := portIx p
  let s := if bit (s.reg .cxlp i 0x064) 31 then s
    else (s.setReg .cxlp i 0x060 (BitVec.ofNat 32 dpa)).setReg .cxlp i 0x064 (flag true 31 ||| field (dpa / 2 ^ 32 % 256) 0)
  s.raise .cxlp i 1

/-- R394: an index goes on to the next record. -/
def ringAdvance (w : Word) (i : Nat) : Nat := (i + 1) % 2 ^ ringLog2 w

end Sys2Proof.Machine
end

