-- ==== Sys2Proof/Machine/Lighter.lean ====
section
/-! DEFINITION. The Lighter (R315–R325): descriptors, bursts, manifests, shards, programs and their completion. -/

namespace Sys2Proof.Machine

-- channels (R315, R334)

/-- The number of a channel. -/
def chanIx (p : HostPort) (ch : Channel) : Nat := portIx p * 16 + ch.val

/-- R334: a channel's copy of a register. -/
def State.chReg (s : State) (p : HostPort) (ch : Channel) (off : Nat) : Word := s.regI .ltr (portIx p) off ch.val

/-- R334: SHORT. -/
def chShort (w : Word) : Bool := bit w 29

/-- R334: LOG2N as treated. -/
def chLog2 (w : Word) : Nat := let n := bits w 15 12; if 2 ≤ n ∧ n ≤ 12 then n else 12

/-- R315: the address of the descriptor that a channel reads next. -/
def State.descAddr (s : State) (p : HostPort) (ch : Channel) : Nat :=
  (s.chReg p ch 0x044).toNat + 2 ^ 32 * (s.chReg p ch 0x048).toNat +
    (if chShort (s.chReg p ch 0x04C) then 32 else 64) * (s.chan (chanIx p ch)).next

/-- R315, R319: the words of the next descriptor: what host memory returned, or what the device part holds; none when the read failed. -/
def State.readDesc (s : State) (p : HostPort) (ch : Channel) (host : Option (List Word)) : Option (List Word) :=
  let w := s.chReg p ch 0x04C
  let n := if chShort w then 8 else 16
  if bit w 30 then
    let a := s.descAddr p ch
    if s.inDevicePart a (4 * n) && !s.dpaRetired a (4 * n) then some ((List.range n).map (fun i => Memory.word s.hbm (a + 4 * i))) else none
  else host.map (fun l => (List.range n).map (fun i => l.getD i 0))

-- descriptors (R316, R317)

/-- Word `i` of a descriptor. -/
def dword (j : Job) (i : Nat) : Word := j.words.getD i 0
/-- R316: IMAGE. -/
def descImage (j : Job) : Nat := bits (dword j 0) 10 8
/-- R316: SRC. -/
def descSrc (j : Job) : Nat := (dword j 2).toNat + 2 ^ 32 * (dword j 3).toNat
/-- R316: DST. -/
def descDst (j : Job) : Nat := (dword j 4).toNat + 2 ^ 32 * (dword j 5).toNat
/-- R316: INDEX. -/
def descIndex (j : Job) : Nat := bits (dword j 6) 15 0
/-- R316: PATH: whether a shard goes by its serving pager. -/
def descByPager (j : Job) : Bool := bit (dword j 6) 16

/-- R316, R317: whether a descriptor keeps its layout, and is no short one of KIND 3–6. -/
def descOk (j : Job) : Bool :=
  1 ≤ j.kind && j.kind ≤ 6 && (j.kind ≤ 2 || !j.short) && bits (dword j 0) 7 5 == 0 && bits (dword j 0) 30 11 == 0 && bits (dword j 1) 31 27 == 0 &&
  j.len % 64 == 0 && 64 ≤ j.len && j.len ≤ 0x4000000 && bits (dword j 6) 31 17 == 0 && (j.kind == 5 || descSrc j % 64 == 0) &&
  (if j.kind ≤ 2 then descDst j % 64 == 0 else descDst j == 0)

/-- R316: a descriptor as a channel takes it. -/
def jobOf (short : Bool) (words : List Word) : Job :=
  let j : Job := { words := words, short := short, kind := bits (words.getD 0 0) 3 0, started := false, moved := 0, len := bits (words.getD 1 0) 26 0
                   code := 0, sum := [], data := [], finished := false }
  if descOk j then j else { j with started := true, finished := true, code := codeNat .badDesc }

/-- R212, R319, R320, R323: DESCRIPTOR_POLL. -/
def execDescriptorPoll (p : HostPort) (ch : Channel) (host : Option (List Word)) (s : State) : Res :=
  .next (let x := s.chan (chanIx p ch)
    let w := s.chReg p ch 0x04C
    if !bit w 31 || x.stopped || x.job.isSome then s
    else match s.readDesc p ch host with
      | none =>
        let a := s.descAddr p ch
        let s := if bit w 30 && decide (a < s.hostLimit) then s.raise .hbmc (dpaStack a) 2 else s
        (s.setChan (chanIx p ch) { x with stopped := true }).raise .ltr (portIx p) 1
      | some l =>
      if bit (l.getD 0 0) 31 then
        s.setChan (chanIx p ch) { x with job := some { jobOf (chShort w) l with addr := s.descAddr p ch, inTier := bit w 30 } }
      else s)

/-- Writes a channel's job. -/
def State.setJob (s : State) (p : HostPort) (ch : Channel) (j : Job) : State :=
  s.setChan (chanIx p ch) { s.chan (chanIx p ch) with job := some j }

/-- A job that is over with a code. -/
def overWith (j : Job) (c : DescCode) : Job := { j with started := true, finished := true, code := codeNat c }

/-- Starts a descriptor of a kind that the channel has read. -/
def State.onJob (s : State) (p : HostPort) (ch : Channel) (kind : Nat) (f : Job → State) : State := match (s.chan (chanIx p ch)).job with
  | some j => if j.kind = kind ∧ j.started = false then f j else s
  | none => s

-- the Lighter buffers of the KV pagers (R317)

/-- R317: whether the pager of a DPA's stack has a Lighter buffer free. -/
def State.lighterFree (s : State) (dpa : Nat) : Bool := (s.stack (dpaStack dpa)).lighter.length < 8

/-- R317: a burst takes a Lighter buffer of the pager of a DPA's stack. -/
def State.toBuffer (s : State) (dpa : Nat) (x : LighterBuf) : State :=
  let k := s.stack (dpaStack dpa)
  s.setStack (dpaStack dpa) { k with lighter := k.lighter ++ [x] }

/-- R317: the bytes of a Lighter buffer reach their destination. -/
def State.writeBuffer (s : State) (x : LighterBuf) : State := match x with
  | .toTier a data => { s with hbm := Memory.write s.hbm a data }
  | .toHost a data => { s with hostMem := Memory.write s.hostMem a data }

/-- R317: the oldest Lighter buffer of a pager is written and free again. -/
def State.drainBuffer (s : State) (k : Nat) : State := match (s.stack k).lighter with
  | [] => s
  | x :: t => (s.setStack k { s.stack k with lighter := t }).writeBuffer x

/-- R317: one PCLK of the pagers' Lighter buffers. -/
def State.drainBuffers (s : State) : State := (s.tier.map Prod.fst).foldl State.drainBuffer s

/-- R321: a read-back makes every write visible that still stands in a Lighter buffer. -/
def State.flushBuffers (s : State) : State :=
  (s.tier.map Prod.fst).foldl (fun s k => (s.stack k).lighter.foldl State.writeBuffer (s.setStack k { s.stack k with lighter := [] })) s

-- copies (R317, R318)

/-- R211, R318: the code with which a copy whose device range is `n` bytes from a DPA ends at once, none where it may run. -/
def State.copyRefused (s : State) (a n : Nat) : Option DescCode :=
  if a < s.hostLimit then some .refusedPart else if tierBytes < a + n then some .badDesc else none

/-- R212, R318: a copy starts, or is refused; a request for a host part sets HOSTPART. -/
def State.startCopy (s : State) (p : HostPort) (ch : Channel) (j : Job) (a : Nat) : State :=
  (s.copyRefused a j.len).elim (s.setJob p ch { j with started := true })
    (fun c => (if c = .refusedPart then s.raise .hbmc (dpaStack a) 2 else s).setJob p ch (overWith j c))

/-- R317, R318: COPY_IN. -/
def execCopyIn (p : HostPort) (ch : Channel) (s : State) : Res := .next (s.onJob p ch 1 (fun j => s.startCopy p ch j (descDst j)))

/-- R317, R318: COPY_OUT. -/
def execCopyOut (p : HostPort) (ch : Channel) (s : State) : Res := .next (s.onJob p ch 2 (fun j => s.startCopy p ch j (descSrc j)))

-- shards (R323–R325, R327, R328)

/-- R313, R323, R327: where a shard that a descriptor names goes, or the code that refuses it. A slot in service takes a resident shard that has
become absent (log entry 46). -/
def State.shardPlace (s : State) (j : Job) : Sum DescCode ShardPlace :=
  let x := s.image (descImage j)
  let staging := x.st == .staging
  let m := if staging then x.stagedManifest else x.manifest
  let reload := (x.st == .ready || x.st == .staged) && !x.present.contains (descIndex j)
  if !(x.st == .loading || staging || reload) || x.unloadAsked || x.abandonAsked then .inl .notLoading
  else match m with
    | none => .inl .badDesc
    | some m => match s.shard? m (descIndex j) with
      | none => .inl .badDesc
      | some y =>
        if y.len ≠ j.len then .inl .badDesc
        else if !staging && !y.streamed && (s.physOf y.berth).isNone then .inl .targetLost
        else .inr { slot := descImage j, staging := staging, index := descIndex j, shard := y }

/-- R323: whether another channel has a descriptor of the same slot and shard in progress. -/
def State.shardBusy (s : State) (me : Nat) (j : Job) : Bool :=
  (List.range 32).any (fun c => c != me && (match (s.chan c).job with
    | some k => k.started && (k.kind == 4 || k.kind == 5) && descImage k == descImage j && descIndex k == descIndex j
    | none => false))

/-- R324: SHARD. -/
def execShard (p : HostPort) (ch : Channel) (s : State) : Res :=
  .next (s.onJob p ch 4 (fun j =>
    if s.shardBusy (chanIx p ch) j then s
    else match s.shardPlace j with
      | .inl c => s.setJob p ch (overWith j c)
      | .inr d => s.setJob p ch { j with started := true, place := some d }))

/-- R317, R328, R329: where in the slower tier the byte at offset `off` of a shard goes: the staging region, or the device region and the backup
region. -/
def State.shardDpas (s : State) (d : ShardPlace) (off : Nat) : List Nat :=
  let x := s.image d.slot
  let h := logicalHalf d.shard.berth
  match d.staging, x.stagedManifest, x.manifest with
  | true, some m, _ => [halfOrderedDpa x.stageBase h (s.sequenceOff m d.index + off)]
  | false, _, some m =>
    (if d.shard.streamed then [halfOrderedDpa m.dbase h (d.shard.place + off)] else []) ++
    (if x.bkpEn then [halfOrderedDpa x.bkpBase h (s.sequenceOff m d.index + off)] else [])
  | _, _, _ => []

/-- R317: whether a shard goes to a store die. -/
def ShardPlace.inStore (d : ShardPlace) : Bool := !d.staging && !d.shard.streamed

/-- R317, R324, R328, R329: a burst of a shard from offset `off` goes on its way to its places: through pagers' Lighter buffers, and into a store
die through the berth's refill buffer or (`refill` false) its serving pager. -/
def State.placeShard (s : State) (d : ShardPlace) (off : Nat) (refill : Bool) (data : List Byte) : State :=
  let at_ := d.shard.place * 128 + off
  let s := if !d.inStore then s else match s.physOf d.shard.berth with
    | none => s
    | some b =>
      if refill then s.setBerth b { s.berth b with refill := (s.berth b).refill ++ [(at_, data)] } else s.pagerWrite b at_ data
  (s.shardDpas d off).foldl (fun s a => s.toBuffer a (.toTier a data)) s

/-- R324: the places of a shard hold unspecified bytes. -/
def State.spoilShard (s : State) (d : ShardPlace) : State :=
  let n := d.shard.len
  let junk := (List.range n).map (Config.unspecifiedByte s.draws)
  let s := if d.inStore then s.drawn.lbWrite d.shard.berth (d.shard.place * 128) junk else s.drawn
  ((List.range n).zip junk).foldl (fun s e => (s.shardDpas d e.1).foldl (fun s a => { s with hbm := Memory.setByte s.hbm a e.2 }) s) s

/-- R216: whether `n` bytes of a burst of a shard from `off` would touch a retired page. -/
def State.shardRetired (s : State) (d : ShardPlace) (off n : Nat) : Bool := (s.shardDpas d off).any (fun a => s.dpaRetired a n)

/-- R199, R317, R323: whether bytes for a shard have to wait: its berth is gated, or no refill buffer or Lighter buffer is free. -/
def State.shardWaits (s : State) (d : ShardPlace) (off : Nat) (refill : Bool) : Bool :=
  (d.inStore && (match s.physOf d.shard.berth with
    | none => false
    | some b => (s.berth b).gated || (refill && 4 ≤ (s.berth b).refill.length))) ||
  (s.shardDpas d off).any (fun a => !s.lighterFree a)

/-- R317: the bytes of the next burst of a shard: none spans a 4 KiB page of any of its places. -/
def shardBurst (d : ShardPlace) (j : Job) : Nat :=
  min (min (4096 - j.moved % 4096) (if !d.staging && d.shard.streamed then 4096 - (d.shard.place + j.moved) % 4096 else 4096)) (j.len - j.moved)

/-- R324: a shard of which bytes are being written anew is not present. -/
def State.unmark (s : State) (d : ShardPlace) : State :=
  let x := s.image d.slot
  if d.staging then s.setImage d.slot { x with stagedPresent := x.stagedPresent.filter (· ≠ d.index) }
  else s.setImage d.slot { x with present := x.present.filter (· ≠ d.index) }

/-- R317, R320, R323: the next bytes of a shard, where its source returned any: `err` is the code when it did not, `refill` says that a store die
is reached through the refill buffer. -/
def State.takeBurst (s : State) (p : HostPort) (ch : Channel) (j : Job) (d : ShardPlace) (refill : Bool) (source : Option (List Byte)) (err : DescCode) :
    State :=
  let n := shardBurst d j
  if d.inStore ∧ s.physOf d.shard.berth = none then s.setJob p ch (overWith j .targetLost)
  else if s.shardWaits d j.moved refill then s
  else match source with
    | none => s.setJob p ch (overWith j err)
    | some l =>
      if l.length < n then s.setJob p ch (overWith j err)
      else if s.shardRetired d j.moved n then s.setJob p ch (overWith j .dstErr)
      else ((s.placeShard d j.moved refill (l.take n)).unmark d).setJob p ch
        { j with started := true, place := some d, moved := j.moved + n, data := j.data ++ l.take n, finished := decide (j.len ≤ j.moved + n) }

/-- R317: the next burst of a shard from host memory. -/
def State.burstShard (s : State) (p : HostPort) (ch : Channel) (j : Job) (host : Option (List Byte)) : State := match j.place with
  | none => s
  | some d => s.takeBurst p ch j d (!descByPager j) host .srcErr

/-- R317: the next burst of a COPY_IN. -/
def State.burstIn (s : State) (p : HostPort) (ch : Channel) (j : Job) (host : Option (List Byte)) : State :=
  let a := descDst j + j.moved
  let n := min (4096 - a % 4096) (j.len - j.moved)
  if !s.lighterFree a then s
  else match host with
  | none => s.setJob p ch (overWith j .srcErr)
  | some l =>
    if l.length < n then s.setJob p ch (overWith j .srcErr)
    else if s.dpaRetired a n then s.setJob p ch (overWith j .dstErr)
    else (s.toBuffer a (.toTier a (l.take n))).setJob p ch { j with moved := j.moved + n, finished := decide (j.len ≤ j.moved + n) }

/-- R215, R317: the next burst of a COPY_OUT. A page that is retired, or a unit that cannot be read, ends it (log entry 191). -/
def State.burstOut (s : State) (p : HostPort) (ch : Channel) (j : Job) (e : EccOutcome) (unit : Nat) : State :=
  let a := descSrc j + j.moved
  let n := min (4096 - a % 4096) (j.len - j.moved)
  let u := a + unit % n / 64 * 64
  if !s.lighterFree a then s
  else if s.dpaRetired a n then s.setJob p ch (overWith j .dstErr)
  else if e = .uncorrectable then ((s.tierLost (dpaStack u) (dpaOffset u)).raise .hbmc (dpaStack u) 1).setJob p ch (overWith j .dstErr)
  else
    ((if e = .corrected then s.correctUnit (dpaStack u) else s).toBuffer a (.toHost (hostKey p (descDst j + j.moved)) (Memory.read s.hbm a n))).setJob p
      ch { j with moved := j.moved + n, finished := decide (j.len ≤ j.moved + n) }

/-- R317: LIGHTER_BURST. -/
def execLighterBurst (p : HostPort) (ch : Channel) (host : Option (List Byte)) (e : EccOutcome) (unit : Nat) (s : State) : Res :=
  .next (match (s.chan (chanIx p ch)).job with
    | none => s
    | some j =>
      if !j.started || j.finished then s
      else match j.kind with
        | 1 => s.burstIn p ch j host
        | 2 => s.burstOut p ch j e unit
        | 4 => s.burstShard p ch j host
        | _ => s)

/-- R325: what this module serves as a peer: the bytes of a shard that is present in a slot in service whose manifest has a given digest. -/
def State.servePeer (s : State) (digest : List Byte) (index : Nat) : Option (List Byte) :=
  (List.range 8).findSome? (fun i =>
    let x := s.image i
    match x.manifest with
    | none => none
    | some m =>
      if m.digest ≠ digest ∨ !(x.st == .ready || x.st == .staging || x.st == .staged) ∨ x.mixed = true ∨ !x.present.contains index then none
      else (s.shard? m index).map (s.shardBytes m))

/-- R325: what a descriptor's peer serves from offset `off` on: another module what `reply` says, this module what it holds itself. -/
def State.peerServes (s : State) (j : Job) (d : ShardPlace) (reply : Option (List Byte)) : Option (List Byte) :=
  let x := s.image d.slot
  if bits (dword j 2) 15 0 ≠ s.moduleIndex then reply
  else match (if d.staging then x.stagedManifest else x.manifest) with
    | none => none
    | some m => (s.servePeer m.digest d.index).map (fun l => l.drop j.moved)

/-- R317, R323, R325, R353: the bytes of one pull credit of a PEER_SHARD, over the optical port of the shard's logical berth. -/
def State.pullShard (s : State) (p : HostPort) (ch : Channel) (j : Job) (d : ShardPlace) (reply : Option (List Byte)) : State :=
  let up := (opticalPort s (opticalLink d.shard.berth true)).isSome
  s.takeBurst p ch j d false (if up then s.peerServes j d reply else none) .targetLost

/-- R317, R325: PEER_SHARD starts, and takes what each pull credit brings. -/
def execPeerShard (p : HostPort) (ch : Channel) (reply : Option (List Byte)) (s : State) : Res :=
  .next (match (s.chan (chanIx p ch)).job with
    | none => s
    | some j =>
      if j.kind ≠ 5 ∨ j.finished = true then s
      else match j.place with
        | some d => s.pullShard p ch j d reply
        | none =>
          if s.shardBusy (chanIx p ch) j then s
          else match s.shardPlace j with
            | .inl c => s.setJob p ch (overWith j c)
            | .inr d => s.pullShard p ch j d reply)

-- manifests and programs (R56, R57, R314, R324)

/-- R314, R459: MANIFEST. -/
def execManifest (p : HostPort) (ch : Channel) (bytes : List Byte) (s : State) : Res :=
  .next (s.onJob p ch 3 (fun j =>
    let slot := descImage j
    let x := s.image slot
    let staging := x.st == .staging
    if !(x.st == .loading || staging) || x.unloadAsked || x.abandonAsked then s.setJob p ch (overWith j .notLoading)
    else if s.dark 72 then s.setJob p ch (overWith j .targetLost)
    else if bytes.length < j.len then s.setJob p ch (overWith j .srcErr)
    else if (if staging then x.stagedManifest else x.manifest).isSome then s.setJob p ch (overWith j .badDesc)
    else
      let (c, m) := s.acceptManifest slot staging (bytes.take j.len)
      let s := if c = .sigBad then s.raise .secu 0 1 else s
      let s := match m with
        | none => s
        | some m => s.setImage slot (if staging then { x with stagedManifest := some m } else { x with manifest := some m })
      s.setJob p ch { overWith j c with moved := j.len }))

/-- R57, R250: the last refused image is reported. -/
def State.reportLoad (s : State) (slot prog : Nat) (f : LoadFault) : State :=
  (s.setReg .schd 0 0x040 (flag true 31 ||| field slot 28 ||| field (prog % 4) 26 ||| field f.code 16 ||| field (f.epoch % 65536) 0)).setReg .schd 0
    0x044 (BitVec.ofNat 32 f.link)

/-- R56, R57, R324, R327: PROGRAM. A slot in service takes a program whose part a re-hash found wrong (log entry 192). -/
def execProgram (p : HostPort) (ch : Channel) (bytes : List Byte) (s : State) : Res :=
  .next (s.onJob p ch 6 (fun j =>
    let slot := descImage j
    let x := s.image slot
    let staging := x.st == .staging
    let reload := (x.st == .ready || x.st == .staged) && x.progLost.contains (descIndex j)
    if !(x.st == .loading || staging || reload) || x.unloadAsked || x.abandonAsked then s.setJob p ch (overWith j .notLoading)
    else match (if staging then x.stagedManifest else x.manifest) with
      | none => s.setJob p ch (overWith j .badDesc)
      | some m => match m.progs[descIndex j]? with
        | none => s.setJob p ch (overWith j .badDesc)
        | some (len, capacity, _, digest) =>
          let data := bytes.take j.len
          if len ≠ j.len then s.setJob p ch (overWith j .badDesc)
          else if bytes.length < j.len then s.setJob p ch (overWith j .srcErr)
          else if sha256 data ≠ digest then s.setJob p ch (overWith j .digestBad)
          else if !s.flt.exec then s.drawn.setJob p ch { overWith j .ok with code := 1 + Config.refusedProgramCode s.draws % 10 }
          else match loadFault data s.opticalBerths s.moduleCount with
            | some f =>
              let j := { overWith j .ok with code := 1 + Config.refusedProgramCode s.draws % 10 }
              ((s.drawn.reportLoad slot (descIndex j) f).setJob p ch j)
            | none =>
              let g := programOf data capacity
              let s := s.setImage slot (if staging then { x with stagedProgs := Sparse.insert x.stagedProgs (descIndex j) g }
                else { x with progs := Sparse.insert x.progs (descIndex j) g, progLost := x.progLost.filter (· ≠ descIndex j) })
              (if reload then s.liftRepaired slot else s).setJob p ch { overWith j .ok with moved := j.len }))

-- completion (R321–R324)

/-- R324, R327: a shard has arrived whole: it is present, or its destination holds unspecified bytes. -/
def State.shardArrived (s : State) (j : Job) : State × Nat := match j.place with
  | none => (s, codeNat .notLoading)
  | some d =>
    let x := s.image d.slot
    if sha256 j.data = d.shard.digest then
      if d.staging then (s.setImage d.slot { x with stagedPresent := x.stagedPresent.filter (· ≠ d.index) ++ [d.index] }, 0)
      else ((s.setImage d.slot { x with present := x.present.filter (· ≠ d.index) ++ [d.index] }).liftRepaired d.slot, 0)
    else (((s.spoilShard d).unmark d).raise .ltr 0 2, codeNat .digestBad)

/-- R321: whether a descriptor's last writes are still on their way through a refill buffer. -/
def State.jobDraining (s : State) (j : Job) : Bool :=
  j.kind == 4 && !descByPager j && (match j.place with
    | some d => d.inStore && (match s.physOf d.shard.berth with
        | some b => !(s.berth b).refill.isEmpty
        | none => false)
    | none => false)

/-- R323: a shard on its way to a store die is lost with its berth. -/
def State.cutJobs (s : State) (lb : Nat) : State :=
  (List.range 32).foldl (fun s c =>
    let x := s.chan c
    match x.job with
    | none => s
    | some j => match j.place with
      | none => s
      | some d => if d.inStore && d.shard.berth == lb then s.setChan c { x with job := some (overWith j .targetLost) } else s) s

/-- R316, R320, R321: the words that the Lighter writes where it read the descriptor: SUM, then word 7, then word 0 with OWN = 0. -/
def State.writeBack (s : State) (p : HostPort) (j : Job) : State :=
  let w0 := leBytes (putBits (dword j 0) 31 31 0).toNat 4
  let put := fun (s : State) (i : Nat) (data : List Byte) =>
    let a := j.addr + 4 * i
    if j.inTier then (if s.dpaRetired a data.length then s else { s with hbm := Memory.write s.hbm a data })
    else { s with hostMem := Memory.write s.hostMem (hostKey p a) data }
  let s := if j.kind = 4 ∨ j.kind = 5 then (if j.short then s else put s 8 j.sum) else s
  put (put s 7 (leBytes j.code 4)) 0 w0

/-- R313, R323: a slot that is to be emptied, or to drop its replacement, does so once no descriptor of it is active. -/
def State.slotIdle (s : State) (slot : Nat) : Bool :=
  !(List.range 32).any (fun c => match (s.chan c).job with
    | some j => 3 ≤ j.kind && j.kind ≤ 6 && descImage j == slot
    | none => false)

/-- R313: a slot drops its replacement; a slot that had failed is FAILED again. -/
def State.abandonNow (s : State) (slot : Nat) : State :=
  let x := s.image slot
  s.setImage slot { x with st := if x.mixed then .failed else .ready, stagedManifest := none, stagedProgs := [], stagedPresent := [], stageBase := 0
                           abandonAsked := false, swapAsked := false }

/-- R323: UNLOAD and ABANDON that wait for active descriptors take effect. -/
def State.settleSlot (s : State) (slot : Nat) : State :=
  let x := s.image slot
  if !s.slotIdle slot then s
  else if x.unloadAsked then s.setImage slot { result := x.result }
  else if x.abandonAsked then s.abandonNow slot
  else s

/-- R321, R322: DESCRIPTOR_COMPLETE. A short descriptor does not wait for what still stands in a Lighter buffer. -/
def execDescriptorComplete (p : HostPort) (ch : Channel) (readBackBad : Bool) (s : State) : Res :=
  .next (match (s.chan (chanIx p ch)).job with
    | none => s
    | some j =>
      if !j.finished || s.jobDraining j then s
      else
        let s := if j.short then s else s.flushBuffers
        let (s, code) := if (j.kind = 4 ∨ j.kind = 5) ∧ j.code = 0 then s.shardArrived j else (s, j.code)
        let code := if code = 0 ∧ readBackBad = true ∧ j.short = false ∧ (j.kind ≤ 2 ∨ j.kind = 4 ∨ j.kind = 5) then codeNat .dstErr else code
        let j := { j with code := code, sum := sha256 j.data }
        let x := s.chan (chanIx p ch)
        let w := s.chReg p ch 0x04C
        let completed := s.chReg p ch 0x054
        let s := s.writeBack p j
        let s := s.setChan (chanIx p ch) { x with job := none, next := if j.renewed then x.next else (x.next + 1) % 2 ^ chLog2 w }
        let s := s.setRegI .ltr (portIx p) 0x054 ch.val (completed + 1)
        let s := if code = 0 then s else s.raise .ltr (portIx p) 0
        let s := if bit (dword j 0) 4 then s.msi (portIx p) (bits w 10 0) else s
        s.settleSlot (descImage j))

/-- R334: CHANNEL_ENABLE: a write of LTR_CHCFG for the channel that LTR_CHSEL selects. -/
def State.writeChcfg (s : State) (p : HostPort) (v : Word) : State :=
  let ch := bits (s.reg .ltr (portIx p) 0x040) 3 0
  let old := s.regI .ltr (portIx p) 0x04C ch
  let k := portIx p * 16 + ch
  let x := s.chan k
  let s := s.setRegI .ltr (portIx p) 0x04C ch (v &&& 0xE0FFF7FF#32)
  if bit v 31 && !bit old 31 then s.setChan k { x with next := 0, stopped := false, job := x.job.map (fun j => { j with renewed := true }) } else s

/-- R334: the command. -/
def execChannelEnable (p : HostPort) (v : Word) (s : State) : Res :=
  .next (if s.pageWrites .ltr (portIx p) then s.writeChcfg p v else s)

end Sys2Proof.Machine
end

