-- ==== Sys2Proof/Machine/Requests.lean ====
section
/-! DEFINITION. Stream requests and output records (R232–R243, R281, R299, R380–R383, R527, R528). -/

namespace Sys2Proof.Machine

-- records (R235)

/-- Word `i` of a request record. -/
def reqWord (r : RequestRec) (i : Nat) : Word := r.getD i 0
/-- R235: OP. -/
def reqOp (r : RequestRec) : Nat := bits (reqWord r 0) 3 0
/-- R235: STREAM. -/
def reqStream (r : RequestRec) : Nat := bits (reqWord r 0) 15 8
/-- R235: COUNT of an APPEND. -/
def reqCount (r : RequestRec) : Nat := bits (reqWord r 1) 6 0
/-- R235: LIST of an APPEND. -/
def reqList (r : RequestRec) : Bool := bit (reqWord r 1) 7
/-- R235: SETGEN of an APPEND. -/
def reqSetGen (r : RequestRec) : Bool := bit (reqWord r 1) 8
/-- R235: GEN of an APPEND. -/
def reqGen (r : RequestRec) : Nat := bits (reqWord r 1) 31 16
/-- R235: LENGTH. -/
def reqLength (r : RequestRec) : Nat := bits (reqWord r 1) 23 0
/-- R235: LIST_DPA. -/
def reqListAt (r : RequestRec) : Nat := (reqWord r 2).toNat + 2 ^ 32 * (reqWord r 3).toNat

/-- R235: whether a record keeps the rules of its layout. -/
def reqWellFormed (r : RequestRec) : Bool :=
  let w1 := reqWord r 1
  let w2 := reqWord r 2
  let w3 := reqWord r 3
  bits (reqWord r 0) 7 4 == 0 && bits (reqWord r 0) 30 16 == 0 &&
  match reqOp r with
  | 1 => bits w1 31 3 == 0 && w2 == 0 && w3 == 0
  | 2 => bits w1 15 9 == 0 && reqCount r ≤ 64 && (if reqList r then reqListAt r % 64 == 0 else reqCount r ≤ 12 && w2 == 0 && w3 == 0)
  | 3 => bits w1 31 24 == 0 && w2 == 0 && w3 == 0
  | 4 => w1 == 0 && w2 == 0 && w3 == 0
  | 5 => bits w1 31 24 == 0 && bits w2 31 16 == 0 && w3 == 0
  | 6 => w1 == 0 && w2 == 0 && w3 == 0
  | 7 => bits w1 31 24 == 0 && bits w2 31 24 == 0 && w3 == 0
  | _ => false

/-- R236, R243: whether a record must wait: its stream stands in a chosen step, or it would truncate or close the source of a shipment. -/
def State.reqWaits (s : State) (r : RequestRec) : Bool :=
  s.inNext (reqStream r) || ((reqOp r == 3 || reqOp r == 4) && (s.stream (reqStream r)).shipOut.isSome)

/-- R236: the first record that may be applied, with the others; no record overtakes one of its own stream. -/
def State.pickRequest (s : State) : List Nat → List RequestRec → Option (RequestRec × List RequestRec)
  | _, [] => none
  | blocked, r :: t =>
    if blocked.contains (reqStream r) || s.reqWaits r then
      (s.pickRequest (blocked ++ [reqStream r]) t).map (fun x => (x.1, r :: x.2))
    else some (r, t)

/-- R235, R238: BAD_REQ, on the instance that carried the record. -/
def State.badReq (s : State) (p : HostPort) (r : RequestRec) : State := s.status (portIx p) (reqStream r) 0x10 0

/-- R236: at a step boundary, the first record that may be applied is taken when it asks for operation `op`. -/
def State.onRequest (s : State) (p : HostPort) (op : Nat) (f : State → RequestRec → State) : State :=
  if s.seq.cur.isSome then s
  else match s.pickRequest [] (s.port p).requests with
    | none => s
    | some (r, rest) => if reqOp r = op then f (s.setPort p { s.port p with requests := rest }) r else s

/-- R299, R527: a record for a stream that its own instance carried, and that is not the draft stream of a link; any other is refused. -/
def State.onOwnStream (s : State) (p : HostPort) (r : RequestRec) (valid : Stream → Bool) (f : State → State) : State :=
  let x := s.stream (reqStream r)
  if x.state != .free && x.port == portIx p && ((s.targetOf (reqStream r)).isNone || reqOp r == 4) && valid x then f s
  else s.badReq p r

-- requests (R236)

/-- R285, R305: OPEN sets a stream's configuration to its reset values. -/
def State.resetConfig (s : State) (i : Nat) : State :=
  let put := fun (s : State) (b : Blk) (o : Nat) => s.setRegI b 0 o i (regReset (regKeyI b 0 o i))
  put (put (put (put (put (put (put s .smpl 0x044) .smpl 0x048) .smpl 0x04C) .smpl 0x050) .kvpg 0x064) .kvpg 0x068) .kvpg 0x06C

/-- R236: OPEN, of a FREE stream on an image that is served. -/
def execOpenStream (p : HostPort) (s : State) : Res :=
  .next (s.onRequest p 1 (fun s r =>
    let i := reqStream r
    let img := bits (reqWord r 1) 2 0
    if (s.stream i).state = StreamState.free && s.serves img then
      (s.resetConfig i).setStream i { state := .active, image := img, port := portIx p, readySince := s.stamp.toNat }
    else s.badReq p r))

/-- R235, R527: the tokens of an APPEND, none when its list cannot be read. -/
def State.reqTokens (s : State) (p : HostPort) (r : RequestRec) (listBad : Bool) : Option (List Word) :=
  let n := reqCount r
  if !reqList r then some ((r.drop 4).take n)
  else
    let a := s.partBase p + reqListAt r
    if s.partSize p < reqListAt r + 4 * n ∨ (0 < n ∧ (listBad = true ∨ s.dpaRetired a (4 * n) = true)) then none
    else some ((List.range n).map (fun i => Memory.word s.hbm (a + 4 * i)))

/-- R236, R527: APPEND. -/
def execAppend (p : HostPort) (listBad : Bool) (s : State) : Res :=
  .next (s.onRequest p 2 (fun s r => s.onOwnStream p r (fun _ => true) (fun s =>
    let i := reqStream r
    let x := s.stream i
    let vocab := match (s.image x.image).manifest with | some m => m.vocab | none => 0
    let a := s.partBase p + reqListAt r
    match s.reqTokens p r listBad with
    | none =>
      let s := if reqListAt r + 4 * reqCount r ≤ s.partSize p then s.logRefused p a else s
      s.badReq p r
    | some l =>
      if l.any (fun t => vocab ≤ t.toNat) then s.badReq p r
      else if 1024 < x.queue.length + l.length then s.status (portIx p) i 0x11 0
      else s.putStream i { x with queue := x.queue ++ l, gen := if reqSetGen r then reqGen r else x.gen })))

/-- R236, R281, R300: TRUNCATE. -/
def execTruncate (p : HostPort) (s : State) : Res :=
  .next (s.onRequest p 3 (fun s r =>
    s.onOwnStream p r (fun x => (x.state == .active || x.state == .held) && reqLength r ≤ x.kvlen) (fun s =>
      let i := reqStream r
      let s := s.rollback i (reqLength r)
      let s := s.setStream i { s.stream i with queue := [], carry := false, drafts := [] }
      s.resync i)))

/-- R236, R297: CLOSE. -/
def execClose (p : HostPort) (s : State) : Res :=
  .next (s.onRequest p 4 (fun s r => s.onOwnStream p r (fun _ => true) (fun s =>
    (s.status (portIx p) (reqStream r) 0x13 0).freeStream (reqStream r))))

/-- R241: the pages of a shipment of `len` positions of a stream. -/
def State.shipPages (s : State) (i len : Nat) : Nat :=
  let k := s.kvShape (s.stream i).image
  k.layers * k.heads * ceilDiv len 128

/-- R242: a shipment has arrived whole. Its tokens are not part of it (log entry 34). -/
def State.shipDone (s : State) (i len : Nat) : State :=
  let x := s.stream i
  let tokens := (List.range len).map (Config.shippedToken s.draws)
  s.drawn.putStream i { x with tokens := tokens, state := if x.holds = [] then .active else .held, shipIn := none, kvlen := len, hiwrit := len, indexPending := true, chain := none }

/-- R241, R271: ATTACH_KV, of a stream whose image ring mode can serve; a reservation that cannot be made fails the shipment. -/
def execAttachKv (p : HostPort) (s : State) : Res :=
  .next (s.onRequest p 5 (fun s r =>
    s.onOwnStream p r (fun x => x.state == .active && x.kvlen == 0 && x.queue.isEmpty && (s.kvShape x.image).modules ≤ 8) (fun s =>
      let i := reqStream r
      let n := reqLength r
      match s.reserve i 0 n with
      | none => s.status (portIx p) i 0x21 0
      | some s =>
        let total := s.shipPages i n
        let ship : ShipIn := { source := bits (reqWord r 2) 15 0, length := n, left := total, total := total, accepted := [] }
        let s := s.setStream i { s.stream i with state := .shipping, shipIn := some ship }
        if total = 0 then s.shipDone i n else s)))

/-- R236, R528: RESUME. -/
def execResume (p : HostPort) (s : State) : Res :=
  .next (s.onRequest p 6 (fun s r =>
    s.onOwnStream p r (fun x => x.state == .held && x.holds.contains 0) (fun s => s.lift (reqStream r) 0)))

/-- R236, R243: SHIP. -/
def execShip (p : HostPort) (s : State) : Res :=
  .next (s.onRequest p 7 (fun s r =>
    let n := reqLength r
    s.onOwnStream p r (fun x => (x.state == .active || x.state == .held) && x.shipOut.isNone && 1 ≤ n && n ≤ x.kvlen) (fun s =>
      let i := reqStream r
      let total := s.shipPages i n
      let ship : ShipOut := { dest := bits (reqWord r 2) 15 0, dstream := bits (reqWord r 2) 23 16, length := n, total := total, next := 0, unacked := []
                              left := total, retries := 0 }
      s.setStream i { s.stream i with shipOut := some ship })))

-- output records (R237, R380, R383)

/-- R237: an output record, word 0 with OWN = 0. -/
def outBytes (r : OutRec) : List Byte :=
  leBytes (field (r.stream % 256) 8 ||| field (r.status % 256) 16 ||| flag r.last 24).toNat 4 ++ leBytes (r.position % 2 ^ 24) 4 ++
  leBytes r.token.toNat 4 ++ leBytes (r.accepted % 16) 4 ++ leBytes r.stamp.toNat 8 ++ leBytes r.step 4 ++ leBytes 0 4

/-- R394: CNT as treated. -/
def outCnt (w : Word) : Nat := max 1 (bits w 7 0)

/-- R380, R382, R383: the oldest waiting record is written into the ring's next record when the host has given it. -/
def execOutputRecordWrite (p : HostPort) (s : State) : Res :=
  .next (let x := s.port p
    let w := s.reg .cxlp (portIx p) 0x054
    match x.pend with
    | [] => s
    | r :: rest =>
      let a := s.ringDpa p .output x.outNext
      if !bit w 31 then s
      else if s.dpaRetired a 32 then s.ringFailed p .output
      else if !bit (Memory.word s.hbm a) 31 then s
      else
        let n := x.unsignalled + 1
        let s := { s with hbm := Memory.write s.hbm a (outBytes r) }
        let s := s.setPort p { x with pend := rest, outNext := ringAdvance w x.outNext, unsignalled := if outCnt w ≤ n then 0 else n }
        if outCnt w ≤ n then s.msi (s.msiPort p) 1 else s)

/-- R383: the interrupt delay after the first unsignalled record has passed. -/
def execOutputIrqTimer (p : HostPort) (s : State) : Res :=
  .next (let x := s.port p
    if x.unsignalled = 0 then s else (s.setPort p { x with unsignalled := 0 }).msi (s.msiPort p) 1)

end Sys2Proof.Machine
end

