-- ==== Sys2Proof/Machine/HostPorts.lean ====
section
/-! DEFINITION. The host ports (R211, R212, R370–R395): decoders, failover, rings, host memory accesses, resets of a port and the memory device
mailbox. -/

namespace Sys2Proof.Machine

-- memory (R374–R376)

/-- R370: whether a decoder takes an interleave: 1, 2, 4 or 8 ways, of 256 B to 16 KiB. -/
def interleaveOk (ways gran : Nat) : Bool := [1, 2, 4, 8].contains ways && [256, 512, 1024, 2048, 4096, 8192, 16384].contains gran

/-- R370, R374, R377: HDM_DECODER_COMMIT; it fails with Commit Error before MEM_ACTIVE, and unless its size is that of a range that is not empty
and its interleave is one of the port's. A locked decoder keeps its commitment. -/
def execHdmDecoderCommit (p : HostPort) (size ways gran : Nat) (lock : Bool) (s : State) : Res :=
  .next (let x := s.port p
    if x.locked then s
    else if x.memActive && s.rangeSize p != 0 && size == s.rangeSize p && interleaveOk ways gran then
      s.setPort p { x with decoder := true, locked := lock, commitError := false }
    else s.setPort p { x with commitError := true })

/-- R374, R391: the DPA of a CXL.mem access of 64 B, none where no access can occur. -/
def State.hostDpa (s : State) (p : HostPort) (offset : Nat) : Option Nat :=
  let off := offset / 64 * 64
  match s.presented p with
  | some q => if (s.port p).decoder && decide (off + 64 ≤ s.partSize q) then some (s.partBase q + off) else none
  | none => none

/-- R376: a host read is refused: no data response, MEM_UE with its log, an AER report and a General Media Event record. -/
def State.refuseRead (s : State) (p : HostPort) (dpa : Nat) : State :=
  let s := (s.logRefused p dpa).mediaEvent p dpa
  s.setPort p { s.port p with rdata := none, aer := (s.port p).aer + 1 }

/-- R392: a link error that the port corrected is reported through AER. -/
def State.linkErred (s : State) (p : HostPort) (linkErr : Bool) : State :=
  if linkErr then (s.setPort p { s.port p with aer := (s.port p).aer + 1 }).raise .cxlp (portIx p) 0 else s

/-- R375, R376: a host read of 64 B. -/
def execHostMemRead (p : HostPort) (offset : BitVec 40) (e : EccOutcome) (linkErr : Bool) (s : State) : Res :=
  match s.hostDpa p offset.toNat with
  | none => .fault .hostAccess
  | some a =>
    .next (let s := s.linkErred p linkErr
      if s.dpaRetired a 64 || e == .uncorrectable then s.refuseRead p a
      else
        let s := if e = .corrected then s.correctUnit (dpaStack a) else s
        s.setPort p { s.port p with rdata := some (Memory.read s.hbm a 64) })

/-- R375, R376: a host write of 64 B; one to a retired page is discarded. -/
def execHostMemWrite (p : HostPort) (offset : BitVec 40) (data : List Byte) (linkErr : Bool) (s : State) : Res :=
  match s.hostDpa p offset.toNat with
  | none => .fault .hostAccess
  | some a => .next (let s := s.linkErred p linkErr
      if s.dpaRetired a 64 then s else { s with hbm := Memory.write s.hbm a (data.take 64) })

-- failover (R377)

/-- R377: TAKE. -/
def State.takePart (s : State) (p : HostPort) (otherDownMs : Nat) : State :=
  let x := s.port p
  let y := s.port (otherPort p)
  let down := y.link == .reset || (y.link != .l0 && 1 ≤ otherDownMs)
  if s.partSize p ≠ 0 ∨ down = false ∨ y.takenFrom = true then s
  else ((s.setPort p { x with taken := true, rangeMoved := false }).setPort (otherPort p) { y with takenFrom := true, decoder := false, locked := false }).raise
    .cxlp (portIx p) 4

/-- R377: the command. -/
def execTake (p : HostPort) (otherDownMs : Nat) (s : State) : Res :=
  .next (if s.pageWrites .cxlp (portIx p) then s.takePart p otherDownMs else s)

/-- R377: RETURN. -/
def State.returnPart (s : State) (p : HostPort) : State :=
  let x := s.port p
  if x.taken && !x.decoder then
    let s := (s.setPort p { x with taken := false, rangeMoved := false })
    (s.setPort (otherPort p) { s.port (otherPort p) with takenFrom := false }).raise .cxlp (portIx p) 4
  else s

/-- R377: the command. -/
def execReturnPart (p : HostPort) (s : State) : Res :=
  .next (if s.pageWrites .cxlp (portIx p) then s.returnPart p else s)

-- rings (R379, R382, R394)

/-- R394: the offsets of a ring's base and configuration registers. -/
def ringRegs : RingKind → Nat × Nat
  | .request => (0x048, 0x04C)
  | .output => (0x050, 0x054)

/-- R379, R380: the bytes of a record. -/
def recordSize : RingKind → Nat
  | .request => 64
  | .output => 32

/-- R394: the writable bits of a ring's configuration. -/
def ringMask : RingKind → Word
  | .request => 0x801FFF00#32
  | .output => 0x801FFFFF#32

/-- R394: whether a ring's base is aligned to its size and lies within the range. -/
def State.ringFits (s : State) (p : HostPort) (k : RingKind) (w : Word) : Bool :=
  let off := (s.reg .cxlp (portIx p) (ringRegs k).1).toNat * 4096
  let n := recordSize k * 2 ^ ringLog2 w
  off % n == 0 && off + n ≤ s.partSize p

/-- R394: whether a ring has to start at index 0 when it is enabled. -/
def ringFresh (x : Port) : RingKind → Bool
  | .request => x.rqFresh
  | .output => x.outFresh

/-- R394: a ring's base or LOG2N has been written. -/
def markFresh (x : Port) : RingKind → Port
  | .request => { x with rqFresh := true }
  | .output => { x with outFresh := true }

/-- R394: a ring starts: at index 0 when its base or LOG2N has been written since it last ran, else at its kept index. -/
def startRing (x : Port) : RingKind → Port
  | .request => { x with rqFresh := false, rqNext := if x.rqFresh then 0 else x.rqNext }
  | .output => { x with outFresh := false, outNext := if x.outFresh then 0 else x.outNext }

/-- R394: RING_ENABLE: a write of CXLP_RQCFG or CXLP_OUTCFG. -/
def State.writeRing (s : State) (p : HostPort) (k : RingKind) (v : Word) : State :=
  let i := portIx p
  let off := (ringRegs k).2
  let old := s.reg .cxlp i off
  let v := v &&& ringMask k
  let s := if bits v 20 16 ≠ bits old 20 16 && !(bit v 31 && bit old 31) then s.setPort p (markFresh (s.port p) k) else s
  if bit v 31 && !bit old 31 then
    if s.ringFits p k v then (s.setReg .cxlp i off v).setPort p (startRing (s.port p) k)
    else (s.setReg .cxlp i off (putBits v 31 31 0)).raise .cxlp i 2
  else s.setReg .cxlp i off v

/-- R394: the command. -/
def execRingEnable (p : HostPort) (k : RingKind) (v : Word) (s : State) : Res :=
  .next (if s.pageWrites .cxlp (portIx p) then s.writeRing p k v else s)

/-- R235, R379, R382, R392: REQUEST_RING_POLL. -/
def execRequestRingPoll (p : HostPort) (readBad : Bool) (s : State) : Res :=
  .next (let x := s.port p
    let w := s.reg .cxlp (portIx p) 0x04C
    let a := s.ringDpa p .request x.rqNext
    if bit w 31 = false ∨ 1024 < x.pend.length then s
    else if readBad = true ∨ s.dpaRetired a 64 = true then s.ringFailed p .request
    else
      let r := (List.range 16).map (fun i => Memory.word s.hbm (a + 4 * i))
      if bit (reqWord r 0) 31 = false then s
      else
        let s := { s with hbm := Memory.setWord s.hbm a (putBits (reqWord r 0) 31 31 0) }
        let s := s.setPort p { x with rqNext := ringAdvance w x.rqNext }
        if reqWellFormed r then s.setPort p { s.port p with requests := (s.port p).requests ++ [r] } else s.badReq p r)

-- resets of a port (R323, R385, R388)

/-- R323, R385: a port's Lighter channels stop; a descriptor in progress is not completed. -/
def State.stopChannels (s : State) (p : HostPort) : State :=
  let l := (List.range 16).map (fun c => portIx p * 16 + c)
  let slots := l.filterMap (fun c => (s.chan c).job.map descImage)
  let s := l.foldl (fun s c =>
    let x := s.chan c
    if bit (s.regI .ltr (portIx p) 0x04C (c % 16)) 31 || x.job.isSome then s.setChan c { x with stopped := true, job := none } else s) s
  slots.foldl State.settleSlot s

/-- R385: the EN bits of a port's rings are cleared; everything else of the rings is kept. -/
def State.disableRings (s : State) (p : HostPort) : State :=
  let i := portIx p
  (s.setReg .cxlp i 0x04C (putBits (s.reg .cxlp i 0x04C) 31 31 0)).setReg .cxlp i 0x054 (putBits (s.reg .cxlp i 0x054) 31 31 0)

/-- R385, R392: a port's link leaves L0. -/
def State.linkTo (s : State) (p : HostPort) (l : LinkState) : State :=
  let x := s.port p
  if x.link = .l0 ∧ l ≠ .l0 then
    let s := s.raise .cxlp (portIx p) 3
    s.setPort p { s.port p with link := l, width := 0, speed := 0, downSince := s.stamp }
  else s.setPort p { x with link := l, width := 0, speed := 0 }

/-- R377, R385: CONVENTIONAL_RESET of a port. -/
def execConventionalReset (p : HostPort) (cause : PortResetCause) (s : State) : Res :=
  .next (let s := (s.stopChannels p).disableRings p
    let s := match cause with
      | .perst => s.linkTo p .reset
      | .hotReset => if (s.port p).leftReset then s.linkTo p .training else s
      | .linkDown => if (s.port p).leftReset then s.linkTo p .down else s
    let x := s.port p
    s.setPort p { x with decoder := false, locked := false, commitError := false, rangeMoved := x.taken, cfgReady := x.cfgReady && cause != .perst
                         leftReset := x.leftReset && cause != .perst, resp := .none })

/-- R385: FLR: as a conventional reset, without effect on the link, the decoder and CXL.mem. -/
def execFlr (p : HostPort) (s : State) : Res :=
  .next (let s := (s.stopChannels p).disableRings p
    s.setPort p { s.port p with resp := .none })

/-- R387: whether the timeline has passed T0 + 40 ms. -/
def State.past40 (s : State) : Bool := s.stage == .bist || s.stage == .clearing || s.stage == .optical || s.stage == .ready

/-- R26: the harbour die that holds a host port, as its basin and its attach berth. -/
def portDie : HostPort → Nat × Nat
  | .a => (96, 0)
  | .b => (97, 83)

/-- R407, R459: whether a host port is lost with its die or its mesh bridge. -/
def State.portDead (s : State) (p : HostPort) : Bool := (s.basin (portDie p).1).latched || s.dark (portDie p).2

/-- R372, R388: whether STRAP[2:0] let a port leave reset: port B not at all, or from 120 ms after port A, which is 25,500,000 PCLK. -/
def State.strapsLet (s : State) (p : HostPort) : Bool := match p with
  | .a => true
  | .b => !s.straps.getLsbD 0 && (!s.straps.getLsbD 2 || (match s.portA.leftAt with
      | some t => 25500000 ≤ (s.stamp - t).toNat
      | none => false))

/-- R372, R388: PORT_LEAVES_RESET. -/
def execPortLeavesReset (p : HostPort) (s : State) : Res :=
  .next (let x := s.port p
    if x.link = .reset && !s.portDead p && s.past40 && s.strapsLet p then
      s.setPort p { x with link := .training, leftReset := true, pageReady := true, leftAt := some s.stamp }
    else s)

/-- R388: LINK_IN_L0. -/
def execLinkInL0 (p : HostPort) (width : BitVec 8) (speed : BitVec 4) (s : State) : Res :=
  .next (let x := s.port p
    if x.leftReset && x.link != .l0 && !s.portDead p then s.setPort p { x with link := .l0, width := width.toNat, speed := speed.toNat } else s)

/-- R388: CFG_READY. -/
def execCfgReady (p : HostPort) (s : State) : Res :=
  .next (let x := s.port p
    if x.leftReset && s.past40 && s.stage != .bist then s.setPort p { x with cfgReady := true } else s)

-- the mailbox (R370, R390)

/-- R390: a mailbox command, which answers Busy until the module is ready. -/
def State.mailbox (s : State) (p : HostPort) (f : State → State) : State :=
  let x := s.port p
  if x.link ≠ .l0 ∨ x.cfgReady = false then s else if s.stage = .ready then f s else s.setPort p { x with resp := .busy }

/-- R370, R390: Identify Memory Device: the capacity of the range, beside a payload that the spec does not give (log entry 30). -/
def execIdentifyMemoryDevice (p : HostPort) (s : State) : Res :=
  .next (let x := s.port p
    if x.link ≠ .l0 ∨ x.cfgReady = false then s
    else s.drawn.setPort p { x with resp := .identify (s.rangeSize p) (Config.mailboxPayload s.draws) })

/-- R370: Get Event Records. -/
def execGetEventRecords (p : HostPort) (s : State) : Res :=
  .next (s.mailbox p (fun s => s.setPort p { s.port p with resp := .events ((s.port p).events.map (fun e => (e.handle, e.dpa, e.stamp))) }))

/-- R370: Clear Event Records. -/
def execClearEventRecords (p : HostPort) (handles : List Nat) (s : State) : Res :=
  .next (s.mailbox p (fun s =>
    s.setPort p { s.port p with resp := .done, events := (s.port p).events.filter (fun e => !handles.contains e.handle) }))

/-- R370: Get Health Info; the spec does not give its payload (log entry 30). -/
def execGetHealthInfo (p : HostPort) (s : State) : Res :=
  .next (s.mailbox p (fun s => s.drawn.setPort p { s.port p with resp := .health (Config.mailboxPayload s.draws) }))

/-- R370: Get Alert Configuration. -/
def execGetAlertConfiguration (p : HostPort) (s : State) : Res :=
  .next (s.mailbox p (fun s => s.setPort p { s.port p with resp := .alert (s.port p).alertCfg }))

/-- R370: Set Alert Configuration. -/
def execSetAlertConfiguration (p : HostPort) (config : List Byte) (s : State) : Res :=
  .next (s.mailbox p (fun s => s.setPort p { s.port p with resp := .done, alertCfg := config }))

end Sys2Proof.Machine
end

