-- ==== Sys2Proof/Machine/Flits.lean ====
section
/-! DEFINITION. What crosses a Zhoza link: Reed-Solomon codewords (R337), flits with their trailers (R336, R338), control messages (R343), and
the Chamois messages that some of them carry (R179). -/

namespace Sys2Proof.Machine

-- the field of 1,024 elements (R337, log entry 193)

/-- One step of a product: the factor doubled modulo x^10 + x^3 + 1. -/
def gfDouble (a : Nat) : Nat := let d := 2 * a; if d < 1024 then d else d ^^^ 0x409

/-- The product of two symbols, the second taken bit by bit. -/
def gfMulBits : Nat → Nat → Nat → Nat
  | 0, _, _ => 0
  | n + 1, a, b => (if b % 2 = 1 then a else 0) ^^^ gfMulBits n (gfDouble a) (b / 2)

/-- The product of two symbols. -/
def gfMul (a b : Nat) : Nat := gfMulBits 10 a b

/-- A power of a symbol. -/
def gfPow (a : Nat) : Nat → Nat
  | 0 => 1
  | n + 1 => gfMul a (gfPow a n)

/-- α to a power: α is 2, of order 1,023. -/
def gfExp (n : Nat) : Nat := gfPow 2 (n % 1023)

/-- The inverse of a symbol: its power 1,022, by squaring. -/
def gfInv (a : Nat) : Nat :=
  let sq := fun x => gfMul x x
  let p3 := gfMul (sq a) a
  let p7 := gfMul (sq p3) a
  let p15 := gfMul (sq p7) a
  let p31 := gfMul (sq p15) a
  let p63 := gfMul (sq p31) a
  let p127 := gfMul (sq p63) a
  let p255 := gfMul (sq p127) a
  sq (gfMul (sq p255) a)

/-- The value of a polynomial, its highest coefficient first. -/
def polyAt (p : List Nat) (x : Nat) : Nat := p.foldl (fun a c => gfMul a x ^^^ c) 0

/-- The sum of two polynomials, their lowest coefficients first. -/
def polyAdd : List Nat → List Nat → List Nat
  | [], q => q
  | p, [] => p
  | a :: p, b :: q => (a ^^^ b) :: polyAdd p q

/-- A polynomial times a symbol. -/
def polyScale (c : Nat) (p : List Nat) : List Nat := p.map (gfMul c)

-- RS(544,514) (R337)

/-- R337: the generator polynomial, highest coefficient first: its roots are α^0 to α^29. -/
def rsGenerator : List Nat := (List.range 30).foldl (fun g j => polyAdd (g ++ [0]).reverse (0 :: polyScale (gfExp j) g).reverse |>.reverse) [1]

/-- One step of the division by the generator. -/
def rsStep (r : List Nat) (m : Nat) : List Nat :=
  let f := m ^^^ r.headD 0
  List.zipWith (fun a g => a ^^^ gfMul f g) (r.drop 1 ++ [0]) (rsGenerator.drop 1)

/-- R337: the 30 parity symbols of 514 data symbols. -/
def rsParity (data : List Nat) : List Nat := data.foldl rsStep (List.replicate 30 0)

/-- R337: the codeword of 514 data symbols. -/
def rsEncode (data : List Nat) : List Nat := data ++ rsParity data

/-- The syndromes of a received word. -/
def rsSyndromes (w : List Nat) : List Nat := (List.range 30).map (fun j => polyAt w (gfExp j))

/-- The state of the Berlekamp-Massey iteration: the locator and the last one that changed its length (lowest coefficients first), the number of
errors, the distance of the latter and its discrepancy. -/
structure BmState where
  cur : List Nat
  old : List Nat
  len : Nat
  gap : Nat
  disc : Nat

/-- The discrepancy of a locator at syndrome `n`. -/
def discrepancy (syn : List Nat) (c : List Nat) (n : Nat) : Nat :=
  (List.range (min (n + 1) c.length)).foldl (fun a i => a ^^^ gfMul (c.getD i 0) (syn.getD (n - i) 0)) 0

/-- One step of the Berlekamp-Massey iteration. -/
def bmStep (syn : List Nat) (b : BmState) (n : Nat) : BmState :=
  let d := discrepancy syn b.cur n
  if d = 0 then { b with gap := b.gap + 1 }
  else
    let next := polyAdd b.cur (List.replicate b.gap 0 ++ polyScale (gfMul d (gfInv b.disc)) b.old)
    if 2 * b.len ≤ n then { cur := next, old := b.cur, len := n + 1 - b.len, gap := 1, disc := d }
    else { b with cur := next, gap := b.gap + 1 }

/-- The error locator of a word's syndromes, lowest coefficient first. -/
def locator (syn : List Nat) : BmState := (List.range 30).foldl (bmStep syn) { cur := [1], old := [1], len := 0, gap := 1, disc := 1 }

/-- The places of a codeword's symbols, counted from its last, at which a locator has a root. -/
def errorPlaces (c : List Nat) : List Nat := (List.range 544).filter (fun i => polyAt c.reverse (gfExp (1023 - i)) = 0)

/-- The first 30 coefficients of the error evaluator. -/
def evaluator (syn c : List Nat) : List Nat :=
  (List.range 30).map (fun n => (List.range (min (n + 1) c.length)).foldl (fun a i => a ^^^ gfMul (c.getD i 0) (syn.getD (n - i) 0)) 0)

/-- The value of the error at place `i`. -/
def errorValue (syn c : List Nat) (i : Nat) : Nat :=
  let x := gfExp (1023 - i)
  let slope := ((List.range c.length).filter (fun k => k % 2 = 1)).foldl (fun a k => a ^^^ gfMul (c.getD k 0) (gfPow x (k - 1))) 0
  gfMul (gfExp i) (gfMul (polyAt (evaluator syn c).reverse x) (gfInv slope))

/-- R337: the codeword that a received word of 544 symbols is taken for, none when no codeword lies within 15 symbols of it. -/
def rsDecode (w : List Nat) : Option (List Nat) :=
  let syn := rsSyndromes w
  if w.length ≠ 544 then none
  else if syn.all (· == 0) then some w
  else
    let b := locator syn
    let places := errorPlaces b.cur
    let fixed := ((List.range 544).zip w).map (fun e => if places.contains (543 - e.1) then e.2 ^^^ errorValue syn b.cur (543 - e.1) else e.2)
    if b.len ≤ 15 ∧ places.length = b.len ∧ (rsSyndromes fixed).all (· == 0) = true then some fixed else none

-- flits (R336, R338)

/-- R338: one bit into the CRC-16 of a flit, the highest bit of each byte first (log entry 194). -/
def crc16Bit (r : Nat) (b : Bool) : Nat :=
  let d := 2 * r % 65536
  if (decide (32768 ≤ r)) != b then d ^^^ 0x1021 else d

/-- R338: the CRC-16 of bytes. -/
def crc16 (l : List Byte) : Nat :=
  l.foldl (fun r v => (List.range 8).foldl (fun r i => crc16Bit r (v.getLsbD (7 - i))) r) 0xFFFF

/-- R338: the trailer of a flit. -/
def flitTrailer (payload : List Byte) (cls seq start : Nat) : Word :=
  let low := field (cls % 4) 0 ||| field (seq % 4096) 2 ||| field (start % 4) 14
  low ||| field (crc16 (payload ++ leBytes low.toNat 2)) 16

/-- R336, R338: a flit: 64 B of payload and its trailer. -/
def flitFrame (payload : List Byte) (cls seq start : Nat) : List Byte := payload ++ leBytes (flitTrailer payload cls seq start).toNat 4

/-- R338: CLASS of a received frame. -/
def frameClass (f : List Byte) : Nat := leNat ((f.drop 64).take 4) % 4

/-- R336, R338: whether a received frame has its size, a CLASS and START that are not reserved, and a CRC that fits. -/
def frameGood (f : List Byte) : Bool :=
  let t := leNat ((f.drop 64).take 4)
  f.length == 68 && t % 4 != 3 && t / 2 ^ 14 % 4 != 3 && crc16 (f.take 66) == t / 2 ^ 16

-- Chamois messages across a port (R179, R355)

/-- R179: a message's 64 bits. -/
def ChMsg.bits (m : ChMsg) : Dword := BitVec.ofNat 4 (chTypes.idxOf m.type) ++ BitVec.ofNat 4 (chScopes.idxOf m.scope) ++ m.seq ++ m.dest ++ m.payload

/-- R179, R355: a message of SCOPE 3; SEQ of ARRIVE and RELEASE is the low byte of the epoch count. How TIME lays its STAMP out in DEST and PAYLOAD
the spec does not say (log entry 196). -/
def sliceMsg (epoch : Nat) (m : SliceMsg) : ChMsg := match m with
  | .arrive => { type := .arrive, scope := .across, seq := BitVec.ofNat 8 epoch, dest := 0, payload := 0 }
  | .release => { type := .release, scope := .across, seq := BitVec.ofNat 8 epoch, dest := 0, payload := 0 }
  | .abort => { type := .abort, scope := .across, seq := 0, dest := 0, payload := 0 }
  | .go => { type := .go, scope := .across, seq := 0, dest := 0, payload := 0 }
  | .fault => { type := .fault, scope := .across, seq := 0, dest := 0, payload := 0 }
  | .time t ns =>
    let v := Config.timeFields t ns
    { type := .time, scope := .across, seq := 0, dest := v.extractLsb' 32 16, payload := v.extractLsb' 0 32 }
  | .point d p => { type := .point, scope := .across, seq := 0, dest := d, payload := p }
  | .late c => { type := .late, scope := .across, seq := 0, dest := c, payload := 0 }

-- control messages (R343)

/-- R343: TYPE of a control message and its argument. The order of the fields within an argument is the model's (DESIGN CHOICE, log entry 196). -/
def ctlFields (epoch : Nat) (m : CtlMsg) : Nat × Nat := match m with
  | .chamois m => (1, (sliceMsg epoch m).bits.toNat)
  | .ack q => (2, q)
  | .credit response gen n => (3, (if response then 1 else 0) + (if gen then 2 else 0) + 2 ^ 8 * (n % 2 ^ 16))
  | .goingDown a => (4, a)
  | .flip g => (5, g)
  | .drain g count arrival => (6, g % 2 ^ 8 + 2 ^ 8 * (count % 2 ^ 32) + (if arrival then 2 ^ 40 else 0))
  | .release g => (7, g)
  | .ident p =>
    (8, p.addr.toNat + 2 ^ 16 * p.role.toNat + 2 ^ 20 * p.index.toNat + 2 ^ 24 * p.tenant.toNat + (match p.retired with
      | some i => 2 ^ 40 * (8 + i.val)
      | none => 0))

/-- R343: the 64 B of a control flit. -/
def ctlPayload (epoch : Nat) (m : CtlMsg) : List Byte :=
  let (t, a) := ctlFields epoch m
  leBytes t 8 ++ leBytes a 8 ++ List.replicate 48 0

/-- R338, R343: a control flit. -/
def ctlFlit (epoch seq : Nat) (m : CtlMsg) : List Byte := flitFrame (ctlPayload epoch m) 1 seq 0

end Sys2Proof.Machine
end

