-- ==== Sys2Proof/Machine/Zhoza.lean ====
section
/-! DEFINITION. Zhoza links (R336–R368): training and admission, replay and credits, losing a port, packets between modules, generation
changes and the barrier's messages between modules. -/

namespace Sys2Proof.Machine

-- ports (R344–R346, R354)

/-- R339, R354: what a port receives in `n` flits is acknowledged and acted on when it is UP; at a fence it is discarded and counted. -/
def State.fromPort (s : State) (z n : Nat) (f : State → State) : State :=
  if !portLive s z then s else if s.fenced z then (s.received z n).raise .zlnk z 5 else f (s.received z n)

/-- R343, R346: what this module says of a port in IDENT. -/
def State.identOf (s : State) (z : Nat) : PartnerIdent :=
  let x := s.zport z
  { addr := BitVec.ofNat 15 (s.address.getD 0), role := BitVec.ofNat 4 x.role, index := BitVec.ofNat 3 x.index
    tenant := (s.reg .zlnk 0 0x084).setWidth 16, retired := x.retired.map (Fin.ofNat 8) }

/-- R343, R344: a port sends its IDENT. -/
def State.sendIdent (s : State) (z : Nat) : State := s.sendCtl z (.ident (s.identOf z))

/-- R344: a port in TRAIN sends its burst again; nothing else changes. -/
def execTrainingBurst (_z : Berth) (s : State) : Res := .next s

/-- R345, R387: the ports of a wave's role groups leave LISTEN, in the admission stage or later. -/
def execAdmissionWave (w : Fin 14) (s : State) : Res :=
  .next (if !(s.stage == .optical || s.stage == .ready) then s else (List.range 84).foldl (fun s z =>
    let x := s.zport z
    if x.st = .listen ∧ x.role ≠ 15 ∧ roleWave x.role = w.val ∧ s.dark z = false then s.setZport z { x with st := .train } else s) s)

/-- R341, R344: lanes, deskew and FEC lock, less a lane that firmware retires, and the port enters CHECK. -/
def execLaneLock (z : Berth) (s : State) : Res :=
  .next (let x := s.zport z.val
    let w := s.reg .zlnk z.val 0x04C
    if x.st = .train ∧ s.dark z.val = false then
      (s.setZport z.val { x with st := .check, retired := if bit w 3 then some (bits w 2 0) else none, unacked := 0, waiting := [] }).sendIdent z.val
    else s)

/-- R344: a MISCABLED port repeats CHECK. -/
def execCheckRetry (z : Berth) (s : State) : Res :=
  .next (let x := s.zport z.val
    if x.st = .miscabled then (s.setZport z.val { x with st := .check, unacked := 0, waiting := [] }).sendIdent z.val else s)

/-- R346: whether a partner may come UP at a port of this module. -/
def State.partnerOk (s : State) (z : Nat) (p : PartnerIdent) : Bool := match s.address with
  | none => true
  | some a =>
    let x := s.zport z
    p.role.toNat == pairedRole x.role && p.index.toNat == x.index && p.addr.toNat == neighbourAddr a x.role &&
    p.retired.map (fun (i : Fin 8) => i.val) == x.retired

/-- R360: the buffers of a partner whose port comes UP. -/
def fullCredits : List (Nat × Nat) := [(0, 3), (1, 3), (2, 3), (3, 3)]

/-- R346, R357: IDENT: the partner is recorded and checked. -/
def execIdent (z : Berth) (partner : PartnerIdent) (delay : BitVec 16) (s : State) : Res :=
  .next (let x := s.zport z.val
    if x.st ≠ .check ∨ s.dark z.val = true then s
    else
      let s := s.setReg .zlnk z.val 0x050 (field delay.toNat 0)
      let x := { x with partner := some partner }
      if s.partnerOk z.val partner then
        s.setZport z.val { x with st := .up, base := 0, unacked := 0, rseq := 0, waiting := [], flitFails := 0, held := [], credits := fullCredits }
      else (s.setZport z.val { x with st := .miscabled }).raise .zlnk z.val 4)

-- packets on their way out (R358–R360)

/-- R359: a packet that is to leave the module takes another port, or is discarded. -/
def State.reroute (s : State) (p : Packet) : State := match opticalExit s p.h with
  | some t => { s with packets := s.packets.map (fun q => if q.id = p.id then { q with target := t, origin := .port 6, loc := .source p.target, crossed := [] } else q) }
  | none => ((s.dropPacket p.id).raise .zlnk p.target 6).failRequest p

/-- Whether a packet is to leave the module by a port. -/
def leavesBy (z : Nat) (p : Packet) : Bool := p.h.dst.toNat == dstOptical && p.target == z

/-- R364: whether the running program has scheduled slots that cross a port. -/
def State.scheduledOver (s : State) (z : Nat) : Bool :=
  s.coresMode == .run && (match s.curProg with
    | none => false
    | some g => (g.epochs.drop s.seq.epoch).any (fun e => e.links.any (fun l =>
        linkKind l.1 == 5 && (canonicalPos (linkBerth l.1) == z || (s.zport (canonicalPos (linkBerth l.1))).remap == some z))))

/-- R364: the port that takes over a lost port's slots: the next live one of its role group, in the same half where there is one. -/
def State.standIn (s : State) (z : Nat) : Option Nat :=
  let l := livePorts s (s.zport z).role
  let later := l.filter (fun y => z < y) ++ l.filter (fun y => y < z)
  match later.filter (fun y => halfOf y = halfOf z) with
  | y :: _ => some y
  | [] => later.head?

/-- R362, R364: a port leaves UP: it trains again, its packets go by other ports, and scheduled paths over it are lost and remapped; without a
port to take them the slice has failed. -/
def State.leaveUp (s : State) (z : Nat) : State :=
  let x := s.zport z
  if x.st ≠ .up then s
  else
    let s := (s.setZport z { x with st := .train, partner := none, base := 0, unacked := 0, rseq := 0, waiting := [], flitFails := 0, held := [], credits := [] }).raise .zlnk z 2
    let s := (s.packets.filter (leavesBy z)).foldl State.reroute s
    let lost := s.scheduledOver z
    let y := s.standIn z
    let s := s.setZport z { s.zport z with remap := y }
    if lost then (({ s with sliceFailed := s.sliceFailed || y.isNone }).raise .zlnk z 3).sendUp .fault else s

/-- R362: LOSS_OF_SIGNAL. -/
def execLossOfSignal (z : Berth) (s : State) : Res := .next (s.leaveUp z.val)

/-- R362, R363: a partner's GOING_DOWN. -/
def execGoingDown (z : Berth) (s : State) : Res := .next (s.fromPort z.val 1 (fun s => s.leaveUp z.val))

/-- R339: a bulk or control flit fails; its fifth failure takes the port out of UP. -/
def State.flitFailed (s : State) (z : Nat) : State :=
  let x := s.zport z
  if 5 ≤ x.flitFails + 1 then s.leaveUp z
  else ((s.setZport z { x with flitFails := x.flitFails + 1 }).countSat .zlnk z 0x058 15 0).raise .zlnk z 1

/-- R337, R338, R339, R367: a codeword is corrected or is found uncorrectable, and a flit that it carries and that no longer stands is replayed, but
for a link flit. -/
def execFlitReplay (z : Berth) (received : List (BitVec 10)) (frame : List Byte) (s : State) : Res :=
  .next (let w := received.map BitVec.toNat
    if !portLive s z.val then s
    else match rsDecode w with
      | none => (s.countSat .zlnk z.val 0x054 7 0).flitFailed z.val
      | some v =>
        let s := if v = w then s else (s.countSat .zlnk z.val 0x054 31 8).raise .zlnk z.val 0
        if frameGood frame ∨ frameClass frame = 2 then s else s.flitFailed z.val)

/-- R339: ACK is cumulative: the flits up to `seq` leave the replay buffer, packets acknowledged whole are gone, and messages that waited leave. One
that names no flit of the window acknowledges none. An ACK is not acknowledged by itself (log entry 112). -/
def execAck (z : Berth) (seq : BitVec 12) (s : State) : Res :=
  .next (let x := s.zport z.val
    let n := (seq.toNat + 1 + 4096 - x.base) % 4096
    if !portLive s z.val then s
    else
    let x := { x with rseq := (x.rseq + 1) % 4096, flitFails := 0 }
    if n = 0 || x.unacked < n then s.setZport z.val x
    else
      let gone := x.held.filter (fun e => e.2 ≤ n)
      let left := (x.held.filter (fun e => n < e.2)).map (fun e => (e.1, e.2 - n))
      let s := s.setZport z.val { x with base := (x.base + n) % 4096, unacked := x.unacked - n, held := left }
      (gone.foldl (fun s e => s.dropPacket e.1) s).sendWaiting z.val)

/-- R360: the key of a pair of traffic class and generation. -/
def creditKey (response gen : Bool) : Nat := (if response then 1 else 0) + (if gen then 2 else 0)

/-- R360: CREDIT; a partner has three buffers for each pair. -/
def execCredit (z : Berth) (response gen : Bool) (n : Nat) (s : State) : Res :=
  .next (s.fromPort z.val 1 (fun s =>
    let x := s.zport z.val
    let k := creditKey response gen
    s.setZport z.val { x with credits := Sparse.insert x.credits k (min 3 ((lookup x.credits k).getD 0 + n)) }))

/-- R336, R358: the flits of a packet with its header and prefix, in units of 512 B. -/
def packetFlits (p : Packet) : Nat := 8 * ceilDiv (24 + p.payload.length) 512

/-- R359, R360: one of the module's own packets leaves by its port, against a credit; without a live port it takes another. -/
def State.sendOut (s : State) (id : Nat) : State := match s.packet? id with
  | none => s
  | some p =>
    let z := p.target
    let x := s.zport z
    let k := creditKey (isResponse p.h) p.h.gen
    if p.h.dst.toNat ≠ dstOptical ∨ s.moveOf p ≠ .arrived ∨ s.pathDone p = false ∨ x.held.any (fun e => e.1 = id) = true then s
    else if !s.portOpen z then s.reroute p
    else if (lookup x.credits k).getD 0 = 0 ∨ 4095 < x.unacked + packetFlits p then s
    else
      let s := s.setZport z { x with credits := Sparse.insert x.credits k ((lookup x.credits k).getD 0 - 1), unacked := x.unacked + packetFlits p
                                     held := x.held ++ [(id, x.unacked + packetFlits p)] }
      s.setPacket id (fun q => { q with origin := .port 6, loc := .source z, crossed := [(portWay z 6 false, unitsOf p), (portWay z 6 true, unitsOf p)] })

/-- R358: DST as the destination's receiving port translates it: a request's DLB through the berth map (80 and above name stacks), a response's
as the requester's berth (log entry 47). -/
def State.localDst (s : State) (h : PacketHeader) : Option Nat :=
  let d := h.dlb.toNat
  if isResponse h then (if d < 84 then some d else none)
  else if d < 80 then s.physOf d
  else if d < 92 then some (0x54 + (d - 80)) else none

/-- R358–R361, R363: a packet that a port has received goes to its unit in this module, or on to another; its buffer's credit goes back to the
partner, except before a reset. -/
def State.takeIn (s : State) (z : Nat) (h : PacketHeader) (payload : List Byte) : State :=
  let n := h.hops.toNat + 1
  let h := { h with hops := BitVec.ofNat 5 n }
  let s := if s.forwarding then s else s.sendCtl z (.credit (isResponse h) h.gen 1)
  if 31 ≤ n then s.raise .zlnk z 7
  else
    let old := !s.gen.oldFree && h.gen != decide (s.gen.gennum % 2 = 1)
    let s := if old then { s with gen := { s.gen with arrived := true } } else s
    if s.address = some h.dmod.toNat then
      match s.localDst h with
      | some d => s.inject z { h with dst := BitVec.ofNat 8 d } payload (.port 6) none
      | none => s.raise .zlnk z 6
    else s.inject z { h with fwd := true, dst := BitVec.ofNat 8 dstOptical } payload (.port 6) none

/-- R358, R359: ZHOZA_PACKET_FORWARD. -/
def execZhozaPacketForward (pkt : ZhozaPacket) (s : State) : Res :=
  .next (match pkt with
    | .held id => s.sendOut id
    | .received z h payload => s.fromPort z.val (8 * ceilDiv (24 + payload.length) 512) (fun s => s.takeIn z.val h payload))

/-- R363: two microseconds after GOING_DOWN the module discards the packets for other modules that it still holds. -/
def execForwardWindowEnd (s : State) : Res :=
  .next (if !s.forwarding then s
    else
      let l := s.packets.filter (fun p => p.h.dst.toNat == dstOptical)
      l.foldl (fun s p => (s.dropPacket p.id).failRequest p) { s with forwarding := false })

-- generation changes (R361)

/-- R361: the packets in flight in this module of the generation before the present one. -/
def State.inflight (s : State) (old : Bool) : Nat :=
  (s.packets.filter (fun p => p.h.fwd && ((p.h.gen == decide (s.gen.gennum % 2 = 1)) != old))).length

/-- The unfenced ports in UP. -/
def State.openPorts (s : State) : List Nat := (List.range 84).filter s.portOpen

/-- R361: a new generation begins here: new packets carry it, and FLIP goes on. -/
def State.flipTo (s : State) (g : Nat) : State :=
  let s := { s with gen := { gennum := g, oldFree := false, zeroRounds := 0, reports := [], arrived := false } }
  s.openPorts.foldl (fun s z => s.sendCtl z (.flip g)) s

/-- R361: the root, or a module on the way, asks its children for a round of DRAIN. -/
def State.askDrain (s : State) (g : Nat) : State := s.childRoles.foldl (fun s r => s.sendEdge (.drain g 0 false) r) s

/-- R361: whether this module is the root of its domain. -/
def State.domainRoot (s : State) : Bool := s.moduleIndex == 0 && !s.reservedSpare

/-- R361: the two rounds are over: the old bank is released here and below. -/
def State.releaseBank (s : State) (g : Nat) : State :=
  let s := { s with gen := { s.gen with oldFree := true, zeroRounds := 0, reports := [], arrived := false } }
  s.childRoles.foldl (fun s r => s.sendEdge (.release g) r) s

/-- R361: this module's round is complete: it is reported to the parent, or counted at the root. -/
def State.roundDone (s : State) (g : Nat) : State :=
  let n := s.inflight true + (s.gen.reports.map Prod.snd).sum
  let seen := s.gen.arrived
  let s := { s with gen := { s.gen with reports := [], arrived := false } }
  match s.parentRole with
  | some r => s.sendEdge (.drain g n seen) r
  | none =>
    if n = 0 ∧ seen = false then
      if s.gen.zeroRounds = 1 then s.releaseBank g else ({ s with gen := { s.gen with zeroRounds := s.gen.zeroRounds + 1 } }).askDrain g
    else ({ s with gen := { s.gen with zeroRounds := 0 } }).askDrain g

/-- R361: GEN_FLIP_WRITE: a write of ZLNK_GEN; FLIP acts at the root while OLD_FREE is 1. -/
def State.writeGen (s : State) (v : Word) : State :=
  if bit v 31 = false ∨ s.domainRoot = false ∨ s.gen.oldFree = false then s
  else
    let g := s.gen.gennum
    (s.flipTo ((g + 1) % 256)).askDrain g

/-- R361: the command. -/
def execGenFlipWrite (b : Berth) (v : Word) (s : State) : Res :=
  .next (if s.pageWrites .zlnk b.val then s.writeGen v else s)

/-- R361: the first FLIP of a generation. -/
def execFlip (z : Berth) (g : BitVec 8) (s : State) : Res :=
  .next (s.fromPort z.val 1 (fun s => if g.toNat = (s.gen.gennum + 1) % 256 then s.flipTo g.toNat else s))

/-- R361: DRAIN: from the parent's port it asks for a round, from a child's it reports one. -/
def execDrain (z : Berth) (g : BitVec 8) (count : Nat) (arrival : Bool) (s : State) : Res :=
  .next (s.fromPort z.val 1 (fun s =>
    let r := (s.zport z.val).role
    if s.gen.oldFree = true ∨ (g.toNat + 1) % 256 ≠ s.gen.gennum then s
    else if s.parentRole = some r then (if s.childRoles.isEmpty then s.roundDone g.toNat else s.askDrain g.toNat)
    else if s.childRoles.contains r then
      let s := { s with gen := { s.gen with reports := Sparse.insert s.gen.reports r count, arrived := s.gen.arrived || arrival } }
      if s.childRoles.all (fun c => (lookup s.gen.reports c).isSome) then s.roundDone g.toNat else s
    else s))

/-- R361: the RELEASE control message. -/
def execBankRelease (z : Berth) (g : BitVec 8) (s : State) : Res :=
  .next (s.fromPort z.val 1 (fun s =>
    if s.parentRole = some (s.zport z.val).role ∧ (g.toNat + 1) % 256 = s.gen.gennum then s.releaseBank g.toNat else s))

/-- R361: in a domain of this module alone the rounds need no other module. -/
def State.drainAlone (s : State) : State :=
  if !s.gen.oldFree && s.parentRole.isNone && s.childRoles.isEmpty && s.inflight true == 0 then s.releaseBank 0 else s

-- barriers, aborts and time between modules (R342, R343, R355, R357)

/-- R355, R446: an ABORT from another module starts a slice handling here. -/
def State.sliceAbort (s : State) (z : Nat) : State :=
  if s.coresMode = .run ∧ s.flt.phase = .idle then { s with flt := { s.flt with phase := .abort, cur := some (fltErr 2 .zlnk z 3) } } else s

/-- R357: STAMP takes the slice root's time with the delay of the path, to the nearest PCLK of 212.5 MHz, and the message goes on. -/
def State.sliceTime (s : State) (z : Nat) (t : Dword) (ns : Nat) : State :=
  let path := ns + bits (s.reg .zlnk z 0x050) 15 0
  let v := max s.stamp.toNat (t.toNat + (path * 2125 + 5000) / 10000)
  ({ s with stamp := BitVec.ofNat 64 v, timeMsg := some (BitVec.ofNat 64 v) }).sendTime t path

/-- R343, R355, R357: CHAMOIS: a message of the barrier tree arrives from a child or from the parent. GO, POINT and LATE from the parent only pass on
(log entry 198). -/
def execChamois (z : Berth) (m : SliceMsg) (s : State) : Res :=
  .next (s.fromPort z.val 1 (fun s =>
    let r := (s.zport z.val).role
    let down := s.parentRole == some r
    match m with
    | .arrive =>
      if s.childRoles.contains r && decide (s.arrivals < s.childRoles.length) then
        ({ s with sliceIn := s.sliceIn ++ [SliceMsg.arrive] }).passUp
      else s
    | .release =>
      if !down then s
      else if s.reservedSpare then ({ s with sliceIn := [] }).sendDown .release
      else if s.sliceIn.contains .release then s else { s with sliceIn := s.sliceIn ++ [SliceMsg.release] }
    | .abort => s.sliceAbort z.val
    | .fault =>
      if s.parentRole.isSome then s.sendUp .fault else { s with flt := { s.flt with msgs := s.flt.msgs ++ [fltErr 2 .zlnk z.val 3] } }
    | .time t ns => if down then s.sliceTime z.val t ns else s
    | .go => if down then s.sendDown .go else s
    | .point d p => if down then s.sendDown (.point d p) else s
    | .late c => if down then s.sendDown (.late c) else s))

-- background (R367, R460)

/-- R367: BER_HIGH. -/
def execBerHigh (z : Berth) (s : State) : Res := .next (if portLive s z.val then s.raise .zlnk z.val 8 else s)

/-- R460: the port is held for at most 1 µs; nothing else changes. -/
def execLaneRecalibration (_z : Berth) (s : State) : Res := .next s

/-- R460: the link is held for at most 64 CCLK; nothing else changes. -/
def execLinkRecalibration (_link : Word) (s : State) : Res := .next s

/-- R460: telemetry is read; no state changes. -/
def execTelemetrySample (s : State) : Res := .next s

end Sys2Proof.Machine
end

