-- ==== Sys2Proof/Machine/Power.lean ====
section
/-! DEFINITION. Basins, wakes, the power controller and the clock roots (R396–R426). -/

namespace Sys2Proof.Machine

-- the plate (R399)

/-- R399: PLATE_HEARTBEAT: one more heartbeat leaves over PLATE_LINK. -/
def execPlateHeartbeat (s : State) : Res := .next (if s.powered then { s with heartbeats := s.heartbeats + 1 } else s)

/-- R399: PLATE_LINK: the link has been silent for 10 ms. -/
def execPlateLink (s : State) : Res := .next (if s.powered && !s.plateLost then ({ s with plateLost := true }).raise .bsn 98 6 else s)

-- the loss of a clock root's lock (R417, R424)

/-- R424: the CLKG instance of the active root. -/
def State.activeRoot (s : State) : Nat := if bit (s.reg .clkg 2 0x040) 0 then 1 else 0

/-- R417: every CCLK and SCLK is gated; the cores stop. -/
def State.gateClocks (s : State) : State := (s.abortRun false).gateAll

/-- R417, R423, R424: a root loses its lock: fatal when the root is active. -/
def State.loseLock (s : State) (standby : Bool) : State :=
  let i := if standby then 1 else 0
  let w := s.reg .clkg i 0x040
  if !bit w 0 then s
  else
    let s := (s.setReg .clkg i 0x040 (putBits w 0 0 0)).countSat .clkg i 0x040 15 8
    let s := if standby then s else s.setReg .clkg 2 0x040 (s.reg .clkg 2 0x040 ||| 2#32)
    if s.activeRoot = i then s.gateClocks.raiseAs .clkg i 0 .fatal else s.raiseAs .clkg i 0 .corrected

-- what a dark region takes with it (R25, R407, R459)

/-- R323, R407, R459: a host port is lost with its die or its mesh bridge. -/
def State.losePort (s : State) (p : HostPort) : State := let s := s.stopChannels p
  if (s.port p).link = .reset then s else s.linkTo p .down

/-- R459: the attach berth of a harbour die has become DARK. -/
def State.isolateHarbour (s : State) (b : Nat) : State :=
  if [0, 83, 72, 11].contains b then
    let s := s.raise .flt 0 3
    if b = 0 then s.losePort .a else if b = 83 then s.losePort .b else s
  else s

/-- R25: a stack both of whose rim berths are DARK has failed. -/
def State.failIsolated (s : State) (b : Nat) : State := match stackAt b with
  | none => s
  | some k => if s.dark (rimBerths k).1 && s.dark (rimBerths k).2 then s.raise .hbmc k 5 else s

/-- The packets that stand in a berth's buffers or are on their way to it. -/
def heldAt (b : Nat) (p : Packet) : Bool := (packetAt p.loc).1 == b || p.target == b

/-- The links of a berth's router and cores carry nothing more. -/
def State.dropWays (s : State) (b : Nat) : State := { s with ways := s.ways.filter (fun e => linkBerth e.1 ≠ b) }

/-- R10, R407: a compute berth goes dark: cores, store die, router and optical port are lost. -/
def State.goDark (s : State) (b : Nat) : State :=
  let s := s.leaveUp b
  let s := s.setZport b { s.zport b with st := .down }
  let h := s.half (halfOf b)
  let s := (s.setHalf (halfOf b) { h with phaseCap := h.phaseCap.filter (· ≠ b) }).retarget
  let x := s.berth b
  let s := s.setBerth b { x with role := .dark, gated := true, waking := false, wakeWait := none, ldiv := 16, entries := []
                                 held := [], holdSignal := false, badLines := [], rowErrors := [], refill := [], debts := [], refreshed := []
                                 activations := [], targeted := [], storeOk := false }
  let s := if x.logical = 127 then s else (s.loseShards x.logical).cutJobs x.logical
  let s := ((s.packets.filter (heldAt b)).foldl (fun s p => (s.dropPacket p.id).failRequest p) s).dropWays b
  let s := if s.coresMode = .run then s else s.moveNodes
  ((s.skipAround b).isolateHarbour b).failIsolated b

/-- R407: the phases of every rail of a basin latch off. -/
def State.latchOff (s : State) (n : Nat) : State :=
  let x := s.basin n
  if x.latched || !x.regulating then s
  else
    let s := s.setBasin n { x with latched := true, regulating := false }
    State.goOn <| if n < 84 then (s.raise .bsn n 2).goDark n
    else if n < 96 then (s.raise .bsn n 2).raise .hbmc (n - 84) 5
    else if n = 96 then (s.raise .bsn n 2).losePort .a
    else if n = 97 then (s.raise .bsn n 2).losePort .b
    else if n = 98 then s.raise .bsn n 2
    else (s.raise .bsn n 2).loseLock true

/-- R407: SHORT. -/
def execShort (n : Basin) (s : State) : Res := .next (s.latchOff n.val)

-- phases (R406)

/-- R406: core-rail phase `i` of a basin fails. -/
def State.losePhase (s : State) (n i : Nat) : State :=
  let x := s.basin n
  if phaseCount n ≤ i || x.phasesLost.contains i || x.latched || !x.regulating then s
  else
    let t := s.setBasin n { x with phasesLost := x.phasesLost ++ [i] }
    match x.phasesLost.length with
    | 0 => t.raise .bsn n 0
    | 1 =>
      if n < 84 then
        let r := (t.berth n).role
        let h := t.half (halfOf n)
        let t := if r = .inService ∨ r = .spare then (t.setHalf (halfOf n) { h with phaseCap := h.phaseCap ++ [n] }).retarget else t
        t.raise .bsn n 1
      else if n < 96 then (t.setStack (n - 84) { t.stack (n - 84) with halfRate := true }).raise .bsn n 1
      else t.raise .bsn n 1
    | _ => t.latchOff n

/-- R406: PHASE1. -/
def execPhase1 (n : Basin) (i : Fin 8) (s : State) : Res := .next (s.losePhase n.val i.val)

/-- R406: PHASE2. -/
def execPhase2 (n : Basin) (i : Fin 8) (s : State) : Res := .next (s.losePhase n.val i.val)

/-- R406: PHASE2_TIMEOUT: no barrier has released within 1 ms of a second phase's loss; the step is aborted. -/
def execPhase2Timeout (n : Basin) (s : State) : Res :=
  .next (if s.coresMode = .run ∧ s.flt.phase = .idle ∧ n.val < 84 ∧ (s.half (halfOf n.val)).phaseCap.contains n.val = true ∧
      (s.half (halfOf n.val)).now < 8 then
      { s with flt := { s.flt with msgs := s.flt.msgs ++ [fltErr (if s.spansModules then 2 else 1) .bsn n.val 1] } }
    else s)

/-- R405: UNDERV: the lowest voltage is captured; more than 60 mV below the setpoint is a contained error. -/
def execUnderv (n : Basin) (mv : BitVec 10) (s : State) : Res :=
  .next (if (s.basin n.val).latched || !(s.basin n.val).regulating then s
    else
      let t := s.seeRail n.val mv.toNat
      if mv.toNat + 60 < s.setpoint n.val then t.raise .bsn n.val 3 else t)

/-- R422: VMIN_RESTART: a write of BSN_VMIN restarts the capture from the present voltage. -/
def State.restartVmin (s : State) (n : Nat) : State := (s.setReg .bsn n 0x050 0x3FF#32).seeRail n (s.setpoint n)

-- wakes (R410, R412, R419)

/-- R410: whether a zone sum in A is above 0.85 × 2,050 A. -/
def zoneLoaded (sum : Nat) : Bool := 3485 < 2 * sum

/-- R410, R419: the divisor at which a berth's wake ends. -/
def State.wakeGoal (s : State) (b : Nat) : Nat :=
  let d := (s.half (halfOf b)).now
  if 2 ≤ (s.basin b).phasesLost.length then max d 8 else d

/-- R410: the divisor after one hold of a wake to `goal`. -/
def rampNext (goal d : Nat) : Nat := max goal (((if goal < 6 then [8, 6, goal] else [8, 6]).find? (fun r => r < d)).getD goal)

/-- R410: a wake that has reached its divisor ends; streams held for a coolant stop may run again with the last berth. -/
def State.endWake (s : State) (b : Nat) : State :=
  let x := s.berth b
  if x.waking && decide (x.ldiv ≤ s.wakeGoal b) && x.wakeWait.isNone then
    let s := (s.setBerth b { x with waking := false, ldiv := s.wakeGoal b })
    (s.seeRail b (s.setpoint b)).liftStop
  else s

/-- R410: the ramp of a wake begins at divisor 16. -/
def State.beginRamp (s : State) (b : Nat) (slow : Bool) : State :=
  let s := s.setBerth b { s.berth b with gated := false, waking := true, wakeWait := none, ldiv := 16 }
  (if slow then s.raise .bsn b 5 else s).endWake b

/-- R410, R419, R435: whether a berth may wake. -/
def State.mayWake (s : State) (b : Nat) : Bool := (s.basin b).regulating && !s.dark b && s.cool.st == .normal

/-- R410: WAKE. -/
def execWake (b : Berth) (sum : Nat) (s : State) : Res :=
  .next (let x := s.berth b.val
    if !s.mayWake b.val || !x.gated || x.waking then s
    else if zoneLoaded sum then s.setBerth b.val { x with waking := true, wakeWait := some 0 }
    else s.beginRamp b.val false)

/-- R410: WAKE_STEP: a re-check of the zone, at most 100 in 1 ms, or one hold of the ramp. -/
def execWakeStep (b : Berth) (sum : Nat) (s : State) : Res :=
  .next (let x := s.berth b.val
    if !x.waking || !s.mayWake b.val then s
    else match x.wakeWait with
      | some n =>
        if !zoneLoaded sum then s.beginRamp b.val false
        else if 100 ≤ n + 1 then s.beginRamp b.val true
        else s.setBerth b.val { x with wakeWait := some (n + 1) }
      | none => (s.setLdiv b.val (rampNext (s.wakeGoal b.val) x.ldiv)).endWake b.val)

/-- R412: IDLE_GATING: no step has run for the idle time of a half; the cores of its berths in service are gated. -/
def execIdleGating (s : State) : Res :=
  .next (if s.stage ≠ .ready ∨ s.seq.cur.isSome = true ∨ s.flt.phase ≠ .idle then s
    else
      (List.range 84).foldl (fun s b =>
        if (s.berth b).role = .inService ∧ bits (s.reg .schd (halfInst (halfOf b)) 0x040) 7 0 ≠ 0 ∧ s.awake b then s.gateBerth b else s) s)

/-- R412, R530: SPARE_BIST: a woken berth out of service ends its BIST, its store die reads as zero and it is gated again; a SPARE that fails
is RETIRED. -/
def execSpareBist (b : Berth) (ok : Bool) (s : State) : Res :=
  .next (let x := s.berth b.val
    if (x.role = .spare ∨ x.role = .retired) ∧ s.awake b.val = true then
      (s.setBerth b.val { x with role := if ok then x.role else .retired, storeOk := ok, store := [], held := [], holdSignal := false, badLines := []
                                 rowErrors := [] }).gateBerth b.val
    else s)

-- zones (R411)

/-- R411: ZONE_OC: one further divisor step for the zone's half. -/
def execZoneOc (z : Fin 6) (s : State) : Res :=
  .next (if !s.powered then s
    else
      let h := zoneHalf z.val
      let x := s.half h
      let d := max (divUp x.now) ((lookup x.zones z.val).getD 4)
      let s := (s.setHalf h { x with zones := Sparse.insert x.zones z.val d }).retarget
      ((zoneBasins z.val).filter (fun n => !(s.basin n).latched)).foldl (fun s n => s.raise .bsn n 4) s)

/-- R411: ZONE_OC_RELEASE. -/
def execZoneOcRelease (z : Fin 6) (s : State) : Res :=
  .next (let h := zoneHalf z.val
    let x := s.half h
    (s.setHalf h { x with zones := x.zones.filter (fun e => e.1 ≠ z.val) }).retarget)

-- the power controller (R415, R426)

/-- R398, R415, R426, R431: SCHD_PCAP.EFF in units of 10 W. -/
def State.effCap (s : State) : Nat :=
  min (min (bits (s.reg .schd 0 0x060) 15 0) 2200) (min (if s.inPackage then 1300 else 2200) s.cool.cap)

/-- R415: the drop in power of a step that has taken effect is recorded. -/
def State.recordDrops (s : State) (total : Nat) : State :=
  { s with powerSteps := s.powerSteps.map (fun e => if e.drop.isNone && e.div ≤ (s.half e.half).now then { e with drop := some (e.power - total) } else e) }

/-- R415: the power request of a half changes. -/
def State.askPower (s : State) (h : Half) (d : Nat) : State := (s.setHalf h { s.half h with power := d, pace := 0 }).retarget

/-- R415: one step up for a half, at most one in 100 µs. -/
def State.powerUp (s : State) (h : Half) (total : Nat) : State :=
  let x := s.half h
  let d := divUp (max x.power x.now)
  if x.pace < 10 ∨ d ≤ x.power then s
  else
    let e : PowerStep := { half := h, before := x.power, div := d, power := total, drop := none }
    ({ s with powerSteps := e :: s.powerSteps }).askPower h d

/-- R415: POWER_CONTROL_SAMPLE, every 10 µs. -/
def execPowerControlSample (m : PowerSample) (s : State) : Res :=
  .next (if s.stage ≠ .ready then s
    else
      let s := s.setReg .schd 0 0x064 (putBits (s.reg .schd 0 0x064) 15 0 (min m.total1ms 65535))
      let s := { s with west := { s.west with pace := min 10 (s.west.pace + 1) }, east := { s.east with pace := min 10 (s.east.pace + 1) } }
      let s := s.recordDrops m.total100us
      if s.effCap < m.total100us then s.powerUp (if m.east100us ≤ m.west100us then .west else .east) m.total100us
      else match s.powerSteps with
        | [] => s
        | e :: rest => match e.drop with
          | none => s
          | some d =>
            if 100 * (m.total1ms + d) < 98 * s.effCap ∧ 10 ≤ (s.half e.half).pace then ({ s with powerSteps := rest }).askPower e.half e.before else s)

-- clock roots (R413, R417, R423, R424)

/-- R417, R423, R424: LOCK_LOSS of a root. -/
def execLockLoss (standby : Bool) (s : State) : Res := .next (s.loseLock standby)

/-- R417, R423: REFCLK_100 is lost: neither root can lock. -/
def State.refGone (s : State) : State := if s.refLost then s else ({ s with refLost := true }).raise .clkg 2 1

/-- R417: REF_LOSS. -/
def execRefLoss (s : State) : Res := .next (if s.powered then s.refGone else s)

/-- R387, R417: the clock roots lock, the standby too unless it has lost its lock; without REFCLK_100 the module holds. -/
def State.lockClocks (s : State) : State :=
  if s.refLost then { s with stage := .holdClock, alert := true }
  else
    let lockOne := fun (s : State) (i : Nat) =>
      let w := s.reg .clkg i 0x040
      if i = s.activeRoot ∨ bits w 15 8 = 0 then s.setReg .clkg i 0x040 (putBits w 0 0 1) else s
    { lockOne (lockOne s 0) 1 with stage := .basins, alert := false }

/-- R417, R423, R424: REF_DEV: the deviation of REFCLK_100 is measured, in 0.01 ppm. -/
def execRefDev (ppm : BitVec 16) (s : State) : Res :=
  .next (if !s.powered then s
    else
      let n := ppm.toInt.natAbs
      let s := s.setReg .clkg 2 0x044 (field ppm.toNat 0)
      let s := if 10000 < n then s.raise .clkg 2 2 else s
      if 30000 < n then s.refGone
      else
        let s := { s with refLost := false }
        if s.stage = .holdClock then s.lockClocks else s)

end Sys2Proof.Machine
end

