-- ==== Sys2Proof/Machine/Residency.lean ====
section
/-! DEFINITION. Image slots (R313, R323, R324, R326–R332, R335): their commands, copy steps and the background re-hash. -/

namespace Sys2Proof.Machine

/-- R335: the slot that LTR_ISEL selects. -/
def State.islot (s : State) : Nat := bits (s.reg .ltr 0 0x060) 2 0

/-- R335: the codes of RESULT. -/
def resultWrongState : Nat := 1
/-- R335: NO_FIT. -/
def resultNoFit : Nat := 2
/-- R335: MISSING. -/
def resultMissing : Nat := 3

/-- R335: a command's RESULT. -/
def State.answerSlot (s : State) (slot r : Nat) : State := s.setImage slot { s.image slot with result := r }

/-- R335: a slot's base register in bytes. -/
def baseOf (w : Word) : Nat := bits w 27 0 * 4096

/-- R313, R324, R328: OPEN_LOAD. -/
def State.openLoad (s : State) : State :=
  let i := s.islot
  let w := s.regI .ltr 0 0x070 i
  if (s.image i).st = .empty then
    s.setImage i { st := .loading, bkpEn := bit w 31, bkpBase := if bit w 31 then baseOf w else 0 }
  else s.answerSlot i resultWrongState

/-- R313, R324, R328: the command. -/
def execOpenLoad (p : HostPort) (s : State) : Res :=
  .next (if s.pageWrites .ltr (portIx p) then s.openLoad else s)

/-- R324: whether every object of a package is present on this module. -/
def State.complete (s : State) (m : Option Manifest) (progs : List (Nat × Program)) (present : List Nat) : Bool := match m with
  | none => false
  | some m => (List.range (m.nprog + 1)).all (fun k => (lookup progs k).isSome) && (s.ownShards m).all present.contains

/-- R313, R324, R329: COMMIT. -/
def State.commitSlot (s : State) : State :=
  let i := s.islot
  let x := s.image i
  match x.st with
  | .loading =>
    if s.complete x.manifest x.progs x.present then s.setImage i { x with st := .ready, result := 0 } else s.answerSlot i resultMissing
  | .staging =>
    if s.complete x.stagedManifest x.stagedProgs x.stagedPresent then s.setImage i { x with st := .staged, result := 0 }
    else s.answerSlot i resultMissing
  | _ => s.answerSlot i resultWrongState

/-- R313, R324, R329: the command. -/
def execCommit (p : HostPort) (s : State) : Res :=
  .next (if s.pageWrites .ltr (portIx p) then s.commitSlot else s)

/-- R313, R323: UNLOAD, at once or when the slot's active descriptors have completed. -/
def State.unload (s : State) : State :=
  let i := s.islot
  let x := s.image i
  let may := match x.st with
    | .loading => true
    | .ready => (s.streamsOf i).isEmpty
    | .failed => (s.streamsOf i).isEmpty
    | _ => false
  if may then (s.setImage i { x with unloadAsked := true, result := 0 }).settleSlot i else s.answerSlot i resultWrongState

/-- R313, R323: the command. -/
def execUnload (p : HostPort) (s : State) : Res :=
  .next (if s.pageWrites .ltr (portIx p) then s.unload else s)

/-- R313, R329: OPEN_STAGE. -/
def State.openStage (s : State) : State :=
  let i := s.islot
  let x := s.image i
  let base := baseOf (s.regI .ltr 0 0x06C i)
  if x.st = .ready ∨ x.st = .failed then
    if s.regionThere base 49152 && clearOf base 49152 s.regions then
      s.setImage i { x with st := .staging, stageBase := base, stagedManifest := none, stagedProgs := [], stagedPresent := [], result := 0 }
    else s.answerSlot i resultNoFit
  else s.answerSlot i resultWrongState

/-- R313, R329: the command. -/
def execOpenStage (p : HostPort) (s : State) : Res :=
  .next (if s.pageWrites .ltr (portIx p) then s.openStage else s)

/-- R313, R330: SWAP, at the commit of the image's running step, or at once. -/
def State.swap (s : State) : State :=
  let i := s.islot
  let x := s.image i
  if x.st = .staged then
    let s := s.answerSlot i 0
    match s.seq.cur with
    | some t => if t.image = i then s.setImage i { s.image i with swapAsked := true } else s.startSwap i
    | none => s.startSwap i
  else s.answerSlot i resultWrongState

/-- R313, R330: the command. -/
def execSwap (p : HostPort) (s : State) : Res :=
  .next (if s.pageWrites .ltr (portIx p) then s.swap else s)

/-- R313, R323: ABANDON, at once or when the slot's active descriptors have completed. -/
def State.abandon (s : State) : State :=
  let i := s.islot
  let x := s.image i
  if x.st = .staging ∨ x.st = .staged then (s.setImage i { x with abandonAsked := true, result := 0 }).settleSlot i
  else s.answerSlot i resultWrongState

/-- R313, R323: the command. -/
def execAbandon (p : HostPort) (s : State) : Res :=
  .next (if s.pageWrites .ltr (portIx p) then s.abandon else s)

/-- R330: the next copy step of a slot that is SWAPPING is prepared; GO starts it. -/
def execCopyStep (s : State) : Res :=
  .next (match (List.range 8).find? (fun i => (s.image i).st == .swapping) with
    | none => s
    | some i =>
      let x := s.image i
      let running := match s.seq.cur with
        | some t => t.copy.isSome
        | none => false
      if running || s.seq.next.isSome || !(s.stage == .ready && s.flt.exec && s.flt.phase == .idle && s.cool.st == .normal) then s
      else match x.stagedManifest with
        | none => s
        | some m =>
          let t : Step := { id := s.seq.stepId + 1, image := i, prog := m.nprog, copy := some x.copyNext, entries := [], prepared := true }
          let s := (List.range 80).foldl (fun s lb => s.writeInputs t lb) s
          { s with seq := { s.seq with next := some t } })

/-- R326: the shards that are present and that a pass reads: the resident ones of a berth, or those of the device region. -/
def State.passOver (s : State) (x : ImageSt) (m : Manifest) (b : Option (Fin 80)) : List Nat :=
  (s.ownShards m).filter (fun k => x.present.contains k && (match s.shard? m k, b with
    | some y, some b => !y.streamed && y.berth == b.val
    | some y, none => y.streamed
    | none, _ => false))

/-- R326: whether a shard's bytes do not have its digest. -/
def State.shardWrong (s : State) (m : Manifest) (k : Nat) : Bool := match s.shard? m k with
  | some y => sha256 (s.shardBytes m y) != y.digest
  | none => false

/-- R326, R327: REHASH_PASS of a berth, or over the device region, of a slot in service. -/
def execRehashPass (b : Option (Fin 80)) (slot : ImageSlot) (badParts : List Nat) (s : State) : Res :=
  .next (let i := slot.val
    let x := s.image i
    if !(x.st == .ready || x.st == .staging || x.st == .staged) || bits (s.regI .ltr 0 0x074 i) 15 0 == 0 then s
    else match x.manifest with
      | none => s
      | some m =>
        let found := (s.passOver x m b).filter (s.shardWrong m)
        let parts := if b.isSome then badParts.filter (fun n => (lookup x.progs n).isSome && !x.progLost.contains n) else []
        let me := (b.map Fin.val).getD 80
        if found.isEmpty && parts.isEmpty then
          let clean := x.passClean.filter (· ≠ me) ++ [me]
          let whole := (List.range 80).all clean.contains && ((s.passOver x m none).isEmpty || clean.contains 80)
          s.setImage i (if whole then { x with good := s.stamp, passClean := [] } else { x with passClean := clean })
        else
          (s.setImage i { x with
            rehashBad := x.rehashBad.filter (fun k => !found.contains k) ++ found, progBad := x.progBad.filter (fun n => !parts.contains n) ++ parts
            passClean := [] }).raise .ltr 0 3)

end Sys2Proof.Machine
end

