-- ==== Sys2Proof/Machine/Boot.lean ====
section
/-! DEFINITION. Resets and the first second (R10–R16, R25, R216, R384–R391, R396, R398, R418, R461, R470, R498, R503): power-up, warm reset,
firmware, basins, training, binding, ready and the standing image. -/

namespace Sys2Proof.Machine

-- the start of a reset (R385, R386)

/-- R386: the first two steps of a warm reset: GOING_DOWN on every port in UP, and both host links down; the module forwards until
FORWARD_WINDOW_END. A module that holds for a failed stack leaves the hold at a cold power-up alone (R25). -/
def State.startWarm (s : State) : State :=
  if s.powered = false ∨ s.resetPending = true ∨ s.stackHold = true then s
  else
    let a := s.address.getD 0
    let s := ((List.range 84).filter (portLive s)).foldl (fun s z => s.sendCtl z (.goingDown a)) s
    let s := [HostPort.a, HostPort.b].foldl (fun s p =>
      let s := (s.stopChannels p).disableRings p
      let s := if (s.port p).leftReset then s.linkTo p .down else s
      s.setPort p { s.port p with decoder := false, locked := false, commitError := false, cfgReady := false, leftReset := false, resp := .none }) s
    { s with forwarding := true, resetPending := true }

/-- R385, R390: MCTP_RESET, which firmware receives once it has started; until the module is ready it is answered BUSY (DEDUCED, log entry 199). -/
def execMctpReset (s : State) : Res :=
  .next (if !s.fwStarted then s else if s.stage = .ready then ({ s with mctpBusy := false }).startWarm else { s with mctpBusy := true })

/-- R385: MOD_RESET_N held low for 10 µs. -/
def execModResetN (s : State) : Res := .next s.startWarm

/-- R465: FLT_CUR as a word. -/
def errWord (e : Option FltErr) : Word := match e with
  | none => 0
  | some e => flag true 31 ||| field e.scope 28 ||| field e.type 23 ||| field e.inst 9 ||| field e.bit 4

/-- R461: the ports whose link is in L0 are told. -/
def State.msiLive (s : State) : State :=
  let s := if s.portA.link = .l0 then s.msi 0 0 else s
  if s.portB.link = .l0 then s.msi 1 0 else s

/-- R461: MODULE_FATAL: FLT_FATAL, ALERT_OUT_N and vector 0, then a warm reset; a rail drop follows R436 instead. -/
def execModuleFatal (s : State) : Res :=
  .next (match s.flt.cur with
    | none => s
    | some e =>
      if e.scope ≠ 5 ∨ s.flt.phase = .reset then s
      else
        let s := (s.setReg .flt 0 0x068 (errWord (some e))).alerted.msiLive
        ({ s with flt := { s.flt with phase := .reset, fatal := true } }).startWarm)

/-- R385, R396: BROWN_OUT: a cold reset; everything is lost until the rail comes up again. -/
def execBrownOut (_n : Basin) (s : State) : Res := .next (if s.powered then s.wiped else s)

/-- R400: the harbour basins are up by T0 (R418). -/
def State.harboursUp (s : State) : State :=
  [96, 97, 98, 99].foldl (fun s n => (s.setBasin n { s.basin n with regulating := true }).seeRail n 650) s

/-- R398, R421: every basin starts on one last stage. -/
def State.onStage (s : State) (inpkg : Bool) : State :=
  if inpkg then (List.range 100).foldl (fun s n => (s.setBasin n { s.basin n with inpkg := true }).setReg .bsn n 0x040 0x100#32) s else s

/-- R396, R398, R417: COLD_POWER_UP: T0. The primary root drives the clocks. -/
def execColdPowerUp (straps : BitVec 4) (plate : Bool) (s : State) : Res :=
  .next (if s.powered then s
    else
      let s := ({ s.wiped with straps := straps, powered := true }).onStage (!plate)
      (s.setReg .clkg 0 0x040 2#32).harboursUp)

/-- R417: whether the root that a warm reset would choose has failed. -/
def State.rootFailed (s : State) : Bool :=
  bit (s.reg .clkg 2 0x040) 1 && bits (s.reg .clkg 1 0x040) 15 8 != 0 && !bit (s.reg .clkg 1 0x040) 0

/-- R398, R417, R424, R467, R503: what a warm reset keeps: FLT_UNAV, FLT_FATAL, the losses of lock, the choice of root and of last stages, what
R481 bars until a cold power-up, and the pins. -/
def State.keptWarm (s : State) : State :=
  let next := bit (s.reg .clkg 2 0x040) 1
  let root := fun (w : Word) (active : Bool) => field (bits w 15 8) 8 ||| flag active 1
  let w := { s.wiped with
    powered := true, refLost := s.refLost, plateLost := s.plateLost, unav := s.unav, cool := { alertPin := s.cool.alertPin }
    flt := { fatal := s.flt.fatal }, secu := { noSign := s.secu.noSign } }
  let w := (w.setReg .flt 0 0x064 (s.reg .flt 0 0x064)).setReg .flt 0 0x068 (s.reg .flt 0 0x068)
  let w := (w.setReg .clkg 0 0x040 (root (s.reg .clkg 0 0x040) (!next))).setReg .clkg 1 0x040 (root (s.reg .clkg 1 0x040) next)
  let w := w.setReg .clkg 2 0x040 (flag next 1 ||| flag next 0)
  (List.range 100).foldl (fun w n =>
    let v := s.reg .bsn n 0x040 &&& 0x100#32
    if v = 0 then w else (w.setBasin n { w.basin n with inpkg := true }).setReg .bsn n 0x040 v) w

/-- R386, R417: WARM_T0: the timeline starts again, unless the chosen root has failed. An alert that still stands stops the module again. -/
def execWarmT0 (straps : BitVec 4) (s : State) : Res :=
  .next (if s.resetPending = false ∨ s.rootFailed = true then s
    else
      let w := ({ s.keptWarm with straps := straps }).harboursUp
      if w.cool.alertPin then w.suddenStop else w)

-- firmware (R470–R472)

/-- R470: the fields of a firmware copy: SVN, LEN and the body's end. -/
def copyLen (c : List Byte) : Nat := leNat ((c.drop 8).take 4)

/-- R470: SVN. -/
def copySvn (c : List Byte) : Nat := leNat ((c.drop 4).take 1)

/-- R470: whether the boot ROM accepts a copy. -/
def State.copyGood (s : State) (c : List Byte) : Bool :=
  let n := 128 + copyLen c
  let pub := (c.drop n).take 60
  128 ≤ c.length && leNat (c.take 4) == 0x57465A4E && copySvn c ≤ 64 && n + 3344 ≤ c.length && leNat (sha256 pub) == s.fuses.fwRoot.toNat &&
  (c.drop 32).take 32 == sha256 ((c.drop 128).take (copyLen c)) && s.fuses.rollback ≤ copySvn c &&
  hssVerify pub ((c.drop (n + 60)).take 3284) (c.take n)

/-- R470: a firmware copy, true for B. -/
def State.fwCopy (s : State) (b : Bool) : List Byte := if b then s.flash.copyB else s.flash.copyA

/-- R470, R477, R480, R484: firmware runs from a copy: SECU takes its SVN, a nonce and the identity tree of the next index. -/
def State.runFirmware (s : State) (b : Bool) : State :=
  let c := s.fwCopy b
  let s := { s with fwStarted := true, secu := { s.secu with running := some b, svn := copySvn c, fwDigest := sha256 c
                                                             nonce := Config.nonce s.draws, bottom := s.flash.nextFree / 1024 + 1 } }
  s.drawn.lockClocks

/-- R387, R470: FIRMWARE_BOOT: the preferred copy runs, else the other, else the module holds in recovery. -/
def execFirmwareBoot (s : State) : Res :=
  .next (if !s.atStage .firmware then s
    else
      let b := s.flash.preferB
      if s.copyGood (s.fwCopy b) then s.runFirmware b
      else if s.copyGood (s.fwCopy (!b)) then (s.runFirmware (!b)).raise .secu 0 0
      else { s with stage := .recovery, alert := true })

-- basins (R418, R524)

/-- R418: the basins of a wave. -/
def waveBasins (w : Nat) : List Nat := (List.range 7).map (fun y => y * 12 + w) ++ (if w % 2 = 0 then [84 + w / 2, 90 + w / 2] else [])

/-- R418, R524: a basin regulates, with its clocks gated; the port of a compute berth listens if it has a role and a cable
(R344). -/
def State.basinUp (s : State) (n : Nat) : State :=
  let x := s.basin n
  if x.regulating || x.latched then s
  else
    let s := (s.setBasin n { x with regulating := true }).seeRail n 650
    let z := s.zport n
    if n < 84 ∧ z.st = .down ∧ z.role ≠ 15 ∧ s.uncabled.contains n = false then s.setZport n { z with st := .listen } else s

/-- R387, R418: BASIN_WAVE; BIST and training begin when every compute and memory basin is up or latched off. -/
def execBasinWave (w : Fin 12) (s : State) : Res :=
  .next (if !s.atStage .basins then s
    else
      ((waveBasins w.val).foldl State.basinUp s).goOn)

-- BIST, training and binding (R13–R15, R20, R25, R216, R387, R530)

/-- R387, R524: BIST_TRAINING_DONE of a berth or a stack. -/
def execBistTrainingDone (x : TrainSubject) (ok : Bool) (s : State) : Res :=
  .next (if !s.atStage .bist then s
    else match x with
      | .berth b =>
        let y := s.berth b.val
        if y.trained || s.dark b.val then s
        else
          (s.setBerth b.val { y with trained := true, storeOk := ok, role := if ok then .spare else .retired, removed := s.repairMap b.val
                                     store := [], held := [], holdSignal := false, badLines := [], rowErrors := [] }).goOn
      | .stack k =>
        let y := s.stack k.val
        let mine := fun (l : List Nat) => (l.filter (fun p => p / 2 ^ 25 = k.val)).map (· % 2 ^ 25)
        if y.trained then s
        else
          let s := if ok then s else s.raise .hbmc k.val 5
          (s.setStack k.val { y with trained := true, failed := !ok, retired := mine s.flash.retired
                                     softRepaired := mine s.flash.softRepaired }).goOn)

/-- R384, R387: MEM_ACTIVE: the host parts have been cleared and the ranges become usable. -/
def execMemActive (s : State) : Res :=
  .next (if !s.atStage .clearing then s
    else { s with hbm := s.hbm.filter (fun e => s.hostLimit ≤ e.1), stage := .optical, portA := { s.portA with memActive := true }
                  portB := { s.portB with memActive := true } })

-- the standing image (R384, R473)

/-- R384: a shard of the standing image is checked and placed in slot 7. -/
def State.standShard (s : State) (m : Manifest) (e : Nat × List Byte) : Option State := match s.shard? m e.1 with
  | none => some s
  | some y =>
    let d : ShardPlace := { slot := 7, staging := false, index := e.1, shard := y }
    if e.2.length ≠ y.len ∨ sha256 e.2 ≠ y.digest ∨ (!y.streamed && (s.physOf y.berth).isNone) = true ∨ s.shardRetired d 0 y.len = true then none
    else
      let t := s.placeShard d 0 false e.2
      some (t.setImage 7 { t.image 7 with present := (t.image 7).present ++ [e.1] })

/-- R384: a program of the standing image is checked and kept in slot 7. -/
def State.standProgram (s : State) (m : Manifest) (e : Nat × List Byte) : Option State := match m.progs[e.1]? with
  | none => some s
  | some (len, capacity, _, digest) =>
    if e.2.length ≠ len ∨ sha256 e.2 ≠ digest ∨ (loadFault e.2 s.opticalBerths s.moduleCount).isSome = true then none
    else
      let x := s.image 7
      some (s.setImage 7 { x with progs := Sparse.insert x.progs e.1 (programOf e.2 capacity) })

/-- R384: the parts of the standing image are loaded in order, none when one fails. -/
def standAll (f : State → Nat × List Byte → Option State) : List (Nat × List Byte) → State → Option State
  | [], s => some s
  | e :: t, s => match f s e with
    | some u => standAll f t u
    | none => none

/-- A list with the positions of its elements. -/
def numbered {α : Type} (l : List α) : List (Nat × α) := (List.range l.length).zip l

/-- R384: the standing image is loaded from boot flash into slot 7, none when it fails. -/
def State.standLoad (s : State) (m : Manifest) : Option State :=
  let s := s.setImage 7 { st := .loading, manifest := some m }
  match standAll (fun s e => s.standProgram m e) (numbered s.flash.standProgs) s with
  | none => none
  | some s => match standAll (fun s e => s.standShard m e) (numbered s.flash.standShards) s with
    | none => none
    | some s =>
      let x := s.image 7
      if s.complete x.manifest x.progs x.present then some (s.setImage 7 { x with st := .ready }) else none

/-- R57, R384: the first part of the standing image that fails, when it is a program that fails a load-time check, is reported. -/
def State.reportStanding (s : State) (m : Manifest) : State :=
  let t := s.setImage 7 { st := .loading, manifest := some m }
  match (numbered s.flash.standProgs).find? (fun e => (t.standProgram m e).isNone) with
  | none => s
  | some e => match m.progs[e.1]? with
    | none => s
    | some (len, _, _, digest) =>
      if e.2.length ≠ len ∨ sha256 e.2 ≠ digest then s
      else (loadFault e.2 s.opticalBerths s.moduleCount).elim s (s.reportLoad 7 e.1)

/-- R384, R473: the standing image, which verifies under key slot 0 alone; a failed load leaves slot 7 EMPTY and sets a fault. -/
def State.standing (s : State) : State :=
  let (c, m) := s.acceptManifest 7 false s.flash.standManifest
  match c, m with
  | .ok, some m =>
    if m.keySlot ≠ 0 then s.raise .secu 0 1
    else match s.standLoad m with
      | some t => t
      | none => (s.reportStanding m).raise .ltr 0 2
  | .sigBad, _ => s.raise .secu 0 1
  | _, _ => s.raise .ltr 0 2

/-- R15, R384, R387, R498: MODULE_READY, without program execution when a half is short of berths. -/
def execModuleReady (ms : BitVec 16) (s : State) : Res :=
  .next (if !s.atStage .optical then s
    else
      let s := { s with stage := .ready, tms := ms.toNat, flt := { s.flt with fatal := false } }
      if !s.flt.exec then (s.raise .flt 0 1).msiFault
      else if s.straps.getLsbD 1 then s.standing else s)

end Sys2Proof.Machine
end

