-- ==== Sys2Proof/Machine/Matrix.lean ====
section
/-! DEFINITION. The matrix class (R113–R119) and what a core records of a tile's trouble (R146–R150, R155–R157). -/

namespace Sys2Proof.Machine

/-- R113: writes a configuration word. -/
def setCfg (k : Core) (w : CfgWord) (v : Word) : Core := match w with
  | .tshape => { k with tshape := v }
  | .tfmt => { k with tfmt := v }
  | .tbound => { k with tbound := v }
  | .reserved => k

/-- R113, R102: MCFG. -/
def execMcfg (c : CoreId) (ga : GReg) (word : CfgWord) (s : State) : Res :=
  .next (s.onCore c .matrix (fun k =>
    if word = .reserved then s.fetchFault c.val else s.setCore c.val (setCfg k word (gReg k ga))))

/-- R117: the ranges of a tile in the order in which they are checked. -/
def tileRanges (g : TileCfg) (out act wgt : Nat) : List (Access × Nat × Nat) :=
  [(.read, act, g.actBytes), (.read, wgt, g.weightBytes), (.write, out, g.outBytes)]

/-- R118: a tile at its first attempt. -/
def firstAttempt (k : Core) (g : TileCfg) (out act wgt : Nat) : Tile :=
  { shape := k.tshape, fmt := k.tfmt, bound := k.tbound, out := out, act := act, wgt := wgt, attempt := 0, af := g.firstFmt }

/-- R118: MTILE checks its configuration and its ranges and starts its first attempt. It waits for the tile before it. -/
def execMtile (c : CoreId) (gd ga gb : GReg) (s : State) : Res :=
  .next (s.onCore c .matrix (fun k =>
    if k.tile.isSome then s.stall c .matrix k
    else match parseTile k.tshape k.tfmt k.tbound with
      | none => s.fetchFault c.val
      | some g =>
        let out := align64 (gReg k gd)
        let act := align64 (gReg k ga)
        let wgt := align64 (gReg k gb)
        let r := tileRanges g out act wgt
        if r.any (fun x => interlocked k x.2.1 x.2.2 (x.1 != .read)) then s.stall c .matrix k
        else match r.findSome? (fun x => refused k (s.block c.val) x.1 x.2.1 x.2.2) with
          | some (cause, x) => (s.setCore c.val k).boundsFault c.val 2 cause x
          | none => s.setCore c.val { k with tile := some (firstAttempt k g out act wgt) }))

/-- A byte of a core's scratchpad at an offset from an operand's base. -/
def operand (k : Core) (base : Nat) (i : Nat) : Byte := Memory.byte k.scratch (base + i)

/-- R118: what the attempt in progress comes to. -/
def tileAttempt (k : Core) (t : Tile) (g : TileCfg) : Attempt :=
  g.attempt (operand k t.act) (operand k t.wgt) t.attempt t.af

/-- R77, R118, R148: the ranges that the attempt in progress reads: its activation operand, which a repeat finds in the widen reserve, and its
weights. -/
def tileReads (blk : CoreBlock) (t : Tile) (g : TileCfg) : List (Nat × Nat) :=
  [if t.attempt = 0 then (t.act, g.actBytes) else (blk.rbase, g.reserveBytes t.af), (t.wgt, g.weightBytes)]

/-- R77: whether an attempt reads an uncorrectable word. -/
def tileUnreadable (k : Core) (l : List (Nat × Nat)) : Bool := l.any (fun r => unreadable k r.1 r.2)

/-- R77: what an attempt's reads record. -/
def State.noteTile (s : State) (c : Nat) (k : Core) (l : List (Nat × Nat)) : State := l.foldl (fun s r => s.noteRead c k r.1 r.2) s

/-- R147: the kind of trouble that an attempt records, a free choice among those that it contains (log entry 22). -/
def recordedTrouble (f : Fuses) (k : Core) (t : Tile) (g : TileCfg) (kinds : List Trouble) : Trouble :=
  kinds.getD (Config.troubleChoice f.stepping t.shape t.fmt t.bound (Memory.read k.scratch t.act g.actBytes)
    (Memory.read k.scratch t.wgt g.weightBytes) t.attempt % kinds.length) .saturation

/-- R156, R157: the cause as CORE_WLAST codes it. -/
def troubleCode : Trouble → Nat
  | .saturation => 0
  | .underflow => 1
  | .range => 2
  | .nonfinite => 2

/-- R156, R157: an attempt's trouble is counted and described in the core's page. -/
def State.recordTrouble (s : State) (c code fmt nxt : Nat) : State := match s.coreInst c with
  | none => s
  | some i =>
    (s.countSat .core i 0x068 (8 * code + 7) (8 * code)).setReg .core i 0x06C
      (field code 24 ||| field nxt 20 ||| field fmt 16 ||| field s.seq.epoch 0)

/-- R146, R148: a narrow attempt meets trouble and the next attempt starts in the widen reserve; one that needs more than the
reserve is a bounds fault with cause 6, and the tile does not take place. -/
def execAttemptTrouble (c : CoreId) (s : State) : Res :=
  .next (let k := s.core c.val
    if s.coresMode ≠ .run then s
    else match k.tile with
      | none => s
      | some t => match parseTile t.shape t.fmt t.bound with
        | none => s
        | some g =>
          let blk := s.block c.val
          let l := tileReads blk t g
          let s := s.noteTile c.val k l
          if tileUnreadable k l then s
          else match tileAttempt k t g with
          | .result _ _ => s
          | .trouble kinds =>
            let nx := nextFmt t.attempt t.af
            let s := s.recordTrouble c.val (troubleCode (recordedTrouble s.fuses k t g kinds)) t.af nx
            if blk.rsize < g.reserveBytes nx then
              (s.setCore c.val { k with tile := none }).boundsFault c.val 3 6 (blk.rbase + blk.rsize)
            else
              let s := if t.attempt = 1 then s.countCore c.val 0x064 31 16 else s
              s.setCore c.val { k.put blk.rbase (g.reserveOperand (operand k t.act) nx) with
                tile := some { t with attempt := t.attempt + 1, af := nx } })

/-- R71, R118, R150, R155: the attempt whose result stands leaves its sums in the accumulator array and writes the output once. An attempt that
reads an uncorrectable word comes to nothing (R77). -/
def execTileComplete (c : CoreId) (s : State) : Res :=
  .next (let k := s.core c.val
    if s.coresMode ≠ .run then s
    else match k.tile with
      | none => s
      | some t => match parseTile t.shape t.fmt t.bound with
        | none => s
        | some g =>
          let l := tileReads (s.block c.val) t g
          let s := s.noteTile c.val k l
          if tileUnreadable k l then s
          else match tileAttempt k t g with
          | .trouble _ => s
          | .result bytes alarm =>
            let s := if alarm then s.countCore c.val 0x068 31 24 else s
            let s := if t.attempt = 1 then s.countCore c.val 0x064 15 0 else s
            let sums := g.sums (operand k t.act) (operand k t.wgt) t.attempt t.af
            s.setCore c.val { k.put t.out bytes with tile := none, acc := sums ++ k.acc.drop sums.length })

end Sys2Proof.Machine
end

