-- ==== Sys2Proof/Machine/MemorySlot.lean ====
section
/-! DEFINITION. The memory class (R127–R130): store-die reads and writes and dynamic requests of a core. -/

namespace Sys2Proof.Machine

/-- R128: XRD's landing range is checked and its lines wait for the store controller. They count as read (R98) at issue (DESIGN CHOICE, log
entry 171). -/
def execXrd (c : CoreId) (glocal gline gcount : GReg) (s : State) : Res :=
  .next (s.onCore c .memory (fun k =>
    let n := (gReg k gcount).toNat
    let a := align128 (gReg k glocal)
    let line := (gReg k gline).toNat % storeLines
    if n = 0 then s.setCore c.val k
    else s.checked c .memory k 4 .land a (n * 128) (fun s => s.setCore c.val k) (fun s => s.setCore c.val { k with
      reads := k.reads ++ (List.range n).map (fun i => { line := (line + i) % storeLines, dst := a + i * 128, queued := false })
      lines := k.lines + n })))

/-- R83, R128: XWR writes lines of the berth's store die. It waits for the core's own reads of those lines. -/
def execXwr (c : CoreId) (glocal gline gcount : GReg) (s : State) : Res :=
  .next (s.onCore c .memory (fun k =>
    let n := (gReg k gcount).toNat
    let a := align128 (gReg k glocal)
    let line := (gReg k gline).toNat % storeLines
    if n = 0 then s.setCore c.val k
    else if k.reads.any (fun r => (r.line + storeLines - line) % storeLines < n) then s.stall c .memory k
    else s.checked c .memory k 4 .read a (n * 128) (fun s => s.setCore c.val k) (fun s => match s.physOf (c.val / 144) with
      | none => s.setCore c.val k
      | some b => (s.setCore c.val k).writeLines b n line (Memory.read k.scratch a (n * 128)))))

/-- R129: a request descriptor. -/
structure DreqDesc where
  kind : Nat
  write : Bool
  target : Nat
  module : Nat
  len : Nat
  tag : Nat
  addr : Nat
  deriving DecidableEq, Repr, Inhabited

/-- R282: OFFSET and the other fields of a pager operation lie in ADDR; this is OFFSET, in units of 64 B. -/
def pagerOffset (addr : Nat) : Nat := addr / 2 ^ 37 % 1024

/-- R282: whether the ADDR of a KIND 2 request is a pager operation: OP is READ_PAGE and bits [63:47] are zero. -/
def pagerOpOk (addr : Nat) : Bool := addr % 16 == 1 && addr < 2 ^ 47

/-- R129, R282: the descriptor that four words spell, none for a reserved encoding. -/
def parseDesc (w0 w1 : Word) (addr : Nat) : Option DreqDesc :=
  let d : DreqDesc := { kind := bits w0 1 0, write := bit w0 2, target := bits w0 15 8, module := bits w0 31 16, len := bits w1 13 0,
                        tag := bits w1 19 16, addr := addr }
  if d.kind = 3 ∨ bits w0 7 3 ≠ 0 ∨ bits w1 15 14 ≠ 0 ∨ bits w1 31 20 ≠ 0 ∨ d.len % 64 ≠ 0 ∨ d.len < 64 ∨ 8192 < d.len ∨
      (if d.kind = 2 then pagerOpOk addr = false else addr % 64 ≠ 0) ∨ (d.kind = 2 ∧ d.write) ∨ (if d.kind = 0 then 79 else 11) < d.target ∨
      (d.kind = 2 ∧ 33792 < pagerOffset addr * 64 + d.len) then none else some d

/-- R352: the physical address of a logical module that is bound and live; this module itself when the slice is it alone. -/
def liveModule (s : State) (m : Nat) : Option Nat := match s.sliceModules with
  | none => if m = 0 then some 0 else none
  | some l => if m < l.length then (let w := s.regI .zlnk 0 0x090 m; if bit w 31 then some (bits w 14 0) else none) else none

/-- R129, R169, R172: the header of a core's request. -/
def requestHeader (s : State) (b p : Nat) (d : DreqDesc) (dmod : Nat) : PacketHeader :=
  let away := d.module ≠ s.moduleIndex
  let unit := if d.kind = 0 then unitStore else if d.kind = 1 then 0 else 1
  let dst := if away then dstOptical
    else if d.kind = 0 then (s.physOf d.target).getD 255
    else 0x54 + d.target
  { type := if d.kind = 2 then 2 else if d.write then 1 else 0, gen := decide (s.gen.gennum % 2 = 1), fwd := away
    dst := BitVec.ofNat 8 dst, dunit := BitVec.ofNat 8 unit, src := BitVec.ofNat 8 b, sunit := BitVec.ofNat 8 p, tag := BitVec.ofNat 4 d.tag
    len := BitVec.ofNat 14 d.len, addr := BitVec.ofNat 48 d.addr, dmod := BitVec.ofNat 15 dmod, smod := BitVec.ofNat 15 ((s.address).getD 0)
    dlb := BitVec.ofNat 7 (if d.kind = 0 then d.target else 80 + d.target), hops := 0 }

/-- R96: the peak of outstanding requests is tracked. -/
def State.trackPeak (s : State) (c : Nat) : State := match s.coreInst c with
  | none => s
  | some i =>
    let w := s.reg .core i 0x054
    s.setReg .core i 0x054 (putBits w 12 8 (max (bits w 12 8) (s.core c).dyn.length))

/-- R130: a request that passes its checks is outstanding and enters the mesh at the core's berth; one to a module that is not live is
refused there. -/
def State.sendRequest (s : State) (c : Nat) (k : Core) (a : Nat) (d : DreqDesc) : State :=
  let waiting := { k with dyn := k.dyn ++ [{ tag := d.tag, write := d.write, dst := a, len := d.len }], requests := k.requests + 1 }
  let u := (s.setCore c waiting).trackPeak c
  match s.physOf (c / 144) with
  | none => u
  | some b =>
    match liveModule s d.module with
    | none => (u.raise .mesh b 3).setCore c { k with requests := k.requests + 1 }
    | some dmod =>
      u.inject b (requestHeader s b (physCore (s.berth b).removed (c % 144)) d dmod) (if d.write then Memory.read k.scratch a d.len else [])
        (.core (c % 144)) (some c)

/-- R129, R130: DREQ. A reserved descriptor stops the core before its memory and scalar slots; a request stalls while 16 are outstanding or
its tag is. -/
def execDreq (c : CoreId) (glocal gdesc : GReg) (s : State) : Res :=
  .next (s.onCore c .memory (fun k =>
    let a := align64 (gReg k glocal)
    let x := (gReg k gdesc).toNat / 16 * 16
    s.checked c .memory k 0 .read x 16 (fun s => s.setCore c.val k) (fun s =>
      match parseDesc (Memory.word k.scratch x) (Memory.word k.scratch (x + 4)) (Memory.dword k.scratch (x + 8)).toNat with
      | none => s.fetchFault c.val
      | some d =>
        if 16 ≤ k.dyn.length ∨ k.dyn.any (fun r => r.tag = d.tag) then s.stall c .memory k
        else s.checked c .memory k 5 (if d.write then .read else .land) a d.len (fun s => s.setCore c.val k) (fun s => s.sendRequest c.val k a d))))

/-- R112: a core that waits at END for its dynamic requests goes on once none is left. -/
def State.resumeEnd (s : State) (c : Nat) : State :=
  let k := s.core c
  if k.st = .ending ∧ k.dyn.isEmpty then s.endChecked c k else s

/-- R65, R130: the response to a request has reached the core and lands; a response for a tag that is not outstanding is discarded, and so is
one that reaches a held core (R446). -/
def execDynResponseDelivery (c : CoreId) (tag : Fin 16) (s : State) : Res :=
  .next (match s.delivered.find? (fun p => p.core = some c.val && p.h.tag.toNat = tag.val && isResponse p.h) with
    | none => s
    | some p =>
      let k := s.core c.val
      let s := s.dropServed p.id
      match k.dyn.find? (fun r => r.tag = tag.val) with
      | none => s
      | some r =>
        let k := if r.write || s.coresMode != .run then k else k.put r.dst (p.payload.take r.len)
        (s.setCore c.val { k with dyn := k.dyn.filter (fun r => r.tag ≠ tag.val) }).resumeEnd c.val)

end Sys2Proof.Machine
end

