-- ==== Sys2Proof/Machine/Secu.lean ====
section
/-! DEFINITION. SECU (R471–R484): attestation, the reservation of signature indices, debug tokens, the seal, the rollback count and firmware
updates. -/

namespace Sys2Proof.Machine

-- attestation (R475–R479, R481)

/-- R407, R459, R478: whether the replay-protected flash cannot be reached. -/
def State.rpmbGone (s : State) : Bool := (s.basin 99).latched || s.dark 11

/-- R313, R335: the code of a slot's state. -/
def slotCode : SlotSt → Nat
  | .empty => 0 | .loading => 1 | .ready => 2 | .staging => 3 | .staged => 4 | .swapping => 5 | .failed => 6

/-- R10, R30: the code of a role. -/
def roleCode : Role → Nat
  | .inService => 0 | .spare => 1 | .retired => 2 | .dark => 3

/-- R2, R498: the stepping field. -/
def steppingCode : Stepping → Nat
  | .a1 => 0xA1
  | .b0 => 0xB0

/-- R479: what the digest over the configuration covers. -/
def State.measuredConfig (s : State) : List Nat :=
  [s.straps.toNat, bits (s.reg .hbmc 0 0x060) 11 0, bits (s.reg .hbmc 0 0x064) 11 0, if s.repairEn then 1 else 0] ++
  (List.range 8).map s.keyHash ++ (List.range 84).map (fun b => roleCode (s.berth b).role)

/-- R479: what the digest over the fences covers. -/
def State.measuredFences (s : State) : List Nat :=
  [(s.reg .zlnk 0 0x080).toNat, (s.reg .zlnk 0 0x084).toNat, (s.reg .zlnk 0 0x088).toNat] ++
  (List.range 84).map (fun z => bits (s.reg .zlnk z 0x04C) 8 8)

/-- R474, R479: a report's entry for an image slot. -/
def State.slotEntry (s : State) (i : Nat) : List Byte :=
  let x := s.image i
  let (key, digest) := match x.manifest with
    | some m => (m.keySlot, if x.st = .empty then List.replicate 32 0 else m.digest)
    | none => (0, List.replicate 32 0)
  leBytes (slotCode x.st) 4 ++ leBytes key 4 ++ digest

/-- R479: the signed bytes of a report. -/
def State.reportBytes (s : State) (nonce : List Byte) (i : Nat) : List Byte :=
  leBytes 0x52415A4E 4 ++ leBytes 1 2 ++ leBytes (steppingCode s.fuses.stepping) 2 ++ leBytes s.fuses.serial.toNat 16 ++
  (nonce ++ List.replicate 32 0).take 32 ++ leBytes s.stamp.toNat 8 ++ leBytes i 4 ++
  leBytes (if s.secu.sealed then 1 else 0) 1 ++ leBytes s.secu.debug 1 ++ leBytes s.fuses.rollback 1 ++ leBytes s.secu.svn 1 ++
  s.secu.fwDigest ++ leBytes (Config.measureDigest 0 s.measuredConfig).toNat 32 ++ leBytes (Config.measureDigest 1 s.measuredFences).toNat 32 ++
  (List.range 8).flatMap s.slotEntry

/-- R477: the generation of the next bottom tree begins when the leaf index reaches 768. -/
def State.growTree (s : State) (i : Nat) : State :=
  if 768 ≤ i % 1024 ∧ s.secu.bottom = i / 1024 + 1 then { s with secu := { s.secu with building := true } } else s

/-- R475, R476, R479: the waiting request is signed with the lowest unused index of the reserved block, once its tree exists; the response
carries the identity key and its certificate. -/
def State.signWaiting (s : State) : State := match s.secu.waiting with
  | none => s
  | some nonce =>
    let i := s.secu.blockNext
    if s.secu.blockEnd ≤ i then s
    else if s.secu.bottom ≤ i / 1024 then { s with secu := { s.secu with building := true } }
    else
      let body := s.reportBytes nonce i
      let s := { s with secu := { s.secu with waiting := none, blockNext := i + 1
                                              report := body ++ Config.identitySign i body ++ s.flash.identity ++ s.flash.cert } }
      s.growTree i

/-- R476, R477: a block of 64 indices is asked for. -/
def State.reserveBlock (s : State) (nonce : List Byte) : State :=
  if 2 ^ 30 ≤ s.flash.nextFree then s.raise .secu 0 3
  else { s with secu := { s.secu with waiting := some nonce, reserving := true } }

/-- R390, R478, R479, R481: ATTESTATION_REQUEST: one at a time, any other answered BUSY, as is every one before ready; none is served after debug
level 2, or without the replay-protected flash. -/
def execAttestationRequest (nonce : List Byte) (s : State) : Res :=
  .next (if !s.fwStarted then s
    else if s.stage ≠ .ready ∨ s.secu.waiting.isSome = true then { s with mctpBusy := true }
    else
    let s := { s with mctpBusy := false }
    if s.secu.noSign then s
    else if s.rpmbGone then s.raise .secu 0 2
    else if s.secu.blockNext < s.secu.blockEnd then ({ s with secu := { s.secu with waiting := some nonce } }).signWaiting
    else s.reserveBlock nonce)

/-- R476, R478: INDEX_RESERVATION_ACK; without it nothing is signed (log entry 48 for what the flash then holds). -/
def execIndexReservationAck (ok : Bool) (s : State) : Res :=
  .next (if !s.secu.reserving then s
    else
      let b := s.flash.nextFree
      if ok && !s.rpmbGone then
        let s := { s with flash := { s.flash with nextFree := b + 64 }, secu := { s.secu with reserving := false, blockNext := b, blockEnd := b + 64 } }
        s.signWaiting
      else
        let stuck := Config.reservationStuck s.draws
        let s := { s.drawn with flash := { s.flash with nextFree := if stuck then b + 64 else b }
                                secu := { s.secu with reserving := false, waiting := none } }
        s.raise .secu 0 2)

/-- R477: BOTTOM_TREE_READY; a request that waited for the tree is signed. -/
def execBottomTreeReady (s : State) : Res :=
  .next (if s.secu.building then ({ s with secu := { s.secu with building := false, bottom := s.secu.bottom + 1 } }).signWaiting else s)

-- debug (R480, R481)

/-- R480: the requested level of a token: what stands between the nonce and the public key. -/
def tokenLevel (t : List Byte) : Nat := leNat ((t.take (t.length - 3344)).drop 32)

/-- R480: whether a token is valid. -/
def State.tokenGood (s : State) (t : List Byte) : Bool :=
  let n := t.length - 3344
  let pub := (t.drop n).take 60
  3376 < t.length && leNat (t.take 16) == s.fuses.serial.toNat && leNat ((t.drop 16).take 16) == s.secu.nonce.toNat &&
  (tokenLevel t == 1 || tokenLevel t == 2) && leNat (sha256 pub) == s.fuses.dbgRoot.toNat && hssVerify pub ((t.drop (n + 60)).take 3284) (t.take n)

/-- R480, R481, R482: DEBUG_TOKEN: a valid one raises the level and replaces the nonce; any other fails its verification. -/
def execDebugToken (token : List Byte) (s : State) : Res :=
  .next (if !s.fwStarted || s.secu.sealed then s
    else if s.tokenGood token then
      let n := max s.secu.debug (tokenLevel token)
      let s := { s with secu := { s.secu with debug := n, nonce := Config.nonce s.draws, noSign := s.secu.noSign || n == 2 } }
      s.drawn
    else s.raise .secu 0 1)

-- the seal and the rollback count (R471, R482)

/-- R482: a write of SECU_SEAL. -/
def State.writeSeal (s : State) (v : Word) : State :=
  if s.fwStarted && bit v 0 then { s with secu := { s.secu with sealed := true } } else s

/-- R482: SEAL. -/
def execSeal (v : Word) (s : State) : Res := .next (s.writeSeal v)

/-- R471: a write of SECU_SVN. -/
def State.writeSvn (s : State) (v : Word) : State :=
  if s.fwStarted && bit v 31 && decide (s.fuses.rollback < s.secu.svn) then { s with fuses := { s.fuses with rollback := s.secu.svn } } else s

/-- R471: SVN_COMMIT. -/
def execSvnCommit (v : Word) (s : State) : Res := .next (s.writeSvn v)

-- firmware updates (R470, R472)

/-- R472: a firmware copy is written. -/
def State.writeCopy (s : State) (b : Bool) (c : List Byte) : State :=
  { s with flash := if b then { s.flash with copyB := c } else { s.flash with copyA := c } }

/-- R472: FIRMWARE_UPDATE: the copy that is not running (in recovery, the one not preferred) is written; once it verifies, the selector
prefers it. -/
def execFirmwareUpdate (copy : List Byte) (complete : Bool) (s : State) : Res :=
  .next (if !(s.fwStarted || s.stage == .recovery) then s
    else
      let b := !(s.secu.running.getD s.flash.preferB)
      let s := s.writeCopy b copy
      if complete && s.copyGood copy then { s with flash := { s.flash with preferB := b } } else s)

end Sys2Proof.Machine
end

