-- ==== Sys2Proof/Machine/RegWrite.lean ====
section
/-! DEFINITION. Register writes (R6, R302, R365, R394, R422, R425, R482, R485–R493, R502): what a write of a page's register does, by the host
or by firmware. -/

namespace Sys2Proof.Machine

-- the registers that selectors show

/-- R187, R285, R304, R307, R334, R335, R369, R484: the copy that the selector registers show, none for a register of one copy. -/
def State.copyOf (s : State) (b : Blk) (inst off : Nat) : Option Nat := match b with
  | .mesh =>
    let w := s.reg .mesh inst 0x040
    if off = 0x04C then some (portSel (bits w 5 0) false)
    else if off = 0x054 then some (portSel (bits w 5 0) true)
    else if 0x044 ≤ off ∧ off ≤ 0x058 then some (portSel (bits w 5 0) (bit w 8)) else none
  | .kvpg => if 0x064 ≤ off ∧ off ≤ 0x06C then some (bits (s.reg .kvpg 0 0x060) 7 0) else none
  | .smpl =>
    if 0x044 ≤ off ∧ off ≤ 0x068 then some s.smplSel
    else if off = 0x074 then some (bits (s.reg .smpl 0 0x070) 3 0) else none
  | .ltr =>
    if 0x044 ≤ off ∧ off ≤ 0x054 then some (bits (s.reg .ltr inst 0x040) 3 0)
    else if 0x06C ≤ off ∧ off ≤ 0x074 then some s.islot else none
  | .zlnk =>
    if off = 0x090 then some (bits (s.reg .zlnk 0 0x08C) 14 0)
    else if off = 0x09C then some (bits (s.reg .zlnk 0 0x098) 15 0) else none
  | .secu => if 0x04C ≤ off ∧ off ≤ 0x068 then some (bits (s.reg .secu 0 0x048) 2 0) else none
  | _ => none

/-- A register, or the copy that its selector shows. -/
def State.regAt (s : State) (b : Blk) (inst off : Nat) : Word := match s.copyOf b inst off with
  | none => s.reg b inst off
  | some i => s.regI b inst off i

/-- Writes a register, or the copy that its selector shows. -/
def State.setRegAt (s : State) (b : Blk) (inst off : Nat) (v : Word) : State := match s.copyOf b inst off with
  | none => s.setReg b inst off v
  | some i => s.setRegI b inst off i v

/-- R30, R192, R368: the role that a role field names. -/
def roleOfCode (n : Nat) : Role := match n with
  | 0 => .inService
  | 1 => .spare
  | 2 => .retired
  | _ => .dark

/-- R30: BRTH_ROLE. -/
def State.brthRole (s : State) (b : Nat) : Word :=
  let x := s.berth b
  field x.logical 9 ||| flag x.storeOk 3 ||| field (roleCode x.role) 0

/-- R490: the present value of a register that holds firmware-only fields. -/
def State.fwFields (s : State) (b : Blk) (inst off : Nat) : Word := match b with
  | .brth => s.brthRole inst
  | .zlnk => if off = 0x044 then field (s.zport inst).index 4 ||| field (s.zport inst).role 0 else s.regAt b inst off
  | _ => s.regAt b inst off

-- what a write does

/-- R489, R502: the bits of a register that a writer may set. -/
def State.writable (s : State) (who : RegWriter) (r : RegRow) : Word :=
  let m := r.rw ||| (if s.secu.sealed then 0 else r.rws)
  match who with
  | .host _ => m &&& ~~~r.fw
  | .firmware => m

/-- R6, R489: a write of a register without behaviour of its own. -/
def State.writeRow (s : State) (who : RegWriter) (b : Blk) (inst : Nat) (r : RegRow) (v : Word) : State :=
  let old := s.regAt b inst r.off
  let m := s.writable who r
  match r.wk with
  | .plain => s.setRegAt b inst r.off ((old &&& ~~~m) ||| (v &&& m))
  | .zeroClears => if v &&& r.rw = 0 then s.setRegAt b inst r.off (old &&& ~~~r.rw) else s
  | .anyClears => s.setRegAt b inst r.off (old &&& ~~~r.rw)

/-- R220: KV_BASE may move: its berth's pool holds no frame and the new start lies at or above every weight extent. -/
def State.kvBaseFits (s : State) (b : Nat) (v : Word) : Bool :=
  let x := s.berth b
  (x.role != .inService || (s.framesOf x.logical).isEmpty) &&
  (List.range 8).all (fun i => match (s.image i).manifest with
    | some m => decide (m.wbase + m.wlines ≤ min (bits v 11 0) 3968 * 16384)
    | none => true)

/-- R220: a write of STOR_PART. -/
def State.writeKvBase (s : State) (b : Nat) (v : Word) : State :=
  if s.kvBaseFits b v then s.setReg .stor b 0x050 (field (bits v 11 0) 0) else s.raise .stor b 7

/-- R96: a write of CORE_DYN with PEAK 0 restarts the peak from the requests that are outstanding; any other is ignored. -/
def State.writeDynPeak (s : State) (i : Nat) (v : Word) : State :=
  if bits v 12 8 ≠ 0 then s
  else
    let x := s.berth (i / 156)
    let n := match logCore x.removed (i % 156) with
      | some k => if x.role = .inService then (s.core (x.logical * 144 + k)).dyn.length else 0
      | none => 0
    s.setReg .core i 0x054 (putBits (s.reg .core i 0x054) 12 8 n)

/-- R344, R345, R365: firmware gives a port a role; a port in DOWN that has one trains, or listens until its wave, and one without a role
goes DOWN unless it is in UP. -/
def State.writeZrole (s : State) (z : Nat) (v : Word) : State :=
  let p := s.zport z
  let p := { p with role := bits v 3 0, index := bits v 6 4 }
  let open_ := s.stage == .optical || s.stage == .ready
  let st := if p.role = 15 then (if p.st = .up then ZState.up else .down)
    else if p.st = .down then (if open_ then ZState.train else .listen) else p.st
  let s := if p.role = 15 then s else { s with uncabled := s.uncabled.filter (· != z) }
  s.setZport z { p with st := st }

/-- R353, R361: a route is written only in a bank that is inactive and released. -/
def State.writeRoute (s : State) (v : Word) : State :=
  let k := bits (s.reg .zlnk 0 0x098) 15 0
  if s.gen.oldFree && k / 32768 != s.gen.gennum % 2 then s.setRegI .zlnk 0 0x09C k (field (bits v 7 0) 0) else s

/-- R335: a write of LTR_ICMD. -/
def State.writeIcmd (s : State) (v : Word) : State := match bits v 3 0 with
  | 1 => s.openLoad
  | 2 => s.commitSlot
  | 3 => s.unload
  | 4 => s.openStage
  | 5 => s.swap
  | 6 => s.abandon
  | _ => s

/-- R377, R393: a write of CXLP_OWN; the time for which the other port has been down is that since its link left L0. -/
def State.writeOwn (s : State) (p : HostPort) (v : Word) : State :=
  let ms := (s.stamp - (s.port (otherPort p)).downSince).toNat / 212500
  let s := if bit v 0 then s.takePart p ms else s
  if bit v 1 then s.returnPart p else s

/-- R394: a write of a ring's base. -/
def State.writeRingBase (s : State) (p : HostPort) (k : RingKind) (v : Word) : State :=
  let s := s.setReg .cxlp (portIx p) (ringRegs k).1 v
  if bit (s.reg .cxlp (portIx p) (ringRegs k).2) 31 then s else s.setPort p (markFresh (s.port p) k)

/-- R482, R484: a write of SECU_PKHASHn; slot 0 is read-only. -/
def State.writePkhash (s : State) (off : Nat) (v : Word) : State :=
  let slot := bits (s.reg .secu 0 0x048) 2 0
  if slot = 0 then s else if s.secu.sealed then s.raise .secu 0 4 else s.setRegI .secu 0 off slot v

/-- R467: a write of FLT_UNAV or FLT_FATAL. -/
def State.writeFlt (s : State) (off : Nat) (v : Word) : State :=
  if off = 0x068 then s.setReg .flt 0 0x068 0
  else if v = 0 then ({ s with unav := 0 }).setReg .flt 0 0x064 0 else s

/-- R97, R190: the present total of a counter of cycles: what it has counted since it was last reset (log entry 162). -/
def State.cycleTotal (s : State) (b : Blk) (inst off : Nat) : Word :=
  BitVec.ofNat 32 (((List.range' s.countFrom (s.draws - s.countFrom)).map
    (Config.cycles (regKey b inst off) ((s.copyOf b inst off).getD 0))).sum)

/-- R97, R190: what a counter of cycles shows: the register behind it holds the total at which it was last cleared. -/
def State.cycleCount (s : State) (b : Blk) (inst off : Nat) : Word := s.cycleTotal b inst off - s.regAt b inst off

/-- R97, R190: writing zero to a counter of cycles clears it. -/
def State.clearCycles (s : State) (b : Blk) (inst off : Nat) (v : Word) : State :=
  if v = 0 then s.setRegAt b inst off (s.cycleTotal b inst off) else s

/-- The registers whose write acts in a way of its own; none for the others. -/
def State.writeSpecial (s : State) (who : RegWriter) (b : Blk) (inst off : Nat) (v : Word) : Option State :=
  let fw := who == .firmware
  match b with
  | .brth => if off = 0x044 then
      some (if fw then s.setBerth inst { s.berth inst with role := roleOfCode (bits v 1 0), logical := bits v 15 9 } else s) else none
  | .core =>
    if off = 0x054 then some (s.writeDynPeak inst v) else if off = 0x058 then some (s.clearCycles .core inst off v) else none
  | .mesh =>
    if off = 0x050 then some (s.clearCycles .mesh inst off v) else
    if off = 0x060 ∧ colOf inst ≠ 5 ∧ colOf inst ≠ 6 then some s else none
  | .stor => if off = 0x050 then some (s.writeKvBase inst v) else none
  | .smpl =>
    if off = 0x044 then some (s.writeScfg v)
    else if off = 0x064 then some (s.writeSgstate v)
    else if off = 0x068 then some (s.writeSpcnt v)
    else if off = 0x074 then some (s.writeGbase v) else none
  | .ltr =>
    if off = 0x04C then some (s.writeChcfg (portOf inst) v)
    else if off = 0x068 then some (s.writeIcmd v) else none
  | .zlnk =>
    if off = 0x044 then some (if fw then s.writeZrole inst v else s)
    else if off = 0x094 then some (s.writeGen v)
    else if off = 0x09C then some (s.writeRoute v) else none
  | .cxlp =>
    let p := portOf inst
    if off = 0x044 then some (s.writeOwn p v)
    else if off = 0x048 then some (s.writeRingBase p .request v)
    else if off = 0x04C then some (s.writeRing p .request v)
    else if off = 0x050 then some (s.writeRingBase p .output v)
    else if off = 0x054 then some (s.writeRing p .output v) else none
  | .bsn => if off = 0x050 then some (s.restartVmin inst) else none
  | .flt => if off = 0x064 ∨ off = 0x068 then some (s.writeFlt off v) else none
  | .secu =>
    if off = 0x040 then some (s.writeSeal v)
    else if off = 0x044 then some (s.writeSvn v)
    else if 0x04C ≤ off ∧ off ≤ 0x068 then some (s.writePkhash off v) else none
  | _ => none

/-- R482, R490: the errors that a write of a register reports: FWONLY for a host's change of a firmware-only field, SEALED_WR for a sealed
field. -/
def State.reportWrite (s : State) (who : RegWriter) (b : Blk) (inst : Nat) (r : RegRow) (v : Word) : State :=
  let s := if who != .firmware && (v ^^^ s.fwFields b inst r.off) &&& r.fw != 0 then s.raise .glb 0 2 else s
  if s.secu.sealed && b != .secu && r.rws != 0 then s.raise .secu 0 4 else s

/-- R489: a write of a register after the header of a page that is ready; an offset that the page does not define ignores it. The half's
divisor targets follow SCHD_DIV (R425). -/
def State.writeBlock (s : State) (who : RegWriter) (b : Blk) (inst off : Nat) (v : Word) : State := match regRow b inst off with
  | none => s
  | some r =>
    let s := s.reportWrite who b inst r v
    let t := match s.writeSpecial who b inst off v with
      | some t => t
      | none => s.writeRow who b inst r v
    if b = .schd ∧ inst ≠ 0 ∧ off = 0x040 then t.retarget else t

/-- R81, R195, R219, R222, R395: the captures that last until their error bit is cleared. -/
def State.clearCaptures (s : State) (b : Blk) (inst : Nat) (v : Word) : State := match b with
  | .core => if bit v 2 then { s with boundsHeld := s.boundsHeld.filter (· ≠ inst) } else s
  | .chms => if bit v 2 then s.setReg .chms inst 0x044 0 else s
  | .stor => if bit v 1 then s.setReg .stor inst 0x048 0 else s
  | .hbmc => if bit v 1 then (s.setReg .hbmc inst 0x048 0).setReg .hbmc inst 0x04C 0 else s
  | .cxlp => if bit v 1 then (s.setReg .cxlp inst 0x060 0).setReg .cxlp inst 0x064 0 else s
  | _ => s

/-- R491, R492: a W1C write of ERR_STS. -/
def State.clearErrors (s : State) (b : Blk) (inst : Nat) (v : Word) : State :=
  (s.setErrRegs b inst ((s.errRegs b inst).clear v)).clearCaptures b inst v

/-- R491: a write of CTL: INJ_BIT, and at debug level 2 INJECT. -/
def State.writeCtl (s : State) (b : Blk) (inst : Nat) (v : Word) : State :=
  let s := s.setReg b inst 0x008 (field (bits v 12 8) 8)
  if bit v 0 && s.secu.debug == 2 then s.raise b inst (bits v 12 8) else s

/-- R491: a write of a register of the header. -/
def State.writeHeader (s : State) (b : Blk) (inst off : Nat) (v : Word) : State :=
  if off = 0x008 then s.writeCtl b inst v
  else if off = 0x010 then s.clearErrors b inst v
  else if off = 0x014 then s.setReg b inst 0x014 (v &&& maskBits b inst)
  else if off = 0x028 then s.setReg b inst 0x028 (field (bits v 7 0) 0)
  else s

/-- R488, R491, R524: a write of one word to BAR0. -/
def State.writeWord (s : State) (who : RegWriter) (addr : Nat) (v : Word) : State := match pageAt addr with
  | none => s.raise .glb 0 1
  | some (b, inst, off) =>
    if s.pageDark b inst then s
    else if off < 0x030 then s.writeHeader b inst off v
    else if s.blockReady b inst then s.writeBlock who b inst off v
    else s

/-- R490: a write by the host's command, or by firmware: nothing happens while the module has no power. -/
def State.whenOn (s : State) (f : State → State) : State := if s.powered then f s else s

-- the commands

/-- R220: KV_BASE_WRITE. -/
def execKvBaseWrite (b : Berth) (v : Word) (s : State) : Res :=
  .next (if s.pageWrites .stor b.val then s.writeKvBase b.val v else s)

/-- R492: ERR_STS_CLEAR, a write at an address that is an ERR_STS register. -/
def execErrStsClear (addr : Nat) (v : Word) (s : State) : Res :=
  .next (match pageAt addr with
    | some (b, inst, off) => if s.powered && off == 0x010 && !s.pageDark b inst then s.clearErrors b inst v else s
    | none => s)

/-- R491: INJECT, a write at an address that is a CTL register. -/
def execInject (addr : Nat) (v : Word) (s : State) : Res :=
  .next (match pageAt addr with
    | some (b, inst, off) => if s.powered && off == 0x008 && !s.pageDark b inst then s.writeCtl b inst v else s
    | none => s)

/-- R422: VMIN_RESTART. -/
def execVminRestart (n : Basin) (_v : Word) (s : State) : Res :=
  .next (if s.pageWrites .bsn n.val then s.restartVmin n.val else s)

/-- R485, R487: the words of a write in ascending address order. -/
def State.writeWords (s : State) (who : RegWriter) (addr size : Nat) (data : Dword) : State :=
  let s := s.writeWord who addr (BitVec.ofNat 32 data.toNat)
  if size = 8 then s.writeWord who (addr + 4) (BitVec.ofNat 32 (data.toNat / 2 ^ 32)) else s

/-- R485, R488: REGISTER_WRITE: a write of another size, alignment or without all byte enables sets BADWR, one that reaches no page
UNMAPPED; BAR0 ends at 128 MiB (R373). -/
def execRegisterWrite (p : HostPort) (addr size : Nat) (enables : Bool) (data : Dword) (s : State) : Res :=
  .next (s.whenOn (fun s =>
    if 2 ^ 27 < addr + size then s
    else if !enables || !(size == 4 || size == 8) || addr % size != 0 then s.raise .glb 0 0
    else if (pageAt addr).isNone then s.raise .glb 0 1
    else s.writeWords (.host p) addr size data))

/-- R178, R459: the berths whose Chamois node reaches a page: a berth's own pages, those of the stack or the harbour die that it adjoins, and
the global pages through the harbour dies. -/
def pageNodes (b : Blk) (i : Nat) : List Nat :=
  let stack := fun (k : Nat) => [(rimBerths k).1, (rimBerths k).2]
  match pageBerth b i with
  | some d => [d]
  | none => match b with
    | .chms => [i]
    | .hbmc => stack i
    | .kvpg => stack i
    | .bsn => if i < 96 then stack (i - 84) else [attachBerth (i - 96)]
    | .thrm => if i < 96 then stack (i - 84) else [attachBerth (i - 96)]
    | _ => [0, 83, 72, 11]

/-- R179, R459: POINT: a register write of the management controller through one node; a node whose berth is DARK discards it. -/
def execPoint (n : ChNode) (addr : Nat) (value : Word) (resent : Bool) (s : State) : Res :=
  .next (s.whenOn (fun s => match pageAt addr with
    | none => s
    | some (b, i, _) =>
      if !s.nodeLive n || !(pageNodes b i).contains (s.nodeBerth n) || addr % 4 != 0 || s.rootBusy then s
      else (s.resendFlit n resent).writeWord .firmware addr value))

end Sys2Proof.Machine
end

