-- ==== Sys2Proof/Machine/Shipments.lean ====
section
/-! DEFINITION. KV shipments between modules (R240–R245). -/

namespace Sys2Proof.Machine

-- records (R243, R244)

/-- R243: the layer, head and page of record `n` of a shipment of `len` positions. -/
def shipPage (k : KvShape) (len n : Nat) : Nat × Nat × Nat :=
  let pp := ceilDiv len 128
  (n / (k.heads * pp), n / pp % k.heads, n % pp)

/-- R258 with M = 1: the logical berth that a record names in DLB. -/
def shipBerth (k : KvShape) (h j : Nat) : Nat := (pageHome k.heads 1 h j).2

/-- R244: the tail-ring rows that the record of the last page carries. -/
def State.ringRows (s : State) (k : KvShape) (st l h len : Nat) : List Byte := match s.ringLine k st l h with
  | none => []
  | some (rb, ring) => (List.range (len % 32)).flatMap (fun i => s.lbRead rb (ring * 128 + (len / 32 * 32 + i) % 128 * 256) 256)

/-- R244: the body of a record whose page has its home on another module of the image, and whether the page is dropped there (log entry 185). -/
def State.bodyElsewhere (s : State) (len j : Nat) : List Byte × Bool :=
  if Config.remoteDropped s.draws then ([], true)
  else ((List.range (33792 + (if 128 * j + 128 < len then 0 else len % 32 * 256))).map (Config.remoteByte s.draws), false)

/-- R244: the body of a record, and whether the page is dropped. -/
def State.shipBody (s : State) (k : KvShape) (st len : Nat) (p : Nat × Nat × Nat) : List Byte × Bool :=
  let (l, h, j) := p
  match s.homeHere k h j with
  | none => s.bodyElsewhere len j
  | some lb => match s.column k lb st h j with
    | none => ([], true)
    | some c =>
      if 2 ≤ s.locTier lb (c + l) then ([], true)
      else (s.pageBytes lb (c + l) ++ (if 128 * j + 128 < len then [] else s.ringRows k st l h len), false)

/-- R244: a record: header, CRC and body. -/
def State.shipRecord (s : State) (st : Nat) (o : ShipOut) (n : Nat) : List Byte :=
  let x := s.stream st
  let k := s.kvShape x.image
  let (l, h, j) := shipPage k o.length n
  let (body, dropped) := s.shipBody k st o.length (l, h, j)
  let (mid, layout) := match (s.image x.image).manifest with
    | some m => (m.modelId.toNat, m.kvlayout)
    | none => (0, List.replicate 32 0)
  let w := fun (v : Word) => leBytes v.toNat 4
  let head := w (field o.dstream 0 ||| field st 8 ||| field s.moduleIndex 16) ++ w (field n 0) ++ w (field l 0 ||| field h 8 ||| field j 12) ++
    w (field o.total 0) ++ leBytes mid 8 ++ layout ++ w (field body.length 0 ||| flag dropped 20)
  head ++ w (crc32c (head ++ body)) ++ body

/-- A list in pieces of at most `n` elements. -/
def pieces {α : Type} (n : Nat) : Nat → List α → List (List α)
  | 0, _ => []
  | f + 1, l => if l.isEmpty then [] else l.take n :: pieces n f (l.drop n)

/-- R245: the header of packet `i` of record `seqn` to a module. -/
def State.shipHeader (s : State) (b : Nat) (type seqn i dlb len dmod : Nat) (refused : Bool) : PacketHeader :=
  { type := BitVec.ofNat 4 type, gen := decide (s.gen.gennum % 2 = 1), fwd := true, dst := BitVec.ofNat 8 dstOptical, dunit := BitVec.ofNat 8 unitStore
    src := BitVec.ofNat 8 b, sunit := BitVec.ofNat 8 unitStore, tag := 0, len := BitVec.ofNat 14 len
    addr := BitVec.ofNat 48 (if type = 4 then 128 * i + 2 ^ 10 * seqn else seqn + (if refused then 2 ^ 24 else 0))
    dmod := BitVec.ofNat 15 dmod, smod := BitVec.ofNat 15 ((s.address).getD 0), dlb := BitVec.ofNat 7 dlb, hops := 0 }

/-- R245: a record leaves for a logical module as consecutive packets of at most 8,192 B. -/
def State.sendPieces (s : State) (b m seqn dlb : Nat) (record : List Byte) : State := match liveModule s m with
  | none => s.raise .zlnk b 6
  | some a =>
    let l := pieces 8192 (record.length / 8192 + 1) record
    ((List.range l.length).zip l).foldl (fun s e => s.inject b (s.shipHeader b 4 seqn e.1 dlb e.2.length a false) e.2 (.port 7) none) s

/-- R245: an acknowledgement, or a refusal, returns to a source. -/
def State.ackShipment (s : State) (b m seqn dlb : Nat) (refused : Bool) : State := match liveModule s m with
  | none => s.raise .zlnk b 6
  | some a => s.inject b (s.shipHeader b 0xC seqn 0 dlb 0 a refused) [] (.port 7) none

-- the source (R243, R245)

/-- R243, R245: record `n` of a stream's shipment is sent. -/
def State.sendShipped (s : State) (st : Nat) (o : ShipOut) (n : Nat) : State :=
  let k := s.kvShape (s.stream st).image
  let (_, h, j) := shipPage k o.length n
  match s.physOf (pageHome k.heads k.modules h j).2 with
  | none => s
  | some b => s.drawn.sendPieces b o.dest n (shipBerth k h j) (s.shipRecord st o n)

/-- R243: the source's shipment ends. -/
def State.shipEnds (s : State) (st code : Nat) : State :=
  let x := s.stream st
  (s.putStream st { x with shipOut := none }).status x.port st code 0

/-- R243: the next record is sent while fewer than 16 are unacknowledged. -/
def execShipmentRecordSend (st : StreamId) (s : State) : Res :=
  .next (let x := s.stream st.val
    match x.shipOut with
    | none => s
    | some o =>
      if o.total ≤ o.next ∨ 16 ≤ o.unacked.length then s
      else
        let s := s.sendShipped st.val o o.next
        s.setStream st.val { x with shipOut := some { o with next := o.next + 1, unacked := o.unacked ++ [o.next] } })

/-- R245: an acknowledgement or a refusal reaches the source. -/
def execShipmentAcknowledgement (st : StreamId) (seqn : BitVec 24) (refused : Bool) (s : State) : Res :=
  .next (let x := s.stream st.val
    let n := seqn.toNat
    match x.shipOut with
    | none => s
    | some o =>
      if !o.unacked.contains n then s
      else if refused then
        (if n = 0 then s.setStream st.val { x with shipOut := some { o with refused := true } } else s.shipEnds st.val 0x21)
      else
        let s := s.setStream st.val { x with shipOut := some { o with refused := o.refused && n != 0, unacked := o.unacked.filter (· ≠ n), left := o.left - 1 } }
        if o.left ≤ 1 then s.shipEnds st.val 0x14 else s)

/-- R245: a refused record 0 is sent again every 1 ms, for up to 100 ms. -/
def execShipRetry (st : StreamId) (s : State) : Res :=
  .next (let x := s.stream st.val
    match x.shipOut with
    | none => s
    | some o =>
      if !o.refused then s
      else if 100 ≤ o.retries then s.shipEnds st.val 0x21
      else
        let s := s.sendShipped st.val o 0
        s.setStream st.val { x with shipOut := some { o with retries := o.retries + 1, refused := false } })

/-- R245: no acknowledgement came within 100 ms of a record's last packet. -/
def execShipAckTimeout (st : StreamId) (s : State) : Res :=
  .next (match (s.stream st.val).shipOut with
    | none => s
    | some o => if o.unacked.isEmpty then s else s.shipEnds st.val 0x21)

-- the destination (R240–R242, R245)

/-- R242: a shipment fails at its destination: the reserved pages are freed. -/
def State.shipFails (s : State) (st : Nat) : State :=
  let s := s.releaseAll st
  let x := s.stream st
  (s.putStream st { x with state := if x.holds = [] then .active else .held, shipIn := none, kvlen := 0, hiwrit := 0 }).status x.port st 0x21 0

/-- A 32-bit word of a record. -/
def recWord (r : List Byte) (i : Nat) : Word := BitVec.ofNat 32 (leNat ((r.drop (4 * i)).take 4))

/-- R245: a valid record is written into the places reserved for its page. -/
def State.landPage (s : State) (k : KvShape) (st lb c l h j len : Nat) (dropped : Bool) (body : List Byte) : State :=
  let w := s.loc lb (c + l)
  if dropped then
    (s.freeFrame lb (s.frameOf lb (bits w 25 0))).setIxWord lb (c + l) 0x44 (putBits w 27 26 2)
  else
    let s := s.lbWrite lb (bits w 25 0 * 128) (body.take 33792)
    if 128 * j + 128 < len then s
    else match s.ringLine k st l h with
      | none => s
      | some (rb, ring) => (List.range (len % 32)).foldl (fun s i =>
          s.lbWrite rb (ring * 128 + (len / 32 * 32 + i) % 128 * 256) ((body.drop (33792 + 256 * i)).take 256)) s

/-- R245: a shipment record at the berth that received it: forwarded to the page's home, refused, acknowledged again, or accepted. -/
def execKvShipmentRecord (record : List Byte) (s : State) : Res :=
  .next (let w := recWord record
    let st := bits (w 0) 7 0
    let src := bits (w 0) 31 16
    let seqn := bits (w 1) 23 0
    let l := bits (w 2) 7 0
    let h := bits (w 2) 11 8
    let j := bits (w 2) 24 12
    let total := bits (w 3) 25 0
    let body := record.drop 64
    let x := s.stream st
    let k := s.kvShape x.image
    let dlb := if k.heads = 0 then 0 else shipBerth k h j
    match s.physOf dlb with
    | none => s
    | some b =>
      let home := pageHome k.heads k.modules h j
      let refuse := fun (s : State) => s.ackShipment b src seqn dlb true
      if k.heads ≠ 0 ∧ 1 < k.modules ∧ home.1 ≠ s.moduleIndex then s.sendPieces b home.1 seqn home.2 record
      else match x.shipIn with
        | none => refuse s
        | some i =>
          if x.state ≠ .shipping ∨ i.source ≠ src then refuse s
          else
            let same := match (s.image x.image).manifest with
              | some m => m.modelId.toNat == leNat ((record.drop 16).take 8) && m.kvlayout == (record.drop 24).take 32 && i.total == total
              | none => false
            let place := match s.homeHere k h j with
              | some lb => if l < k.layers ∧ h < k.heads then (s.column k lb st h j).map (fun c => (lb, c)) else none
              | none => none
            if !same ∨ crc32c (record.take 60 ++ body) ≠ w 15 then refuse (s.shipFails st)
            else match place with
              | none => refuse (s.shipFails st)
              | some (lb, c) =>
                if i.accepted.contains seqn then s.ackShipment b src seqn dlb false
                else
                  let s := s.landPage k st lb c l h j i.length (bit (w 14) 20) body
                  let s := s.setStream st { x with shipIn := some { i with left := i.left - 1, accepted := i.accepted ++ [seqn] } }
                  let s := s.ackShipment b src seqn dlb false
                  if i.left ≤ 1 then s.shipDone st i.length else s)

/-- R242: 100 ms have passed without a page. -/
def execShipPageTimeout (st : StreamId) (s : State) : Res :=
  .next (if (s.stream st.val).state = StreamState.shipping then s.shipFails st.val else s)

end Sys2Proof.Machine
end

