-- ==== Sys2Proof/Machine/Store.lean ====
section
/-! DEFINITION. The store dies: merged reads (R84, R85, R507), the refill buffer (R199), refresh and scrub (R200–R203), errors and
spare rows (R204–R206). -/

namespace Sys2Proof.Machine

-- reads

/-- R84: whether a reader's reads join the entries of others: a core's and a remote request's do. -/
def readerJoins : StoreReader → Bool
  | .core _ => true
  | .remote _ => true
  | _ => false

/-- R197: whether a read of a line is due: a core of the berth waits for the line, a request from outside has yet to read it, or the sampler
or the refill buffer of a berth in service reads. -/
def readDue (s : State) (b line : Nat) : StoreReader → Bool
  | .core c => s.physOf (c.val / 144) == some b && (s.core c.val).reads.any (fun r => r.line = line && !r.queued)
  | .remote id => match s.served? id with
    | none => false
    | some p => p.target == b && p.h.dunit.toNat == unitStore && line * 128 < p.h.addr.toNat + p.h.len.toNat && p.h.addr.toNat < line * 128 + 128 &&
      (lookup p.got line).isNone
  | _ => (s.berth b).role == .inService

/-- Marks the first unqueued wait of a core for a line. -/
def queueWait (line : Nat) : List LineWait → List LineWait
  | [] => []
  | r :: t => if r.line = line ∧ !r.queued then { r with queued := true } :: t else r :: queueWait line t

/-- The reader's own note that its read has reached the controller. -/
def State.noteArrival (s : State) (line : Nat) : StoreReader → State
  | .core c => let k := s.core c.val; s.setCore c.val { k with reads := queueWait line k.reads }
  | _ => s

/-- R97: a read of a core that joined a merge entry is counted. -/
def State.countMerge (s : State) : StoreReader → State
  | .core c => match s.coreInst c.val with
    | some i => s.count .core i 0x05C 1
    | none => s
  | _ => s

/-- Adds a reader to the first open entry of a line. -/
def joinEntry (line : Nat) (r : StoreReader) : List MergeEntry → List MergeEntry
  | [] => []
  | e :: t => if e.line = line ∧ e.opened then { e with readers := e.readers ++ [r] } :: t else e :: joinEntry line r t

/-- R84, R85: a read is issued to the die. -/
def State.issueRead (s : State) (b line : Nat) (opened : Bool) (r : StoreReader) : State :=
  let x := activate (s.berth b) line
  s.setBerth b { x with entries := x.entries ++ [{ line := line, opened := opened, readers := [r] }] }

/-- R84, R85, R507: a read joins an open entry of its line, opens one of the 64 entries, or is issued without merging. -/
def execStoreReadArrival (b : Berth) (line : BitVec 26) (r : StoreReader) (inRefresh : Bool) (s : State) : Res :=
  .next (let l := line.toNat
    let x := s.berth b.val
    if !readDue s b.val l r || x.entries.any (fun e => e.line = l && e.readers.contains r && (match r with | .remote _ => true | _ => false))
    then s
    else
      let s := s.noteArrival l r
      if inRefresh && s.fuses.stepping == .a1 then s.issueRead b.val l false r
      else if x.entries.any (fun e => e.line = l && e.opened) then
        if readerJoins r then (s.setBerth b.val { x with entries := joinEntry l r x.entries }).countMerge r else s.issueRead b.val l false r
      else s.issueRead b.val l (decide ((x.entries.filter (·.opened)).length < 64)) r)

/-- Closes the first open entry of a line. -/
def closeEntry (line : Nat) : List MergeEntry → List MergeEntry
  | [] => []
  | e :: t => if e.line = line ∧ e.opened then { e with opened := false } :: t else e :: closeEntry line t

/-- R84: an entry accepts no further joins after 32 SCLK. -/
def execMergeWindowEnd (b : Berth) (line : BitVec 26) (s : State) : Res :=
  .next (let x := s.berth b.val; s.setBerth b.val { x with entries := closeEntry line.toNat x.entries })

/-- Removes the first entry of a line. -/
def dropEntry (line : Nat) : List MergeEntry → List MergeEntry
  | [] => []
  | e :: t => if e.line = line then t else e :: dropEntry line t

/-- Removes the first queued wait of a core for a line. -/
def dropWait (line : Nat) : List LineWait → List LineWait
  | [] => []
  | r :: t => if r.line = line ∧ r.queued then t else r :: dropWait line t

/-- R84, R128: a line is delivered to one reader. A request from outside collects its lines and is answered with the last. What the sampler and
the refill buffer do with a line is the effect of their own commands. -/
def State.deliverLine (s : State) (line : Nat) (data : List Byte) : StoreReader → State
  | .core c =>
    let k := s.core c.val
    match k.reads.find? (fun r => r.line = line && r.queued) with
    | none => s
    | some r => s.setCore c.val { k.put r.dst data with reads := dropWait line k.reads }
  | .remote id => match s.served? id with
    | none => s
    | some p =>
      let p := { p with got := Sparse.insert p.got line data }
      let l := linesOf p.h.addr.toNat p.h.len.toNat
      if l.all (fun n => (lookup p.got n).isSome) then
        let all := l.flatMap (fun n => (lookup p.got n).getD [])
        s.respond p ((all.drop (p.h.addr.toNat % 128)).take p.h.len.toNat)
      else { s with delivered := s.delivered.map (fun q => if q.id = id then p else q) }
  | _ => s

/-- R130, R205: a read that delivers nothing: a request from outside completes without data; a core's read waits for the abort. -/
def State.failLine (s : State) : StoreReader → State
  | .remote id => match s.served? id with
    | none => s
    | some p => s.respond p []
  | _ => s

/-- R84, R205: data returns from the die. A held line returns nothing (R203). -/
def execStoreLineReturn (b : Berth) (line : BitVec 26) (e : EccOutcome) (mirrorOk : Bool) (s : State) : Res :=
  .next (let l := line.toNat
    let x := s.berth b.val
    match x.entries.find? (fun m => m.line = l) with
    | none => s
    | some m =>
      if x.held.contains l then s
      else
        let s := s.setBerth b.val { x with entries := dropEntry l x.entries }
        let region := s.regionOf b.val l
        let data := m.data.getD (s.line b.val l)
        match e with
        | .clean => m.readers.foldl (fun s r => s.deliverLine l data r) s
        | .corrected => m.readers.foldl (fun s r => s.deliverLine l data r) (s.lineCorrected b.val l)
        | .uncorrectable =>
          if region = 2 ∧ mirrorOk then
            let good := s.line b.val (mirrorLine l)
            m.readers.foldl (fun s r => s.deliverLine l good r) (((s.noteRow b.val l true).storePut b.val (l * 128) good).raise .stor b.val 5)
          else
            let s := (s.lineLost b.val l).raiseAs .stor b.val 1 (if region = 2 then .berth else .contained)
            m.readers.foldl State.failLine s)

-- the refill buffer

/-- R199: the oldest filled buffer is written as 32 lines in ascending order, or refused. -/
def execRefillWrite (b : Berth) (s : State) : Res :=
  .next (let x := s.berth b.val
    match x.refill with
    | [] => s
    | (off, data) :: t =>
      let s := s.setBerth b.val { x with refill := t }
      if inPools off data.length then s.storeWrite b.val off data else s.raise .stor b.val 6)

-- refresh

/-- R218: the refreshes that may be postponed, as treated. -/
def postponeLimit (s : State) (b : Nat) : Nat :=
  let n := bits (s.reg .stor b 0x040) 7 4
  if n = 0 ∨ 8 < n then 8 else n

/-- R201: a bank's refreshes that are due less those run ahead of schedule, plus 8. -/
def debtOf (x : BerthSt) (bank : Nat) : Nat := Sparse.get (fun _ => 8) x.debts bank

/-- R201: the refreshes that a bank has postponed. -/
def postponed (x : BerthSt) (bank : Nat) : Nat := debtOf x bank - 8

/-- Writes a bank's debt of refreshes. -/
def setDebt (x : BerthSt) (bank n : Nat) : BerthSt := { x with debts := Sparse.set (fun _ => 8) x.debts bank n }

/-- R200, R202: a due refresh begins a bank's next refresh interval, and the 8,192nd its next window, in which activations count anew. -/
def nextInterval (x : BerthSt) (bank : Nat) : BerthSt :=
  let n := (Sparse.get (fun _ => 0) x.refreshed bank + 1) % 8192
  { x with targeted := x.targeted.filter (· ≠ bank), refreshed := Sparse.set (fun _ => 0) x.refreshed bank n
           activations := if n = 0 then x.activations.filter (fun e => e.1 / 2048 ≠ bank) else x.activations }

/-- R201, R219: a refresh falls due. While requests wait it is postponed, or taken at the deadline once the limit is reached; in idle bank time it
is issued with one more, up to 8 ahead of schedule (DESIGN CHOICE, log entry 181). -/
def State.refreshDue (s : State) (b bank : Nat) (waiting : Bool) : State :=
  let x := s.berth b
  if waiting then
    if postponed x bank < postponeLimit s b then s.setBerth b (setDebt x bank (debtOf x bank + 1)) else s.count .stor b 0x04C 1
  else s.setBerth b (setDebt x bank (debtOf x bank - 1))

/-- R201: a due refresh is postponed while requests wait at the bank, up to the limit; in idle bank time it is issued. -/
def execRefresh (b : Berth) (bank : Fin 2048) (waiting : Bool) (s : State) : Res :=
  .next (if waiting && postponeLimit s b.val ≤ postponed (s.berth b.val) bank.val then s
    else (s.setBerth b.val (nextInterval (s.berth b.val) bank.val)).refreshDue b.val bank.val waiting)

/-- R201, R219: one refresh goes ahead of every waiting request when one more falls due beyond the limit. -/
def execRefreshDeadline (b : Berth) (bank : Fin 2048) (s : State) : Res :=
  .next (if postponed (s.berth b.val) bank.val < postponeLimit s b.val then s
    else (s.setBerth b.val (nextInterval (s.berth b.val) bank.val)).refreshDue b.val bank.val true)

/-- R202: whether a row has been activated more than 16,384 times in the refresh window, and its bank has had no targeted refresh in the present
interval. -/
def targetDue (x : BerthSt) (bank row : Nat) : Bool :=
  !x.targeted.contains bank && decide (16384 < Sparse.get (fun _ => 0) x.activations (bank * 2048 + row))

/-- R202, R219: a row that was activated too often has its neighbours refreshed; this counts as a refresh under R201, and the row's activations
count anew. -/
def execTargetedRefresh (b : Berth) (bank row : Fin 2048) (waiting : Bool) (s : State) : Res :=
  .next (let x := s.berth b.val
    if !targetDue x bank.val row.val then s
    else
      let y := { x with targeted := x.targeted ++ [bank.val], activations := Sparse.erase x.activations (bank.val * 2048 + row.val) }
      (s.setBerth b.val y).refreshDue b.val bank.val waiting)

-- scrub

/-- R203, R219: STOR_SCRUB.EN. -/
def scrubOn (s : State) (b : Nat) : Bool := bit (s.reg .stor b 0x044) 8

/-- R219: a pass is complete with the last line (log entry 41). -/
def State.countPass (s : State) (b line : Nat) : State :=
  if line = storeLines - 1 then
    let w := s.reg .stor b 0x044
    s.setReg .stor b 0x044 (putBits w 31 16 (bits w 31 16 + 1))
  else s

/-- R203: patrol scrub reads a line. A corrected line is written back unless a write came after the read, which changes nothing that can
be read; an uncorrectable one joins the hold list, and firmware is signalled. -/
def execPatrolScrubRead (b : Berth) (line : BitVec 26) (e : EccOutcome) (_overwritten : Bool) (s : State) : Res :=
  .next (if !scrubOn s b.val then s
    else
      let s := s.countPass b.val line.toNat
      let x := s.berth b.val
      match e with
      | .clean => s
      | .corrected => s.lineCorrected b.val line.toNat
      | .uncorrectable =>
        if x.held.contains line.toNat then s
        else if x.held.length < 16 then
          (s.setBerth b.val { x with held := x.held ++ [line.toNat], holdSignal := true }).noteRow b.val line.toNat true
        else s.raiseAs .stor b.val 4 .berth)

/-- R203, R219: a scrub read pre-empts one access. -/
def execScrubPreempt (b : Berth) (_bank : Fin 2048) (s : State) : Res :=
  .next (if scrubOn s b.val then s.count .stor b.val 0x04C 1 else s)

/-- R203: a read of a held line has waited 1 ms. -/
def execHoldTimeout (b : Berth) (line : BitVec 26) (s : State) : Res :=
  .next (let x := s.berth b.val
    if x.held.contains line.toNat && x.entries.any (fun m => m.line = line.toNat) then s.raise .stor b.val 4 else s)

/-- R203, R205: firmware has repaired a held line: from the mirror copy in the reserve, from a backup or a page's copy, or with `data` from a peer
module or the host for a weight line that has no backup. -/
def execHeldLineRepaired (b : Berth) (line : BitVec 26) (data : List Byte) (s : State) : Res :=
  .next (let x := s.berth b.val
    let l := line.toNat
    if !x.held.contains l then s
    else
      let rest := x.held.filter (· ≠ l)
      let s := s.setBerth b.val { x with held := rest, holdSignal := !rest.isEmpty }
      match s.regionOf b.val l with
      | 2 => s.storePut b.val (l * 128) (s.line b.val (mirrorLine l))
      | 1 => s.mendKv b.val l
      | _ => if s.backedUp b.val l then s.mendWeights b.val l else s.storePut b.val (l * 128) (data.take 128))

/-- R206: between an abort and the replay, or at once while no step runs, a row that is due is copied onto a spare row of its bank; the last spare
row of a bank sets SPARE_OUT. Lines that could not be corrected await their repair under R205. -/
def execRowSpared (b : Berth) (bank row : Fin 2048) (s : State) : Res :=
  .next (let x := s.berth b.val
    let n := sparesUsed x bank.val
    let key := bank.val * 2048 + row.val
    if s.coresMode = .run ∨ 64 ≤ n ∨ !rowDue x s.stamp.toNat key then s
    else
      let y := { x with spareRows := Sparse.set (fun _ => 0) x.spareRows bank.val (n + 1), rowErrors := x.rowErrors.filter (fun e => e.1 ≠ key) }
      let s := (s.setBerth b.val y).raise .stor b.val 2
      if n + 1 = 64 then s.raise .stor b.val 3 else s)

end Sys2Proof.Machine
end

