-- ==== Sys2Proof/Machine/Vector.lean ====
section
/-! DEFINITION. The vector class (R120–R126, R531). -/

namespace Sys2Proof.Machine

/-- R121: a vector instruction whose result is a function of the core's registers. -/
def vop (s : State) (c : CoreId) (vd : VReg) (f : Core → List Word) : State :=
  s.onCore c .vector (fun k => s.setCore c.val (setV k vd (f k)))

/-- R122: lane by lane. -/
def lanes2 (k : Core) (va vb : VReg) (f : Word → Word → Word) : List Word := (vLanes k va).zipWith f (vLanes k vb)

/-- R122: VADD. -/
def execVadd (c : CoreId) (vd va vb : VReg) (s : State) : Res := .next (vop s c vd (fun k => lanes2 k va vb fadd))
/-- R122: VSUB. -/
def execVsub (c : CoreId) (vd va vb : VReg) (s : State) : Res := .next (vop s c vd (fun k => lanes2 k va vb fsub))
/-- R122: VMUL. -/
def execVmul (c : CoreId) (vd va vb : VReg) (s : State) : Res := .next (vop s c vd (fun k => lanes2 k va vb fmul))
/-- R122: VFMA, with one rounding. -/
def execVfma (c : CoreId) (vd va vb vc : VReg) (s : State) : Res :=
  .next (vop s c vd (fun k => (List.range 64).map (fun i => ffma (vLane k va i) (vLane k vb i) (vLane k vc i))))
/-- R122: VMAX. -/
def execVmax (c : CoreId) (vd va vb : VReg) (s : State) : Res := .next (vop s c vd (fun k => lanes2 k va vb fmax))
/-- R122: VMIN. -/
def execVmin (c : CoreId) (vd va vb : VReg) (s : State) : Res := .next (vop s c vd (fun k => lanes2 k va vb fmin))
/-- R124: VEXP. -/
def execVexp (c : CoreId) (vd va : VReg) (s : State) : Res := .next (vop s c vd (fun k => (vLanes k va).map fexp))
/-- R124: VRCP. -/
def execVrcp (c : CoreId) (vd va : VReg) (s : State) : Res := .next (vop s c vd (fun k => (vLanes k va).map frcp))
/-- R124: VRSQ. -/
def execVrsq (c : CoreId) (vd va : VReg) (s : State) : Res := .next (vop s c vd (fun k => (vLanes k va).map frsq))
/-- R123: VRSUM. -/
def execVrsum (c : CoreId) (vd va : VReg) (s : State) : Res := .next (vop s c vd (fun k => List.replicate 64 (treeSum (vLanes k va))))
/-- R121, R122: VRMAX. -/
def execVrmax (c : CoreId) (vd va : VReg) (s : State) : Res := .next (vop s c vd (fun k => List.replicate 64 (laneMax (vLanes k va))))
/-- R121: VSPLAT. -/
def execVsplat (c : CoreId) (vd : VReg) (ga : GReg) (s : State) : Res := .next (vop s c vd (fun k => List.replicate 64 (gReg k ga)))

/-- R125: the bytes of one element of a format, zero for a reserved one. -/
def elemBytes (efmt : BitVec 4) : Nat := match efmt.toNat with
  | 0 => 4
  | 1 => 2
  | 2 => 1
  | _ => 0

/-- R125: element `i` as VLD converts it. -/
def loadElem (m : List (Nat × Byte)) (efmt : BitVec 4) (a i : Nat) : Word := match efmt.toNat with
  | 0 => f32Flush (Memory.word m (a + 4 * i))
  | 1 => f32OfBf16 (BitVec.ofNat 16 (leNat (Memory.read m (a + 2 * i) 2)))
  | _ => f32OfInt8 (Memory.byte m (a + i))

/-- R125, R531: a lane as VST converts it. -/
def storeElem (efmt : BitVec 4) (w : Word) : List Byte := match efmt.toNat with
  | 0 => leBytes w.toNat 4
  | 1 => leBytes (bf16OfF32 w).toNat 2
  | _ => [int8OfF32 w]

/-- R125: VLD. -/
def execVld (c : CoreId) (v : VReg) (ga : GReg) (efmt : BitVec 4) (off : BitVec 12) (s : State) : Res :=
  .next (s.onCore c .vector (fun k =>
    if elemBytes efmt = 0 then s.fetchFault c.val
    else
      let a := vectorAddr (gReg k ga) off
      s.checked c .vector k 1 .read a (64 * elemBytes efmt) (fun s => s.setCore c.val k)
        (fun s => s.setCore c.val (setV k v ((List.range 64).map (loadElem k.scratch efmt a))))))

/-- R125: VST. -/
def execVst (c : CoreId) (v : VReg) (ga : GReg) (efmt : BitVec 4) (off : BitVec 12) (s : State) : Res :=
  .next (s.onCore c .vector (fun k =>
    if elemBytes efmt = 0 then s.fetchFault c.val
    else
      let a := vectorAddr (gReg k ga) off
      s.checked c .vector k 1 .write a (64 * elemBytes efmt) (fun s => s.setCore c.val k)
        (fun s => s.setCore c.val (k.put a ((vLanes k v).flatMap (storeElem efmt))))))

/-- R126: the byte-exact addresses of the payload and of the scales of a pair. -/
def pairAddrs (k : Core) (ga gb gi : GReg) (n : Nat) : Nat × Nat :=
  ((gReg k ga + gReg k gi * BitVec.ofNat 32 (8 * n)).toNat, (gReg k gb + gReg k gi * 2).toNat)

/-- R126: a refused write of either range, the lower address where both are refused (DESIGN CHOICE, log entry 174). -/
def pairRefused (k : Core) (blk : CoreBlock) (a : Nat × Nat) (n : Nat) : Option (Nat × Nat) :=
  match refused k blk .write a.1 (8 * n), refused k blk .write a.2 2 with
  | some x, some y => some (if y.2 < x.2 then y else x)
  | some x, none => some x
  | none, y => y

/-- R126: VQNT. Both ranges are checked before either is written; where they meet, the scales are written last (DESIGN CHOICE, log entry
174). -/
def execVqnt (c : CoreId) (va : VReg) (ga gb gi : GReg) (fmt : BitVec 4) (s : State) : Res :=
  .next (s.onCore c .vector (fun k =>
    let n := fmt.toNat
    if n = 0 ∨ 8 < n then s.fetchFault c.val
    else
      let a := pairAddrs k ga gb gi n
      let q := quantLanes n (vLanes k va)
      if interlocked k a.1 (8 * n) true || interlocked k a.2 2 true then s.stall c .vector k
      else match pairRefused k (s.block c.val) a n with
        | some (cause, x) => (s.setCore c.val k).boundsFault c.val 1 cause x
        | none => s.setCore c.val ((k.put a.1 q.2).put a.2 q.1)))

end Sys2Proof.Machine
end

