-- ==== Sys2Proof/Machine/Dispatch.lean ====
section
/-! DEFINITION. The meaning of every command: one arm per constructor, each one call. -/

namespace Sys2Proof.Machine

/-- The effect of a command on everything but the queue. -/
def exec (i : Instr) (s : State) : Host.Outcome State Fault Refusal :=
  match i with
  | .nop c u w => Sys2Proof.Machine.execNop c u w s
  | .add c gd ga gb => Sys2Proof.Machine.execAdd c gd ga gb s
  | .sub c gd ga gb => Sys2Proof.Machine.execSub c gd ga gb s
  | .and c gd ga gb => Sys2Proof.Machine.execAnd c gd ga gb s
  | .or c gd ga gb => Sys2Proof.Machine.execOr c gd ga gb s
  | .xor c gd ga gb => Sys2Proof.Machine.execXor c gd ga gb s
  | .sll c gd ga gb => Sys2Proof.Machine.execSll c gd ga gb s
  | .srl c gd ga gb => Sys2Proof.Machine.execSrl c gd ga gb s
  | .sra c gd ga gb => Sys2Proof.Machine.execSra c gd ga gb s
  | .slt c gd ga gb => Sys2Proof.Machine.execSlt c gd ga gb s
  | .sltu c gd ga gb => Sys2Proof.Machine.execSltu c gd ga gb s
  | .mul c gd ga gb => Sys2Proof.Machine.execMul c gd ga gb s
  | .addi c gd ga imm => Sys2Proof.Machine.execAddi c gd ga imm s
  | .andi c gd ga imm => Sys2Proof.Machine.execAndi c gd ga imm s
  | .ori c gd ga imm => Sys2Proof.Machine.execOri c gd ga imm s
  | .lui c gd imm => Sys2Proof.Machine.execLui c gd imm s
  | .slli c gd ga sh => Sys2Proof.Machine.execSlli c gd ga sh s
  | .srli c gd ga sh => Sys2Proof.Machine.execSrli c gd ga sh s
  | .srai c gd ga sh => Sys2Proof.Machine.execSrai c gd ga sh s
  | .gld c gd ga imm => Sys2Proof.Machine.execGld c gd ga imm s
  | .gst c gd ga imm => Sys2Proof.Machine.execGst c gd ga imm s
  | .beq c ga gb off => Sys2Proof.Machine.execBeq c ga gb off s
  | .bne c ga gb off => Sys2Proof.Machine.execBne c ga gb off s
  | .blt c ga gb off => Sys2Proof.Machine.execBlt c ga gb off s
  | .bge c ga gb off => Sys2Proof.Machine.execBge c ga gb off s
  | .bltu c ga gb off => Sys2Proof.Machine.execBltu c ga gb off s
  | .send c flow => Sys2Proof.Machine.execSend c flow s
  | .cancel c flow => Sys2Proof.Machine.execCancel c flow s
  | .await c gd flow => Sys2Proof.Machine.execAwait c gd flow s
  | .awaitReturn c => Sys2Proof.Machine.execAwaitReturn c s
  | .dwait c sel => Sys2Proof.Machine.execDwait c sel s
  | .dwaitReturn c => Sys2Proof.Machine.execDwaitReturn c s
  | .spar c gd index => Sys2Proof.Machine.execSpar c gd index s
  | .endBlock c => Sys2Proof.Machine.execEndBlock c s
  | .barrierArrival c => Sys2Proof.Machine.execBarrierArrival c s
  | .mcfg c ga word => Sys2Proof.Machine.execMcfg c ga word s
  | .mtile c gd ga gb => Sys2Proof.Machine.execMtile c gd ga gb s
  | .attemptTrouble c => Sys2Proof.Machine.execAttemptTrouble c s
  | .tileComplete c => Sys2Proof.Machine.execTileComplete c s
  | .vadd c vd va vb => Sys2Proof.Machine.execVadd c vd va vb s
  | .vsub c vd va vb => Sys2Proof.Machine.execVsub c vd va vb s
  | .vmul c vd va vb => Sys2Proof.Machine.execVmul c vd va vb s
  | .vfma c vd va vb vc => Sys2Proof.Machine.execVfma c vd va vb vc s
  | .vmax c vd va vb => Sys2Proof.Machine.execVmax c vd va vb s
  | .vmin c vd va vb => Sys2Proof.Machine.execVmin c vd va vb s
  | .vexp c vd va => Sys2Proof.Machine.execVexp c vd va s
  | .vrcp c vd va => Sys2Proof.Machine.execVrcp c vd va s
  | .vrsq c vd va => Sys2Proof.Machine.execVrsq c vd va s
  | .vrsum c vd va => Sys2Proof.Machine.execVrsum c vd va s
  | .vrmax c vd va => Sys2Proof.Machine.execVrmax c vd va s
  | .vsplat c vd ga => Sys2Proof.Machine.execVsplat c vd ga s
  | .vld c v ga efmt off => Sys2Proof.Machine.execVld c v ga efmt off s
  | .vst c v ga efmt off => Sys2Proof.Machine.execVst c v ga efmt off s
  | .vqnt c va ga gb gi fmt => Sys2Proof.Machine.execVqnt c va ga gb gi fmt s
  | .xrd c glocal gline gcount => Sys2Proof.Machine.execXrd c glocal gline gcount s
  | .xwr c glocal gline gcount => Sys2Proof.Machine.execXwr c glocal gline gcount s
  | .dreq c glocal gdesc => Sys2Proof.Machine.execDreq c glocal gdesc s
  | .dynResponseDelivery c tag => Sys2Proof.Machine.execDynResponseDelivery c tag s
  | .slotIssue link hop external => Sys2Proof.Machine.execSlotIssue link hop external s
  | .slotLanding link hop => Sys2Proof.Machine.execSlotLanding link hop s
  | .dynamicUnitIssue way packet => Sys2Proof.Machine.execDynamicUnitIssue way packet s
  | .unitRetry link => Sys2Proof.Machine.execUnitRetry link s
  | .ringHop packet => Sys2Proof.Machine.execRingHop packet s
  | .deliveryHop packet => Sys2Proof.Machine.execDeliveryHop packet s
  | .packetArrival packet crcBad => Sys2Proof.Machine.execPacketArrival packet crcBad s
  | .arrive n resent => Sys2Proof.Machine.execArrive n resent s
  | .release m => Sys2Proof.Machine.execRelease m s
  | .abort => Sys2Proof.Machine.execAbort s
  | .go => Sys2Proof.Machine.execGo s
  | .fault => Sys2Proof.Machine.execFault s
  | .timeBroadcast => Sys2Proof.Machine.execTimeBroadcast s
  | .time b resent => Sys2Proof.Machine.execTime b resent s
  | .point n addr value resent => Sys2Proof.Machine.execPoint n addr value resent s
  | .barrierTimerExpiry => Sys2Proof.Machine.execBarrierTimerExpiry s
  | .late => Sys2Proof.Machine.execLate s
  | .treeLinkFail n => Sys2Proof.Machine.execTreeLinkFail n s
  | .epochWatchdog => Sys2Proof.Machine.execEpochWatchdog s
  | .storeReadArrival b line r inRefresh => Sys2Proof.Machine.execStoreReadArrival b line r inRefresh s
  | .mergeWindowEnd b line => Sys2Proof.Machine.execMergeWindowEnd b line s
  | .storeLineReturn b line e mirrorOk => Sys2Proof.Machine.execStoreLineReturn b line e mirrorOk s
  | .refillWrite b => Sys2Proof.Machine.execRefillWrite b s
  | .refresh b bank waiting => Sys2Proof.Machine.execRefresh b bank waiting s
  | .refreshDeadline b bank => Sys2Proof.Machine.execRefreshDeadline b bank s
  | .targetedRefresh b bank row waiting => Sys2Proof.Machine.execTargetedRefresh b bank row waiting s
  | .patrolScrubRead b line e overwritten => Sys2Proof.Machine.execPatrolScrubRead b line e overwritten s
  | .scrubPreempt b bank => Sys2Proof.Machine.execScrubPreempt b bank s
  | .holdTimeout b line => Sys2Proof.Machine.execHoldTimeout b line s
  | .rowSpared b bank row => Sys2Proof.Machine.execRowSpared b bank row s
  | .hbmRefreshDeadline k bank => Sys2Proof.Machine.execHbmRefreshDeadline k bank s
  | .zqCalibration k => Sys2Proof.Machine.execZqCalibration k s
  | .hbmPatrolScrub k offset e => Sys2Proof.Machine.execHbmPatrolScrub k offset e s
  | .deviceStackRequest k e unit => Sys2Proof.Machine.execDeviceStackRequest k e unit s
  | .pageRetire k page softRepaired => Sys2Proof.Machine.execPageRetire k page softRepaired s
  | .hostMemRead p offset e linkErr => Sys2Proof.Machine.execHostMemRead p offset e linkErr s
  | .hostMemWrite p offset data linkErr => Sys2Proof.Machine.execHostMemWrite p offset data linkErr s
  | .choosePhase tables => Sys2Proof.Machine.execChoosePhase tables s
  | .preparePhase batchBad recordBad tableBad tableCorrected => Sys2Proof.Machine.execPreparePhase batchBad recordBad tableBad tableCorrected s
  | .stepCommit logits tables => Sys2Proof.Machine.execStepCommit logits tables s
  | .prefixInsertResume k table => Sys2Proof.Machine.execPrefixInsertResume k table s
  | .nodeRemoval k table => Sys2Proof.Machine.execNodeRemoval k table s
  | .locChange k table => Sys2Proof.Machine.execLocChange k table s
  | .demotionCopyDone k e => Sys2Proof.Machine.execDemotionCopyDone k e s
  | .readPage k table e unit => Sys2Proof.Machine.execReadPage k table e unit s
  | .openStream p => Sys2Proof.Machine.execOpenStream p s
  | .append p listBad => Sys2Proof.Machine.execAppend p listBad s
  | .truncate p => Sys2Proof.Machine.execTruncate p s
  | .close p => Sys2Proof.Machine.execClose p s
  | .attachKv p => Sys2Proof.Machine.execAttachKv p s
  | .resume p => Sys2Proof.Machine.execResume p s
  | .ship p => Sys2Proof.Machine.execShip p s
  | .outputRecordWrite p => Sys2Proof.Machine.execOutputRecordWrite p s
  | .outputIrqTimer p => Sys2Proof.Machine.execOutputIrqTimer p s
  | .shipmentRecordSend st => Sys2Proof.Machine.execShipmentRecordSend st s
  | .kvShipmentRecord record => Sys2Proof.Machine.execKvShipmentRecord record s
  | .shipmentAcknowledgement st seqn refused => Sys2Proof.Machine.execShipmentAcknowledgement st seqn refused s
  | .shipRetry st => Sys2Proof.Machine.execShipRetry st s
  | .shipAckTimeout st => Sys2Proof.Machine.execShipAckTimeout st s
  | .shipPageTimeout st => Sys2Proof.Machine.execShipPageTimeout st s
  | .grammarBind b v => Sys2Proof.Machine.execGrammarBind b v s
  | .grammarCheckDone slot readBad corrected => Sys2Proof.Machine.execGrammarCheckDone slot readBad corrected s
  | .sgstateReset b v => Sys2Proof.Machine.execSgstateReset b v s
  | .spcntClear b v => Sys2Proof.Machine.execSpcntClear b v s
  | .penEnWrite b v => Sys2Proof.Machine.execPenEnWrite b v s
  | .descriptorPoll p ch host => Sys2Proof.Machine.execDescriptorPoll p ch host s
  | .copyIn p ch => Sys2Proof.Machine.execCopyIn p ch s
  | .copyOut p ch => Sys2Proof.Machine.execCopyOut p ch s
  | .manifest p ch bytes => Sys2Proof.Machine.execManifest p ch bytes s
  | .shard p ch => Sys2Proof.Machine.execShard p ch s
  | .peerShard p ch reply => Sys2Proof.Machine.execPeerShard p ch reply s
  | .program p ch bytes => Sys2Proof.Machine.execProgram p ch bytes s
  | .lighterBurst p ch host e unit => Sys2Proof.Machine.execLighterBurst p ch host e unit s
  | .descriptorComplete p ch readBackBad => Sys2Proof.Machine.execDescriptorComplete p ch readBackBad s
  | .openLoad p => Sys2Proof.Machine.execOpenLoad p s
  | .commit p => Sys2Proof.Machine.execCommit p s
  | .unload p => Sys2Proof.Machine.execUnload p s
  | .openStage p => Sys2Proof.Machine.execOpenStage p s
  | .swap p => Sys2Proof.Machine.execSwap p s
  | .abandon p => Sys2Proof.Machine.execAbandon p s
  | .copyStep => Sys2Proof.Machine.execCopyStep s
  | .rehashPass b slot bad => Sys2Proof.Machine.execRehashPass b slot bad s
  | .trainingBurst z => Sys2Proof.Machine.execTrainingBurst z s
  | .admissionWave w => Sys2Proof.Machine.execAdmissionWave w s
  | .ident z partner delay => Sys2Proof.Machine.execIdent z partner delay s
  | .checkRetry z => Sys2Proof.Machine.execCheckRetry z s
  | .flitReplay z received frame => Sys2Proof.Machine.execFlitReplay z received frame s
  | .lossOfSignal z => Sys2Proof.Machine.execLossOfSignal z s
  | .chamois z m => Sys2Proof.Machine.execChamois z m s
  | .ack z seq => Sys2Proof.Machine.execAck z seq s
  | .credit z response gen n => Sys2Proof.Machine.execCredit z response gen n s
  | .goingDown z => Sys2Proof.Machine.execGoingDown z s
  | .forwardWindowEnd => Sys2Proof.Machine.execForwardWindowEnd s
  | .genFlipWrite b v => Sys2Proof.Machine.execGenFlipWrite b v s
  | .flip z g => Sys2Proof.Machine.execFlip z g s
  | .drain z g count arrival => Sys2Proof.Machine.execDrain z g count arrival s
  | .bankRelease z g => Sys2Proof.Machine.execBankRelease z g s
  | .zhozaPacketForward pkt => Sys2Proof.Machine.execZhozaPacketForward pkt s
  | .laneRecalibration z => Sys2Proof.Machine.execLaneRecalibration z s
  | .linkRecalibration link => Sys2Proof.Machine.execLinkRecalibration link s
  | .telemetrySample => Sys2Proof.Machine.execTelemetrySample s
  | .hdmDecoderCommit p size ways gran lock => Sys2Proof.Machine.execHdmDecoderCommit p size ways gran lock s
  | .take p otherDownMs => Sys2Proof.Machine.execTake p otherDownMs s
  | .returnPart p => Sys2Proof.Machine.execReturnPart p s
  | .ringEnable p k v => Sys2Proof.Machine.execRingEnable p k v s
  | .channelEnable p v => Sys2Proof.Machine.execChannelEnable p v s
  | .requestRingPoll p readBad => Sys2Proof.Machine.execRequestRingPoll p readBad s
  | .conventionalReset p cause => Sys2Proof.Machine.execConventionalReset p cause s
  | .flr p => Sys2Proof.Machine.execFlr p s
  | .portLeavesReset p => Sys2Proof.Machine.execPortLeavesReset p s
  | .identifyMemoryDevice p => Sys2Proof.Machine.execIdentifyMemoryDevice p s
  | .getEventRecords p => Sys2Proof.Machine.execGetEventRecords p s
  | .clearEventRecords p handles => Sys2Proof.Machine.execClearEventRecords p handles s
  | .getHealthInfo p => Sys2Proof.Machine.execGetHealthInfo p s
  | .getAlertConfiguration p => Sys2Proof.Machine.execGetAlertConfiguration p s
  | .setAlertConfiguration p config => Sys2Proof.Machine.execSetAlertConfiguration p config s
  | .mctpReset => Sys2Proof.Machine.execMctpReset s
  | .modResetN => Sys2Proof.Machine.execModResetN s
  | .warmT0 straps => Sys2Proof.Machine.execWarmT0 straps s
  | .coldPowerUp straps plate => Sys2Proof.Machine.execColdPowerUp straps plate s
  | .brownOut n => Sys2Proof.Machine.execBrownOut n s
  | .firmwareBoot => Sys2Proof.Machine.execFirmwareBoot s
  | .basinWave w => Sys2Proof.Machine.execBasinWave w s
  | .bistTrainingDone x ok => Sys2Proof.Machine.execBistTrainingDone x ok s
  | .memActive => Sys2Proof.Machine.execMemActive s
  | .moduleReady ms => Sys2Proof.Machine.execModuleReady ms s
  | .plateHeartbeat => Sys2Proof.Machine.execPlateHeartbeat s
  | .plateLink => Sys2Proof.Machine.execPlateLink s
  | .phase1 n idx => Sys2Proof.Machine.execPhase1 n idx s
  | .phase2 n idx => Sys2Proof.Machine.execPhase2 n idx s
  | .short n => Sys2Proof.Machine.execShort n s
  | .underv n mv => Sys2Proof.Machine.execUnderv n mv s
  | .wake b sum => Sys2Proof.Machine.execWake b sum s
  | .wakeStep b sum => Sys2Proof.Machine.execWakeStep b sum s
  | .zoneOc z => Sys2Proof.Machine.execZoneOc z s
  | .zoneOcRelease z => Sys2Proof.Machine.execZoneOcRelease z s
  | .powerControlSample m => Sys2Proof.Machine.execPowerControlSample m s
  | .idleGating => Sys2Proof.Machine.execIdleGating s
  | .spareBist b ok => Sys2Proof.Machine.execSpareBist b ok s
  | .lockLoss standby => Sys2Proof.Machine.execLockLoss standby s
  | .refLoss => Sys2Proof.Machine.execRefLoss s
  | .trayRead r => Sys2Proof.Machine.execTrayRead r s
  | .linkLost => Sys2Proof.Machine.execLinkLost s
  | .forecast p60 t60 => Sys2Proof.Machine.execForecast p60 t60 s
  | .thermalSiteSample idx site diode ro => Sys2Proof.Machine.execThermalSiteSample idx site diode ro s
  | .pairFault idx site => Sys2Proof.Machine.execPairFault idx site s
  | .thermalStepRequest h => Sys2Proof.Machine.execThermalStepRequest h s
  | .thermalStepRelease h => Sys2Proof.Machine.execThermalStepRelease h s
  | .trip idx site => Sys2Proof.Machine.execTrip idx site s
  | .orderlyStop => Sys2Proof.Machine.execOrderlyStop s
  | .orderlyResume => Sys2Proof.Machine.execOrderlyResume s
  | .flowAlertN asserted => Sys2Proof.Machine.execFlowAlertN asserted s
  | .coolantRecovery => Sys2Proof.Machine.execCoolantRecovery s
  | .railDrop => Sys2Proof.Machine.execRailDrop s
  | .quiesceComplete badSpares lost => Sys2Proof.Machine.execQuiesceComplete badSpares lost s
  | .quiesce => Sys2Proof.Machine.execQuiesce s
  | .spareSelftestDone ok => Sys2Proof.Machine.execSpareSelftestDone ok s
  | .storeMigrationDone b => Sys2Proof.Machine.execStoreMigrationDone b s
  | .restore => Sys2Proof.Machine.execRestore s
  | .moduleFatal => Sys2Proof.Machine.execModuleFatal s
  | .attestationRequest nonce => Sys2Proof.Machine.execAttestationRequest nonce s
  | .indexReservationAck ok => Sys2Proof.Machine.execIndexReservationAck ok s
  | .bottomTreeReady => Sys2Proof.Machine.execBottomTreeReady s
  | .debugToken token => Sys2Proof.Machine.execDebugToken token s
  | .seal v => Sys2Proof.Machine.execSeal v s
  | .svnCommit v => Sys2Proof.Machine.execSvnCommit v s
  | .firmwareUpdate copy complete => Sys2Proof.Machine.execFirmwareUpdate copy complete s
  | .kvBaseWrite b v => Sys2Proof.Machine.execKvBaseWrite b v s
  | .errStsClear addr v => Sys2Proof.Machine.execErrStsClear addr v s
  | .inject addr v => Sys2Proof.Machine.execInject addr v s
  | .vminRestart n v => Sys2Proof.Machine.execVminRestart n v s
  | .registerWrite p addr size enables data => Sys2Proof.Machine.execRegisterWrite p addr size enables data s
  | .laneLock z => Sys2Proof.Machine.execLaneLock z s
  | .seamSync b => Sys2Proof.Machine.execSeamSync b s
  | .refDev ppm => Sys2Proof.Machine.execRefDev ppm s
  | .phase2Timeout n => Sys2Proof.Machine.execPhase2Timeout n s
  | .heldLineRepaired b line data => Sys2Proof.Machine.execHeldLineRepaired b line data s
  | .linkInL0 p width speed => Sys2Proof.Machine.execLinkInL0 p width speed s
  | .cfgReady p => Sys2Proof.Machine.execCfgReady p s
  | .berHigh z => Sys2Proof.Machine.execBerHigh z s

end Sys2Proof.Machine
end

