-- ==== Sys2Proof/Machine/Idle.lean ====
section
/-! DEFINITION. What happens on an empty queue: one PCLK of the clock that never stops passes (R413), with what needs no command. -/

namespace Sys2Proof.Machine

/-- R528: the cause that STRM_STATE.WHY shows. -/
def whyOf (x : Stream) : Nat := (x.holds.getLast?).getD 0

/-- R462, R463: whether the module is unavailable. -/
def State.unavailable (s : State) : Bool :=
  s.flt.aborted || s.flt.fatal || (s.stage == .ready && !s.flt.exec) ||
  s.liveStreams.any (fun i => (s.stream i).state == .held && whyOf (s.stream i) == 2)

/-- R463, R467: a PCLK of unavailable time; 212,500 of them make one ms of FLT_UNAV. -/
def State.countUnav (s : State) : State :=
  if !s.unavailable then s
  else if s.unav + 1 < 212500 then { s with unav := s.unav + 1 }
  else
    let w := (s.reg .flt 0 0x064).toNat
    ({ s with unav := 0 }).setReg .flt 0 0x064 (BitVec.ofNat 32 (min (w + 1) (2 ^ 32 - 1)))

/-- R327: slots in service with a backup whose resident shards are not all there are rewritten from it while no step runs. -/
def State.rewriteShards (s : State) : State :=
  if s.seq.running || s.flt.phase != .idle || !s.flt.migrating.isEmpty then s
  else (List.range 8).foldl (fun s i =>
    let x := s.image i
    if x.bkpEn && (x.st == .ready || x.st == .staging || x.st == .staged) && !x.mixed && s.shardsAway i then (s.fromBackup i).liftRepaired i
    else s) s

/-- R205, R216: while no step is held or runs, repairs that wait are made at once. -/
def State.mendIdle (s : State) : State := if s.seq.cur.isNone && s.flt.phase == .idle && s.mendDue then s.mendAll else s

/-- R166, R167: within a PCLK the receiving end of every link has read the dynamic units that came first. -/
def State.readWays (s : State) : State := { s with ways := (s.ways.map (fun e => (e.1, e.2.flight (readHeads e.2.inflight)))).filter (fun e => e.2 ≠ {}) }

/-- R90: a region error of a berth that no bit of its pages records; FLT_CUR names its BRTH page (DESIGN CHOICE, log entry 177). -/
def State.berthError (s : State) (b : Nat) : State :=
  { s with flt := { s.flt with msgs := s.flt.msgs ++ [fltErr (scopeOf .berth s.spansModules s.repairEn) .brth b 0] } }

/-- R77, R90, R91, R216 (log entry 176): what an upset does. It can touch a core only while a step runs. -/
def State.upset (s : State) : Upset → State
  | .scratch c w u =>
    if s.coresMode = .run ∧ w < 0x60000 then
      let k := s.core c.val
      let u := u || k.damage.any (fun e => e.1 == w)
      s.setCore c.val { k with damage := k.damage.filter (fun e => e.1 ≠ w) ++ [(w, u)] }
    else s
  | .fetch c => if s.issuing (s.core c.val) then s.fetchFault c.val else s
  | .residue c => match s.coreInst c.val with
    | some i => if s.coresMode = .run then s.raise .core i 5 else s
    | none => s
  | .pageLogic b p => let x := s.berth b.val; s.setBerth b.val { x with deadPages := x.deadPages.filter (· ≠ p) ++ [p] }
  | .bypass b r =>
    let x := s.berth b.val
    let t := s.setBerth b.val { x with badBypass := x.badBypass.filter (· ≠ r.val) ++ [r.val] }
    if x.role = .inService ∧ !x.badBypass.contains r.val then t.berthError b.val else t
  | .channel k => (s.setStack k.val { s.stack k.val with channelBad := true }).raiseOnce .hbmc k.val 5

/-- What fails of itself in this PCLK. -/
def State.upsets (s : State) : State := match Config.upset s.draws with
  | none => s
  | some u => s.upset u

/-- STAMP counts one PCLK while the module is powered (log entry 4), and the counters of cycles count; nothing else moves on an empty queue
but what R77, R167, R183, R205, R216, R317, R327, R361 and R463 let happen of itself. -/
def tick (s : State) : State :=
  if s.powered then ({ s with stamp := s.stamp + 1 }).drawn.upsets.holdClocks.readWays.drainBuffers.countUnav.mendIdle.rewriteShards.drainAlone else s

end Sys2Proof.Machine
end

