-- ==== Sys2Proof/Machine/RegView.lean ====
section
/-! DEFINITION. What a read of BAR0 returns (R29–R31, R90, R92–R98, R184, R187–R195, R218–R223, R250–R252, R284–R286, R302–R307, R334, R335, R368,
R369, R393–R395, R421–R426, R440, R442, R465–R467, R484–R491, R498–R501). A read changes nothing (R486), so it is no command. -/

namespace Sys2Proof.Machine

/-- A value that only the hardware measures (log entry 31). -/
def State.measure (s : State) (b : Blk) (inst off q : Nat) : Word := Config.measured (pageBase b inst + off) q s.draws

/-- The words of a 128-bit number. -/
def wordOf (v : Nat) (i : Nat) : Word := BitVec.ofNat 32 (v / 2 ^ (32 * i))

-- cores

/-- R29: BRTH_GEOM. -/
def berthGeom (b : Nat) : Word := field b 17 ||| flag (inEast b) 16 ||| field (rowOf b) 8 ||| field (colOf b) 0

/-- R31: BRTH_ROWMAP0 and BRTH_ROWMAP1, from row `r0` on. -/
def rowMap (x : BerthSt) (r0 n : Nat) : Word :=
  BitVec.ofNat 32 (((List.range n).map (fun i => Sparse.get (fun _ => 15) x.removed (r0 + i) * 2 ^ (4 * i))).sum)

/-- The logical core that a physical core serves in its berth's binding. -/
def State.coreAt (s : State) (i : Nat) : Option Nat :=
  let x := s.berth (i / 156)
  if x.role = .inService then (logCore x.removed (i % 156)).map (fun k => x.logical * 144 + k) else none

/-- R92: CORE_ID. -/
def State.coreId (s : State) (i : Nat) : Word :=
  let p := i % 156
  let k := logCore (s.berth (i / 156)).removed p
  flag k.isSome 31 ||| field (k.getD 255) 16 ||| field p 8 ||| field (p % 13) 4 ||| field (p / 13) 0

/-- R93: the code of a running core's state. -/
def runCode : CoreSt → Nat
  | .run => 1
  | .waitFlow _ _ => 2
  | .waitDyn _ => 3
  | .ending => 3
  | .ended => 4
  | .arrived => 4
  | .blocked => 1

/-- R90, R93: CORE_STATE. A core that is not gated and serves no logical core, because its berth is not in service, reads IDLE (DESIGN CHOICE,
log entry 169). -/
def State.coreState (s : State) (i : Nat) : Nat :=
  let x := s.berth (i / 156)
  let p := i % 156
  if Sparse.get (fun _ => 15) x.removed (p / 13) = p % 13 then 7
  else if (logCore x.removed p).isNone then 6
  else if x.gated then 8
  else match s.coreAt i with
    | none => 0
    | some c => match s.coresMode with
      | .idle => 0
      | .held => 5
      | .run => runCode (s.core c).st

/-- R98: CORE_TEL_VAL. -/
def State.coreTel (s : State) (i : Nat) : Word :=
  let q := bits (s.reg .core i 0x028) 7 0
  let k := match s.coreAt i with
    | some c => s.core c
    | none => {}
  match q with
  | 0 => BitVec.ofNat 32 k.issued
  | 5 => BitVec.ofNat 32 k.lines
  | 6 => BitVec.ofNat 32 k.requests
  | _ => if q < 5 then s.measure .core i 0x02C q else 0

/-- R94: CORE_EPOCH: the running or held epoch of a core that serves a logical core; any other reads 0 (DESIGN CHOICE, log entry 168). -/
def State.coreEpoch (s : State) (i : Nat) : Word := match s.seq.cur, s.coreAt i with
  | some t, some _ => match s.coresMode with
    | .idle => 0
    | .run => field t.image 16 ||| field s.seq.epoch 0
    | .held => field t.image 16 ||| field s.seq.heldEpoch 0
  | _, _ => 0

/-- R92–R97: the CORE page. -/
def State.viewCore (s : State) (i off : Nat) (w : Word) : Word :=
  let k := match s.coreAt i with
    | some c => s.core c
    | none => {}
  match off with
  | 0x040 => s.coreId i
  | 0x044 => field (s.coreState i) 0
  | 0x048 => s.coreEpoch i
  | 0x04C => field k.pc 0
  | 0x054 => putBits w 4 0 k.dyn.length
  | 0x058 => s.cycleCount .core i off
  | _ => w

-- the mesh and the tree

/-- R50, R159, R189: the staging buffers that are occupied at a router's input port. A tunnel's are its own (R64). -/
def State.stagedAt (s : State) (b port : Nat) : Nat :=
  ((s.links.filter (fun e => match s.linkWays e.1 with
    | some [w] => (s.wayPorts w).contains (b, port, false)
    | _ => false)).map (fun e => e.2.staged.length)).sum

/-- R187: whether a port number is not reserved (R159). -/
def portListed (p : Nat) : Bool := p < 10 || 16 ≤ p

/-- R167, R193: the entries that a seam berth's outgoing FIFO holds. -/
def State.seamLoad (s : State) (b : Nat) : Nat := (s.way (ringWay b (if colOf b = 5 then 2 else 0))).inflight.length

/-- R187–R193: the MESH page. -/
def State.viewMesh (s : State) (b off : Nat) (w : Word) : Word :=
  let p := bits (s.reg .mesh b 0x040) 5 0
  if 0x044 ≤ off ∧ off ≤ 0x058 ∧ !portListed p then 0
  else match off with
  | 0x04C => putBits (putBits w 20 16 (s.stagedAt b p)) 7 0 (s.dynAt b p)
  | 0x050 => s.cycleCount .mesh b off
  | 0x060 => if colOf b = 5 ∨ colOf b = 6 then
      field (bits w 23 20) 20 ||| field (min 15 (s.seamLoad b)) 16 ||| field (s.half (otherHalf (halfOf b))).now 8 ||| field (s.half (halfOf b)).now 0
    else 0
  | _ => w

/-- R195: the cores of a berth that have arrived. -/
def State.arrivedAt (s : State) (b : Nat) : Nat :=
  let x := s.berth b
  if x.role = .inService ∧ s.coresMode = .run then
    ((List.range 144).filter (fun k => (s.core (x.logical * 144 + k)).st == .arrived)).length else 0

/-- R195: CHMS_BSTAT. -/
def State.barrierStat (s : State) (b : Nat) (w : Word) : Word :=
  let one := s.oneLeft.any (fun n => match n with
    | .berth c => c.val == b
    | _ => false)
  flag one 24 ||| field (s.arrivedAt b) 16 ||| field (bits w 15 0) 0

-- memories

/-- R220: STOR_SPARE: the bank with the most spare rows used, the lowest of several. -/
def spareUse (x : BerthSt) : Word :=
  let m := (x.spareRows.map Prod.snd).foldl max 0
  match x.spareRows.find? (fun e => e.2 = m) with
  | some e => field e.1 7 ||| field m 0
  | none => 0

/-- R218–R220: the STOR page. -/
def State.viewStor (s : State) (b off : Nat) (w : Word) : Word := match off with
  | 0x040 => putBits w 19 8 (bits (s.measure .stor b off 0) 11 0)
  | 0x054 => spareUse (s.berth b)
  | _ => w

/-- R207, R222: the HBMC page; a halved command rate (R406) leaves the data rate per pin as it is. -/
def State.viewHbmc (s : State) (k off : Nat) (w : Word) : Word := match off with
  | 0x040 => putBits (putBits w 31 24 (bits (s.measure .hbmc k off 0) 7 0)) 15 8 96
  | 0x050 => field (s.stack k).retired.length 0
  | _ => w

/-- R284: the KVPG page. -/
def State.viewKvpg (s : State) (k off : Nat) (w : Word) : Word := match off with
  | 0x044 => field ((servedBy k).map s.framesFree).sum 0
  | 0x048 => putBits w 31 8 s.nodes.length
  | _ => w

-- streams and steps

/-- R306, R307: the SMPL registers. -/
def State.viewSmpl (s : State) (off : Nat) (w : Word) : Word :=
  let x := s.stream s.smplSel
  let cfg := s.regI .smpl 0 0x044 s.smplSel
  match off with
  | 0x064 => if bit cfg 7 && s.slotBound (gslotOf cfg) then field x.grammar 0 else 0
  | 0x068 => field x.counts.length 0
  | 0x074 => w ||| flag (s.grammarChecks.contains (bits (s.reg .smpl 0 0x070) 3 0)) 30
  | _ => w

/-- R250: SCHD_STEPSTS: the current or last step. -/
def State.stepStatus (s : State) : Word :=
  let q := s.seq
  let base := match q.cur with
    | some t => field t.image 28 ||| field t.streams 19 ||| field t.positions 6 ||| field t.program 4
    | none => field q.lastImage 28 ||| field q.lastStreams 19 ||| field q.lastPositions 6 ||| field (q.lastProg % 4) 4
  flag q.running 31 ||| base ||| field (min q.replay 3) 26

/-- R250, R425, R426: the SCHD pages. -/
def State.viewSchd (s : State) (i off : Nat) (w : Word) : Word :=
  if i = 0 then match off with
    | 0x048 => s.stepStatus
    | 0x060 => putBits w 31 16 s.effCap
    | 0x064 => putBits w 16 16 (if s.inPackage then 1 else 0)
    | _ => w
  else match off with
    | 0x040 => putBits w 12 8 (s.half (if i = 1 then .west else .east)).now
    | _ => w

/-- R232: the code of a stream's state. -/
def streamCode : StreamState → Nat
  | .free => 0 | .active => 1 | .shipping => 2 | .held => 3

/-- R252: STRM_STATE. -/
def streamWord (x : Stream) : Word :=
  let why := if x.state = .held then (x.holds.getLast?).getD 0 else 0
  field x.gen 16 ||| field ((List.range 4).map (fun c => if x.holds.contains c then 2 ^ c else 0)).sum 11 ||| field why 9 ||| flag x.indexPending 8 |||
  flag x.carry 7 ||| field x.image 4 ||| field (streamCode x.state) 0

/-- R241, R243, R252: STRM_SHIP. -/
def shipLeft (x : Stream) : Nat := match x.shipIn, x.shipOut with
  | some i, _ => i.left
  | _, some o => o.left
  | _, _ => 0

/-- R252: the STRM page. -/
def State.viewStrm (s : State) (off : Nat) (w : Word) : Word :=
  let x := s.stream (bits (s.reg .strm 0 0x040) 7 0)
  match off with
  | 0x044 => streamWord x
  | 0x048 => field x.kvlen 0
  | 0x04C => field x.queue.length 0
  | 0x050 => field (shipLeft x) 0
  | _ => w

/-- R334, R335: the LTR page. -/
def State.viewLtr (s : State) (i off : Nat) (w : Word) : Word :=
  let c := s.chan (i * 16 + bits (s.reg .ltr i 0x040) 3 0)
  let x := s.image s.islot
  match off with
  | 0x050 => flag c.stopped 31 ||| flag c.job.isSome 30 ||| field c.next 0
  | 0x064 => field x.present.length 16 ||| field x.result 8 ||| field (slotCode x.st) 0
  | 0x078 => wordOf x.good.toNat 0
  | 0x07C => wordOf x.good.toNat 1
  | _ => w

-- ports

/-- R344, R368: the code of a port's state. -/
def zstateCode : ZState → Nat
  | .down => 0 | .listen => 1 | .train => 2 | .check => 3 | .up => 4 | .miscabled => 5

/-- R341, R368: the lanes that a port uses. -/
def lanesUsed (p : ZPort) : Nat :=
  if p.st = .check ∨ p.st = .up then (match p.retired with
    | some l => 255 - 2 ^ l
    | none => 255)
  else 0

/-- R368: ZLNK_PARTNER. -/
def State.partnerWord (s : State) (p : ZPort) : Word := match p.partner with
  | none => 0
  | some q => flag true 31 ||| field q.role.toNat 27 ||| field q.index.toNat 24 |||
      flag (q.tenant.toNat == bits (s.reg .zlnk 0 0x084) 15 0) 15 ||| field q.addr.toNat 0

/-- R368, R369: the ZLNK page. -/
def State.viewZlnk (s : State) (z off : Nat) (w : Word) : Word :=
  let p := s.zport z
  match off with
  | 0x040 => field (lanesUsed p) 16 ||| field (roleWave p.role % 16) 8 ||| flag (s.fenced z) 3 ||| field (zstateCode p.st) 0
  | 0x044 => field p.index 4 ||| field p.role 0
  | 0x048 => s.partnerWord p
  | 0x094 => flag s.gen.oldFree 16 ||| field s.gen.gennum 8 ||| field (s.gen.gennum % 2) 0
  | 0x0A0 => field (min (s.inflight true) 65535) 16 ||| field (min (s.inflight false) 65535) 0
  | _ => w

/-- R393: the code of a link's state. -/
def linkCode : LinkState → Nat
  | .reset => 0 | .training => 1 | .l0 => 2 | .down => 3

/-- R393, R395: the CXLP page. -/
def State.viewCxlp (s : State) (i off : Nat) (w : Word) : Word :=
  let x := s.port (portOf i)
  match off with
  | 0x040 => field x.width 16 ||| field x.speed 8 ||| flag x.memActive 3 ||| flag x.cfgReady 2 ||| field (linkCode x.link) 0
  | 0x044 => flag x.takenFrom 3 ||| flag x.taken 2
  | 0x058 => field x.outNext 16 ||| field x.rqNext 0
  | 0x05C => field x.pend.length 0
  | _ => w

-- power, clocks, heat

/-- R421: BSN_STS. A memory or harbour basin's region is gated while the basin does not regulate. -/
def State.basinStatus (s : State) (n : Nat) : Word :=
  let x := s.basin n
  let ok := 2 ^ phaseCount n - 1 - (x.phasesLost.map (2 ^ ·)).sum
  field ok 16 ||| field (if n < 84 then (s.berth n).ldiv else 0) 8 ||| flag x.latched 1 |||
  flag (if n < 84 then (s.berth n).gated else !x.regulating) 0

/-- R421: the BSN page. -/
def State.viewBsn (s : State) (n off : Nat) (w : Word) : Word := match off with
  | 0x040 => putBits w 0 0 (if (s.basin n).inpkg then 1 else 0)
  | 0x044 => s.basinStatus n
  | 0x048 => s.measure .bsn n off 0
  | 0x04C => field (zoneOf n) 16 ||| field (s.setpoint n) 0
  | _ => w

/-- R440: a temperature of 12 bits. -/
def temp12 (t : Int) : Nat := (BitVec.ofInt 12 t).toNat

/-- R440: THRM_MAX. -/
def State.thrmMax (s : State) (i : Nat) : Word :=
  let l := s.siteReadings i
  let m := (highest l).getD 0
  field (l.idxOf m) 12 ||| field (temp12 m) 0

/-- R440: the THRM page. -/
def State.viewThrm (s : State) (i off : Nat) : Word :=
  if off = 0x050 then s.thrmMax i
  else
    let k := (off - 0x040) / 4
    let x := s.site (i * 4 + k)
    if k < siteCount i then flag x.faulty 31 ||| field x.ro.toNat 16 ||| field x.diode.toNat 0 else 0

/-- R442: the code of the coolant state. -/
def coolCode (c : Cool) : Nat := match c.st with
  | .dropped => 5
  | .sudden => 4
  | .waitDrop => 4
  | .orderly => 3
  | .normal => if c.capped then 2 else if c.low then 1 else 0

/-- R442: the TRAY page. -/
def State.viewTray (s : State) (off : Nat) (w : Word) : Word := match off with
  | 0x040 => flag s.cool.alertPin 31 ||| field (coolCode s.cool) 28 ||| field (s.cool.flow % 1024) 0
  | 0x044 => field (BitVec.ofInt 16 s.cool.outlet).toNat 16 ||| field (BitVec.ofInt 16 s.cool.inlet).toNat 0
  | 0x048 => putBits w 15 0 s.cool.cap
  | _ => w

-- faults, security, the module

/-- R446, R466: the code of a phase. -/
def phaseCode : FltPhase → Nat
  | .idle => 0 | .abort => 1 | .quiesce => 2 | .repair => 3 | .restore => 4 | .coolant => 5 | .reset => 6

/-- R466: the SPARE berths of a half. -/
def State.spareCount (s : State) (h : Half) : Nat := ((halfBerths h).filter (fun b => (s.berth b).role == .spare)).length

/-- R465, R466: the FLT page. -/
def State.viewFlt (s : State) (off : Nat) (w : Word) : Word := match off with
  | 0x040 => if s.flt.phase = .idle then 0 else errWord s.flt.cur
  | 0x044 => if s.flt.phase = .idle then 0 else errWord s.flt.next
  | 0x048 => putBits w 31 16 s.flt.ovf
  | 0x04C => flag (s.stage == .ready && s.flt.exec) 16 ||| field (s.spareCount .east) 12 ||| field (s.spareCount .west) 8 ||| field (phaseCode s.flt.phase) 0
  | _ => w

/-- R484: the SECU page. DBG3 shows the level after a token was accepted. -/
def State.viewSecu (s : State) (off : Nat) (w : Word) : Word :=
  let k := s.secu
  match off with
  | 0x040 => flag k.sealed 1
  | 0x044 => field s.fuses.rollback 8 ||| field k.svn 0
  | 0x06C => field (if k.blockNext < k.blockEnd then k.blockNext else s.flash.nextFree) 0
  | 0x070 => wordOf k.nonce.toNat 0
  | 0x074 => wordOf k.nonce.toNat 1
  | 0x078 => wordOf k.nonce.toNat 2
  | 0x07C => if k.debug = 0 then wordOf k.nonce.toNat 3 else putBits (wordOf k.nonce.toNat 3) 1 0 k.debug
  | _ => if 0x04C ≤ off ∧ off ≤ 0x068 ∧ bits (s.reg .secu 0 0x048) 2 0 = 0 then wordOf s.fuses.fwRoot.toNat ((off - 0x04C) / 4) else w

/-- R387, R498: the code of a stage. -/
def stageCode : Stage → Nat
  | .firmware => 0 | .basins => 1 | .bist => 2 | .clearing => 3 | .optical => 4 | .ready => 5 | .holdClock => 6 | .recovery => 7

/-- R498: GLB_ROLEn: the roles of 16 berths. -/
def State.roleWord (s : State) (n : Nat) : Word :=
  BitVec.ofNat 32 (((List.range 16).map (fun i => if 16 * n + i < 84 then roleCode (s.berth (16 * n + i)).role * 4 ^ i else 0)).sum)

/-- R498: the GLB page. -/
def State.viewGlb (s : State) (off : Nat) : Word :=
  if off = 0x040 then field 0x8412 16 ||| field (steppingCode s.fuses.stepping) 0
  else if off < 0x054 then wordOf s.fuses.serial.toNat ((off - 0x044) / 4)
  else if off = 0x054 then
    flag (s.stage == .ready) 31 ||| field (stageCode s.stage) 16 ||| (if s.stage = .ready then field (min s.tms 65535) 0 else 0)
  else if off = 0x058 then wordOf s.stamp.toNat 0
  else if off = 0x05C then wordOf s.stamp.toNat 1
  else if off < 0x078 then s.roleWord ((off - 0x060) / 4)
  else if off = 0x078 then flag s.dgenBusy 16 ||| field s.dgen 0
  else 0

/-- A register after the header of a page that is ready, by its stored value `w`. -/
def State.viewBlock (s : State) (b : Blk) (inst off : Nat) (w : Word) : Word := match b with
  | .glb => s.viewGlb off
  | .brth => match off with
    | 0x040 => berthGeom inst
    | 0x044 => s.brthRole inst
    | 0x048 => rowMap (s.berth inst) 0 8
    | 0x04C => rowMap (s.berth inst) 8 4
    | _ => w
  | .core => s.viewCore inst off w
  | .mesh => s.viewMesh inst off w
  | .chms => if off = 0x040 then s.barrierStat inst w else w
  | .stor => s.viewStor inst off w
  | .hbmc => s.viewHbmc inst off w
  | .kvpg => s.viewKvpg inst off w
  | .smpl => s.viewSmpl off w
  | .schd => if inst = 0 ∧ off = 0x058 then BitVec.ofNat 32 s.seq.stepId else s.viewSchd inst off w
  | .strm => s.viewStrm off w
  | .ltr => s.viewLtr inst off w
  | .zlnk => s.viewZlnk inst off w
  | .cxlp => s.viewCxlp inst off w
  | .bsn => s.viewBsn inst off w
  | .clkg => w
  | .thrm => s.viewThrm inst off
  | .tray => s.viewTray off w
  | .flt => s.viewFlt off w
  | .secu => s.viewSecu off w

-- the header

/-- R491: STS. -/
def State.pageStatus (s : State) (b : Blk) (i : Nat) : Word :=
  flag s.secu.sealed 2 ||| flag ((s.errRegs b i).sts &&& ~~~(s.errMask b i) != 0) 1 ||| flag (s.blockReady b i) 0

/-- R491: the header of a page. -/
def State.viewHeader (s : State) (b : Blk) (i off : Nat) : Word := match off with
  | 0x000 => field (blkCode b) 16 ||| field (if b = .core then i % 156 else i) 4 ||| field 1 0
  | 0x004 => field (Config.implRevision b).toNat 16
  | 0x00C => s.pageStatus b i
  | 0x02C => if b = .core then s.coreTel i else 0
  | _ => if off < 0x028 ∨ off = 0x028 then s.reg b i off else 0

-- the table area (R184, R499, R500)

/-- The module with the roles that the table area was last written from. -/
def State.asTabled (s : State) : State :=
  let berths := (s.tableArea.zipIdx).map (fun (e : TableRow × Nat) => (e.2, ({ role := e.1.role } : BerthSt)))
  (s.tableArea.zipIdx).foldl (fun s e => s.setReg .mesh e.2 0x05C e.1.skips) { s with berths := berths }

/-- R184: the latency of a bridge, a seam bridge or a wrap path from a berth in a direction. -/
def hopLatency (b d : Nat) : Nat :=
  let n := ringNext b d
  if d % 2 = 0 then
    (if (d = 0 ∧ colOf b = 0) ∨ (d = 2 ∧ colOf b = 11) then 14 else if inEast b = inEast n then 4 else 10)
  else if (d = 1 ∧ rowOf b = 0) ∨ (d = 3 ∧ rowOf b = 6) then 14 else 4

/-- R161, R184: the latency of a move along a ring from a berth: a bridge, or a skip path over a DARK berth, which may continue into a wrap
path. -/
def moveLatency (s : State) (b d : Nat) : Nat :=
  let n := ringNext b d
  if !s.skipOn b d then hopLatency b d
  else if hopLatency b d = 14 ∨ hopLatency n d = 14 then 22 else 8

/-- R184: the latency of a route after the source router, by the moves that a packet makes. -/
def routeLatency (s : State) (target : Nat) : Nat → Nat → Bool → Option Nat
  | 0, _, _ => none
  | fuel + 1, b, col => match nextMove s b target col false with
    | .arrived => some 0
    | .unformable => none
    | .delivery t =>
      some (hopLatency b (deliveryDir b t) + 6)
    | .ring n d _ => (routeLatency s target fuel n (d % 2 = 1)).map (fun l => moveLatency s b d + 6 + l)

/-- R500: an entry that names no distance. -/
def noDistance : Word := 0x00FFFFFF#32

/-- R184, R500: the entry from berth `a` to berth `b`, `extra` CCLK beyond the route. -/
def distance (s : State) (a b extra : Nat) : Word :=
  if s.dark a ∨ s.dark b then noDistance
  else match routeLatency s b 20 a false with
    | none => noDistance
    | some l => field (hopsBetween a b) 16 ||| field (6 + l + extra) 0

/-- R499: a word of the table area at an offset. -/
def State.tableWord (s : State) (off : Nat) : Word :=
  let t := s.asTabled
  if s.tableArea = [] then 0
  else if off < 0x6E40 then
    let a := off / 4 / 84
    let b := off / 4 % 84
    if a = b then 0 else distance t a b 0
  else if off < 0x7E00 then
    let i := (off - 0x6E40) / 4
    distance t (i / 12) (rimFor t (i / 12) (i % 12)) 4
  else if off < 0x7E50 then
    BitVec.ofNat 32 (((List.range 4).map (fun k =>
      let l := off - 0x7E00 + k
      (s.tableArea.findIdx? (fun e => e.role == .inService && e.logical == l)).getD 255 * 256 ^ k)).sum)
  else 0

-- a read

/-- R90: whether a page is that of a removed column's core whose page logic is dead. -/
def State.pageDead (s : State) (b : Blk) (i : Nat) : Bool :=
  b == .core && (s.berth (i / 156)).deadPages.contains (i % 156) && s.coreState i == 7

/-- R90, R488, R491, R524: a word of BAR0 as a read returns it. -/
def State.readWord (s : State) (a : Nat) : Word := match pageAt a with
  | some (b, i, off) =>
    if s.pageDark b i || s.pageDead b i then 0xFFFFFFFF#32
    else if off < 0x030 then s.viewHeader b i off
    else if off < 0x040 ∨ !s.blockReady b i then 0
    else match b with
      | .glb => s.viewBlock b i off 0
      | .brth => s.viewBlock b i off 0
      | .schd => if off = 0x058 then s.viewBlock b i off 0 else (match regRow b i off with
        | some _ => s.viewBlock b i off (s.regAt b i off)
        | none => 0)
      | _ => match regRow b i off with
        | some _ => s.viewBlock b i off (s.regAt b i off)
        | none => 0
  | none => if 0x8000 ≤ a ∧ a < 0x10000 then s.tableWord (a - 0x8000) else 0

/-- R485: the bytes of BAR0 from an address, those of the words that the access covers. -/
def State.readBytes (s : State) (a n : Nat) : List Byte :=
  (List.range n).map (fun i => BitVec.ofNat 8 ((s.readWord ((a + i) / 4 * 4)).toNat / 256 ^ ((a + i) % 4)))

/-- R384: ALERT_OUT_N is asserted: by an event of its own or while an unmasked error stands in any page. -/
def State.alertOut (s : State) : Bool :=
  s.alert || (s.regs.filter (fun e => e.1 < 2 ^ 28 && e.1 % 4096 == 0x010)).any (fun e => e.2 &&& ~~~(Sparse.get regReset s.regs (e.1 + 4)) != 0)

end Sys2Proof.Machine
end

