-- ==== Sys2Proof/Safety.lean ====
section
/-! DEFINITION. What statements about runs are made of: the invariant of the module's state, what no command may change, and the projections
that frames speak of. -/

namespace Sys2Proof.Machine

/-- The registers, vector registers and scratchpad of a core are held in canonical form. -/
structure CoreOk (k : Core) : Prop where
  g : Sparse.wf (fun _ => (0 : Word)) k.g = true
  v : Sparse.wf (fun _ => (0 : Word)) k.v = true
  scratch : Memory.wf k.scratch = true

/-- What holds of every state that a run passes: cores, berths, store dies, the slower tier, host memory and the register file are held in
canonical form, and the rollback count and the SVN of the running firmware lie within 0 to 64 (R470, R471). -/
structure Inv (s : State) : Prop where
  hbm : Memory.wf s.hbm = true
  hostMem : Memory.wf s.hostMem = true
  regs : Sparse.wf regReset s.regs = true
  rollback : s.fuses.rollback ≤ 64
  svn : s.secu.svn ≤ 64
  cores : Sparse.wf (fun _ => ({} : Core)) s.cores = true
  core : ∀ e ∈ s.cores, CoreOk e.2
  berths : Sparse.wf (fun _ => ({} : BerthSt)) s.berths = true
  store : ∀ e ∈ s.berths, Memory.wf e.2.store = true

/-- What every command leaves as it is: the queue of waiting commands and the fuses, of which only the rollback count may rise (R471). -/
structure Kept (s t : State) : Prop where
  pending : t.pending = s.pending
  stepping : t.fuses.stepping = s.fuses.stepping
  serial : t.fuses.serial = s.fuses.serial
  vtrim : t.fuses.vtrim = s.fuses.vtrim
  repair : t.fuses.repair = s.fuses.repair
  fwRoot : t.fuses.fwRoot = s.fuses.fwRoot
  dbgRoot : t.fuses.dbgRoot = s.fuses.dbgRoot
  rollback : s.fuses.rollback ≤ t.fuses.rollback

/-- A run's state `s` that began at `s0`: what no command may change has been kept, and the invariant holds. -/
structure Good (s0 s : State) : Prop where
  kept : Kept s0 s
  inv : Inv s

-- cores

/-- R72, R93, R102: core `c` issues: a run phase is under way, the core neither waits nor has ended, and its bundle holds no reserved
encoding. -/
abbrev State.issues (s : State) (c : CoreId) : Prop :=
  s.coresMode = .run ∧ (s.core c.val).st = .run ∧ (s.core c.val).pc ∉ (s.block c.val).reserved

/-- R100: core `c` issues and the slot of unit `u` is the next of its bundle that may take effect. -/
abbrev State.opens (s : State) (c : CoreId) (u : CoreUnit) : Prop := s.issues c ∧ slotOpen (s.core c.val) u = true

/-- R100, R101: the scalar slot of core `c` comes next and its block has a bundle after the present one. -/
abbrev State.goesOn (s : State) (c : CoreId) : Prop := s.opens c .scalar ∧ (s.core c.val).pc + 1 < (s.block c.val).nbundle

/-- R100: a core whose bundle has passed the slot of unit `u`. -/
def slotTaken (k : Core) (u : CoreUnit) : Core := { k with slot := slotOrder u + 1, stalled := false }

/-- R100: the state in which core `c` has become `k` and stands at the next bundle, one more bundle issued; nothing else differs. -/
def State.nextBundle (s : State) (c : CoreId) (k : Core) : State :=
  s.setCore c.val { k with pc := (s.core c.val).pc + 1, issued := (s.core c.val).issued + 1, slot := 0, stalled := false }

/-- R100: core `c` has written a general register and stands at the next bundle. -/
def State.wrote (s : State) (c : CoreId) (gd : GReg) (v : Word) : State := s.nextBundle c (setG (s.core c.val) gd v)

/-- R83, R198, R202: from `s` to `t` the store die of berth `b` became `m`, and besides it only the berth's waiting reads and its rows'
activation counts changed. -/
structure State.StoreBecomes (s : State) (b : Nat) (m : List (Nat × Byte)) (t : State) : Prop where
  rest : t = { s with berths := t.berths }
  berth : t.berth b = { s.berth b with store := m, entries := (t.berth b).entries, activations := (t.berth b).activations }
  other : ∀ d, d ≠ b → t.berth d = s.berth d

/-- R72, R77, R79: the interlock does not hold core `c`'s access to `n` bytes from `a`, no rule refuses any part of it, and a read finds no word
with bad check bits. -/
abbrev State.mayAccess (s : State) (c : CoreId) (acc : Access) (a n : Nat) : Prop :=
  interlocked (s.core c.val) a n (acc != .read) = false ∧ refused (s.core c.val) (s.block c.val) acc a n = none ∧
  (acc = .read → damagedIn (s.core c.val) a n = [])

end Sys2Proof.Machine
end

