-- ==== Sys2Proof/WellFormed.lean ====
section
/-! DEFINITION. The commands that a sender may send: operands within the widths and ranges that the spec gives them. A meaning is
total all the same. -/

namespace Sys2Proof

/-- R485, R486: a BAR0 access of 4 B or 8 B at a multiple of its size within the 128 MiB of BAR0, or another access that the map
refuses. -/
def barAccessOk (addr size : Nat) : Bool := addr < 2 ^ 27 && (size == 1 || size == 2 || size == 4 || size == 8 || size == 16 || size == 64)

/-- Whether a command's operands lie within their ranges. -/
def Instr.wellFormed : Instr → Bool
  | .nop c u w => w == 0 || decodeSlot c u w == none
  | .spar _ _ i => sparListed i.toNat
  | .mcfg _ _ w => w != .reserved
  | .vld _ _ _ f _ => f.toNat < 3
  | .vst _ _ _ f _ => f.toNat < 3
  | .vqnt _ _ _ _ _ f => 1 ≤ f.toNat && f.toNat ≤ 8
  | .slotIssue _ _ d => d.length ≤ 512
  | .hbmRefreshDeadline _ b => b < 4096
  | .hostMemRead _ o _ _ => o.toNat % 64 == 0
  | .hostMemWrite _ o d _ => o.toNat % 64 == 0 && d.length == 64
  | .flitReplay _ w f => w.length == 544 && f.length == 68
  | .pageRetire _ p _ => p < 17578125
  | .heldLineRepaired _ _ d => d.length == 128
  | .attestationRequest n => n.length == 32
  | .registerWrite _ a n _ _ => barAccessOk a n
  | .point _ a _ _ => a < 2 ^ 27 && a % 4 == 0
  | .errStsClear a _ => a < 2 ^ 27 && a % 4096 == 0x10
  | .inject a _ => a < 2 ^ 27 && a % 4096 == 0x08
  | .quiesceComplete l _ => l.Nodup
  | _ => true

end Sys2Proof
end

