-- ==== Sys2Proof/Certificates/Slice0/Obligations.lean ====
section
/-! DEFINITION. The statements for the provers: what the commands of every family do, what no command does, and what holds of every state. -/

open Sys2Proof Sys2Proof.Machine

/-- A step takes the command at the front of the queue and runs it on the rest; an empty queue lets time pass. That is the model's way of
taking commands (log entry 4). -/
def Obligations.StepTakesFront : Prop :=
  (∀ (c : Instr) (s : State), step { s with pending := c :: s.pending } = exec c s) ∧
  ∀ s : State, s.pending = [] → step s = .next (tick s)

/-- What the module holds right after reset. The zeros of the device part and of host memory are the model's choice (log entry 2), and so
are the states before power-up of which the spec gives no value (log entry 5). -/
def Obligations.ResetState : Prop :=
  State.reset.pending = [] ∧
  (∀ b i n, State.reset.reg b i n = regReset (regKey b i n)) ∧
  (∀ b a, Memory.byte (State.reset.berth b).store a = 0) ∧
  (∀ a, Memory.byte State.reset.hbm a = 0 ∧ Memory.byte State.reset.hostMem a = 0) ∧
  (∀ i, (State.reset.image i).st = .empty ∧ (State.reset.image i).progs = []) ∧
  (∀ i, (State.reset.stream i).state = .free) ∧
  State.reset.seq.cur = none ∧ State.reset.seq.running = false ∧ State.reset.coresMode = .idle ∧
  (∀ p, (State.reset.port p).link = .reset ∧ (State.reset.port p).decoder = false ∧ (State.reset.port p).memActive = false ∧
    (State.reset.port p).requests = []) ∧
  State.reset.secu.running = none ∧ State.reset.secu.sealed = false

/-- The invariant holds right after reset. -/
def Obligations.InvariantAtReset : Prop := Inv State.reset

/-- R470, R471: what a step leaves meets the invariant when what it began with did, whatever command stands in front. -/
def Obligations.StepKeepsInvariant : Prop := ∀ s t : State, Inv s → step s = .next t → Inv t

/-- R471: of the fuses, only the rollback count ever changes, and it only rises; and no command touches the queue. -/
def Obligations.CommandsKeepQueueAndFuses : Prop := ∀ (c : Instr) (s t : State), Inv s → exec c s = .next t → Kept s t

/-- R99, R102: encoding and decoding a slot are inverse to each other. -/
def Obligations.SlotWordsRoundTrip : Prop :=
  (∀ (i : Instr) (u : CoreUnit) (w : Word), i.wellFormed = true → encodeSlot i = some (u, w) →
    (∃ c, decodeSlot c u w = some i) ∨ ((∀ c, decodeSlot c u w = none) ∧ w ≠ 0 ∧ ∃ c, i = .nop c u w)) ∧
  ∀ (c : CoreId) (u : CoreUnit) (w : Word) (i : Instr), decodeSlot c u w = some i → i.wellFormed = true ∧
    encodeSlot i = some (u, if i = .dwait c .all then w &&& 0xFFFFFFF0 else w)

/-- Slot words as R106, R107, R113, R120, R125–R127 lay them out. -/
def Obligations.DecodedWords : Prop :=
  ∀ c : CoreId,
    decodeSlot c .scalar 0b000001_00001_00011_00101_00000000000#32 = some (.add c 1 3 5) ∧
    decodeSlot c .scalar 0b010000_00010_00100_1111111111111111#32 = some (.addi c 2 4 0xFFFF) ∧
    decodeSlot c .scalar 0b100001_00110_00111_0000000000001000#32 = some (.bne c 6 7 8) ∧
    decodeSlot c .scalar 0b101100_00000_00000_0000000000010000#32 = some (.dwait c .all) ∧
    decodeSlot c .scalar 0b101110_01001_00000_0000000000010000#32 = some (.spar c 9 0x10) ∧
    decodeSlot c .matrix 0b000001_00000_01010_00000000000000_01#32 = some (.mcfg c 10 .tfmt) ∧
    decodeSlot c .matrix 0b000010_00001_00010_00011_00000000000#32 = some (.mtile c 1 2 3) ∧
    decodeSlot c .vector 0b000100_00001_00010_00011_00100_000000#32 = some (.vfma c 1 2 3 4) ∧
    decodeSlot c .vector 0b010000_00101_00110_0001_000000000111#32 = some (.vld c 5 6 1 7) ∧
    decodeSlot c .vector 0b010010_00001_00010_00011_00100_0101_00#32 = some (.vqnt c 1 2 3 4 5) ∧
    decodeSlot c .memory 0b000011_00001_00010_0000000000000000#32 = some (.dreq c 1 2) ∧
    decodeSlot c .scalar 0b000001_00001_00011_00101_00000000001#32 = none ∧
    decodeSlot c .scalar 0b001100_00001_00011_00101_00000000000#32 = none ∧
    decodeSlot c .scalar 0b101110_01001_00000_0000000000000101#32 = none ∧
    decodeSlot c .matrix 0b000001_00000_01010_00000000000000_11#32 = none

/-- R105, R107: the register forms. `State.wrote` writes gd, moves to the next bundle and counts the bundle; g0 stays zero. -/
def Obligations.ScalarRegisterResults : Prop :=
  ∀ (s : State) (c : CoreId) (gd ga gb : GReg), s.goesOn c →
    let a := gReg (s.core c.val) ga
    let b := gReg (s.core c.val) gb
    exec (.add c gd ga gb) s = .next (s.wrote c gd (BitVec.ofNat 32 (a.toNat + b.toNat))) ∧
    exec (.sub c gd ga gb) s = .next (s.wrote c gd (BitVec.ofInt 32 (a.toInt - b.toInt))) ∧
    exec (.and c gd ga gb) s = .next (s.wrote c gd (a &&& b)) ∧
    exec (.or c gd ga gb) s = .next (s.wrote c gd (a ||| b)) ∧
    exec (.xor c gd ga gb) s = .next (s.wrote c gd (a ^^^ b)) ∧
    exec (.sll c gd ga gb) s = .next (s.wrote c gd (BitVec.ofNat 32 (a.toNat * 2 ^ (b.toNat % 32)))) ∧
    exec (.srl c gd ga gb) s = .next (s.wrote c gd (BitVec.ofNat 32 (a.toNat / 2 ^ (b.toNat % 32)))) ∧
    exec (.sra c gd ga gb) s = .next (s.wrote c gd (BitVec.ofInt 32 (a.toInt / 2 ^ (b.toNat % 32)))) ∧
    exec (.slt c gd ga gb) s = .next (s.wrote c gd (if a.toInt < b.toInt then 1 else 0)) ∧
    exec (.sltu c gd ga gb) s = .next (s.wrote c gd (if a.toNat < b.toNat then 1 else 0)) ∧
    exec (.mul c gd ga gb) s = .next (s.wrote c gd (BitVec.ofNat 32 (a.toNat * b.toNat))) ∧
    (gd.val = 0 → gReg (s.core c.val) gd = 0 ∧ ∀ v, s.wrote c gd v = s.nextBundle c (s.core c.val))

/-- R71, R105: what `State.wrote` leaves as it is. -/
def Obligations.WrittenRegister : Prop :=
  ∀ (s : State) (c : CoreId) (gd : GReg) (v : Word), Inv s →
    let t := s.wrote c gd v
    let k := s.core c.val
    let k' := t.core c.val
    gReg k' gd = (if gd.val = 0 then 0 else v) ∧ (∀ r, r ≠ gd → gReg k' r = gReg k r) ∧ k'.pc = k.pc + 1 ∧ k'.issued = k.issued + 1 ∧
    k' = { k with g := k'.g, pc := k'.pc, issued := k'.issued, slot := 0, stalled := false } ∧ (∀ d, d ≠ c.val → t.core d = s.core d) ∧
    t = { s with cores := t.cores }

/-- R105, R107: the immediate forms. -/
def Obligations.ScalarImmediateResults : Prop :=
  ∀ (s : State) (c : CoreId) (gd ga : GReg) (imm : BitVec 16) (sh : BitVec 5), s.goesOn c →
    let a := gReg (s.core c.val) ga
    exec (.addi c gd ga imm) s = .next (s.wrote c gd (BitVec.ofInt 32 (a.toInt + imm.toInt))) ∧
    exec (.andi c gd ga imm) s = .next (s.wrote c gd (a &&& BitVec.ofNat 32 imm.toNat)) ∧
    exec (.ori c gd ga imm) s = .next (s.wrote c gd (a ||| BitVec.ofNat 32 imm.toNat)) ∧
    exec (.lui c gd imm) s = .next (s.wrote c gd (BitVec.ofNat 32 (imm.toNat * 2 ^ 16))) ∧
    exec (.slli c gd ga sh) s = .next (s.wrote c gd (BitVec.ofNat 32 (a.toNat * 2 ^ sh.toNat))) ∧
    exec (.srli c gd ga sh) s = .next (s.wrote c gd (BitVec.ofNat 32 (a.toNat / 2 ^ sh.toNat))) ∧
    exec (.srai c gd ga sh) s = .next (s.wrote c gd (BitVec.ofInt 32 (a.toInt / 2 ^ sh.toNat)))

/-- R99, R102, R108, R229: NOP, reserved encodings and SPAR. -/
def Obligations.NopAndStepParameters : Prop :=
  ∀ (s : State) (c : CoreId),
    (s.goesOn c → exec (.nop c .scalar 0) s = .next (s.nextBundle c (s.core c.val))) ∧
    (∀ u, s.opens c u → u ≠ CoreUnit.scalar → exec (.nop c u 0) s = .next (s.setCore c.val (slotTaken (s.core c.val) u))) ∧
    (∀ u w, s.opens c u → w ≠ 0 → exec (.nop c u w) s = .next (s.fetchFault c.val)) ∧
    (∀ gd i, s.opens c .scalar → sparListed i.toNat = false → exec (.spar c gd i) s = .next (s.fetchFault c.val)) ∧
    (∀ u w, s.coresMode = .run → (s.core c.val).st = .run → slotOpen (s.core c.val) u = true → (s.core c.val).pc ∈ (s.block c.val).reserved →
      exec (.nop c u w) s = .next (s.fetchFault c.val)) ∧
    (∀ gd (i : BitVec 16), s.goesOn c → sparListed i.toNat = true → ∃ v, exec (.spar c gd i) s = .next (s.wrote c gd v) ∧
      (i = 0 → v = BitVec.ofNat 32 c.val) ∧ (i = 1 → v = BitVec.ofNat 32 (c.val / 144)) ∧ (i = 2 → v = BitVec.ofNat 32 (c.val % 144)) ∧
      (i = 3 → v = BitVec.ofNat 32 s.moduleIndex) ∧ (0x14 ≤ i.toNat → v = 0) ∧
      (∀ t, s.seq.cur = some t → (i = 4 → v = BitVec.ofNat 32 t.image) ∧ (i = 0x10 → v = BitVec.ofNat 32 t.id) ∧
        (i = 0x11 → v = (if t.copy.isSome then field 1 0 ||| field 1 16 else field (positions t.entries) 0 ||| field t.entries.length 16) |||
          field (t.prog % 4) 24) ∧
        (i = 0x12 → v = field (batchLine t.id) 0) ∧ (∀ p, s.curProg = some p → i = 0x13 → v = field p.capacity 0))) ∧
    (Inv s → ((s.fetchFault c.val).core c.val) = { s.core c.val with st := .blocked } ∧
      (∀ d, d ≠ c.val → (s.fetchFault c.val).core d = s.core d) ∧
      ∀ x, s.coreInst c.val = some x → (s.fetchFault c.val).errSet .core x 4 = true)

/-- R103, R107: the scratchpad words, with the frame of the store. The wrapped sum is log entry 36's choice. -/
def Obligations.ScratchpadWords : Prop :=
  ∀ (s : State) (c : CoreId) (gd ga : GReg) (imm : BitVec 16), Inv s → s.goesOn c →
    let k := s.core c.val
    let a := scalarAddr (gReg k ga) imm
    (a = (BitVec.ofInt 32 ((gReg k ga).toInt + imm.toInt * 4)).toNat / 4 * 4) ∧
    (s.mayAccess c .read a 4 → exec (.gld c gd ga imm) s = .next (s.wrote c gd (Memory.word k.scratch a))) ∧
    (s.mayAccess c .write a 4 → ∃ m d, exec (.gst c gd ga imm) s = .next (s.nextBundle c { k with scratch := m, damage := d }) ∧
      Memory.word m a = gReg k gd ∧ Memory.wf m = true ∧ (∀ x, (x < a ∨ a + 4 ≤ x) → Memory.byte m x = Memory.byte k.scratch x) ∧
      (∀ e ∈ d, e ∈ k.damage))

/-- R81, R95, R104: a refused word access. An address of 2^22 or more is recorded by its low 22 bits (log entry 172). -/
def Obligations.RefusedScratchpadWords : Prop :=
  ∀ (s : State) (c : CoreId) (gd ga : GReg) (imm : BitVec 16) (n x i : Nat), Inv s → s.goesOn c → s.coreInst c.val = some i → n < 6 →
    ∀ (i₀ : Instr) (acc : Access), (i₀ = .gld c gd ga imm ∧ acc = .read) ∨ (i₀ = .gst c gd ga imm ∧ acc = .write) →
      let a := scalarAddr (gReg (s.core c.val) ga) imm
      interlocked (s.core c.val) a 4 (acc != .read) = false → refused (s.core c.val) (s.block c.val) acc a 4 = some (n, x) →
      ∃ t : State, exec i₀ s = .next (t.nextBundle c (s.core c.val)) ∧ t.cores = s.cores ∧
        t = { s with regs := t.regs, flt := t.flt, boundsHeld := t.boundsHeld } ∧ t.errSet .core i 2 = true ∧
        (i ∉ s.boundsHeld → t.reg .core i 0x050 = field n 22 ||| field (x % 2 ^ 22) 0 ∧ t.boundsHeld = s.boundsHeld ++ [i]) ∧
        (i ∈ s.boundsHeld → t.reg .core i 0x050 = s.reg .core i 0x050 ∧ t.boundsHeld = s.boundsHeld)

/-- R101, R107: the branches. -/
def Obligations.Branches : Prop :=
  ∀ (s : State) (c : CoreId) (ga gb : GReg) (off : BitVec 16), s.opens c .scalar →
    let k := s.core c.val
    let a := gReg k ga
    let b := gReg k gb
    let t := (k.pc : Int) + off.toInt
    let inside := 0 ≤ t ∧ t < ((s.block c.val).nbundle : Int)
    ∀ (i : Instr) (p : Prop), (i, p) ∈ [(Instr.beq c ga gb off, a = b), (.bne c ga gb off, a ≠ b), (.blt c ga gb off, a.toInt < b.toInt),
        (.bge c ga gb off, b.toInt ≤ a.toInt), (.bltu c ga gb off, a.toNat < b.toNat)] →
      (p → inside → exec i s = .next (s.setCore c.val { k with pc := t.toNat, issued := k.issued + 1, slot := 0, stalled := false })) ∧
      (¬p → k.pc + 1 < (s.block c.val).nbundle → exec i s = .next (s.nextBundle c k)) ∧
      (p → ¬inside → exec i s = .next ((s.setCore c.val { k with issued := k.issued + 1, slot := 0, stalled := false }).fetchFault c.val))

/-- R110, R111: the flow points. A fault's ADDR is the record's, or 0 without one. -/
def Obligations.FlowPoints : Prop :=
  ∀ (s : State) (c : CoreId) (gd : GReg) (flow : BitVec 16), s.coresMode = .run → (s.core c.val).pc + 1 < (s.block c.val).nbundle →
    let k := s.core c.val
    let out := flowRec (s.block c.val) false flow.toNat
    let inn := flowRec (s.block c.val) true flow.toNat
    let fault := fun cause => (s.boundsFault c.val 0 cause (flowAddr (s.block c.val) flow.toNat)).nextBundle c k
    let got := fun v (k : Core) => s.nextBundle c (setG { k with st := .run } gd v)
    let open_ := fun (k : Core) => if k.readable.contains flow.toNat then k else { k with readable := k.readable ++ [flow.toNat] }
    (s.opens c .scalar →
      (∀ r, out = some r → flow.toNat ∉ k.sent → flow.toNat ∉ k.cancelled →
        (interlocked k r.addr r.len false = false → exec (.send c flow) s = .next (s.nextBundle c { k with sent := k.sent ++ [flow.toNat] })) ∧
        (interlocked k r.addr r.len false = true → exec (.send c flow) s = .next (s.setCore c.val { k with slot := 3, stalled := true })) ∧
        (r.cond = true → exec (.cancel c flow) s = .next (s.nextBundle c { k with cancelled := k.cancelled ++ [flow.toNat] })) ∧
        (r.cond = false → exec (.cancel c flow) s = .next (fault 2))) ∧
      ((out = none ∨ flow.toNat ∈ k.sent ∨ flow.toNat ∈ k.cancelled) →
        exec (.send c flow) s = .next (fault 2) ∧ exec (.cancel c flow) s = .next (fault 2)) ∧
      (∀ r, inn = some r →
        (s.flowLanded c r = true → exec (.await c gd flow) s = .next (got 1 (open_ k))) ∧
        (s.flowLanded c r = false → s.flowCancelled c flow.toNat = true → exec (.await c gd flow) s = .next (got 0 k)) ∧
        (s.flowLanded c r = false → s.flowCancelled c flow.toNat = false →
          exec (.await c gd flow) s = .next (s.setCore c.val { slotTaken k .scalar with st := .waitFlow gd flow.toNat }))) ∧
      (inn = none → exec (.await c gd flow) s = .next (fault 3))) ∧
    (k.st = .waitFlow gd flow.toNat → ∀ r, inn = some r →
      (s.flowLanded c r = true → exec (.awaitReturn c) s = .next (got 1 (open_ k))) ∧
      (s.flowLanded c r = false → s.flowCancelled c flow.toNat = true → exec (.awaitReturn c) s = .next (got 0 k)) ∧
      (s.flowLanded c r = false → s.flowCancelled c flow.toNat = false → exec (.awaitReturn c) s = .next s))

/-- R39, R65, R112, R130: the waits and the end of a block. Which unsent record END reports is log entry 173's choice. -/
def Obligations.CompletionWaits : Prop :=
  ∀ (s : State) (c : CoreId) (sel : DwaitSel), s.coresMode = .run →
    let k := s.core c.val
    let named := k.dyn.filter (fun r => match sel with | .all => true | .tag t => r.tag = t.val)
    let ended := { k with issued := k.issued + 1, slot := 0, stalled := false }
    let done := fun r => r.recv = true ∨ r.flow ∈ k.sent ∨ r.flow ∈ k.cancelled
    (s.goesOn c → named = [] → exec (.dwait c sel) s = .next (s.nextBundle c k)) ∧
    (s.opens c .scalar → named ≠ [] → exec (.dwait c sel) s = .next (s.setCore c.val { slotTaken k .scalar with st := .waitDyn sel })) ∧
    (k.st = .waitDyn sel → k.pc + 1 < (s.block c.val).nbundle → named = [] →
      exec (.dwaitReturn c) s = .next (s.nextBundle c { k with st := .run })) ∧
    (k.st = .waitDyn sel → named ≠ [] → exec (.dwaitReturn c) s = .next s) ∧
    (s.opens c .scalar → k.dyn ≠ [] → exec (.endBlock c) s = .next (s.setCore c.val { ended with st := .ending })) ∧
    (s.opens c .scalar → k.dyn = [] → (∀ r ∈ (s.block c.val).flows, done r) →
      exec (.endBlock c) s = .next (s.setCore c.val { ended with st := .ended })) ∧
    (∀ l₁ r l₂, s.opens c .scalar → k.dyn = [] → (s.block c.val).flows = l₁ ++ r :: l₂ → (∀ q ∈ l₁, done q) → ¬done r →
      exec (.endBlock c) s = .next ((s.setCore c.val { ended with st := .blocked }).boundsFault c.val 0 2 r.addr)) ∧
    (k.st = .ended → k.tile = none → k.reads = [] → (∀ r ∈ (s.block c.val).flows,
        (r.recv = true → s.flowLanded c.val r = true ∨ s.flowCancelled c.val r.flow = true) ∧
        (r.recv = false → r.flow ∈ k.cancelled ∨ s.flowSent c.val r = true)) →
      exec (.barrierArrival c) s = .next (s.setCore c.val { k with st := .arrived })) ∧
    (k.st ≠ .ended → exec (.barrierArrival c) s = .next s)

/-- R113, R117, R118: MCFG and MTILE. -/
def Obligations.TileStart : Prop :=
  ∀ (s : State) (c : CoreId) (gd ga gb : GReg), s.opens c .matrix →
    let k := s.core c.val
    let past := slotTaken k .matrix
    let out := (gReg k gd).toNat / 64 * 64
    let act := (gReg k ga).toNat / 64 * 64
    let wgt := (gReg k gb).toNat / 64 * 64
    let wait := s.setCore c.val { k with slot := 0, stalled := true }
    exec (.mcfg c ga .tshape) s = .next (s.setCore c.val { past with tshape := gReg k ga }) ∧
    exec (.mcfg c ga .tfmt) s = .next (s.setCore c.val { past with tfmt := gReg k ga }) ∧
    exec (.mcfg c ga .tbound) s = .next (s.setCore c.val { past with tbound := gReg k ga }) ∧
    exec (.mcfg c ga .reserved) s = .next (s.fetchFault c.val) ∧
    (k.tile ≠ none → exec (.mtile c gd ga gb) s = .next wait) ∧
    (k.tile = none → parseTile k.tshape k.tfmt k.tbound = none → exec (.mtile c gd ga gb) s = .next (s.fetchFault c.val)) ∧
    (∀ g, k.tile = none → parseTile k.tshape k.tfmt k.tbound = some g →
      let held := interlocked k act g.actBytes false || interlocked k wgt g.weightBytes false || interlocked k out g.outBytes true
      let ra := refused k (s.block c.val) .read act g.actBytes
      let rb := refused k (s.block c.val) .read wgt g.weightBytes
      let ro := refused k (s.block c.val) .write out g.outBytes
      (held = true → exec (.mtile c gd ga gb) s = .next wait) ∧
      (held = false → ra = none → rb = none → ro = none →
        exec (.mtile c gd ga gb) s = .next (s.setCore c.val { past with tile := some (.mk k.tshape k.tfmt k.tbound out act wgt 0 g.firstFmt) })) ∧
      (∀ n x, held = false → (ra <|> rb <|> ro) = some (n, x) → exec (.mtile c gd ga gb) s = .next ((s.setCore c.val past).boundsFault c.val 2 n x)))

/-- R118, R146, R148: what becomes of an attempt. -/
def Obligations.TileAttempts : Prop :=
  ∀ (s : State) (c : CoreId) (t : Tile) (g : TileCfg), Inv s → s.coresMode = .run → (s.core c.val).tile = some t →
    parseTile t.shape t.fmt t.bound = some g →
    let k := s.core c.val
    let blk := s.block c.val
    let f := nextFmt t.attempt t.af
    let wider := g.reserveOperand (operand k t.act) f
    (∀ r ∈ tileReads blk t g, damagedIn k r.1 r.2 = []) →
    (∀ kinds, tileAttempt k t g = .trouble kinds → g.reserveBytes f ≤ blk.rsize → ∃ (u : State) (m : List (Nat × Byte)) (d : List (Nat × Bool)),
      exec (.attemptTrouble c) s = .next (u.setCore c.val { k with tile := some { t with attempt := t.attempt + 1, af := f }, scratch := m, damage := d }) ∧
      u = { s with regs := u.regs } ∧ (∀ i (h : i < wider.length), Memory.byte m (blk.rbase + i) = wider[i]) ∧
      (∀ x, x < blk.rbase ∨ blk.rbase + wider.length ≤ x → Memory.byte m x = Memory.byte k.scratch x) ∧ ∀ e ∈ d, e ∈ k.damage) ∧
    (∀ kinds, tileAttempt k t g = .trouble kinds → blk.rsize < g.reserveBytes f → ∃ u : State,
      exec (.attemptTrouble c) s = .next ((u.setCore c.val { k with tile := none }).boundsFault c.val 3 6 (blk.rbase + blk.rsize)) ∧
      u = { s with regs := u.regs }) ∧
    (∀ bytes alarm, tileAttempt k t g = .result bytes alarm → ∃ (u : State) (m : List (Nat × Byte)) (d : List (Nat × Bool)) (a : List Word),
      exec (.tileComplete c) s = .next (u.setCore c.val { k with tile := none, scratch := m, damage := d, acc := a }) ∧ u = { s with regs := u.regs } ∧
      a.take (g.sums (operand k t.act) (operand k t.wgt) t.attempt t.af).length = g.sums (operand k t.act) (operand k t.wgt) t.attempt t.af ∧
      (∀ i (h : i < bytes.length), Memory.byte m (t.out + i) = bytes[i]) ∧
      (∀ x, x < t.out ∨ t.out + bytes.length ≤ x → Memory.byte m x = Memory.byte k.scratch x) ∧ ∀ e ∈ d, e ∈ k.damage)

/-- R121, R122: lane by lane. -/
def Obligations.VectorArithmetic : Prop :=
  ∀ (s : State) (c : CoreId) (vd va vb vc : VReg), s.opens c .vector →
    let k := s.core c.val
    let lanes := fun f : Nat → Word => (Host.Outcome.next (s.setCore c.val (setV (slotTaken k .vector) vd ((List.range 64).map f))) : Res)
    exec (.vadd c vd va vb) s = lanes (fun i => fadd (vLane k va i) (vLane k vb i)) ∧
    exec (.vsub c vd va vb) s = lanes (fun i => fsub (vLane k va i) (vLane k vb i)) ∧
    exec (.vmul c vd va vb) s = lanes (fun i => fmul (vLane k va i) (vLane k vb i)) ∧
    exec (.vfma c vd va vb vc) s = lanes (fun i => ffma (vLane k va i) (vLane k vb i) (vLane k vc i)) ∧
    exec (.vmax c vd va vb) s = lanes (fun i => fmax (vLane k va i) (vLane k vb i)) ∧
    exec (.vmin c vd va vb) s = lanes (fun i => fmin (vLane k va i) (vLane k vb i))

/-- R121, R123, R124. -/
def Obligations.VectorFunctions : Prop :=
  (∀ (s : State) (c : CoreId) (vd va : VReg) (ga : GReg), s.opens c .vector →
    let k := s.core c.val
    let lanes := fun f : Nat → Word => (Host.Outcome.next (s.setCore c.val (setV (slotTaken k .vector) vd ((List.range 64).map f))) : Res)
    exec (.vexp c vd va) s = lanes (fun i => fexp (vLane k va i)) ∧
    exec (.vrcp c vd va) s = lanes (fun i => frcp (vLane k va i)) ∧
    exec (.vrsq c vd va) s = lanes (fun i => frsq (vLane k va i)) ∧
    exec (.vrsum c vd va) s = lanes (fun _ => treeSum (vLanes k va)) ∧
    exec (.vrmax c vd va) s = lanes (fun _ => laneMax (vLanes k va)) ∧
    exec (.vsplat c vd ga) s = lanes (fun _ => gReg k ga)) ∧
  fexp 0x7F800000 = 0x7F800000 ∧ fexp 0xFF800000 = 0 ∧ frcp 0x7F800000 = 0 ∧ frcp 0xFF800000 = 0x80000000 ∧
  frsq 0x7F800000 = 0 ∧ frsq 0xFF800000 = 0x7FC00000 ∧
  (∀ x : Word, bits x 30 23 = 0 → fexp x = 0x3F800000 ∧ frcp x = (if x.msb then 0xFF800000 else 0x7F800000) ∧
    frsq x = (if x.msb then 0xFF800000 else 0x7F800000)) ∧
  (∀ x : Word, x.msb = true → 0 < bits x 30 23 → bits x 30 23 < 255 → frsq x = 0x7FC00000) ∧
  (∀ x : Word, bits x 30 23 = 255 → bits x 22 0 ≠ 0 → fexp x = 0x7FC00000 ∧ frcp x = 0x7FC00000 ∧ frsq x = 0x7FC00000) ∧
  (∀ (l : List Word) (x : Word), x ∈ l → bits x 30 23 = 255 → bits x 22 0 ≠ 0 → laneMax l = 0x7FC00000)

/-- R71: what writing a vector register does. -/
def Obligations.WrittenVectorRegister : Prop :=
  ∀ (k : Core) (vd : VReg) (l : List Word), CoreOk k → l.length = 64 →
    (∀ i (h : i < l.length), vLane (setV k vd l) vd i = l[i]) ∧
    (∀ (r : VReg) i, r ≠ vd → i < 64 → vLane (setV k vd l) r i = vLane k r i) ∧ setV k vd l = { k with v := (setV k vd l).v } ∧ CoreOk (setV k vd l)

/-- R122, R124: a result is zero, normal, infinite or the canonical NaN. -/
def Obligations.FloatResults : Prop :=
  ∀ a b c w : Word, w ∈ [fadd a b, fsub a b, fmul a b, ffma a b c, fmax a b, fmin a b, frcp a, frsq a] →
    (bits w 30 23 = 0 → bits w 22 0 = 0) ∧ (bits w 30 23 = 255 → bits w 22 0 ≠ 0 → w = 0x7FC00000)

/-- R125, R126: the vector unit's memory accesses. Log entries 36 and 174 name what the spec leaves open of VQNT and of address sums. -/
def Obligations.VectorMemory : Prop :=
  ∀ (s : State) (c : CoreId) (v : VReg) (ga gb gi : GReg) (fmt : BitVec 4) (off : BitVec 12), s.opens c .vector →
    let k := s.core c.val
    let past := slotTaken k .vector
    let wait := s.setCore c.val { k with slot := 1, stalled := true }
    let fault := fun n x => (s.setCore c.val past).boundsFault c.val 1 n x
    let a := ((gReg k ga).toNat + off.toNat * 64) % 2 ^ 32 / 64 * 64
    let n := elemBytes fmt
    let q := fmt.toNat
    let pa := ((gReg k ga).toNat + (gReg k gi).toNat * (8 * q)) % 2 ^ 32
    let ps := ((gReg k gb).toNat + (gReg k gi).toNat * 2) % 2 ^ 32
    let load := Instr.vld c v ga fmt off
    let store := Instr.vst c v ga fmt off
    let quant := Instr.vqnt c v ga gb gi fmt
    let free := interlocked k pa (8 * q) true = false ∧ interlocked k ps 2 true = false
    let rp := refused k (s.block c.val) .write pa (8 * q)
    let rs := refused k (s.block c.val) .write ps 2
    (n = 0 → exec load s = .next (s.fetchFault c.val) ∧ exec store s = .next (s.fetchFault c.val)) ∧
    (n ≠ 0 → s.mayAccess c .read a (64 * n) →
      exec load s = .next (s.setCore c.val (setV past v ((List.range 64).map (loadElem k.scratch fmt a))))) ∧
    (n ≠ 0 → s.mayAccess c .write a (64 * n) → ∃ m d, exec store s = .next (s.setCore c.val { past with scratch := m, damage := d }) ∧
      m = Memory.write k.scratch a ((vLanes k v).flatMap (storeElem fmt)) ∧ (∀ x, (x < a ∨ a + 64 * n ≤ x) → Memory.byte m x = Memory.byte k.scratch x) ∧
      ∀ e ∈ d, e ∈ k.damage) ∧
    (n ≠ 0 → interlocked k a (64 * n) false = true → exec load s = .next wait) ∧
    (n ≠ 0 → interlocked k a (64 * n) true = true → exec store s = .next wait) ∧
    (∀ cause x, n ≠ 0 → interlocked k a (64 * n) false = false → refused k (s.block c.val) .read a (64 * n) = some (cause, x) →
      exec load s = .next (fault cause x)) ∧
    (∀ cause x, n ≠ 0 → interlocked k a (64 * n) true = false → refused k (s.block c.val) .write a (64 * n) = some (cause, x) →
      exec store s = .next (fault cause x)) ∧
    (q = 0 ∨ 8 < q → exec quant s = .next (s.fetchFault c.val)) ∧
    (1 ≤ q → q ≤ 8 → ¬free → exec quant s = .next wait) ∧
    (1 ≤ q → q ≤ 8 → free → rp = none → rs = none → ∃ d, exec quant s = .next (s.setCore c.val { past with
        scratch := Memory.write (Memory.write k.scratch pa (quantLanes q (vLanes k v)).2) ps (quantLanes q (vLanes k v)).1, damage := d }) ∧
      ∀ e ∈ d, e ∈ k.damage) ∧
    (∀ cause x, 1 ≤ q → q ≤ 8 → free → ((rp = some (cause, x) ∧ ∀ y, rs = some y → x ≤ y.2) ∨ (rs = some (cause, x) ∧ ∀ y, rp = some y → x < y.2)) →
      exec quant s = .next (fault cause x))

/-- R123: `level n j` is entry `j` of level `n` of VRSUM's tree over the lanes of va, and all 64 lanes of vd receive the entry of level 6,
whatever the stepping is. -/
def Obligations.VrsumTree : Prop :=
  ∀ (c : CoreId) (vd va : VReg) (s : State), s.opens c .vector →
    ∃ level : Nat → Nat → Word,
      (∀ j, j < 64 → level 0 j = vLane (s.core c.val) va j) ∧
      (∀ n j, n < 6 → j < 32 / 2 ^ n → level (n + 1) j = fadd (level n (2 * j)) (level n (2 * j + 1))) ∧
      ∀ p : Stepping, exec (.vrsum c vd va) { s with fuses := { s.fuses with stepping := p } } =
        .next (({ s with fuses := { s.fuses with stepping := p } } : State).setCore c.val (setV (slotTaken (s.core c.val) .vector) vd (List.replicate 64 (level 6 0))))

/-- R128: XRD and XWR. Log entries 171 and 180 name what the spec leaves open. -/
def Obligations.StoreDieTransfers : Prop :=
  ∀ (s : State) (c : CoreId) (gl gn gc : GReg), s.opens c .memory →
    let k := s.core c.val
    let past := slotTaken k .memory
    let pass := s.setCore c.val past
    let wait := s.setCore c.val { k with slot := 2, stalled := true }
    let n := (gReg k gc).toNat
    let a := (gReg k gl).toNat / 128 * 128
    let line := (gReg k gn).toNat % 2 ^ 26
    let due := ∃ r ∈ k.reads, (r.line + 2 ^ 26 - line) % 2 ^ 26 < n
    let read := Instr.xrd c gl gn gc
    let write := Instr.xwr c gl gn gc
    (n = 0 → exec read s = .next pass ∧ exec write s = .next pass) ∧
    (n ≠ 0 → s.mayAccess c .land a (n * 128) → exec read s = .next (s.setCore c.val { past with
      reads := k.reads ++ (List.range n).map (fun i => { line := (line + i) % 2 ^ 26, dst := a + i * 128, queued := false }), lines := k.lines + n })) ∧
    (∀ b, n ≠ 0 → ¬due → s.mayAccess c .read a (n * 128) → s.physOf (c.val / 144) = some b → Inv s → ∃ t : State, exec write s = .next t ∧
      pass.StoreBecomes b (t.berth b).store t ∧
      (∀ y, (∀ i, i < n → y / 128 ≠ (line + i) % 2 ^ 26) → Memory.byte (t.berth b).store y = Memory.byte (s.berth b).store y) ∧
      (n ≤ 2 ^ 26 → ∀ i j, i < n → j < 128 → Memory.byte (t.berth b).store ((line + i) % 2 ^ 26 * 128 + j) = Memory.byte k.scratch (a + (i * 128 + j)))) ∧
    (∀ cause x, n ≠ 0 → interlocked k a (n * 128) true = false → refused k (s.block c.val) .land a (n * 128) = some (cause, x) →
      exec read s = .next (pass.boundsFault c.val 4 cause x)) ∧
    (∀ cause x, n ≠ 0 → ¬due → interlocked k a (n * 128) false = false → refused k (s.block c.val) .read a (n * 128) = some (cause, x) →
      exec write s = .next (pass.boundsFault c.val 4 cause x)) ∧
    (n ≠ 0 → interlocked k a (n * 128) true = true → exec read s = .next wait) ∧
    (n ≠ 0 → due ∨ interlocked k a (n * 128) false = true → exec write s = .next wait)

/-- R129, R130: DREQ and its response. -/
def Obligations.DynamicRequests : Prop :=
  (∀ (s : State) (c : CoreId) (gl gd : GReg), s.opens c .memory →
    let k := s.core c.val
    let past := slotTaken k .memory
    let a := (gReg k gl).toNat / 64 * 64
    let x := (gReg k gd).toNat / 16 * 16
    let desc := parseDesc (Memory.word k.scratch x) (Memory.word k.scratch (x + 4)) (Memory.dword k.scratch (x + 8)).toNat
    let acc := fun d : DreqDesc => if d.write then Access.read else .land
    let room := fun d : DreqDesc => k.dyn.length < 16 ∧ ∀ r ∈ k.dyn, r.tag ≠ d.tag
    s.mayAccess c .read x 16 →
    (desc = none → exec (.dreq c gl gd) s = .next (s.fetchFault c.val)) ∧
    (∀ d, desc = some d → ¬room d → exec (.dreq c gl gd) s = .next (s.setCore c.val { k with slot := 2, stalled := true })) ∧
    (∀ d cause y, desc = some d → room d → interlocked k a d.len (acc d != .read) = false → refused k (s.block c.val) (acc d) a d.len = some (cause, y) →
      exec (.dreq c gl gd) s = .next ((s.setCore c.val past).boundsFault c.val 5 cause y)) ∧
    (∀ d b, desc = some d → room d → s.mayAccess c (acc d) a d.len → s.physOf (c.val / 144) = some b → liveModule s d.module = none → Inv s →
      ∃ t : State, exec (.dreq c gl gd) s = .next t ∧ t.errSet .mesh b 3 = true ∧ t.core c.val = { past with requests := k.requests + 1 } ∧
        t.packets = s.packets ∧ t.delivered = s.delivered ∧ t.berths = s.berths ∧ t.hbm = s.hbm) ∧
    (∀ d b, desc = some d → room d → s.mayAccess c (acc d) a d.len → s.physOf (c.val / 144) = some b → liveModule s d.module ≠ none → Inv s →
      ∃ t : State, exec (.dreq c gl gd) s = .next t ∧
        t.core c.val = { past with dyn := k.dyn ++ [{ tag := d.tag, write := d.write, dst := a, len := d.len }], requests := k.requests + 1 } ∧
        t.berths = s.berths ∧ t.hbm = s.hbm ∧
        ((∃ p, t.packets = s.packets ++ [p] ∧ t.delivered = s.delivered ∧ p.core = some c.val ∧ p.h.tag = BitVec.ofNat 4 d.tag ∧
            p.h.len = BitVec.ofNat 14 d.len ∧ p.h.addr = BitVec.ofNat 48 d.addr ∧ p.payload = if d.write then Memory.read k.scratch a d.len else []) ∨
          (∃ p, t.packets = s.packets ∧ t.delivered = s.delivered ++ [p] ∧ p.core = some c.val ∧ p.h.tag = BitVec.ofNat 4 d.tag ∧ p.payload = [])))) ∧
  (∀ (s : State) (c : CoreId) (tag : Fin 16) (p : Packet) (r : DynReq), s.coresMode = .run → (s.core c.val).st ≠ .ending →
    s.delivered.find? (fun p => p.core = some c.val && p.h.tag.toNat = tag.val && isResponse p.h) = some p →
    (s.core c.val).dyn.find? (fun r => r.tag = tag.val) = some r → Inv s →
    let k := s.core c.val
    let data := p.payload.take r.len
    exec (.dynResponseDelivery c tag) s = .next ((s.dropServed p.id).setCore c.val { k with
      scratch := if r.write then k.scratch else Memory.write k.scratch r.dst data
      damage := if r.write then k.damage else k.damage.filter (fun e => !meet (8 * e.1) 8 r.dst data.length)
      dyn := k.dyn.filter (fun r => r.tag ≠ tag.val) }))

/-- R44, R47, R50, R52, R64: SLOT_ISSUE and SLOT_LANDING. Log entry 205 names what the spec leaves open of a tunnel's staging. -/
def Obligations.ScheduledSlots : Prop :=
  ∀ (s : State) (link : Word) (external : List Byte), s.coresMode = .run →
    let l := link.toNat
    let x := s.link l
    let sent := fun (b : State) (w hop : Nat) (u : SlotUnit) (tunnel : Bool) (own : Nat) => b.setWay w { (s.way w).flight (s.madeRoom w ++ [.slot l hop u]) with
      sinceDyn := (s.way w).sinceDyn + 1, owned := (s.way w).owned + own, lastTunnel := tunnel }
    (∀ r, ownedAt (s.table l) x.pos = some r →
      let cancelled := r.cond = true ∧ s.cancelKnown r.flow pathFuel l = true
      let marked := slotOrigin l r.src = .outside ∧ external = [] ∧ r.cond = true
      (cancelled → exec (.slotIssue link 0 external) s = .next (s.setLink l { x with pos := x.pos + 1 })) ∧
      (¬cancelled → marked → exec (.slotIssue link 0 external) s =
        .next (s.setLink l { x with pos := x.pos + 1, marks := x.marks.filter (· ≠ r.flow) ++ [r.flow] })) ∧
      (∀ w rest, ¬cancelled → ¬marked → s.linkWays l = some (w :: rest) →
        (s.slotHeld w (!rest.isEmpty) = true ∨ s.slotReady l external = none → exec (.slotIssue link 0 external) s = .next s) ∧
        (∀ u, s.slotHeld w (!rest.isEmpty) = false → s.slotReady l external = some u →
          (∀ c f, slotOrigin l r.src = .core c → flowRec (s.block c) false u.flow = some f → damagedIn (s.core c) (f.addr + 512 * u.k) u.data.length = []) →
          ∃ m p o, exec (.slotIssue link 0 external) s = .next
            (let t := { sent (s.setLink l { x with pos := x.pos + 1 }) w 0 u (!rest.isEmpty) 1 with regs := m, zports := p, portOut := o }
             match slotOrigin l r.src with
             | .link v => t.releaseStaged v u.flow u.k
             | _ => t)))) ∧
    (∀ hop ws w u before after, hop ≠ 0 → s.linkWays l = some ws → ws[hop]? = some w → x.tunnel = before ++ (hop, u) :: after → (∀ e ∈ before, e.1 ≠ hop) →
      (s.slotHeld w true = true → exec (.slotIssue link hop external) s = .next s) ∧
      (s.slotHeld w true = false → ∃ m p o, exec (.slotIssue link hop external) s = .next
        { sent (s.setLink l { x with tunnel := before ++ after }) w hop u true 0 with regs := m, zports := p, portOut := o })) ∧
    (∀ hop ws w u rest, s.linkWays l = some ws → ws[hop]? = some w → readHeads (s.way w).inflight = .slot l hop u :: rest →
      let left := s.setWay w ((s.way w).flight rest)
      let ends := hop + 1 = ws.length ∧ ¬(ws.length = 1 ∧ 16 ≤ x.staged.length)
      (ws.length = 1 → 16 ≤ x.staged.length → exec (.slotLanding link hop) s = .next s) ∧
      (hop + 1 < ws.length → ∃ m, exec (.slotLanding link hop) s = .next { left.setLink l { x with tunnel := x.tunnel ++ [(hop + 1, u)] } with regs := m }) ∧
      (ends → (linkKind l = 0 ∨ linkKind l = 2 ∨ linkKind l = 3 ∨ linkFromPort l = true) → linkKind l ≠ 4 →  linkKind l ≠ 1 →
        ∃ m, exec (.slotLanding link hop) s = .next { left.setLink l { x with staged := x.staged ++ [u] } with regs := m }) ∧
      (∀ r, ends → linkKind l = 1 → flowRec (s.block (linkBerth l * 144 + linkCore l)) true u.flow = some r →
        let c := linkBerth l * 144 + linkCore l
        let k := s.core c
        let data := u.data.take (r.len - 512 * u.k)
        let a := r.addr + 512 * u.k
        ∃ m, exec (.slotLanding link hop) s = .next (({ left with regs := m } : State).setCore c { k with
          scratch := Memory.write k.scratch a data, damage := k.damage.filter (fun e => !meet (8 * e.1) 8 a data.length)
          landed := k.landed.filter (fun e => e.1 ≠ u.flow) ++ [(u.flow, (lookup k.landed u.flow).getD 0 + 1)] })))

/-- R44, R45, R166: DYNAMIC_UNIT_ISSUE and UNIT_RETRY. -/
def Obligations.DynamicUnits : Prop :=
  ∀ (s : State) (way : Word), Inv s →
    let w := way.toNat
    let x := s.way w
    let due := x.sinceDyn < 15 ∧ s.coresMode = .run ∧ ∃ e ∈ s.slotsOver w, s.hopReady e.1 e.2.1 = true
    (∀ id p, s.packet? id = some p →
      let goes := s.unitReady w p = true ∧ (s.madeRoom w).length < s.wayRoom w ∧ ¬due
      let n := crossedOn p w
      (goes → ∃ m, exec (.dynamicUnitIssue way id) s = .next { (s.setWay w { x.flight (s.madeRoom w ++ [.dyn id n]) with sinceDyn := 0, dyn := x.dyn + 1 }).setPacket id
        (fun q => { q with crossed := Sparse.insert q.crossed w (n + 1) }) with regs := m }) ∧
      (¬goes → exec (.dynamicUnitIssue way id) s = .next s) ∧
      (∀ b d turns, s.moveOf p = .ring b d turns → (s.pathOf p).idxOf w + 1 = (s.pathOf p).length → n = 0 →
        3 < ringLoad s b (opposite d) (isResponse p.h) + (if turns then 2 else 1) → exec (.dynamicUnitIssue way id) s = .next s)) ∧
    (∀ u rest, retryWindow x.inflight = u :: rest → ¬(linkKind w = 4 ∧ unitPortOf w = 6) →
      (x.fails + 1 < 9 → ∃ m f, exec (.unitRetry way) s = .next { s.setWay w { x with fails := x.fails + 1 } with regs := m, flt := f }) ∧
      (9 ≤ x.fails + 1 → ∀ i h v, u = .slot i h v →
        ∃ m f, exec (.unitRetry way) s = .next { s.setWay w { x with fails := 0 } with regs := m, flt := f } ∧
          ({ s with regs := m } : State).errSet .mesh (linkBerth w) 1 = true) ∧
      (9 ≤ x.fails + 1 → ∀ id n, u = .dyn id n →
        ∃ t : State, exec (.unitRetry way) s = .next t ∧ t.errSet .mesh (linkBerth w) 1 = true ∧
          t.ways = (s.setWay w { x with fails := 0, inflight := x.inflight.filter (· ≠ .dyn id n) }).ways ∧
          t.packets = (match s.packet? id with | some _ => s.packets.filter (fun p => p.id ≠ id) | none => s.packets) ∧ t.cores = s.cores ∧ t.berths = s.berths))

/-- R169, R171, R174, R176: RING_HOP, DELIVERY_HOP and PACKET_ARRIVAL. -/
def Obligations.PacketMoves : Prop :=
  ∀ (s : State) (id : Nat) (p : Packet), s.packet? id = some p → p.id = id →
    let there := { s.dropPacket id with delivered := s.delivered ++ [p] }
    (∀ n d turns, s.moveOf p = .ring n d turns →
      (s.pathDone p = true → exec (.ringHop id) s = .next (s.movePacket p (.ring n (opposite d)))) ∧ (s.pathDone p = false → exec (.ringHop id) s = .next s)) ∧
    (s.moveOf p = .unformable → ∃ m f d, exec (.ringHop id) s = .next { s.dropPacket id with regs := m, flt := f, delivered := d } ∧
      (Inv s → ({ s with regs := m } : State).errSet .mesh (packetAt p.loc).1 3 = true) ∧
      (p.core = none → d = s.delivered) ∧ (p.core ≠ none → ∃ q, d = s.delivered ++ [q] ∧ q.core = p.core ∧ q.h.tag = p.h.tag ∧ q.payload = [])) ∧
    (∀ t, s.moveOf p = .delivery t →
      (s.pathDone p = true → exec (.deliveryHop id) s = .next (s.movePacket p (.delivery t (opposite (deliveryDir (packetAt p.loc).1 t))))) ∧
      (s.pathDone p = false → exec (.deliveryHop id) s = .next s)) ∧
    (s.moveOf p = .arrived → s.pathDone p = true → p.h.dst.toNat ≠ 0xFE →
      (Inv s → ∃ m f, exec (.packetArrival id true) s = .next { s.dropPacket id with regs := m, flt := f } ∧ ({ s with regs := m } : State).errSet .mesh p.target 2 = true) ∧
      (isResponse p.h = true → p.h.dst.toNat < 84 → p.h.dunit.toNat < 0x9C → p.core ≠ none → exec (.packetArrival id false) s = .next there) ∧
      (isResponse p.h = false → p.h.dst.toNat < 84 → p.h.dunit.toNat = 0xE0 →
        (p.h.addr.toNat + p.h.len.toNat ≤ 2 ^ 33 →
          (p.h.type = 1 → exec (.packetArrival id false) s =
            .next (((s.dropPacket id).storeWrite p.target p.h.addr.toNat (p.payload.take p.h.len.toNat)).respond p [])) ∧
          (p.h.type = 0 → exec (.packetArrival id false) s = .next { s.dropPacket id with delivered := s.delivered ++ [{ p with payload := [] }] })) ∧
        (2 ^ 33 < p.h.addr.toNat + p.h.len.toNat → exec (.packetArrival id false) s = .next (((s.dropPacket id).raise .stor p.target 8).respond p []))) ∧
      (∀ k, isResponse p.h = false → p.h.dst.toNat = 0x54 + k → k < 12 →
        (p.h.dunit = 0 → p.h.type = 0 ∨ p.h.type = 1 → exec (.packetArrival id false) s = .next (there.setStack k
          { s.stack k with reqs := (s.stack k).reqs ++ [{ packet := id, write := p.h.type = 1, offset := p.h.addr.toNat, len := p.h.len.toNat, data := p.payload }] })) ∧
        (p.h.dunit = 1 → p.h.type = 2 → exec (.packetArrival id false) s = .next (there.setStack k { s.stack k with pager := (s.stack k).pager ++ [id] }))) ∧
      (isResponse p.h = false → p.h.dst = 0x60 ∨ p.h.dst = 0x61 → p.h.dunit = 0 →
        let a := hostKey (if p.h.dst = 0x60 then .a else .b) p.h.addr.toNat
        (p.h.type = 1 → exec (.packetArrival id false) s = .next (({ s.dropPacket id with hostMem := Memory.write s.hostMem a p.payload } : State).respond p [])) ∧
        (p.h.type ≠ 1 → exec (.packetArrival id false) s = .next ((s.dropPacket id).respond p (Memory.read s.hostMem a p.h.len.toNat)))) ∧
      (isResponse p.h = false → 0x60 ≤ p.h.dst.toNat → (p.h.dunit ≠ 0 ∨ 0x61 < p.h.dst.toNat) → exec (.packetArrival id false) s = .next there))

/-- R178, R181, R182, R355: ARRIVE, the barrier timer and RELEASE. -/
def Obligations.BarrierTree : Prop :=
  ∀ (s : State) (n : ChNode) (resent : Bool) (m : ReleaseMeasure), s.coresMode = .run →
    let noted := fun (u : State) => ∃ r f, (resent = false → r = s.regs ∧ f = s.flt) ∧ exec (.arrive n resent) s = .next { u with regs := r, flt := f }
    let done := { s with passed := s.passed ++ [n], oneLeft := s.oneLeft.filter (· ≠ n), barrierTimer := s.barrierTimer && n != .root }
    (s.nodeRuns n = true → s.nodeLive n = true → n ∉ s.passed →
      (∀ b, s.missingBelow n = (0, b) → (n ≠ .root ∨ s.spansModules = false) → noted done) ∧
      (∀ b, s.missingBelow n = (0, b) → n = .root → s.spansModules = true →
        ∃ p o, noted { done with zports := p, portOut := o } ∧ (resent = false → exec (.arrive n resent) s = .next done.passUp)) ∧
      (∀ k, s.missingBelow n = (k + 1, true) → n ∉ s.oneLeft → noted { s with oneLeft := s.oneLeft ++ [n], barrierTimer := s.barrierTimer || n == .root }) ∧
      (∀ k, s.missingBelow n = (k + 1, true) → n ∈ s.oneLeft → exec (.arrive n resent) s = .next s) ∧
      (∀ k, s.missingBelow n = (k + 1, false) → exec (.arrive n resent) s = .next s)) ∧
    (s.barrierTimer = true → exec .barrierTimerExpiry s = .next { s with barrierTimer := false, lateSent := s.missingCores.head? }) ∧
    (s.mayRelease = true → ∀ p, s.curProg = some p → ∃ t : State, exec (.release m) s = .next t ∧
      t.hbm = s.hbm ∧ t.hostMem = s.hostMem ∧ t.streams = s.streams ∧ t.packets = s.packets ∧ t.links = [] ∧ t.ways = s.keepDynamic.ways ∧ t.passed = [] ∧
      t.barrierTimer = false ∧
      (s.seq.epoch + 1 < p.epochs.length → t.seq = { s.seq with epoch := s.seq.epoch + 1 } ∧ t.coresMode = .run ∧
        t.cores = (s.cores.map (fun e => (e.1, freshCore e.2))).filter (fun e => e.2 ≠ {})) ∧
      (p.epochs.length ≤ s.seq.epoch + 1 → t.seq = { s.seq with finished := true, running := false } ∧ t.coresMode = .idle ∧ t.cores = s.cores)) ∧
    (s.mayRelease = false → exec (.release m) s = .next s) ∧
    (∀ k : Core, let f := freshCore k
      f.g = k.g ∧ f.v = k.v ∧ f.scratch = k.scratch ∧ f.damage = k.damage ∧ f.acc = k.acc ∧ f.dyn = k.dyn ∧ f.pc = 0 ∧ f.slot = 0 ∧ f.st = .run ∧
      f.tshape = 0 ∧ f.tfmt = 0 ∧ f.tbound = 0 ∧ f.sent = [] ∧ f.cancelled = [] ∧ f.landed = [] ∧ f.readable = [] ∧ f.tile = none)

/-- R59, R178, R182, R194: LATE, EPOCH_WATCHDOG and TREE_LINK_FAIL. -/
def Obligations.LateAndWatchdog : Prop :=
  ∀ s : State, Inv s →
    (∀ c b, s.lateSent = some c → s.rootBusy = false → s.physOf (c / 144) = some b → ∃ m f, exec .late s = .next { s with lateSent := none, regs := m, flt := f } ∧
      ({ s with regs := m } : State).errSet .chms b 2 = true) ∧
    (s.rootBusy = true → exec .late s = .next s) ∧
    (s.coresMode = .run → (s.spansModules = false ∨ s.parentRole = none) → ∃ m f, exec .epochWatchdog s = .next { s with regs := m, flt := f } ∧
      (s.missingCores.length ≠ 1 → ({ s with regs := m } : State).errSet .schd 0 0 = true) ∧
      (∀ c b, s.missingCores = [c] → s.physOf (c / 144) = some b → ({ s with regs := m } : State).errSet .chms b 2 = true)) ∧
    (∀ n, let moved := if (nodeDup n).isSome = true ∧ n ∉ s.treeMoved then s.treeMoved ++ [n] else s.treeMoved
      (s.nodeLive n = true → ∃ m f, exec (.treeLinkFail n) s = .next { s with treeMoved := moved, regs := m, flt := f } ∧
        ({ s with regs := m } : State).errSet .chms (s.nodeBerth n) 3 = true) ∧
      (s.nodeLive n = false → exec (.treeLinkFail n) s = .next { s with treeMoved := moved }))

/-- R73, R227, R446: GO and ABORT. -/
def Obligations.StepStartAndAbort : Prop :=
  ∀ (s : State) (t : Step),
    let starts := fun (u : State) => u.coresMode = .run ∧ u.cores = [] ∧ u.links = [] ∧ u.ways = s.keepDynamic.ways ∧ u.passed = [] ∧ u.seq.cur = some t ∧
      u.seq.running = true ∧ u.seq.epoch = 0 ∧ u.seq.stepId = t.id ∧ u.hbm = s.hbm ∧ u.hostMem = s.hostMem ∧ u.packets = s.packets
    (s.goClear = true → s.seq.cur = none → s.seq.next = some t → t.prepared = true → s.flt.phase = .idle → (t.copy.isSome ∨ s.swapTurn = true) →
      ∃ u : State, exec .go s = .next u ∧ starts u ∧ u.seq.next = none ∧ u.seq.replay = 0 ∧ u.flt = s.flt) ∧
    (s.goClear = true → s.seq.cur = some t → (s.flt.phase = .restore ∨ s.flt.phase = .coolant) → s.flt.msgs = [] → s.coresMode = .held →
      ∃ u : State, exec .go s = .next u ∧ starts u ∧ u.seq.next = s.seq.next ∧ u.seq.replay = s.seq.replay ∧ u.streams = s.streams ∧
        u.flt = { s.flt with phase := .idle, cur := none, next := none, ovf := 0, repairs := [], rowTest := [], sudden := false }) ∧
    (s.flt.phase = .abort → s.seq.cur = some t → s.coresMode ≠ .held →
      ∃ u : State, exec .abort s = .next u ∧ u.coresMode = .held ∧ (∀ e ∈ u.cores, e.2.reads = [] ∧ e.2.tile = none) ∧ u.links = [] ∧ u.ways = s.keepDynamic.ways ∧
        u.passed = [] ∧
        u.seq = { s.seq with running := false, finished := false, epoch := 0, heldEpoch := s.seq.epoch, replay := s.seq.replay + (if s.flt.sudden then 0 else 1) } ∧
        u.flt.phase = .quiesce ∧ u.flt.cur = s.flt.cur ∧ u.hbm = s.hbm ∧ u.packets = s.packets ∧ u.streams = s.streams ∧ u.regs = s.regs ∧
        (s.spansModules = false → u.zports = s.zports ∧ u.portOut = s.portOut)) ∧
    (s.flt.phase = .abort → s.coresMode = .held → exec .abort s = .next { s with flt := { s.flt with phase := .quiesce } }) ∧
    (s.goClear = false → exec .go s = .next s)

/-- R180, R449: FAULT. -/
def Obligations.FaultMessages : Prop :=
  ∀ (s : State) (e : FltErr) (rest : List FltErr), s.flt.msgs = e :: rest →
    (s.faultWaits e = true → exec .fault s = .next s) ∧
    (s.faultWaits e = false →
      (s.flt.cur = none → ∃ r, exec .fault s = .next { s with flt := { s.flt with msgs := rest, phase := .abort, cur := some e, repairs := r } }) ∧
      (∀ c, s.flt.cur = some c →
        let late := (s.flt.phase = .repair ∨ s.flt.phase = .restore ∨ s.flt.phase = .coolant) ∧ e.scope < 5
        ∃ r, (let u := if s.flt.next = none then { s with flt := { s.flt with msgs := rest, next := some e, cur := some { c with scope := max c.scope e.scope }, repairs := r } }
            else { s with flt := { s.flt with msgs := rest, ovf := min (s.flt.ovf + 1) 65535, cur := some { c with scope := max c.scope e.scope }, repairs := r } }
          (¬late → exec .fault s = .next u) ∧ (late → exec .fault s = .next (u.repairAll [])))))

/-- R183, R459: TIME_BROADCAST, TIME and POINT. Log entry 161 names the free path delay. -/
def Obligations.TimeAndPoint : Prop :=
  ∀ (s : State) (b : Berth) (n : ChNode) (addr : Nat) (value : Word) (resent : Bool),
    (∃ p o, exec .timeBroadcast s = .next { s with timeMsg := some s.stamp, zports := p, portOut := o } ∧
      (s.sliceModules = none ∨ s.parentRole ≠ none → p = s.zports ∧ o = s.portOut)) ∧
    (∀ t, s.timeMsg = some t → s.dark b.val = false → s.rootBusy = false →
      let v : Int := t.toNat + Config.pathDelay b.val s.countFrom
      let c : Int := s.stamp.toNat + (s.nodeClock b.val).skew
      let clock : NodeClock := if c ≤ v then { skew := v - s.stamp.toNat, hold := 0 } else { skew := c - s.stamp.toNat, hold := (c - v).toNat }
      ∃ m f, exec (.time b resent) s = .next { s with nodeClocks := Sparse.set (fun _ => {}) s.nodeClocks b.val clock, regs := m, flt := f } ∧
        (resent = false → v ≤ c + 1 → c ≤ v + 1 → m = s.regs ∧ f = s.flt)) ∧
    (s.rootBusy = true → exec (.time b resent) s = .next s) ∧
    (∀ blk i off, s.powered = true → pageAt addr = some (blk, i, off) →
      let reached := s.nodeLive n = true ∧ s.nodeBerth n ∈ pageNodes blk i ∧ addr % 4 = 0 ∧ s.rootBusy = false
      (reached → ∃ m f, (resent = false → m = s.regs ∧ f = s.flt) ∧ exec (.point n addr value resent) s = .next (({ s with regs := m, flt := f } : State).writeWord .firmware addr value)) ∧
      (¬reached → exec (.point n addr value resent) s = .next s))

/-- R84, R85, R199, R205: merged reads, their return and the refill buffer. What a line holds that was read before a later write is log entry 180,
the count of row activations entry 182. -/
def Obligations.MergedReads : Prop :=
  ∀ (s : State) (b : Berth) (line : BitVec 26) (r : StoreReader), Inv s →
    let l := line.toNat
    let x := s.berth b.val
    let noted := s.noteArrival l r
    let issued := fun (o : Bool) => noted.setBerth b.val { activate x l with entries := x.entries ++ [{ line := l, opened := o, readers := [r] }] }
    let rows := fun (lost : Bool) => x.rowErrors.filter (fun e => s.stamp.toNat < e.2.1 + 86400 * 212500000) ++ [(rowKey l, s.stamp.toNat, lost)]
    (readDue s b.val l r = false → ∀ y, exec (.storeReadArrival b line r y) s = .next s) ∧
    (readDue s b.val l r = true → (∀ id, r = .remote id → ∀ m ∈ x.entries, m.line = l → r ∉ m.readers) →
      (∀ c, r = .core c → noted = s.setCore c.val { s.core c.val with reads := queueWait l (s.core c.val).reads }) ∧
      (s.fuses.stepping = .a1 → exec (.storeReadArrival b line r true) s = .next (issued false)) ∧
      ((∀ m ∈ x.entries, ¬(m.line = l ∧ m.opened = true)) → exec (.storeReadArrival b line r false) s =
        .next (issued (decide ((x.entries.filter (·.opened)).length < 64)))) ∧
      (∀ pre e post, x.entries = pre ++ e :: post → (∀ m ∈ pre, ¬(m.line = l ∧ m.opened = true)) → e.line = l → e.opened = true →
        if readerJoins r then ∃ m, exec (.storeReadArrival b line r false) s =
          .next { noted.setBerth b.val { x with entries := pre ++ { e with readers := e.readers ++ [r] } :: post } with regs := m }
        else exec (.storeReadArrival b line r false) s = .next (issued false))) ∧
    (∀ pre e post, x.entries = pre ++ e :: post → (∀ m ∈ pre, ¬(m.line = l ∧ m.opened = true)) → e.line = l → e.opened = true →
      exec (.mergeWindowEnd b line) s = .next (s.setBerth b.val { x with entries := pre ++ { e with opened := false } :: post })) ∧
    (l ∈ x.held → ∀ e ok, exec (.storeLineReturn b line e ok) s = .next s) ∧
    (∀ m ok, x.entries.find? (fun m => m.line = l) = some m → l ∉ x.held →
      let left := { x with entries := dropEntry l x.entries }
      let data := m.data.getD (Memory.read x.store (l * 128) 128)
      let good := Memory.read x.store (mirrorLine l % 2 ^ 26 * 128) 128
      exec (.storeLineReturn b line .clean ok) s = .next (m.readers.foldl (fun t r => t.deliverLine l data r) (s.setBerth b.val left)) ∧
      (∃ g f, exec (.storeLineReturn b line .corrected ok) s = .next (m.readers.foldl (fun t r => t.deliverLine l data r)
          { s.setBerth b.val { left with rowErrors := rows false } with regs := g, flt := f }) ∧
        ({ s with regs := g } : State).errSet .stor b.val 0 = true) ∧
      (s.regionOf b.val l = 2 → ok = true → ∃ g f, exec (.storeLineReturn b line .uncorrectable ok) s = .next (m.readers.foldl (fun t r => t.deliverLine l good r)
          { s.setBerth b.val { left with rowErrors := rows true, store := Memory.write x.store (l * 128) good } with regs := g, flt := f }) ∧
        ({ s with regs := g } : State).errSet .stor b.val 5 = true) ∧
      ((s.regionOf b.val l ≠ 2 ∨ ok = false) → ∃ g f, exec (.storeLineReturn b line .uncorrectable ok) s = .next (m.readers.foldl State.failLine
          { s.setBerth b.val { left with rowErrors := rows true, badLines := x.badLines.filter (· ≠ l) ++ [l] } with regs := g, flt := f }) ∧
        ({ s with regs := g } : State).errSet .stor b.val 1 = true)) ∧
    (∀ (t : State) (c : CoreId) data w, (t.core c.val).reads.find? (fun r => r.line = l && r.queued) = some w →
      t.deliverLine l data (.core c) = t.setCore c.val { (t.core c.val).put w.dst data with reads := dropWait l (t.core c.val).reads }) ∧
    (x.refill = [] → exec (.refillWrite b) s = .next s) ∧
    (∀ off data rest, x.refill = (off, data) :: rest →
      (off + data.length ≤ 0x3E00000 * 128 → ∃ t, exec (.refillWrite b) s = .next t ∧
        (s.setBerth b.val { x with refill := rest }).StoreBecomes b.val (Memory.write x.store off data) t) ∧
      (0x3E00000 * 128 < off + data.length → ∃ g f, exec (.refillWrite b) s = .next { s.setBerth b.val { x with refill := rest } with regs := g, flt := f } ∧
        ({ s with regs := g } : State).errSet .stor b.val 6 = true))

/-- R201, R202, R203, R205, R206: refresh, scrub and spare rows. The count of refreshes ahead of schedule is log entry 181. -/
def Obligations.RefreshAndScrub : Prop :=
  ∀ (s : State) (b : Berth) (bank row : Fin 2048) (line : BitVec 26) (data : List Byte), Inv s →
    let x := s.berth b.val
    let l := line.toNat
    let n := postponed x bank.val
    let max := postponeLimit s b.val
    let key := bank.val * 2048 + row.val
    let due := nextInterval x bank.val
    let hit := { x with targeted := x.targeted ++ [bank.val], activations := Sparse.erase x.activations key }
    let forced := fun (t : State) => t.setReg .stor b.val 0x04C (s.reg .stor b.val 0x04C + 1)
    let rows := fun (lost : Bool) => x.rowErrors.filter (fun e => s.stamp.toNat < e.2.1 + 86400 * 212500000) ++ [(rowKey l, s.stamp.toNat, lost)]
    let w := s.reg .stor b.val 0x044
    let rest := x.held.filter (· ≠ l)
    let lifted := { x with held := rest, holdSignal := !rest.isEmpty }
    let old := x.rowErrors.filter (fun e => e.1 = key && s.stamp.toNat < e.2.1 + 86400 * 212500000)
    (n < max → exec (.refresh b bank true) s = .next (s.setBerth b.val (setDebt due bank.val (debtOf x bank.val + 1)))) ∧
    (max ≤ n → exec (.refresh b bank true) s = .next s) ∧
    exec (.refresh b bank false) s = .next (s.setBerth b.val (setDebt due bank.val (debtOf x bank.val - 1))) ∧
    (n < max → exec (.refreshDeadline b bank) s = .next s) ∧
    (max ≤ n → exec (.refreshDeadline b bank) s = .next (forced (s.setBerth b.val due))) ∧
    ((bank.val ∈ x.targeted ∨ Sparse.get (fun _ => 0) x.activations key ≤ 16384) → ∀ y, exec (.targetedRefresh b bank row y) s = .next s) ∧
    (bank.val ∉ x.targeted → 16384 < Sparse.get (fun _ => 0) x.activations key →
      exec (.targetedRefresh b bank row false) s = .next (s.setBerth b.val (setDebt hit bank.val (debtOf x bank.val - 1))) ∧
      (n < max → exec (.targetedRefresh b bank row true) s = .next (s.setBerth b.val (setDebt hit bank.val (debtOf x bank.val + 1)))) ∧
      (max ≤ n → exec (.targetedRefresh b bank row true) s = .next (forced (s.setBerth b.val hit)))) ∧
    (scrubOn s b.val = true → exec (.scrubPreempt b bank) s = .next (forced s)) ∧
    (scrubOn s b.val = false → exec (.scrubPreempt b bank) s = .next s ∧ ∀ o y, exec (.patrolScrubRead b line o y) s = .next s) ∧
    (scrubOn s b.val = true → l = 2 ^ 26 - 1 → ∀ y, exec (.patrolScrubRead b line .clean y) s =
      .next (s.setReg .stor b.val 0x044 (putBits w 31 16 (bits w 31 16 + 1)))) ∧
    (scrubOn s b.val = true → l ≠ 2 ^ 26 - 1 → ∀ y, exec (.patrolScrubRead b line .clean y) s = .next s ∧
      (∃ m f, exec (.patrolScrubRead b line .corrected y) s = .next { s.setBerth b.val { x with rowErrors := rows false } with regs := m, flt := f } ∧
        ({ s with regs := m } : State).errSet .stor b.val 0 = true) ∧
      (l ∈ x.held → exec (.patrolScrubRead b line .uncorrectable y) s = .next s) ∧
      (l ∉ x.held → x.held.length < 16 → exec (.patrolScrubRead b line .uncorrectable y) s =
        .next (s.setBerth b.val { x with held := x.held ++ [l], holdSignal := true, rowErrors := rows true })) ∧
      (l ∉ x.held → 16 ≤ x.held.length → ∃ m f,
        exec (.patrolScrubRead b line .uncorrectable y) s = .next { s with regs := m, flt := f } ∧ ({ s with regs := m } : State).errSet .stor b.val 4 = true)) ∧
    (l ∈ x.held → (∃ m ∈ x.entries, m.line = l) → ∃ m f,
      exec (.holdTimeout b line) s = .next { s with regs := m, flt := f } ∧ ({ s with regs := m } : State).errSet .stor b.val 4 = true) ∧
    ((l ∉ x.held ∨ ∀ m ∈ x.entries, m.line ≠ l) → exec (.holdTimeout b line) s = .next s) ∧
    (l ∉ x.held → exec (.heldLineRepaired b line data) s = .next s) ∧
    (l ∈ x.held →
      (s.regionOf b.val l = 2 → exec (.heldLineRepaired b line data) s = .next (s.setBerth b.val { lifted with
        store := Memory.write x.store (l * 128) (Memory.read x.store (mirrorLine l % 2 ^ 26 * 128) 128) })) ∧
      (s.regionOf b.val l = 1 → exec (.heldLineRepaired b line data) s = .next ((s.setBerth b.val lifted).mendKv b.val l)) ∧
      (s.regionOf b.val l = 0 → if (s.setBerth b.val lifted).backedUp b.val l then
        exec (.heldLineRepaired b line data) s = .next ((s.setBerth b.val lifted).mendWeights b.val l)
        else exec (.heldLineRepaired b line data) s = .next (s.setBerth b.val { lifted with store := Memory.write x.store (l * 128) (data.take 128) }))) ∧
    ((s.coresMode = .run ∨ 64 ≤ sparesUsed x bank.val ∨ (old.length < 16 ∧ ∀ e ∈ old, e.2.2 = false)) → exec (.rowSpared b bank row) s = .next s) ∧
    (s.coresMode ≠ .run → sparesUsed x bank.val < 64 → (16 ≤ old.length ∨ ∃ e ∈ old, e.2.2 = true) → ∃ m f, exec (.rowSpared b bank row) s =
      .next { s.setBerth b.val { x with spareRows := Sparse.set (fun _ => 0) x.spareRows bank.val (sparesUsed x bank.val + 1)
                                        rowErrors := x.rowErrors.filter (fun e => e.1 ≠ key) } with regs := m, flt := f } ∧
      ({ s with regs := m } : State).errSet .stor b.val 2 = true ∧
      (sparesUsed x bank.val = 63 → ({ s with regs := m } : State).errSet .stor b.val 3 = true))

/-- R215, R216, R221. The order in which data lost with a page is restored is R205's. -/
def Obligations.TierCommands : Prop :=
  ∀ (s : State) (k : Stack) (bank page unit : Nat) (off : BitVec 37), Inv s →
    let x := s.stack k.val
    let retires := fun (t : State) (p : Nat) =>
      t = { s with regs := t.regs, flt := t.flt, portA := t.portA, portB := t.portB, tier := t.tier,
                   flash := { s.flash with retired := s.flash.retired ++ [k.val * 2 ^ 25 + p] } } ∧
      t.stack k.val = { x with retired := x.retired ++ [p], badUnits := x.badUnits.filter (· ≠ p * 4096) ++ [p * 4096] } ∧
      (∀ j, j ≠ k.val → t.stack j = s.stack j) ∧ t.errSet .hbmc k.val 4 = true
    exec (.hbmRefreshDeadline k bank) s = .next s ∧ exec (.zqCalibration k) s = .next s ∧ exec (.hbmPatrolScrub k off .clean) s = .next s ∧
    (∃ m f, exec (.hbmPatrolScrub k off .corrected) s = .next { s with regs := m, flt := f } ∧ ({ s with regs := m } : State).errSet .hbmc k.val 0 = true) ∧
    (off.toNat / 4096 ∈ x.retired → exec (.hbmPatrolScrub k off .uncorrectable) s = .next s) ∧
    (off.toNat / 4096 ∉ x.retired → ∃ t, exec (.hbmPatrolScrub k off .uncorrectable) s = .next t ∧ retires t (off.toNat / 4096)) ∧
    (s.coresMode = .run → ∀ soft, exec (.pageRetire k page soft) s = .next s) ∧
    (s.coresMode ≠ .run → page ∉ x.softRepaired → exec (.pageRetire k page true) s =
      .next { s.setStack k.val { x with softRepaired := x.softRepaired ++ [page] } with flash := { s.flash with softRepaired := s.flash.softRepaired ++ [k.val * 2 ^ 25 + page] } }) ∧
    (s.coresMode ≠ .run → page ∉ x.retired → ∀ soft, (soft = false ∨ page ∈ x.softRepaired) → ∃ t, exec (.pageRetire k page soft) s = .next t ∧ retires t page) ∧
    (x.reqs = [] → ∀ e, exec (.deviceStackRequest k e unit) s = .next s) ∧
    (∀ r rest, x.reqs = r :: rest →
      let u := s.setStack k.val { x with reqs := rest }
      let bad := fun (b : Nat) (t : State) => ∃ m f, t = { u with regs := m, flt := f } ∧ ({ s with regs := m } : State).errSet .hbmc k.val b = true
      (∀ b e, deviceCheck s k.val r.offset r.len = some b → ∃ t : State, exec (.deviceStackRequest k e unit) s = .next (t.answer r.packet []) ∧ bad b t) ∧
      (deviceCheck s k.val r.offset r.len = none →
        (r.write = true → ∀ e, exec (.deviceStackRequest k e unit) s =
          .next (({ u with hbm := stackPut s.hbm k.val r.offset (r.data.take r.len) } : State).answer r.packet [])) ∧
        (r.write = false → exec (.deviceStackRequest k .clean unit) s = .next (u.answer r.packet (s.stackRead k.val r.offset r.len)) ∧
          (∃ t : State, exec (.deviceStackRequest k .corrected unit) s = .next (t.answer r.packet (s.stackRead k.val r.offset r.len)) ∧ bad 0 t) ∧
          ∃ t : State, exec (.deviceStackRequest k .uncorrectable unit) s = .next (t.answer r.packet []) ∧
            t = { s with regs := t.regs, flt := t.flt, tier := (u.unitLost k.val (failingUnit r unit)).tier } ∧ t.errSet .hbmc k.val 1 = true))) ∧
    (∀ (t : State) p d, (t.answer p d).hbm = t.hbm ∧ (t.answer p d).tier = t.tier ∧ (t.answer p d).cores = t.cores ∧ (t.answer p d).berths = t.berths)

/-- R374, R375, R376, R391: host memory reads and writes; `y` says that the access meets an error of the link. -/
def Obligations.HostAccesses : Prop :=
  ∀ (s : State) (p q : HostPort) (offset : BitVec 40) (data : List Byte) (e : EccOutcome) (y : Bool), Inv s →
    let off := offset.toNat / 64 * 64
    let a := s.partBase q + off
    let x := s.port p
    let aer := if y then x.aer + 1 else x.aer
    let seen := fun (m : List (Nat × Word)) => y = true → ({ s with regs := m } : State).errSet .cxlp (portIx p) 0 = true
    (x.decoder = false ∨ s.presented p = none ∨ (s.presented p = some q ∧ s.partSize q < off + 64) →
      exec (.hostMemRead p offset e y) s = .fault .hostAccess ∧ exec (.hostMemWrite p offset data y) s = .fault .hostAccess) ∧
    (s.presented p = some q → x.decoder = true → off + 64 ≤ s.partSize q →
      (s.dpaRetired a 64 = false →
        (∃ m f, exec (.hostMemRead p offset .clean y) s =
          .next (({ s with regs := m, flt := f } : State).setPort p { x with aer := aer, rdata := some (Memory.read s.hbm a 64) }) ∧
          (y = false → m = s.regs ∧ f = s.flt) ∧ seen m) ∧
        (∃ m f, exec (.hostMemRead p offset .corrected y) s =
          .next (({ s with regs := m, flt := f } : State).setPort p { x with aer := aer, rdata := some (Memory.read s.hbm a 64) }) ∧
          ({ s with regs := m } : State).errSet .hbmc (dpaStack a) 0 = true) ∧
        (∃ m f, exec (.hostMemWrite p offset data y) s =
          .next (({ s with regs := m, flt := f, hbm := Memory.write s.hbm a (data.take 64) } : State).setPort p { x with aer := aer }) ∧
          (y = false → m = s.regs ∧ f = s.flt) ∧ seen m)) ∧
      (s.dpaRetired a 64 = true → ∃ m f, exec (.hostMemWrite p offset data y) s =
          .next (({ s with regs := m, flt := f } : State).setPort p { x with aer := aer }) ∧ (y = false → m = s.regs ∧ f = s.flt) ∧ seen m) ∧
      (s.dpaRetired a 64 = true ∨ e = .uncorrectable → ∃ m f, exec (.hostMemRead p offset e y) s =
        .next (({ s with regs := m, flt := f } : State).setPort p { x with
          rdata := none, aer := aer + 1, eventNext := x.eventNext + 1
          events := x.events ++ [{ handle := x.eventNext, dpa := a, stamp := s.stamp }] }) ∧
        ({ s with regs := m } : State).errSet .cxlp (portIx p) 1 = true ∧ seen m))

/-- R315–R322, R334: a channel and its copies. That an uncorrectable unit ends a COPY_OUT with DST_ERR is log entry 191. -/
def Obligations.LighterCopies : Prop :=
  ∀ (s : State) (p : HostPort) (ch : Channel) (words : List Word) (data : List Byte) (bad : Bool) (v : Word) (e : EccOutcome) (unit : Nat), Inv s →
    let k := chanIx p ch
    let x := s.chan k
    let cfg := s.chReg p ch 0x04C
    let at_ := s.descAddr p ch
    let nw := if chShort cfg then 8 else 16
    let has := fun (t : State) (j : Job) => Host.Outcome.next (t.setChan k { x with job := some j })
    let takes := fun (l : List Word) => if bit (l.getD 0 0) 31 then has s { jobOf (chShort cfg) l with addr := at_, inTier := bit cfg 30 } else .next s
    (bit cfg 31 = true → x.stopped = false → x.job = none →
      (bit cfg 30 = false → words.length = nw → exec (.descriptorPoll p ch (some words)) s = takes words) ∧
      (bit cfg 30 = true → s.inDevicePart at_ (4 * nw) = true → s.dpaRetired at_ (4 * nw) = false → ∀ h,
        exec (.descriptorPoll p ch h) s = takes ((List.range nw).map (fun i => Memory.word s.hbm (at_ + 4 * i)))) ∧
      ((bit cfg 30 = false ∨ s.inDevicePart at_ (4 * nw) = false ∨ s.dpaRetired at_ (4 * nw) = true) →
        ∃ m f, exec (.descriptorPoll p ch none) s = .next (({ s with regs := m, flt := f } : State).setChan k { x with stopped := true }) ∧
          ({ s with regs := m } : State).errSet .ltr (portIx p) 1 = true)) ∧
    (∀ j a, x.job = some j → j.started = false → (j.kind = 1 ∧ a = descDst j ∨ j.kind = 2 ∧ a = descSrc j) →
      let c := if j.kind = 1 then Instr.copyIn p ch else Instr.copyOut p ch
      (a < s.hostLimit → ∃ m f, exec c s = has { s with regs := m, flt := f } (overWith j .refusedPart) ∧
        ({ s with regs := m } : State).errSet .hbmc (dpaStack a) 2 = true) ∧
      (s.hostLimit ≤ a → exec c s = if tierBytes < a + j.len then has s (overWith j .badDesc) else has s { j with started := true })) ∧
    (∀ j, x.job = some j → j.started = true → j.finished = false →
      (j.kind = 1 →
        let a := descDst j + j.moved
        let n := min (4096 - a % 4096) (j.len - j.moved)
        (8 ≤ (s.stack (dpaStack a)).lighter.length → ∀ h, exec (.lighterBurst p ch h e unit) s = .next s) ∧
        ((s.stack (dpaStack a)).lighter.length < 8 →
          exec (.lighterBurst p ch none e unit) s = has s (overWith j .srcErr) ∧
          exec (.lighterBurst p ch (some data) e unit) s =
            if data.length < n then has s (overWith j .srcErr) else if s.dpaRetired a n then has s (overWith j .dstErr)
            else has (s.toBuffer a (.toTier a (data.take n))) { j with moved := j.moved + n, finished := decide (j.len ≤ j.moved + n) })) ∧
      (j.kind = 2 → ∀ h,
        let a := descSrc j + j.moved
        let n := min (4096 - a % 4096) (j.len - j.moved)
        let u := a + unit % n / 64 * 64
        let out := fun (t : State) => has (t.toBuffer a (.toHost (hostKey p (descDst j + j.moved)) (Memory.read s.hbm a n)))
          { j with moved := j.moved + n, finished := decide (j.len ≤ j.moved + n) }
        (8 ≤ (s.stack (dpaStack a)).lighter.length → exec (.lighterBurst p ch h e unit) s = .next s) ∧
        ((s.stack (dpaStack a)).lighter.length < 8 →
          (s.dpaRetired a n = true → exec (.lighterBurst p ch h e unit) s = has s (overWith j .dstErr)) ∧
          (s.dpaRetired a n = false →
            exec (.lighterBurst p ch h .clean unit) s = out s ∧
            (∃ m f, exec (.lighterBurst p ch h .corrected unit) s = out { s with regs := m, flt := f } ∧
              ({ s with regs := m } : State).errSet .hbmc (dpaStack u) 0 = true) ∧
            ∃ m f, exec (.lighterBurst p ch h .uncorrectable unit) s = has { s.unitLost (dpaStack u) (dpaOffset u) with regs := m, flt := f } (overWith j .dstErr) ∧
              ({ s with regs := m } : State).errSet .hbmc (dpaStack u) 1 = true)))) ∧
    (∀ j, x.job = some j → j.finished = true → j.kind ≤ 2 → (s.image (descImage j)).unloadAsked = false →
      (s.image (descImage j)).abandonAsked = false →
      let code := if j.code = 0 ∧ bad = true ∧ j.short = false then 6 else j.code
      let u := if j.short then s else s.flushBuffers
      let put := fun (t : State) (i : Nat) (d : List Byte) =>
        if j.inTier then (if t.dpaRetired (j.addr + 4 * i) d.length then t else { t with hbm := Memory.write t.hbm (j.addr + 4 * i) d })
        else { t with hostMem := Memory.write t.hostMem (hostKey p (j.addr + 4 * i)) d }
      ∃ m f, exec (.descriptorComplete p ch bad) s = .next (({ put (put u 7 (leBytes code 4)) 0 (leBytes (putBits (j.words.getD 0 0) 31 31 0).toNat 4) with
          regs := m, flt := f
          msix := if bit (j.words.getD 0 0) 4 then (s.msi (portIx p) (bits cfg 10 0)).msix else s.msix } : State).setChan k
            { x with job := none, next := if j.renewed then x.next else (x.next + 1) % 2 ^ chLog2 cfg }) ∧
        (code ≠ 0 → ({ s with regs := m } : State).errSet .ltr (portIx p) 0 = true)) ∧
    (∃ d h g, s.flushBuffers = { s with tier := d, hbm := h, hostMem := g }) ∧
    (s.pageWrites .ltr (portIx p) = true →
      let c := bits (s.reg .ltr (portIx p) 0x040) 3 0
      let y := s.chan (portIx p * 16 + c)
      let t := s.setRegI .ltr (portIx p) 0x04C c (v &&& 0xE0FFF7FF#32)
      exec (.channelEnable p v) s = .next (if bit v 31 = true ∧ bit (s.regI .ltr (portIx p) 0x04C c) 31 = false then
        t.setChan (portIx p * 16 + c) { y with next := 0, stopped := false, job := y.job.map (fun j => { j with renewed := true }) } else t))

/-- R310–R328: the descriptors of a package. That a slot in service takes a shard or program that became absent or wrong is log entries 46 and
192; the free code is log entry 45. -/
def Obligations.PackageDescriptors : Prop :=
  ∀ (s : State) (p : HostPort) (ch : Channel) (bytes : List Byte) (j : Job) (d : ShardPlace) (b : Nat) (e : EccOutcome) (unit : Nat), Inv s →
    let k := chanIx p ch
    let x := s.image (descImage j)
    let has := fun (t : State) (j : Job) => Host.Outcome.next (t.setChan k { s.chan k with job := some j })
    let n := shardBurst d j
    let bound := d.inStore = true → s.physOf d.shard.berth ≠ none
    let burst := fun (r : Res) (refill : Bool) (c : DescCode) (source : Option (List Byte)) =>
      (¬bound → r = has s (overWith j .targetLost)) ∧
      (bound → s.shardWaits d j.moved refill = true → r = .next s) ∧
      (bound → s.shardWaits d j.moved refill = false →
        (source = none → r = has s (overWith j c)) ∧
        (∀ l, source = some l → r = if l.length < n then has s (overWith j c) else if s.shardRetired d j.moved n then has s (overWith j .dstErr)
          else has ((s.placeShard d j.moved refill (l.take n)).unmark d)
            { j with started := true, place := some d, moved := j.moved + n, data := j.data ++ l.take n, finished := decide (j.len ≤ j.moved + n) }))
    (s.chan k).job = some j →
    (j.started = false →
      (x.st = .empty ∨ x.st = .swapping ∨ x.st = .failed →
        (j.kind = 3 → exec (.manifest p ch bytes) s = has s (overWith j .notLoading)) ∧
        (j.kind = 4 → s.shardBusy k j = false → exec (.shard p ch) s = has s (overWith j .notLoading)) ∧
        (j.kind = 5 → j.finished = false → j.place = none → s.shardBusy k j = false → ∀ y, exec (.peerShard p ch y) s = has s (overWith j .notLoading)) ∧
        (j.kind = 6 → exec (.program p ch bytes) s = has s (overWith j .notLoading))) ∧
      (j.kind = 3 → x.st = .loading → x.unloadAsked = false → x.abandonAsked = false → x.manifest = none → s.dark 72 = false →
        j.len ≤ bytes.length →
        let r := s.acceptManifest (descImage j) false (bytes.take j.len)
        ∃ m f, exec (.manifest p ch bytes) s =
          has (r.2.elim { s with regs := m, flt := f } (fun y => ({ s with regs := m, flt := f } : State).setImage (descImage j) { x with manifest := some y }))
            { overWith j r.1 with moved := j.len } ∧
          (if r.1 = .sigBad then ({ s with regs := m } : State).errSet .secu 0 1 = true else m = s.regs ∧ f = s.flt)) ∧
      (j.kind = 4 → s.shardBusy k j = true → exec (.shard p ch) s = .next s) ∧
      (j.kind = 4 → s.shardBusy k j = false → s.shardPlace j = .inr d → exec (.shard p ch) s = has s { j with started := true, place := some d }) ∧
      (j.kind = 6 → x.st = .loading → x.unloadAsked = false → x.abandonAsked = false → s.flt.exec = true → j.len ≤ bytes.length →
        ∀ m capacity y digest, x.manifest = some m → m.progs[descIndex j]? = some (j.len, capacity, y, digest) →
        exec (.program p ch bytes) s =
          if sha256 (bytes.take j.len) ≠ digest then has s (overWith j .digestBad)
          else match loadFault (bytes.take j.len) s.opticalBerths s.moduleCount with
            | some f => has (s.drawn.reportLoad (descImage j) (descIndex j) f)
                { overWith j .ok with code := 1 + Config.refusedProgramCode s.draws % 10 }
            | none => has (s.setImage (descImage j) { x with progs := Sparse.insert x.progs (descIndex j) (programOf (bytes.take j.len) capacity)
                                                             progLost := x.progLost.filter (· ≠ descIndex j) }) { overWith j .ok with moved := j.len })) ∧
    (j.kind = 4 → j.started = true → j.finished = false → j.place = some d → ∀ h,
      burst (exec (.lighterBurst p ch h e unit) s) (!descByPager j) .srcErr h) ∧
    (j.kind = 5 → j.finished = false → (j.place = some d ∨ (j.place = none ∧ s.shardBusy k j = false ∧ s.shardPlace j = .inr d)) →
      bits (j.words.getD 2 0) 15 0 ≠ s.moduleIndex → ∀ h,
      burst (exec (.peerShard p ch h) s) false .targetLost (if (opticalPort s (opticalLink d.shard.berth true)).isSome then h else none)) ∧
    (j.kind = 5 → j.finished = false → j.place = none → s.shardBusy k j = true → ∀ h, exec (.peerShard p ch h) s = .next s) ∧
    (∀ m, x.manifest = some m → d.staging = false → d.slot = descImage j → s.physOf d.shard.berth = some b → d.shard.streamed = false → x.bkpEn = false →
      ∀ off, s.placeShard d off true bytes = s.setBerth b { s.berth b with refill := (s.berth b).refill ++ [(d.shard.place * 128 + off, bytes)] } ∧
        (d.shard.place * 128 + off + bytes.length ≤ 0x3E00000 * 128 →
          s.StoreBecomes b (Memory.write (s.berth b).store (d.shard.place * 128 + off) bytes) (s.placeShard d off false bytes))) ∧
    (j.kind = 4 ∨ j.kind = 5 → j.finished = true → j.code = 0 → s.jobDraining j = false → j.place = some d →
      d.slot = descImage j → x.st ≠ .empty → x.unloadAsked = false → x.abandonAsked = false → ∀ bad, ∃ t, exec (.descriptorComplete p ch bad) s = .next t ∧
        (let is := fun (l : List Nat) => l.filter (· ≠ d.index) ++ (if sha256 j.data = d.shard.digest then [d.index] else [])
         t.image d.slot = if d.staging then { x with stagedPresent := is x.stagedPresent } else { x with present := is x.present }) ∧
        t.chans = (s.setChan k { s.chan k with job := none, next := if j.renewed then (s.chan k).next else ((s.chan k).next + 1) % 2 ^ chLog2 (s.chReg p ch 0x04C) }).chans)

/-- R313, R324, R329, R330: slot commands, copy steps and the re-hash. Which program parts a pass finds wrong is an operand (log entry 192). -/
def Obligations.SlotCommands : Prop :=
  ∀ (s : State) (p : HostPort) (b : Option (Fin 80)) (bad : List Nat) (m : Manifest), Inv s → s.pageWrites .ltr (portIx p) = true →
    let i := bits (s.reg .ltr 0 0x060) 2 0
    let x := s.image i
    let w := s.regI .ltr 0 0x070 i
    let wrong := Host.Outcome.next (s.setImage i { x with result := 1 })
    exec (.openLoad p) s = (if x.st = .empty then .next (s.setImage i { st := .loading, bkpEn := bit w 31, bkpBase := if bit w 31 then bits w 27 0 * 4096 else 0 })
      else wrong) ∧
    exec (.commit p) s = (match x.st with
      | .loading => if s.complete x.manifest x.progs x.present then .next (s.setImage i { x with st := .ready, result := 0 })
          else .next (s.setImage i { x with result := 3 })
      | .staging => if s.complete x.stagedManifest x.stagedProgs x.stagedPresent then .next (s.setImage i { x with st := .staged, result := 0 })
          else .next (s.setImage i { x with result := 3 })
      | _ => wrong) ∧
    (x.st = .loading ∨ ((x.st = .ready ∨ x.st = .failed) ∧ s.streamsOf i = []) →
      exec (.unload p) s = .next ((s.setImage i { x with unloadAsked := true, result := 0 }).settleSlot i)) ∧
    (x.st = .empty ∨ x.st = .staging ∨ x.st = .staged ∨ x.st = .swapping ∨ ((x.st = .ready ∨ x.st = .failed) ∧ s.streamsOf i ≠ []) →
      exec (.unload p) s = wrong) ∧
    exec (.abandon p) s = (if x.st = .staging ∨ x.st = .staged then .next ((s.setImage i { x with abandonAsked := true, result := 0 }).settleSlot i)
      else wrong) ∧
    (let base := bits (s.regI .ltr 0 0x06C i) 27 0 * 4096
     exec (.openStage p) s = if x.st = .ready ∨ x.st = .failed then
        (if s.regionThere base 49152 = true ∧ clearOf base 49152 s.regions = true then .next (s.setImage i
          { x with st := .staging, stageBase := base, stagedManifest := none, stagedProgs := [], stagedPresent := [], result := 0 })
        else .next (s.setImage i { x with result := 2 }))
      else wrong) ∧
    (x.st ≠ .staged → exec (.swap p) s = wrong) ∧
    (x.st = .staged → s.seq.cur = none → exec (.swap p) s = .next ((s.setImage i { x with result := 0 }).startSwap i)) ∧
    (∀ t, x.st = .staged → s.seq.cur = some t → t.image ≠ i → exec (.swap p) s = .next ((s.setImage i { x with result := 0 }).startSwap i)) ∧
    (∀ t, x.st = .staged → s.seq.cur = some t → t.image = i →
      exec (.swap p) s = .next ((s.setImage i { x with result := 0 }).setImage i { x with result := 0, swapAsked := true })) ∧
    (∀ n, (∀ k, k < n → (s.image k).st ≠ .swapping) → n < 8 → (s.image n).st = .swapping → (s.image n).stagedManifest = some m → s.seq.cur = none →
      s.seq.next = none → s.stage = .ready → s.flt.exec = true → s.flt.phase = .idle → s.cool.st = .normal →
      let t : Step := { id := s.seq.stepId + 1, image := n, prog := m.nprog, copy := some (s.image n).copyNext, entries := [], prepared := true }
      let u := (List.range 80).foldl (fun s lb => s.writeInputs t lb) s
      exec .copyStep s = .next { u with seq := { u.seq with next := some t } }) ∧
    ((∀ k, k < 8 → (s.image k).st ≠ .swapping) → exec .copyStep s = .next s) ∧
    (∀ slot : ImageSlot,
      let y := s.image slot.val
      let found := (s.passOver y m b).filter (s.shardWrong m)
      let parts := if b.isSome then bad.filter (fun n => (lookup y.progs n).isSome && !y.progLost.contains n) else []
      let me := (b.map Fin.val).getD 80
      let clean := y.passClean.filter (· ≠ me) ++ [me]
      (bits (s.regI .ltr 0 0x074 slot.val) 15 0 = 0 ∨ (y.st ≠ .ready ∧ y.st ≠ .staging ∧ y.st ≠ .staged) → exec (.rehashPass b slot bad) s = .next s) ∧
      (y.st = .ready ∨ y.st = .staging ∨ y.st = .staged → bits (s.regI .ltr 0 0x074 slot.val) 15 0 ≠ 0 → y.manifest = some m →
        (found = [] → parts = [] → exec (.rehashPass b slot bad) s = .next (s.setImage slot.val
          (if (List.range 80).all clean.contains && ((s.passOver y m none).isEmpty || clean.contains 80) then { y with good := s.stamp, passClean := [] }
            else { y with passClean := clean }))) ∧
        ((found ≠ [] ∨ parts ≠ []) → ∃ g f, exec (.rehashPass b slot bad) s = .next ({ s.setImage slot.val { y with
            rehashBad := y.rehashBad.filter (fun k => !found.contains k) ++ found
            progBad := y.progBad.filter (fun n => !parts.contains n) ++ parts, passClean := [] } with regs := g, flt := f }) ∧
          ({ s with regs := g } : State).errSet .ltr 0 3 = true))) ∧
    (∀ y k, k ∈ (s.passOver y m b).filter (s.shardWrong m) ↔ k ∈ s.ownShards m ∧ k ∈ y.present ∧ ∃ z, s.shard? m k = some z ∧
      (match b with | some b => z.streamed = false ∧ z.berth = b.val | none => z.streamed = true) ∧ sha256 (s.shardBytes m z) ≠ z.digest)

/-- R323, R372, R385, R388: resets, link and readiness of a host port. -/
def Obligations.PortResets : Prop :=
  ∀ (s : State) (p : HostPort) (cause : PortResetCause) (width : BitVec 8) (speed : BitVec 4), Inv s →
    let x := s.port p
    let hit := fun c => c / 16 = portIx p ∧ (bit (s.regI .ltr (portIx p) 0x04C (c % 16)) 31 = true ∨ (s.chan c).job ≠ none)
    let stopped := fun (t : State) => (∀ c, c < 32 →
      (hit c → t.chan c = { s.chan c with stopped := true, job := none }) ∧ (¬ hit c → t.chan c = s.chan c)) ∧
      bit (t.reg .cxlp (portIx p) 0x04C) 31 = false ∧ bit (t.reg .cxlp (portIx p) 0x054) 31 = false
    let may := p = .a ∨ (s.straps.getLsbD 0 = false ∧ (s.straps.getLsbD 2 = false ∨ ∃ t, s.portA.leftAt = some t ∧ 25500000 ≤ (s.stamp - t).toNat))
    let next : LinkState := match cause with | .perst => .reset | .hotReset => .training | .linkDown => .down
    (∃ m c i, exec (.flr p) s = .next (({ s with regs := m, chans := c, images := i } : State).setPort p { x with resp := .none }) ∧
      stopped { s with regs := m, chans := c, images := i }) ∧
    (cause = .perst ∨ x.leftReset = true → ∃ m f c i, exec (.conventionalReset p cause) s =
        .next (({ s with regs := m, flt := f, chans := c, images := i } : State).setPort p { x with
          link := next, width := 0, speed := 0, downSince := if x.link = .l0 then s.stamp else x.downSince, decoder := false, locked := false, commitError := false, rangeMoved := x.taken
          cfgReady := x.cfgReady && cause != .perst, leftReset := x.leftReset && cause != .perst, resp := .none }) ∧
      stopped { s with regs := m, chans := c, images := i } ∧
      (x.link = .l0 → ({ s with regs := m } : State).errSet .cxlp (portIx p) 3 = true)) ∧
    (x.link = .reset → s.portDead p = false → s.stage ∈ [.bist, .clearing, .optical, .ready] →
      may → exec (.portLeavesReset p) s = .next (s.setPort p { x with link := .training, leftReset := true, pageReady := true, leftAt := some s.stamp })) ∧
    (x.link ≠ .reset ∨ s.portDead p = true ∨ s.stage ∉ [.bist, .clearing, .optical, .ready] ∨ ¬may →
      exec (.portLeavesReset p) s = .next s) ∧
    (x.leftReset = true → x.link ≠ .l0 → s.portDead p = false →
      exec (.linkInL0 p width speed) s = .next (s.setPort p { x with link := .l0, width := width.toNat, speed := speed.toNat })) ∧
    (x.leftReset = true → s.stage = .clearing ∨ s.stage = .optical ∨ s.stage = .ready →
      exec (.cfgReady p) s = .next (s.setPort p { x with cfgReady := true })) ∧
    (x.leftReset = false ∨ s.stage = .bist → exec (.cfgReady p) s = .next s)

/-- R370, R390: the mailbox. -/
def Obligations.Mailbox : Prop :=
  ∀ (s : State) (p : HostPort) (handles : List Nat) (config : List Byte), let x := s.port p
    let five := [Instr.getEventRecords p, .clearEventRecords p handles, .getHealthInfo p, .getAlertConfiguration p, .setAlertConfiguration p config]
    (x.link = .l0 → x.cfgReady = true →
      (∃ l, exec (.identifyMemoryDevice p) s =
        .next (({ s with draws := s.draws + 1 } : State).setPort p { x with resp := .identify (s.rangeSize p) l })) ∧
      (s.stage = .ready →
        exec (.getEventRecords p) s = .next (s.setPort p { x with resp := .events (x.events.map (fun e => (e.handle, e.dpa, e.stamp))) }) ∧
        exec (.clearEventRecords p handles) s =
          .next (s.setPort p { x with resp := .done, events := x.events.filter (fun e => e.handle ∉ handles) }) ∧
        (∃ l, exec (.getHealthInfo p) s = .next (({ s with draws := s.draws + 1 } : State).setPort p { x with resp := .health l })) ∧
        exec (.getAlertConfiguration p) s = .next (s.setPort p { x with resp := .alert x.alertCfg }) ∧
        exec (.setAlertConfiguration p config) s = .next (s.setPort p { x with resp := .done, alertCfg := config })) ∧
      (s.stage ≠ .ready → ∀ i ∈ five, exec i s = .next (s.setPort p { x with resp := .busy }))) ∧
    (x.link ≠ .l0 ∨ x.cfgReady = false → ∀ i ∈ Instr.identifyMemoryDevice p :: five, exec i s = .next s)

/-- R374, R377, R379–R383, R394: ranges and rings of a host port. -/
def Obligations.RangesAndRings : Prop :=
  ∀ (s : State) (p : HostPort) (k : RingKind) (v : Word) (size ways gran ms : Nat) (lock bad : Bool), Inv s →
    let x := s.port p
    let y := s.port (otherPort p)
    let ringOff := fun (i : Instr) => ∃ m f, exec i s = .next { s with regs := m, flt := f } ∧
      ({ s with regs := m } : State).errSet .cxlp (portIx p) 2 = true
    (x.locked = true → exec (.hdmDecoderCommit p size ways gran lock) s = .next s) ∧
    (x.locked = false → exec (.hdmDecoderCommit p size ways gran lock) s = .next (s.setPort p
      (if x.memActive = true ∧ s.rangeSize p ≠ 0 ∧ size = s.rangeSize p ∧ ways ∈ [1, 2, 4, 8] ∧ gran ∈ [256, 512, 1024, 2048, 4096, 8192, 16384]
        then { x with decoder := true, locked := lock, commitError := false } else { x with commitError := true }))) ∧
    (s.pageWrites .cxlp (portIx p) = true →
      (s.partSize p = 0 → (y.link = .reset ∨ (y.link ≠ .l0 ∧ 1 ≤ ms)) → y.takenFrom = false → ∃ m f, exec (.take p ms) s =
        .next ((({ s with regs := m, flt := f } : State).setPort p { x with taken := true, rangeMoved := false }).setPort (otherPort p)
          { y with takenFrom := true, decoder := false, locked := false }) ∧ ({ s with regs := m } : State).errSet .cxlp (portIx p) 4 = true) ∧
      (x.taken = true → x.decoder = false → ∃ m f, exec (.returnPart p) s =
        .next ((({ s with regs := m, flt := f } : State).setPort p { x with taken := false, rangeMoved := false }).setPort (otherPort p)
          { y with takenFrom := false }) ∧ ({ s with regs := m } : State).errSet .cxlp (portIx p) 4 = true) ∧
      (let off := (ringRegs k).2
       let old := s.reg .cxlp (portIx p) off
       let w := v &&& ringMask k
       let x1 := if bits w 20 16 ≠ bits old 20 16 ∧ ¬(bit w 31 = true ∧ bit old 31 = true) then markFresh x k else x
       (bit w 31 = true → bit old 31 = false → s.ringFits p k w = true →
         exec (.ringEnable p k v) s = .next ((s.setReg .cxlp (portIx p) off w).setPort p (startRing x1 k))) ∧
       (bit w 31 = true → bit old 31 = false → s.ringFits p k w = false → ∃ m f,
         exec (.ringEnable p k v) s = .next (({ s with regs := m, flt := f } : State).setPort p x1) ∧
         ({ s with regs := m } : State).errSet .cxlp (portIx p) 2 = true ∧ ({ s with regs := m } : State).reg .cxlp (portIx p) off = putBits w 31 31 0) ∧
       (bit w 31 = false ∨ bit old 31 = true → exec (.ringEnable p k v) s = .next ((s.setReg .cxlp (portIx p) off w).setPort p x1)))) ∧
    (bit (s.reg .cxlp (portIx p) 0x04C) 31 = true → x.pend.length ≤ 1024 →
      let a := s.ringDpa p .request x.rqNext
      let r := (List.range 16).map (fun i => Memory.word s.hbm (a + 4 * i))
      let t := ({ s with hbm := Memory.setWord s.hbm a (putBits (r.getD 0 0) 31 31 0) } : State)
      (bad = true ∨ s.dpaRetired a 64 = true → ringOff (.requestRingPoll p bad)) ∧
      (bad = false → s.dpaRetired a 64 = false → exec (.requestRingPoll p bad) s =
        if bit (r.getD 0 0) 31 = false then .next s
        else if reqWellFormed r then .next (t.setPort p { x with rqNext := ringAdvance (s.reg .cxlp (portIx p) 0x04C) x.rqNext, requests := x.requests ++ [r] })
        else .next (t.setPort p { x with rqNext := ringAdvance (s.reg .cxlp (portIx p) 0x04C) x.rqNext, pend := x.pend ++
          [{ stream := reqStream r, status := 0x10, last := true, position := 0, token := 0xFFFFFFFF, accepted := 0, stamp := s.stamp, step := 0 }] }))) ∧
    (∀ r rest, x.pend = r :: rest →
      let w := s.reg .cxlp (portIx p) 0x054
      let a := s.ringDpa p .output x.outNext
      let n := x.unsignalled + 1
      let due := max 1 (bits w 7 0) ≤ n
      bit w 31 = true →
      (s.dpaRetired a 32 = true → ringOff (.outputRecordWrite p)) ∧
      (s.dpaRetired a 32 = false → bit (Memory.word s.hbm a) 31 = false → exec (.outputRecordWrite p) s = .next s) ∧
      (s.dpaRetired a 32 = false → bit (Memory.word s.hbm a) 31 = true → ∃ i, exec (.outputRecordWrite p) s =
        .next (({ s with hbm := Memory.write s.hbm a (outBytes r), msix := i } : State).setPort p
          { x with pend := rest, outNext := ringAdvance w x.outNext, unsignalled := if due then 0 else n }) ∧
        i = if due then (s.msi (s.msiPort p) 1).msix else s.msix)) ∧
    (x.unsignalled ≠ 0 → exec (.outputIrqTimer p) s = .next ((s.setPort p { x with unsignalled := 0 }).msi (s.msiPort p) 1)) ∧
    (x.unsignalled = 0 → exec (.outputIrqTimer p) s = .next s)

/-- R235, R236, R241, R243: the requests of streams. -/
def Obligations.StreamRequests : Prop :=
  ∀ (s : State) (p : HostPort) (r : RequestRec) (rest : List RequestRec) (bad : Bool),
    let u := s.setPort p { s.port p with requests := rest }
    let i := reqStream r
    let x := s.stream i
    let img := bits (reqWord r 1) 2 0
    let n := bits (reqWord r 1) 23 0
    let own := x.state ≠ .free ∧ x.port = portIx p
    let refused := Host.Outcome.next (u.setPort p { s.port p with requests := rest, pend := (s.port p).pend ++
      [{ stream := i, status := 0x10, last := true, position := 0, token := 0xFFFFFFFF, accepted := 0, stamp := s.stamp, step := 0 }] })
    let all := [(1, Instr.openStream p), (2, .append p bad), (3, .truncate p), (4, .close p), (5, .attachKv p), (6, .resume p), (7, .ship p)]
    ((s.seq.cur ≠ none ∨ s.pickRequest [] (s.port p).requests = none) → ∀ c ∈ all, exec c.2 s = .next s) ∧
    (s.seq.cur = none → s.pickRequest [] (s.port p).requests = some (r, rest) →
      (∀ c ∈ all, reqOp r ≠ c.1 → exec c.2 s = .next s) ∧
      (reqOp r = 1 →
        (x.state = .free → s.serves img = true → exec (.openStream p) s =
          .next ((u.resetConfig i).setStream i { state := .active, image := img, port := portIx p, readySince := s.stamp.toNat })) ∧
        (x.state ≠ .free ∨ s.serves img = false → exec (.openStream p) s = refused)) ∧
      (own → s.targetOf i = none →
        (reqOp r = 2 → ∀ l, s.reqTokens p r bad = some l →
          (∀ m, (s.image x.image).manifest = some m → (∀ t ∈ l, t.toNat < m.vocab) →
            (x.queue.length + l.length ≤ 1024 → exec (.append p bad) s =
              .next (u.putStream i { x with queue := x.queue ++ l, gen := if reqSetGen r then reqGen r else x.gen })) ∧
            (1024 < x.queue.length + l.length → exec (.append p bad) s = .next (u.status (portIx p) i 0x11 0))) ∧
          (∀ m, (s.image x.image).manifest = some m → (∃ t ∈ l, m.vocab ≤ t.toNat) → exec (.append p bad) s = refused)) ∧
        (reqOp r = 2 → s.reqTokens p r bad = none →
          (s.partSize p < reqListAt r + 4 * reqCount r → exec (.append p bad) s = refused) ∧
          (reqListAt r + 4 * reqCount r ≤ s.partSize p → exec (.append p bad) s = .next ((u.logRefused p (s.partBase p + reqListAt r)).badReq p r))) ∧
        (reqOp r = 3 → (x.state = .active ∨ x.state = .held) → n ≤ x.kvlen →
          let t := u.rollback i n
          exec (.truncate p) s = .next ((t.setStream i { t.stream i with queue := [], carry := false, drafts := [] }).resync i)) ∧
        (reqOp r = 3 → ((x.state ≠ .active ∧ x.state ≠ .held) ∨ x.kvlen < n) → exec (.truncate p) s = refused) ∧
        (reqOp r = 5 → x.state = .active → x.kvlen = 0 → x.queue = [] → (s.kvShape x.image).modules ≤ 8 →
          exec (.attachKv p) s = match u.reserve i 0 n with
            | none => .next (u.status (portIx p) i 0x21 0)
            | some t =>
              let v := t.setStream i { t.stream i with
                state := .shipping
                shipIn := some { source := bits (reqWord r 2) 15 0, length := n, left := t.shipPages i n, total := t.shipPages i n, accepted := [] } }
              .next (if t.shipPages i n = 0 then v.shipDone i n else v)) ∧
        (reqOp r = 5 → (x.state ≠ .active ∨ x.kvlen ≠ 0 ∨ x.queue ≠ [] ∨ 8 < (s.kvShape x.image).modules) → exec (.attachKv p) s = refused) ∧
        (reqOp r = 6 → (x.state = .held ∧ 0 ∈ x.holds → exec (.resume p) s = .next (u.lift i 0)) ∧
          (x.state ≠ .held ∨ 0 ∉ x.holds → exec (.resume p) s = refused)) ∧
        (reqOp r = 7 → (x.state = .active ∨ x.state = .held) → x.shipOut = none → 1 ≤ n → n ≤ x.kvlen → exec (.ship p) s =
          .next (u.setStream i { x with shipOut := some { dest := bits (reqWord r 2) 15 0, dstream := bits (reqWord r 2) 23 16, length := n
                                                          total := u.shipPages i n, next := 0, unacked := [], left := u.shipPages i n, retries := 0 } })) ∧
        (reqOp r = 7 → ((x.state ≠ .active ∧ x.state ≠ .held) ∨ x.shipOut ≠ none ∨ n = 0 ∨ x.kvlen < n) → exec (.ship p) s = refused)) ∧
      (reqOp r = 4 → own → exec (.close p) s = .next ((u.status (portIx p) i 0x13 0).freeStream i)) ∧
      ((¬own ∨ s.targetOf i ≠ none) → (reqOp r = 2 → exec (.append p bad) s = refused) ∧ (reqOp r = 3 → exec (.truncate p) s = refused) ∧
        (reqOp r = 5 → exec (.attachKv p) s = refused) ∧ (reqOp r = 6 → exec (.resume p) s = refused) ∧ (reqOp r = 7 → exec (.ship p) s = refused)) ∧
      (¬own → reqOp r = 4 → exec (.close p) s = refused))

/-- R240–R245: shipments of KV pages. What a page homed on another module reads as is log entry 185. -/
def Obligations.Shipments : Prop :=
  ∀ (s : State) (st : StreamId) (seqn : BitVec 24) (record : List Byte) (b : Nat), Inv s →
    let i := st.val
    let x := s.stream i
    let n := seqn.toNat
    let ends := fun (t : State) (y : Stream) (code : Nat) => Host.Outcome.next ((t.putStream i { y with shipOut := none }).status y.port i code 0)
    (x.shipOut = none → exec (.shipmentRecordSend st) s = .next s ∧ exec (.shipmentAcknowledgement st seqn false) s = .next s ∧
      exec (.shipRetry st) s = .next s ∧ exec (.shipAckTimeout st) s = .next s) ∧
    (∀ o, x.shipOut = some o →
      exec (.shipmentRecordSend st) s = (if o.total ≤ o.next ∨ 16 ≤ o.unacked.length then .next s
        else .next ((s.sendShipped i o o.next).setStream i { x with shipOut := some { o with next := o.next + 1, unacked := o.unacked ++ [o.next] } })) ∧
      (n ∉ o.unacked → ∀ q, exec (.shipmentAcknowledgement st seqn q) s = .next s) ∧
      (n ∈ o.unacked →
        exec (.shipmentAcknowledgement st seqn true) s = (if n = 0 then .next (s.setStream i { x with shipOut := some { o with refused := true } }) else ends s x 0x21) ∧
        (let y := { x with shipOut := some { o with refused := o.refused && n != 0, unacked := o.unacked.filter (· ≠ n), left := o.left - 1 } }
         exec (.shipmentAcknowledgement st seqn false) s = if o.left ≤ 1 then ends (s.setStream i y) y 0x14 else .next (s.setStream i y))) ∧
      (o.refused = false → exec (.shipRetry st) s = .next s) ∧
      (o.refused = true → exec (.shipRetry st) s = (if 100 ≤ o.retries then ends s x 0x21
        else .next ((s.sendShipped i o 0).setStream i { x with shipOut := some { o with retries := o.retries + 1, refused := false } }))) ∧
      (o.unacked ≠ [] → exec (.shipAckTimeout st) s = ends s x 0x21) ∧ (o.unacked = [] → exec (.shipAckTimeout st) s = .next s)) ∧
    (x.state = .shipping → exec (.shipPageTimeout st) s = .next (s.shipFails i)) ∧
    (x.state ≠ .shipping → exec (.shipPageTimeout st) s = .next s) ∧
    (let w := recWord record
     let y := s.stream (bits (w 0) 7 0)
     let k := s.kvShape y.image
     let l := bits (w 2) 7 0
     let h := bits (w 2) 11 8
     let j := bits (w 2) 24 12
     let dlb := if k.heads = 0 then 0 else shipBerth k h j
     let src := bits (w 0) 31 16
     let sq := bits (w 1) 23 0
     (s.physOf dlb = some b → k.heads ≠ 0 → 1 < k.modules → (pageHome k.heads k.modules h j).1 ≠ s.moduleIndex →
       exec (.kvShipmentRecord record) s = .next (s.sendPieces b (pageHome k.heads k.modules h j).1 sq (pageHome k.heads k.modules h j).2 record)) ∧
     (s.physOf dlb = some b → k.heads = 0 ∨ k.modules ≤ 1 ∨ (pageHome k.heads k.modules h j).1 = s.moduleIndex →
     (y.shipIn = none ∨ y.state ≠ .shipping → exec (.kvShipmentRecord record) s = .next (s.ackShipment b src sq dlb true)) ∧
     (∀ m q, y.shipIn = some q → y.state = .shipping → q.source = src → (s.image y.image).manifest = some m →
       (crc32c (record.take 60 ++ record.drop 64) ≠ w 15 ∨ m.modelId.toNat ≠ leNat ((record.drop 16).take 8) ∨ m.kvlayout ≠ (record.drop 24).take 32 ∨
           q.total ≠ bits (w 3) 25 0 ∨ s.homeHere k h j = none ∨ k.layers ≤ l ∨ k.heads ≤ h →
         exec (.kvShipmentRecord record) s = .next ((s.shipFails (bits (w 0) 7 0)).ackShipment b src sq dlb true)) ∧
       (∀ lb c, m.modelId.toNat = leNat ((record.drop 16).take 8) → m.kvlayout = (record.drop 24).take 32 → q.total = bits (w 3) 25 0 →
         crc32c (record.take 60 ++ record.drop 64) = w 15 → s.homeHere k h j = some lb → l < k.layers → h < k.heads →
         s.column k lb (bits (w 0) 7 0) h j = some c →
         exec (.kvShipmentRecord record) s = if sq ∈ q.accepted then .next (s.ackShipment b src sq dlb false)
           else
             let t := ((s.landPage k (bits (w 0) 7 0) lb c l h j q.length (bit (w 14) 20) (record.drop 64)).setStream (bits (w 0) 7 0)
               { y with shipIn := some { q with left := q.left - 1, accepted := q.accepted ++ [sq] } }).ackShipment b src sq dlb false
             .next (if q.left ≤ 1 then t.shipDone (bits (w 0) 7 0) q.length else t)))))

/-- R272–R284: what the KV pagers do; the place of a copy is free (log entry 25). -/
def Obligations.PagerCommands : Prop :=
  ∀ (s : State) (k : Stack) (tb e : EccOutcome) (unit : Nat), Inv s →
    let x := s.stack k.val
    let v := s.tableRead k.val tb
    ((tb = .clean → v = s) ∧ (tb = .corrected → v = s.raise .kvpg k.val 0) ∧ (tb = .uncorrectable → v = s.raise .kvpg k.val 1)) ∧
    (x.inserts = [] → exec (.prefixInsertResume k tb) s = .next s) ∧
    (x.inserts ≠ [] → tb = .uncorrectable → exec (.prefixInsertResume k tb) s = .next v) ∧
    (∀ st rest, x.inserts = st :: rest → tb ≠ .uncorrectable →
      let r := (v.setStack k.val { x with inserts := [] }).insertBlock st
      let t := r.1.setStack k.val { r.1.stack k.val with inserts := rest }
      let i := ((t.stream st).chain.getD []).length
      exec (.prefixInsertResume k tb) s = .next (match r.2 with
        | .waits => v
        | .stop => t
        | .done => if (t.stream st).kvlen < 64 * (i + 1) then t
          else if t.blockPager st i = k.val then t.setStack k.val { t.stack k.val with inserts := st :: rest } else t.insertBlocks st 16384)) ∧
    (s.poolLow k.val = false ∨ (∀ n ∈ s.nodes, s.children n.dpa ≠ 0) → exec (.nodeRemoval k tb) s = .next s) ∧
    (s.poolLow k.val = true → (∃ n ∈ s.nodes, s.children n.dpa = 0) → ∃ n ∈ s.nodes, s.children n.dpa = 0 ∧
      (∀ m ∈ s.nodes, s.children m.dpa = 0 → s.nodeWord n.dpa 0x18 ≤ s.nodeWord m.dpa 0x18) ∧
      exec (.nodeRemoval k tb) s = .next (if tb = .uncorrectable then v else v.removeNode n)) ∧
    (s.seq.cur ≠ none ∨ s.dueSwitch k.val = none → exec (.locChange k tb) s = .next s) ∧
    (s.seq.cur = none → s.dueSwitch k.val ≠ none → tb = .uncorrectable → exec (.locChange k tb) s = .next v) ∧
    (∀ d, s.seq.cur = none → s.dueSwitch k.val = some d → tb ≠ .uncorrectable →
      let lb := d.1 / 2 ^ 26
      let line := d.1 % 2 ^ 26
      let y := v.stack k.val
      let w := v.loc lb line
      let t := v.setStack k.val { y with demotions := y.demotions.filter (fun f => f.1 ≠ d.1), switches := y.switches + 1 }
      let freed := t.freeFrame lb (t.frameOf lb (bits w 25 0))
      let gone := freed.setIxWord lb line 0x44 (putBits (putBits w 27 26 2) 29 29 0)
      (d.2 = 0 → exec (.locChange k tb) s = .next ((if bit w 29 then gone.dropCopy (gone.copyDpa lb line) else gone).count .kvpg k.val 0x074 1)) ∧
      (d.2 = 2 → exec (.locChange k tb) s = .next ((freed.setIxWord lb line 0x44 (putBits w 27 26 1 ||| flag true 29)).count .kvpg k.val 0x070 1)) ∧
      (d.2 ≠ 0 → d.2 ≠ 2 → exec (.locChange k tb) s =
        .next (t.setIxWord lb line 0x44 (putBits (putBits w 27 26 0) 25 0 (t.frameLine lb (d.2 / 8)))))) ∧
    (x.demotions.find? (fun d => d.2 = 1 || d.2 = 3) = none → exec (.demotionCopyDone k e) s = .next s) ∧
    (∀ d b, x.demotions.find? (fun d => d.2 = 1 || d.2 = 3) = some d → s.physOf (d.1 / 2 ^ 26) = some b →
      let lb := d.1 / 2 ^ 26
      let line := d.1 % 2 ^ 26
      let a := s.copyDpa lb line
      let out := fun (s : State) => match s.place 64 33792 (Config.copyPlace s.draws) with
        | none => s
        | some a => ((({ s with draws := s.draws + 1, hbm := Memory.write s.hbm a (s.pageBytes lb line), copies := s.copies ++ [a] } : State).lbWrite lb
            (line * 128 + 0x48) (leBytes a 8)).nextSwitch lb line 2)
      let back := fun (s : State) => match s.takeFrame lb 1 with
        | none => s
        | some f => (f.1.lbWrite lb (f.1.frameLine lb f.2 * 128) (f.1.pageBytes lb line)).nextSwitch lb line (4 + 8 * f.2)
      (e = .clean → d.2 = 1 → exec (.demotionCopyDone k e) s = .next (out s)) ∧
      (e = .corrected → d.2 = 1 → exec (.demotionCopyDone k e) s = .next (out (s.lineCorrected b (bits (s.loc lb line) 25 0)))) ∧
      (e = .uncorrectable → d.2 = 1 → exec (.demotionCopyDone k e) s = .next ((s.lineLost b (bits (s.loc lb line) 25 0)).raise .stor b 1)) ∧
      (e = .clean → d.2 = 3 → exec (.demotionCopyDone k e) s = .next (back s)) ∧
      (e = .corrected → d.2 = 3 → exec (.demotionCopyDone k e) s = .next (back (s.correctUnit (dpaStack a)))) ∧
      (e = .uncorrectable → d.2 = 3 → exec (.demotionCopyDone k e) s =
        .next ((s.tierLost (dpaStack a) (dpaOffset a)).raise .hbmc (dpaStack a) 1))) ∧
    (x.pager = [] → exec (.readPage k tb e unit) s = .next s) ∧
    (∀ id rest p, x.pager = id :: rest → s.served? id = some p → tb = .uncorrectable →
      exec (.readPage k tb e unit) s = .next (((s.setStack k.val { x with pager := rest }).raise .kvpg k.val 1).respond p [])) ∧
    (∀ id rest p lb c, x.pager = id :: rest → s.served? id = some p → tb = .clean →
      let t := s.setStack k.val { x with pager := rest }
      let a := p.h.addr.toNat
      let n := p.h.len.toNat
      let st := a / 2 ^ 4 % 256
      let h := a / 2 ^ 12 % 16
      let l := a / 2 ^ 16 % 256
      let j := a / 2 ^ 24 % 2 ^ 13
      let off := a / 2 ^ 37 % 2 ^ 10 * 64
      let sh := t.kvShape (t.stream st).image
      let line := bits (t.loc lb (c + l)) 25 0
      let d := t.copyDpa lb (c + l) + off
      let u := d + unit % n / 64 * 64
      let answer := fun (o : State) => exec (.readPage k tb e unit) s = .next o
      (¬ (a % 16 = 1 ∧ h < sh.heads ∧ l < sh.layers) → answer ((t.raise .kvpg k.val 2).respond p [])) ∧
      (a % 16 = 1 → h < sh.heads → l < sh.layers → t.homeHere sh h j = some lb → t.column sh lb st h j = some c →
        (t.locTier lb (c + l) = 0 → e = .clean → answer (t.respond p (t.lbRead lb (line * 128 + off) n))) ∧
        (∀ b, t.locTier lb (c + l) = 0 → e = .corrected → t.physOf lb = some b →
          answer ((t.lineCorrected b (line + off / 128)).respond p (t.lbRead lb (line * 128 + off) n))) ∧
        (∀ b, t.locTier lb (c + l) = 0 → e = .uncorrectable → t.physOf lb = some b →
          answer (((t.lineLost b (line + (off + unit % n) / 128)).raise .stor b 1).respond p [])) ∧
        (t.locTier lb (c + l) = 1 → t.hostLimit ≤ d → t.dpaRetired d n = false → e = .clean → answer (t.respond p (Memory.read s.hbm d n))) ∧
        (t.locTier lb (c + l) = 1 → t.hostLimit ≤ d → t.dpaRetired d n = false → e = .corrected →
          answer ((t.correctUnit (dpaStack d)).respond p (Memory.read s.hbm d n))) ∧
        (t.locTier lb (c + l) = 1 → t.hostLimit ≤ d → t.dpaRetired d n = false → e = .uncorrectable →
          answer (((t.tierLost (dpaStack u) (dpaOffset u)).raise .hbmc (dpaStack u) 1).respond p [])) ∧
        (2 ≤ t.locTier lb (c + l) → answer ((t.raise .kvpg k.val 2).respond p []))))

/-- R293–R296, R302–R307, R529: grammar slots and the selected stream's registers. -/
def Obligations.SamplerRegisters : Prop :=
  ∀ (s : State) (b : Berth) (v : Word) (slot : Fin 16), Inv s →
    let w := Host.Outcome.next s
    (s.pageWrites .smpl b.val = false → exec (.grammarBind b v) s = w ∧ exec (.sgstateReset b v) s = w ∧ exec (.spcntClear b v) s = w ∧
      exec (.penEnWrite b v) s = w) ∧
    (s.pageWrites .smpl b.val = true →
      let i := bits (s.reg .smpl 0 0x040) 7 0
      let x := s.stream i
      let g := bits (s.reg .smpl 0 0x070) 3 0
      (∃ t, exec (.grammarBind b v) s = .next t ∧ t.regI .smpl 0 0x074 g = field (bits v 27 0) 0 ∧
        t.grammarChecks = s.grammarChecks.filter (· ≠ g) ++ (if bits v 27 0 = 0 then [] else [g]) ∧
        (∀ j ∈ s.liveStreams, (s.stream j).state ≠ .free → t.stream j = if bits (s.stream j).scfg 11 8 = g then { s.stream j with grammar := 0 } else s.stream j)) ∧
      exec (.sgstateReset b v) s = .next (if bit v 31 then s.setStream i { x with gramReset := true } else s) ∧
      exec (.spcntClear b v) s = .next (if bit v 31 then s.setStream i { x with clearCounts := true } else s) ∧
      (let slot := bits v 11 8
       let mask := bit v 7 && (bit (s.regI .smpl 0 0x074 slot) 31 || decide (slot ∈ s.grammarChecks))
       let pen := bit v 6 && (x.penSince || decide ((s.streams.filter (fun e => e.2.penSince)).length < 32))
       exec (.penEnWrite b v) s = .next ((s.setRegI .smpl 0 0x044 i (field slot 8 ||| flag mask 7 ||| flag pen 6 ||| field (bits v 5 0) 0)).setStream i
         { x with penSince := pen }))) ∧
    (slot.val ∉ s.grammarChecks → ∀ bad corr, exec (.grammarCheckDone slot bad corr) s = w) ∧
    (∀ corr : List Berth, slot.val ∈ s.grammarChecks →
      let a := bits (s.regI .smpl 0 0x074 slot.val) 27 0 * 4096
      (s.gramOk a = true → ∃ t, exec (.grammarCheckDone slot false corr) s = .next t ∧
        t.grammarChecks = s.grammarChecks.filter (· ≠ slot.val) ∧ t.regI .smpl 0 0x074 slot.val = s.regI .smpl 0 0x074 slot.val ||| flag true 31 ∧
        ∀ j ∈ s.liveStreams, (s.stream j).state ≠ .free → t.stream j =
          if bits (s.stream j).scfg 11 8 = slot.val then { s.stream j with grammar := (s.gram a).start } else s.stream j) ∧
      (∀ bad, bad = true ∨ s.gramOk a = false → ∃ m f, exec (.grammarCheckDone slot bad corr) s =
        .next { s with grammarChecks := s.grammarChecks.filter (· ≠ slot.val), regs := m, flt := f } ∧
        (∀ d, d < 84 → s.dark d = false → ({ s with regs := m } : State).errSet .smpl d 2 = true) ∧
        ∀ d ∈ corr, s.dark d.val = false → ({ s with regs := m } : State).errSet .smpl d.val 0 = true))

/-- R226–R233, R283, R303, R330: the phases of a step but for its run. -/
def Obligations.StepPhases : Prop :=
  ∀ s : State, Inv s → ∀ tables : List (Stack × EccOutcome),
    (s.chooses = false → exec (.choosePhase tables) s = .next s) ∧
    (s.chooses = true → (∃ e ∈ tables, e.2 = .uncorrectable) → ∃ m f, exec (.choosePhase tables) s = .next { s with regs := m, flt := f } ∧
      ∀ e ∈ tables, e.2 = .uncorrectable → ({ s with regs := m } : State).errSet .kvpg e.1.val 1 = true) ∧
    (s.chooses = true → (∀ e ∈ tables, e.2 ≠ .uncorrectable) → ∃ t, exec (.choosePhase tables) s = .next t ∧ t.seq.running = s.seq.running ∧
      t.seq.stepId = s.seq.stepId ∧ t.coresMode = s.coresMode ∧ match t.seq.next with
      | none => True
      | some u => u.id = s.seq.stepId + 1 ∧ u.prepared = false ∧ u.copy = none ∧ 1 ≤ u.entries.length ∧ u.entries.length ≤ 64 ∧
          ∀ e ∈ u.entries, e.nin ≤ 64 ∧ e.ndraft ≤ 8 ∧ e.tokens.length = e.nin + e.ndraft) ∧
    (∀ bad rec tab corr : List (Fin 80), s.seq.next = none → exec (.preparePhase bad rec tab corr) s = .next s) ∧
    (∀ (bad rec tab corr : List (Fin 80)) (t : Step), s.seq.next = some t →
      (t.prepared = true ∨ s.flt.phase ≠ .idle → exec (.preparePhase bad rec tab corr) s = .next s) ∧
      (t.prepared = false → s.flt.phase = .idle → bad ≠ [] ∨ rec ≠ [] ∨ tab ≠ [] →
        ∃ m f, exec (.preparePhase bad rec tab corr) s = .next { s with regs := m, flt := f } ∧
          (bad ≠ [] → ({ s with regs := m } : State).errSet .schd 0 1 = true) ∧
          (∀ b ∈ rec, ∀ p, s.physOf b.val = some p → ({ s with regs := m } : State).errSet .smpl p 5 = true) ∧
          ∀ b ∈ tab, ∀ p, s.physOf b.val = some p → ({ s with regs := m } : State).errSet .smpl p 1 = true) ∧
      (t.prepared = false → s.flt.phase = .idle → ∃ m f ss bs,
        exec (.preparePhase [] [] [] corr) s = .next { s with
          regs := m, flt := f, streams := ss, berths := bs, seq := { s.seq with next := some { t with prepared := true, entries := t.entries.map s.withRecord } } } ∧
        (∀ b ∈ corr, ∀ p, s.physOf b.val = some p → ({ s with regs := m } : State).errSet .smpl p 0 = true) ∧
        (corr = [] → m = s.regs ∧ f = s.flt) ∧
        (∀ b, let x := ({ s with berths := bs } : State).berth b
          x = { s.berth b with store := x.store, entries := x.entries, activations := x.activations }) ∧
        ∀ i, (∀ e ∈ t.entries, e.stream ≠ i) → ({ s with streams := ss } : State).stream i = s.stream i)) ∧
    ∀ logits : List (List (List Word)),
      (s.seq.cur = none ∨ s.seq.finished = false ∨ s.flt.phase ≠ .idle ∨ s.flt.msgs ≠ [] → exec (.stepCommit logits tables) s = .next s) ∧
      (s.seq.cur ≠ none → s.seq.finished = true → s.flt.phase = .idle → s.flt.msgs = [] → (∃ e ∈ tables, e.2 = .uncorrectable) →
        ∃ m f, exec (.stepCommit logits tables) s = .next { s with regs := m, flt := f } ∧
          ∀ e ∈ tables, e.2 = .uncorrectable → ({ s with regs := m } : State).errSet .kvpg e.1.val 1 = true) ∧
      (∀ t, s.seq.cur = some t → s.seq.finished = true → s.flt.phase = .idle → s.flt.msgs = [] → s.cool.st ≠ .orderly →
        (∀ e ∈ tables, e.2 ≠ .uncorrectable) →
        (∀ layer m, t.copy = some layer → (s.image t.image).stagedManifest = some m → layer + 1 < m.layers.length → ∃ m f,
          exec (.stepCommit logits tables) s = .next (({ s with
            regs := m, seq := { s.seq with cur := none, finished := false }, coresMode := .idle, flt := { f with aborted := false } } : State).setImage
              t.image { s.image t.image with copyNext := layer + 1, copyTurn := true }) ∧ (tables = [] → m = s.regs ∧ f = s.flt)) ∧
        (t.copy = none → ∃ u, exec (.stepCommit logits tables) s = .next u ∧ u.seq.cur = none ∧ u.seq.finished = false ∧
          u.seq.replay = s.seq.replay ∧ u.coresMode = .idle))

/-- R344–R346, R354, R362–R364: the states of an optical port. -/
def Obligations.OpticalPorts : Prop :=
  ∀ (s : State) (z : Berth), Inv s →
    let x := s.zport z.val
    let w := s.reg .zlnk z.val 0x04C
    let said := fun r : Option Nat => CtlMsg.ident {
      addr := BitVec.ofNat 15 (s.address.getD 0), role := BitVec.ofNat 4 x.role, index := BitVec.ofNat 3 x.index
      tenant := (s.reg .zlnk 0 0x084).setWidth 16, retired := r.map (Fin.ofNat 8) }
    exec (.trainingBurst z) s = .next s ∧ exec (.laneRecalibration z) s = .next s ∧ (∀ l, exec (.linkRecalibration l) s = .next s) ∧
    exec .telemetrySample s = .next s ∧
    (∀ v : Fin 14, if s.stage ≠ .optical ∧ s.stage ≠ .ready then exec (.admissionWave v) s = .next s
      else ∃ zs, exec (.admissionWave v) s = .next { s with zports := zs } ∧ ∀ y, y < 84 →
        ({ s with zports := zs } : State).zport y =
          if (s.zport y).st = .listen ∧ (s.zport y).role ≠ 15 ∧ roleWave (s.zport y).role = v.val ∧ s.dark y = false then { s.zport y with st := .train } else s.zport y) ∧
    (if x.st = .train ∧ s.dark z.val = false then
        let r := if bit w 3 then some (bits w 2 0) else none
        ∃ zs, exec (.laneLock z) s = .next { s with zports := zs, portOut := s.portOut ++ [(z.val, said r)] } ∧
          ({ s with zports := zs } : State).zport z.val = { x with st := .check, retired := r, unacked := 1, waiting := [] }
      else exec (.laneLock z) s = .next s) ∧
    (if x.st = .miscabled then ∃ zs, exec (.checkRetry z) s = .next { s with zports := zs, portOut := s.portOut ++ [(z.val, said x.retired)] } ∧
        ({ s with zports := zs } : State).zport z.val = { x with st := .check, unacked := 1, waiting := [] }
      else exec (.checkRetry z) s = .next s) ∧
    (∀ (p : PartnerIdent) (d : BitVec 16),
      (x.st ≠ .check ∨ s.dark z.val = true → exec (.ident z p d) s = .next s) ∧
      (x.st = .check → s.dark z.val = false → ∃ m f zs, exec (.ident z p d) s = .next { s with regs := m, flt := f, zports := zs } ∧
        ({ s with regs := m } : State).reg .zlnk z.val 0x050 = field d.toNat 0 ∧
        if s.partnerOk z.val p = true then f = s.flt ∧ ({ s with zports := zs } : State).zport z.val =
          { x with st := .up, partner := some p, base := 0, unacked := 0, rseq := 0, waiting := [], flitFails := 0, held := [], credits := [(0, 3), (1, 3), (2, 3), (3, 3)] }
        else ({ s with regs := m } : State).errSet .zlnk z.val 4 = true ∧
          ({ s with zports := zs } : State).zport z.val = { x with st := .miscabled, partner := some p })) ∧
    ((x.st ≠ .up → exec (.lossOfSignal z) s = .next s) ∧
      (x.st = .up → ∃ t, exec (.lossOfSignal z) s = .next t ∧ (t.zport z.val).st = .train ∧ (t.zport z.val).partner = none ∧ (t.zport z.val).credits = []) ∧
      (x.st = .up → (∀ p ∈ s.packets, leavesBy z.val p = false) → s.scheduledOver z.val = false → ∃ m f zs, exec (.lossOfSignal z) s = .next { s with regs := m, flt := f, zports := zs } ∧
        ({ s with regs := m } : State).errSet .zlnk z.val 2 = true ∧
        ∃ r, ({ s with zports := zs } : State).zport z.val =
            { x with st := .train, partner := none, base := 0, unacked := 0, rseq := 0, waiting := [], flitFails := 0, held := [], credits := [], remap := r } ∧
          ∀ y, r = some y → y ≠ z.val ∧ s.portOpen y = true ∧ (s.zport y).role = x.role)) ∧
    (if portLive s z.val = false then exec (.goingDown z) s = .next s
      else if s.fenced z.val = true then ∃ m f, exec (.goingDown z) s = .next { s.received z.val 1 with regs := m, flt := f } ∧
          ({ s with regs := m } : State).errSet .zlnk z.val 5 = true
      else exec (.goingDown z) s = exec (.lossOfSignal z) (s.received z.val 1)) ∧
    (if portLive s z.val = false then exec (.berHigh z) s = .next s
      else ∃ m f, exec (.berHigh z) s = .next { s with regs := m, flt := f } ∧ ({ s with regs := m } : State).errSet .zlnk z.val 8 = true) ∧
    (s.forwarding = false → exec .forwardWindowEnd s = .next s) ∧
    (s.forwarding = true → ∃ t, exec .forwardWindowEnd s = .next t ∧ t.forwarding = false ∧
      ((∀ p ∈ s.packets, p.h.dst.toNat ≠ dstOptical) → t = { s with forwarding := false }))

/-- R337–R339, R354–R361: what a port receives and sends; ACK for what arrives is log entry 112, GO, POINT and LATE log entry 198. -/
def Obligations.OpticalTraffic : Prop :=
  ∀ (s : State) (z : Berth), Inv s →
    let x := s.zport z.val
    let g := s.gen
    let y := s.received z.val 1
    let live := portLive s z.val
    let only := fun (c : Instr) (v : GenSt) => ∃ zs po, exec c s = .next { s with gen := v, zports := zs, portOut := po }
    let refused := fun (c : Instr) (n : Nat) => (live = false → exec c s = .next s) ∧
      (live = true → s.fenced z.val = true → ∃ m f, exec c s = .next { s.received z.val n with regs := m, flt := f } ∧
        ({ s with regs := m } : State).errSet .zlnk z.val 5 = true)
    (live = true → x.unacked < 4095 → x.waiting = [] → ∀ n, ∃ zs,
      s.received z.val n = { s with zports := zs, portOut := s.portOut ++ [(z.val, .ack (((x.rseq + n) % 4096 + 4095) % 4096))] } ∧
      ({ s with zports := zs } : State).zport z.val = { x with rseq := (x.rseq + n) % 4096, flitFails := 0, unacked := x.unacked + 1 }) ∧
    (∀ c : Instr, (∃ r gn n, c = .credit z r gn n) ∨ (∃ m, c = .chamois z m) ∨ (∃ v, c = .flip z v) ∨ (∃ v n a, c = .drain z v n a) ∨
      (∃ v, c = .bankRelease z v) → refused c 1) ∧
    (∀ h d, refused (.zhozaPacketForward (.received z h d)) (8 * ceilDiv (24 + d.length) 512)) ∧
    (∀ (word : List (BitVec 10)) (frame : List Byte),
      let w := word.map BitVec.toNat
      let t := match rsDecode w with
        | none => s.countSat .zlnk z.val 0x054 7 0
        | some v => if v = w then s else (s.countSat .zlnk z.val 0x054 31 8).raise .zlnk z.val 0
      let stands := rsDecode w ≠ none ∧ (frameGood frame = true ∨ frameClass frame = 2)
      (live = false → exec (.flitReplay z word frame) s = .next s) ∧
      (live = true → stands → exec (.flitReplay z word frame) s = .next t) ∧
      (live = true → ¬ stands → x.flitFails < 4 → exec (.flitReplay z word frame) s =
        .next (((t.setZport z.val { x with flitFails := x.flitFails + 1 }).countSat .zlnk z.val 0x058 15 0).raise .zlnk z.val 1)) ∧
      (live = true → ¬ stands → 4 ≤ x.flitFails → exec (.flitReplay z word frame) s = exec (.lossOfSignal z) t)) ∧
    (∀ q : BitVec 12,
      let n := (q.toNat + 4097 - x.base) % 4096
      let r := (x.rseq + 1) % 4096
      if live = false then exec (.ack z q) s = .next s
      else if n = 0 ∨ x.unacked < n then exec (.ack z q) s = .next (s.setZport z.val { x with rseq := r, flitFails := 0 })
      else exec (.ack z q) s = .next (State.sendWaiting { s.setZport z.val { x with
          base := (x.base + n) % 4096, unacked := x.unacked - n, rseq := r, flitFails := 0
          held := (x.held.filter (fun e => n < e.2)).map (fun e => (e.1, e.2 - n)) } with
        packets := s.packets.filter (fun p => !(x.held.any (fun e => decide (e.2 ≤ n) && e.1 == p.id))) } z.val)) ∧
    (∀ (id : Nat) (p : Packet), s.packet? id = some p → p.target = z.val → p.h.dst.toNat = dstOptical → s.moveOf p = .arrived → s.pathDone p = true →
      x.held.any (fun e => e.1 = id) = false →
      let k := creditKey (isResponse p.h) p.h.gen
      let room := (lookup x.credits k).getD 0 ≠ 0 ∧ x.unacked + packetFlits p ≤ 4095
      (s.portOpen z.val = true → room → exec (.zhozaPacketForward (.held id)) s = .next { s.setZport z.val { x with
          credits := Sparse.insert x.credits k ((lookup x.credits k).getD 0 - 1), unacked := x.unacked + packetFlits p
          held := x.held ++ [(id, x.unacked + packetFlits p)] } with
        packets := s.packets.map (fun q => if q.id = id then
          { q with origin := .port 6, loc := .source z.val, crossed := [(portWay z.val 6 false, unitsOf p), (portWay z.val 6 true, unitsOf p)] } else q) }) ∧
      (s.portOpen z.val = true → ¬ room → exec (.zhozaPacketForward (.held id)) s = .next s) ∧
      (∀ t, s.portOpen z.val = false → opticalExit s p.h = some t → exec (.zhozaPacketForward (.held id)) s = .next { s with
        packets := s.packets.map (fun q => if q.id = p.id then { q with target := t, origin := .port 6, loc := .source z.val, crossed := [] } else q) })) ∧
    (∀ v : Word, if s.pageWrites .zlnk z.val = false ∨ bit v 31 = false ∨ s.domainRoot = false ∨ g.oldFree = false then exec (.genFlipWrite z v) s = .next s
      else only (.genFlipWrite z v) { gennum := (g.gennum + 1) % 256, oldFree := false, zeroRounds := 0, reports := [], arrived := false }) ∧
    (live = true → s.fenced z.val = false →
      (∀ r gn n, exec (.credit z r gn n) s = .next (y.setZport z.val { y.zport z.val with
        credits := Sparse.insert x.credits (creditKey r gn) (min 3 ((lookup x.credits (creditKey r gn)).getD 0 + n)) })) ∧
      (∀ h d, ∃ t, exec (.zhozaPacketForward (.received z h d)) s = .next t ∧
        (s.forwarding = false → x.unacked < 4094 → x.waiting = [] → (z.val, CtlMsg.credit (isResponse h) h.gen 1) ∈ t.portOut) ∧
        (30 ≤ h.hops.toNat → t.errSet .zlnk z.val 7 = true ∧ t.packets = s.packets)) ∧
      (∀ v, if v.toNat = (g.gennum + 1) % 256 then
          only (.flip z v) { gennum := v.toNat, oldFree := false, zeroRounds := 0, reports := [], arrived := false } ∧
          ∀ t, exec (.flip z v) s = .next t → ∀ q ∈ s.openPorts, (s.zport q).unacked < 4094 → (s.zport q).waiting = [] →
            (q, CtlMsg.flip v.toNat) ∈ t.portOut
        else exec (.flip z v) s = .next y) ∧
      (∀ v n a, (g.oldFree = true ∨ (v.toNat + 1) % 256 ≠ g.gennum → exec (.drain z v n a) s = .next y) ∧
        (g.oldFree = false → (v.toNat + 1) % 256 = g.gennum → s.parentRole = some x.role →
          only (.drain z v n a) (if s.childRoles = [] then { g with reports := [], arrived := false } else g)) ∧
        (g.oldFree = false → (v.toNat + 1) % 256 = g.gennum → s.parentRole ≠ some x.role → x.role ∈ s.childRoles →
          let reports := Sparse.insert g.reports x.role n
          if s.childRoles.all (fun c => (lookup reports c).isSome) = false then
            exec (.drain z v n a) s = .next { y with gen := { g with reports := reports, arrived := g.arrived || a } }
          else ∃ v', only (.drain z v n a) v' ∧ v'.gennum = g.gennum ∧
            (v'.oldFree = true ↔ s.parentRole = none ∧ s.inflight true + (reports.map Prod.snd).sum = 0 ∧ g.arrived = false ∧ a = false ∧ g.zeroRounds = 1))) ∧
      (∀ v, if s.parentRole = some x.role ∧ (v.toNat + 1) % 256 = g.gennum then only (.bankRelease z v) { g with oldFree := true, zeroRounds := 0, reports := [], arrived := false }
        else exec (.bankRelease z v) s = .next y) ∧
      (exec (.chamois z .abort) s = .next (if s.coresMode = .run ∧ s.flt.phase = .idle then { y with flt := { s.flt with phase := .abort, cur := some (fltErr 2 .zlnk z.val 3) } } else y)) ∧
      (s.parentRole = none → exec (.chamois z .fault) s = .next { y with flt := { s.flt with msgs := s.flt.msgs ++ [fltErr 2 .zlnk z.val 3] } }) ∧
      (s.parentRole ≠ none → exec (.chamois z .fault) s = .next (y.sendUp .fault)) ∧
      (s.parentRole = some x.role → s.reservedSpare = false → SliceMsg.release ∉ s.sliceIn →
        exec (.chamois z .release) s = .next { y with sliceIn := s.sliceIn ++ [.release] }) ∧
      (x.role ∈ s.childRoles → s.arrivals < s.childRoles.length → ∃ zs po,
        exec (.chamois z .arrive) s = .next { s with sliceIn := s.sliceIn ++ [.arrive], zports := zs, portOut := po }) ∧
      (∀ m, m = .go ∨ (∃ d p, m = .point d p) ∨ (∃ c, m = .late c) →
        exec (.chamois z m) s = .next (if s.parentRole = some x.role then y.sendDown m else y)) ∧
      (∀ (v : Dword) (ns : Nat), s.parentRole = some x.role →
        let path := ns + bits (s.reg .zlnk z.val 0x050) 15 0
        let w : Dword := BitVec.ofNat 64 (max s.stamp.toNat (v.toNat + (path * 2125 + 5000) / 10000))
        ∃ zs po, exec (.chamois z (.time v ns)) s = .next { s with stamp := w, timeMsg := some w, zports := zs, portOut := po }))

/-- R384–R387, R396, R417, R418, R470, R503: resets and the stages of the first second; MCTP_RESET before ready is log entry 199. -/
def Obligations.FirstSecond : Prop :=
  ∀ s : State, Inv s →
    let fresh := fun (t : State) => t.stage = .firmware ∧ t.fwStarted = false ∧ t.powered = true ∧ t.resetPending = false ∧ t.fuses = s.fuses ∧ t.flash = s.flash ∧
      t.secu.sealed = false ∧ t.secu.debug = 0 ∧ t.seq.cur = none ∧ t.coresMode = .idle ∧ t.hbm = [] ∧ t.streams = [] ∧ t.images = [] ∧ t.cores = [] ∧ t.berths = [] ∧
      ∀ p, (t.port p).link = .reset ∧ (t.port p).decoder = false
    (s.fwStarted = false → exec .mctpReset s = .next s) ∧
    (s.fwStarted = true → s.stage = .ready → exec .mctpReset s = exec .modResetN { s with mctpBusy := false }) ∧
    (s.fwStarted = true → s.stage ≠ .ready → exec .mctpReset s = .next { s with mctpBusy := true }) ∧
    (s.powered = false ∨ s.resetPending = true ∨ s.stackHold = true → exec .modResetN s = .next s) ∧
    (s.powered = true → s.resetPending = false → s.stackHold = false → ∃ t, exec .modResetN s = .next t ∧ t.resetPending = true ∧ t.forwarding = true ∧ t.hbm = s.hbm ∧
      t.berths = s.berths ∧ t.streams = s.streams ∧
      (∀ p, (t.port p).decoder = false ∧ (t.port p).cfgReady = false ∧ (t.port p).link = if (s.port p).leftReset then .down else (s.port p).link) ∧
      ∀ z, z < 84 → s.portOpen z = true → (s.zport z).unacked < 4095 → (s.zport z).waiting = [] → (z, CtlMsg.goingDown (s.address.getD 0)) ∈ t.portOut) ∧
    (∀ st : BitVec 4, (s.resetPending = false ∨ s.rootFailed = true → exec (.warmT0 st) s = .next s) ∧
      (s.resetPending = true → s.rootFailed = false → s.cool.alertPin = false → ∃ t, exec (.warmT0 st) s = .next t ∧ fresh t ∧ t.straps = st ∧ t.unav = s.unav ∧
        t.reg .flt 0 0x064 = s.reg .flt 0 0x064 ∧ t.reg .flt 0 0x068 = s.reg .flt 0 0x068 ∧ t.secu.noSign = s.secu.noSign)) ∧
    (∀ (st : BitVec 4) (pl : Bool), (s.powered = true → exec (.coldPowerUp st pl) s = .next s) ∧
      (s.powered = false → ∃ t, exec (.coldPowerUp st pl) s = .next t ∧ fresh t ∧ t.straps = st ∧ t.unav = 0 ∧ t.reg .flt 0 0x068 = 0 ∧ t.secu.noSign = false ∧
        ∀ n, n < 100 → (t.basin n).inpkg = !pl)) ∧
    (∀ n : Basin, exec (.brownOut n) s = if s.powered then
      .next { pending := s.pending, draws := s.draws, countFrom := s.draws, fuses := s.fuses, flash := s.flash, hostMem := s.hostMem, msix := s.msix } else .next s) ∧
    (let b := s.flash.preferB
     let run := fun (c : Bool) (m : List (Nat × Word)) (f : Flt) => ({ s with
       fwStarted := true, draws := s.draws + 1, stage := if s.refLost then .holdClock else .basins, alert := s.refLost, regs := m, flt := f
       secu := { s.secu with running := some c, svn := copySvn (s.fwCopy c), fwDigest := sha256 (s.fwCopy c), nonce := Config.nonce s.draws
                             bottom := s.flash.nextFree / 1024 + 1 } } : State)
     if s.atStage .firmware = false then exec .firmwareBoot s = .next s
     else if s.copyGood (s.fwCopy b) = true then ∃ m, exec .firmwareBoot s = .next (run b m s.flt)
     else if s.copyGood (s.fwCopy (!b)) = true then ∃ m f, exec .firmwareBoot s = .next (run (!b) m f) ∧ ({ s with regs := m } : State).errSet .secu 0 0 = true
     else exec .firmwareBoot s = .next { s with stage := .recovery, alert := true }) ∧
    (∀ w : Fin 12, if s.atStage .basins = false then exec (.basinWave w) s = .next s
      else ∃ t, exec (.basinWave w) s = .next t ∧ (∀ n ∈ waveBasins w.val, (t.basin n).regulating = true ∨ (t.basin n).latched = true) ∧
        (∀ n, n ∉ waveBasins w.val → t.basin n = s.basin n) ∧
        (∀ n ∈ waveBasins w.val, n < 84 → (s.basin n).regulating = false → (s.basin n).latched = false → (s.zport n).st = .down → (s.zport n).role ≠ 15 →
          n ∉ s.uncabled → (t.zport n).st = .listen) ∧
        (s.bistOver = false → t.stage = if (List.range 96).all (fun n => (t.basin n).regulating || (t.basin n).latched) then Stage.bist else Stage.basins)) ∧
    (let ends := fun (c : Instr) (u : State) =>
       (u.bistOver = false → exec c s = .next u) ∧
       (u.bistOver = true → ((List.range 12).any u.stackLost = true → ∃ m f, exec c s = .next { u with alert := true, regs := m, flt := f } ∧
           ∀ k, k < 12 → u.stackLost k = true → ({ u with regs := m } : State).errSet .hbmc k 5 = true) ∧
         ((List.range 12).any u.stackLost = false → ∃ t, exec c s = .next t ∧ t.stage = .clearing ∧ t.hbm = s.hbm ∧
           t.flt.exec = (t.inServiceOf .west == 40 && t.inServiceOf .east == 40)))
     (∀ (b : Berth) (ok : Bool), if s.atStage .bist = false ∨ (s.berth b.val).trained = true ∨ s.dark b.val = true then exec (.bistTrainingDone (.berth b) ok) s = .next s
       else ends (.bistTrainingDone (.berth b) ok) (s.setBerth b.val { s.berth b.val with
         trained := true, storeOk := ok, role := if ok then .spare else .retired, removed := s.repairMap b.val, store := [], held := [], holdSignal := false
         badLines := [], rowErrors := [] })) ∧
     ∀ (k : Stack) (ok : Bool), if s.atStage .bist = false ∨ (s.stack k.val).trained = true then exec (.bistTrainingDone (.stack k) ok) s = .next s
       else ends (.bistTrainingDone (.stack k) ok) ((if ok then s else s.raise .hbmc k.val 5).setStack k.val { s.stack k.val with
         trained := true, failed := !ok, retired := (s.flash.retired.filter (fun p => p / 2 ^ 25 = k.val)).map (· % 2 ^ 25)
         softRepaired := (s.flash.softRepaired.filter (fun p => p / 2 ^ 25 = k.val)).map (· % 2 ^ 25) })) ∧
    (exec .memActive s = if s.atStage .clearing = true then .next { s with
        hbm := s.hbm.filter (fun e => s.hostLimit ≤ e.1), stage := .optical
        portA := { s.portA with memActive := true }, portB := { s.portB with memActive := true } } else .next s) ∧
    (∀ ms : BitVec 16, let r := ({ s with stage := .ready, tms := ms.toNat, flt := { s.flt with fatal := false } } : State)
      (s.atStage .optical = false → exec (.moduleReady ms) s = .next s) ∧
      (s.atStage .optical = true → s.flt.exec = false → ∃ m f x, exec (.moduleReady ms) s = .next { r with regs := m, flt := f, msix := x } ∧ ({ r with regs := m } : State).errSet .flt 0 1 = true) ∧
      (s.atStage .optical = true → s.flt.exec = true → s.straps.getLsbD 1 = false → exec (.moduleReady ms) s = .next r) ∧
      (s.atStage .optical = true → s.flt.exec = true → s.straps.getLsbD 1 = true → ∃ t, exec (.moduleReady ms) s = .next t ∧ t.stage = .ready ∧
        ((t.image 7).st = .ready ∨ ∃ m f, t = { r with regs := m, flt := f })))

/-- R399, R405–R407: basins and the plate link. -/
def Obligations.BasinsAndPlate : Prop :=
  ∀ (s : State) (n : Basin), Inv s →
    let x := s.basin n.val
    let b := n.val
    let still := s.atStage .basins = false ∧ s.atStage .bist = false
    exec .plateHeartbeat s = (if s.powered then .next { s with heartbeats := s.heartbeats + 1 } else .next s) ∧
    (if s.powered = true ∧ s.plateLost = false then ∃ m f, exec .plateLink s = .next { s with plateLost := true, regs := m, flt := f } ∧
        ({ s with regs := m } : State).errSet .bsn 98 6 = true
      else exec .plateLink s = .next s) ∧
    (∀ i : Fin 8, exec (.phase2 n i) s = exec (.phase1 n i) s ∧
      let off := phaseCount b ≤ i.val ∨ i.val ∈ x.phasesLost ∨ x.latched = true ∨ x.regulating = false
      let t := s.setBasin b { x with phasesLost := x.phasesLost ++ [i.val] }
      (off → exec (.phase1 n i) s = .next s) ∧
      (¬ off → x.phasesLost = [] → ∃ m f, exec (.phase1 n i) s = .next { t with regs := m, flt := f } ∧ ({ s with regs := m } : State).errSet .bsn b 0 = true) ∧
      (¬ off → x.phasesLost.length = 1 → ∃ m f,
        ({ s with regs := m } : State).errSet .bsn b 1 = true ∧
        if b < 84 ∧ ((s.berth b).role = .inService ∨ (s.berth b).role = .spare) then
          exec (.phase1 n i) s = .next (({ t with regs := m, flt := f } : State).setHalf (halfOf b) { s.half (halfOf b) with phaseCap := (s.half (halfOf b)).phaseCap ++ [b] })
        else if 84 ≤ b ∧ b < 96 then exec (.phase1 n i) s = .next (({ t with regs := m, flt := f } : State).setStack (b - 84) { s.stack (b - 84) with halfRate := true })
        else exec (.phase1 n i) s = .next { t with regs := m, flt := f }) ∧
      (¬ off → 2 ≤ x.phasesLost.length → exec (.phase1 n i) s = exec (.short n) t)) ∧
    (x.latched = true ∨ x.regulating = false → exec (.short n) s = .next s) ∧
    (x.latched = false → x.regulating = true →
      (∃ t, exec (.short n) s = .next t ∧ (t.basin b).latched = true ∧ (t.basin b).regulating = false ∧ (∀ k, k ≠ b → t.basin k = s.basin k) ∧
        (b < 84 → (t.berth b).role = .dark ∧ (t.berth b).gated = true ∧ portLive t b = false) ∧
        (b = 96 → (s.port .a).link ≠ .reset → (t.port .a).link = .down) ∧ (b = 97 → (s.port .b).link ≠ .reset → (t.port .b).link = .down)) ∧
      (84 ≤ b → b < 96 → still → ∃ m f, exec (.short n) s = .next { s.setBasin b { x with latched := true, regulating := false } with regs := m, flt := f } ∧
        ({ s with regs := m } : State).errSet .bsn b 2 = true ∧ ({ s with regs := m } : State).errSet .hbmc (b - 84) 5 = true) ∧
      (98 ≤ b → still → (b = 99 → s.activeRoot = 0) → ∃ m f, exec (.short n) s = .next { s.setBasin b { x with latched := true, regulating := false } with regs := m, flt := f } ∧
        ({ s with regs := m } : State).errSet .bsn b 2 = true ∧ (b = 99 → bit (({ s with regs := m } : State).reg .clkg 1 0x040) 0 = false))) ∧
    (∀ mv : BitVec 10, (x.latched = true ∨ x.regulating = false → exec (.underv n mv) s = .next s) ∧
      (x.latched = false → x.regulating = true → ∃ m f, exec (.underv n mv) s = .next { s with regs := m, flt := f } ∧
        bits (({ s with regs := m } : State).reg .bsn b 0x050) 9 0 = min mv.toNat (bits (s.reg .bsn b 0x050) 9 0) ∧
        (mv.toNat + 60 < s.setpoint b → ({ s with regs := m } : State).errSet .bsn b 3 = true) ∧ (s.setpoint b ≤ mv.toNat + 60 → f = s.flt))) ∧
    exec (.phase2Timeout n) s =
      (if s.coresMode = .run ∧ s.flt.phase = .idle ∧ b < 84 ∧ b ∈ (s.half (halfOf b)).phaseCap ∧ (s.half (halfOf b)).now < 8 then
        .next { s with flt := { s.flt with msgs := s.flt.msgs ++ [fltErr (if s.spansModules then 2 else 1) .bsn b 1] } }
      else .next s)

/-- R410–R412, R415: wakes, idle gating, zones and the power controller. -/
def Obligations.WakesAndPower : Prop :=
  (rampNext 4 16 = 8 ∧ rampNext 4 8 = 6 ∧ rampNext 4 6 = 4 ∧ rampNext 5 6 = 5 ∧ rampNext 6 8 = 6 ∧ rampNext 8 16 = 8 ∧ rampNext 16 16 = 16) ∧
  ∀ (s : State) (b : Berth), Inv s →
    let x := s.berth b.val
    let goal := s.wakeGoal b.val
    let ramp := fun (c : Instr) (slow : Bool) => ∃ m f t, exec c s = .next t ∧ (slow = true → ({ s with regs := m } : State).errSet .bsn b.val 5 = true) ∧
      (goal < 16 → t = { s.setBerth b.val { x with gated := false, waking := true, wakeWait := none, ldiv := 16 } with regs := m, flt := f }) ∧
      (16 ≤ goal → t.berth b.val = { x with gated := false, waking := false, wakeWait := none, ldiv := goal })
    (∀ sum : Nat,
      (s.mayWake b.val = false ∨ x.gated = false ∨ x.waking = true → exec (.wake b sum) s = .next s) ∧
      (s.mayWake b.val = true → x.gated = true → x.waking = false →
        if zoneLoaded sum = true then exec (.wake b sum) s = .next (s.setBerth b.val { x with waking := true, wakeWait := some 0 }) else ramp (.wake b sum) false) ∧
      (x.waking = false ∨ s.mayWake b.val = false → exec (.wakeStep b sum) s = .next s) ∧
      (x.waking = true → s.mayWake b.val = true →
        (∀ n, x.wakeWait = some n → if zoneLoaded sum = false then ramp (.wakeStep b sum) false else if 99 ≤ n then ramp (.wakeStep b sum) true
          else exec (.wakeStep b sum) s = .next (s.setBerth b.val { x with wakeWait := some (n + 1) })) ∧
        (x.wakeWait = none → if goal < rampNext goal x.ldiv then ∃ m, exec (.wakeStep b sum) s = .next { s.setBerth b.val { x with ldiv := rampNext goal x.ldiv } with regs := m }
          else ∃ t, exec (.wakeStep b sum) s = .next t ∧ t.berth b.val = { x with waking := false, ldiv := goal }))) ∧
    (if s.stage ≠ .ready ∨ s.seq.cur ≠ none ∨ s.flt.phase ≠ .idle then exec .idleGating s = .next s
      else ∃ m bs, exec .idleGating s = .next { s with regs := m, berths := bs } ∧ ∀ y, y < 84 → ({ s with berths := bs } : State).berth y =
        if (s.berth y).role = .inService ∧ bits (s.reg .schd (halfInst (halfOf y)) 0x040) 7 0 ≠ 0 ∧ s.awake y = true then
          { s.berth y with gated := true, waking := false, wakeWait := none, ldiv := 16 } else s.berth y) ∧
    (∀ ok : Bool, if (x.role = .spare ∨ x.role = .retired) ∧ s.awake b.val = true then ∃ m bs, exec (.spareBist b ok) s = .next { s with regs := m, berths := bs } ∧
        ({ s with berths := bs } : State).berth b.val = { x with
          role := if ok then x.role else .retired, storeOk := ok, store := [], held := [], holdSignal := false, badLines := [], rowErrors := [], gated := true, waking := false, wakeWait := none, ldiv := 16 }
      else exec (.spareBist b ok) s = .next s) ∧
    (∀ z : Fin 6, let h := zoneHalf z.val
      let y := s.half h
      (s.powered = false → exec (.zoneOc z) s = .next s) ∧
      (s.powered = true → ∃ m f, exec (.zoneOc z) s = .next (({ s with regs := m, flt := f } : State).setHalf h
          { y with zones := Sparse.insert y.zones z.val (max (divUp y.now) ((lookup y.zones z.val).getD 4)) }) ∧
        ∀ n ∈ zoneBasins z.val, (s.basin n).latched = false → ({ s with regs := m } : State).errSet .bsn n 4 = true) ∧
      ∃ m, exec (.zoneOcRelease z) s = .next (({ s with regs := m } : State).setHalf h { y with zones := y.zones.filter (fun e => e.1 ≠ z.val) })) ∧
    ∀ p : PowerSample,
      (s.stage ≠ .ready → exec (.powerControlSample p) s = .next s) ∧
      (s.stage = .ready → ∃ m w e l, exec (.powerControlSample p) s = .next { s with regs := m, west := w, east := e, powerSteps := l } ∧
        bits (({ s with regs := m } : State).reg .schd 0 0x064) 15 0 = min p.total1ms 65535 ∧
        let t := ({ s with west := w, east := e } : State)
        if s.effCap < p.total100us then
          let h := if p.east100us ≤ p.west100us then Half.west else Half.east
          let y := s.half h
          t.half (otherHalf h) = { s.half (otherHalf h) with pace := min 10 ((s.half (otherHalf h)).pace + 1) } ∧
          t.half h = if 9 ≤ y.pace ∧ y.power < divUp (max y.power y.now) then { y with power := divUp (max y.power y.now), pace := 0 } else { y with pace := min 10 (y.pace + 1) }
        else ∀ st rest d, s.powerSteps = st :: rest → st.drop = some d →
          if 100 * (p.total1ms + d) < 98 * s.effCap ∧ 9 ≤ (s.half st.half).pace then (t.half st.half).power = st.before ∧ l.length = rest.length
          else t.half st.half = { s.half st.half with pace := min 10 ((s.half st.half).pace + 1) })

/-- R168, R417, R423, R424: clock roots, the reference and the seam. -/
def Obligations.ClockRoots : Prop :=
  ∀ s : State, Inv s →
    (∀ standby : Bool, let i := if standby then 1 else 0
      let c := Instr.lockLoss standby
      (bit (s.reg .clkg i 0x040) 0 = false → exec c s = .next s) ∧
      (bit (s.reg .clkg i 0x040) 0 = true → s.activeRoot ≠ i → ∃ m f, exec c s = .next { s with regs := m, flt := f } ∧
        bit (({ s with regs := m } : State).reg .clkg i 0x040) 0 = false ∧ ({ s with regs := m } : State).errSet .clkg i 0 = true) ∧
      (bit (s.reg .clkg i 0x040) 0 = true → s.activeRoot = i → ∃ t, exec c s = .next t ∧ bit (t.reg .clkg i 0x040) 0 = false ∧ t.errSet .clkg i 0 = true ∧
        (standby = false → bit (t.reg .clkg 2 0x040) 1 = true) ∧ (s.seq.cur ≠ none → t.coresMode = .held) ∧
        (∀ b, b < 84 → s.dark b = false → t.awake b = false) ∧ fltErr 5 .clkg i 0 ∈ t.flt.msgs ∧ t.hbm = s.hbm)) ∧
    (if s.powered = true ∧ s.refLost = false then ∃ m f, exec .refLoss s = .next { s with refLost := true, regs := m, flt := f } ∧ ({ s with regs := m } : State).errSet .clkg 2 1 = true
      else exec .refLoss s = .next s) ∧
    (∀ d : BitVec 16, let n := d.toInt.natAbs
      (s.powered = false → exec (.refDev d) s = .next s) ∧
      (s.powered = true → ∃ m f, exec (.refDev d) s = .next { s with
          regs := m, flt := f, refLost := decide (30000 < n), stage := if n ≤ 30000 ∧ s.stage = .holdClock then .basins else s.stage
          alert := if n ≤ 30000 ∧ s.stage = .holdClock then false else s.alert } ∧
        ({ s with regs := m } : State).reg .clkg 2 0x044 = field d.toNat 0 ∧
        (10000 < n → ({ s with regs := m } : State).errSet .clkg 2 2 = true) ∧
        (30000 < n → s.refLost = false → ({ s with regs := m } : State).errSet .clkg 2 1 = true) ∧ (n ≤ 10000 → f = s.flt))) ∧
    ∀ b : Berth, if colOf b.val = 5 ∨ colOf b.val = 6 then ∃ m f, exec (.seamSync b) s = .next { s with regs := m, flt := f } ∧ ({ s with regs := m } : State).errSet .mesh b.val 5 = true
      else exec (.seamSync b) s = .next s

/-- R427–R438, R441, R442: coolant. -/
def Obligations.CoolantStops : Prop :=
  ∀ s : State, Inv s →
    let c := s.cool
    let stops := fun (t : State) => t.cool.st = .sudden ∧ t.west.now = 16 ∧ t.east.now = 16 ∧ (∀ b, b < 84 → s.dark b = false → t.awake b = false) ∧
      t.hbm = s.hbm ∧ (∀ b, (t.berth b).store = (s.berth b).store) ∧ t.errSet .tray 0 5 = true
    (∀ a : Bool, (s.powered = false → exec (.flowAlertN a) s = .next s) ∧
      (s.powered = true → a = false → exec (.flowAlertN a) s = .next { s with cool := { c with alertPin := false } }) ∧
      (s.powered = true → a = true → c.st ≠ .normal → c.st ≠ .orderly → exec (.flowAlertN a) s = .next { s with cool := { c with alertPin := true, good28 := 0 } }) ∧
      (s.powered = true → a = true → c.st = .normal ∨ c.st = .orderly → ∃ t, exec (.flowAlertN a) s = .next t ∧ stops t ∧ t.cool.alertPin = true)) ∧
    (∀ r : TrayReading, (s.polls = false → exec (.trayRead r) s = .next s) ∧
      (s.polls = true → c.st = .normal →
        let valid := readingValid r && !(s.basin 99).latched
        let f := bits (r.flow.setWidth 32) 9 0
        let d := countLevels (if valid then { c with
          flow := f, inlet := r.inlet.toInt, outlet := r.outlet.toInt, recent := (f :: c.recent).take 20, invalid := 0, linkLost := false } else { c with invalid := c.invalid + 1, recent := (0 :: c.recent).take 20 })
        if valid = true ∧ 2 * f < c.recent.foldl max 0 then ∃ t, exec (.trayRead r) s = .next t ∧ stops t
        else ∃ m g, exec (.trayRead r) s = .next { s with
            regs := m, flt := g, cool := { d with cap := min c.cap ({ s with cool := d } : State).capTarget } } ∧
          (d.low = true → c.low = false → ({ s with regs := m } : State).errSet .tray 0 0 = true) ∧
          (d.inletOut = true → c.inletOut = false → ({ s with regs := m } : State).errSet .tray 0 1 = true))) ∧
    (if s.polls = true ∧ c.linkLost = false ∧ 10 ≤ c.invalid then ∃ m g, exec .linkLost s = .next { s with
          regs := m, flt := g, cool := { c with linkLost := true, cap := min c.cap ({ s with cool := { c with linkLost := true } } : State).capTarget } } ∧
        ({ s with regs := m } : State).errSet .tray 0 3 = true
      else exec .linkLost s = .next s) ∧
    (∀ (p60 : Nat) (t60 : Int), (s.stage ≠ .ready → exec (.forecast p60 t60) s = .next s) ∧
      (s.stage = .ready → let cap := min ({ s with cool := { c with t60 := some t60 } } : State).capTarget (c.cap + 100)
        ∃ m g, exec (.forecast p60 t60) s = .next { s with regs := m, flt := g, cool := { c with t60 := some t60, cap := cap } } ∧
          bits (({ s with regs := m } : State).reg .tray 0 0x048) 31 16 = min p60 65535 ∧
          (cap < p60 → ({ s with regs := m } : State).errSet .tray 0 2 = true) ∧ (p60 ≤ cap → g = s.flt))) ∧
    (let calls := c.st = .normal ∧ s.powered = true ∧ stopCalled c = true
     let d := ({ c with st := .orderly, flowStop := decide (100 < c.below18), inletStop := decide (1000 < c.hot38), gated := false } : Cool)
     (¬ calls → exec .orderlyStop s = .next s) ∧
     (calls → s.coresMode = .run ∨ s.seq.finished = true → ∃ m g, exec .orderlyStop s = .next { s with cool := d, regs := m, flt := g } ∧ ({ s with regs := m } : State).errSet .tray 0 4 = true) ∧
     (calls → s.coresMode ≠ .run → s.seq.finished = false → ∃ t, exec .orderlyStop s = .next t ∧ t.cool = { d with gated := true } ∧ t.errSet .tray 0 4 = true ∧
       ∀ b, b < 84 → s.dark b = false → t.awake b = false)) ∧
    (if c.st = .orderly ∧ resumeReady c = true then ∃ t, exec .orderlyResume s = .next t ∧
        t.cool = { c with st := .normal, flowStop := false, inletStop := false, gated := false, below18 := 0, hot38 := 0 } ∧ t.berths = s.berths
      else exec .orderlyResume s = .next s) ∧
    (if c.st = .sudden ∧ c.alertPin = false ∧ c.linkLost = false ∧ 100 < c.good28 then ∃ t, exec .coolantRecovery s = .next t ∧ t.cool = { c with st := .normal } ∧
        ∀ h, (t.half h).now = ({ s with cool := { c with st := .normal } } : State).targetDiv h
      else exec .coolantRecovery s = .next s) ∧
    if c.st ≠ .sudden then exec .railDrop s = .next s
    else if s.plateLost = true ∧ (List.range 100).all (fun n => (s.basin n).inpkg) = false then exec .railDrop s = .next { s with cool := { c with st := .waitDrop }, alert := true }
    else ∃ m, exec .railDrop s = .next {
        regs := m, pending := s.pending, draws := s.draws, countFrom := s.draws, fuses := s.fuses, flash := s.flash, hostMem := s.hostMem, msix := s.msix
        cool := { st := .dropped } } ∧ ({ s with regs := m } : State).errSet .tray 0 6 = true

/-- R429, R432, R439: hot-spot sites. -/
def Obligations.HotSpots : Prop :=
  ∀ s : State, Inv s →
    let limited := fun (u : State) (h : Half) => if 840 ≤ u.hottest h then { s.half h with thermal := 16 } else s.half h
    (∀ (i : Fin 100) (k : Fin 4),
      let x := s.site (i.val * 4 + k.val)
      let h := thermHalf i.val
      let off := siteCount i.val ≤ k.val ∨ (s.basin i.val).latched = true ∨ (s.basin i.val).regulating = false
      (∀ d r : BitVec 12, let y := { x with diode := d, ro := r }
        (off → exec (.thermalSiteSample i k d r) s = .next s) ∧
        (¬ off → ∃ m f, exec (.thermalSiteSample i k d r) s = .next ((({ s with regs := m, flt := f } : State).setSite (i.val * 4 + k.val) y).setHalf h
            (limited (s.setSite (i.val * 4 + k.val) y) h)) ∧
          (differs y 40 = true → differs x 40 = false → ({ s with regs := m } : State).errSet .thrm i.val 0 = true) ∧
          (s.siteReading i.val k.val < 760 → 760 ≤ (s.setSite (i.val * 4 + k.val) y).siteReading i.val k.val → ({ s with regs := m } : State).errSet .thrm i.val 2 = true))) ∧
      (off ∨ x.faulty = true ∨ differs x 120 = false → exec (.pairFault i k) s = .next s) ∧
      (¬ off → x.faulty = false → differs x 120 = true → ∃ m f, exec (.pairFault i k) s = .next ((({ s with regs := m, flt := f } : State).setSite (i.val * 4 + k.val)
          { x with faulty := true }).setHalf h (limited (s.setSite (i.val * 4 + k.val) { x with faulty := true }) h)) ∧
        ({ s with regs := m } : State).errSet .thrm i.val 1 = true) ∧
      (off ∨ s.siteReading i.val k.val < 920 → exec (.trip i k) s = .next s) ∧
      (¬ off → 920 ≤ s.siteReading i.val k.val →
        (s.cool.st = .normal ∨ s.cool.st = .orderly → ∃ t, exec (.trip i k) s = .next t ∧ t.cool.st = .sudden ∧ t.west.now = 16 ∧ t.east.now = 16 ∧ t.errSet .thrm i.val 3 = true) ∧
        (s.cool.st ≠ .normal → s.cool.st ≠ .orderly → ∃ m f, exec (.trip i k) s = .next { s with regs := m, flt := f } ∧ ({ s with regs := m } : State).errSet .thrm i.val 3 = true))) ∧
    ∀ h : Half, let y := s.half h
      (if s.hottest h < 760 then exec (.thermalStepRequest h) s = .next s
        else ∃ m, exec (.thermalStepRequest h) s = .next (({ s with regs := m } : State).setHalf h
          { y with thermal := if 840 ≤ s.hottest h then 16 else max y.thermal (divUp y.now) })) ∧
      (if s.hottest h < 720 then ∃ m, exec (.thermalStepRelease h) s = .next (({ s with regs := m } : State).setHalf h { y with thermal := divDown y.thermal })
        else exec (.thermalStepRelease h) s = .next s)

/-- R365, R446, R448, R453, R456, R457, R461: the rest of a handling; how a lost module is replaced is log entries 203 and 204. -/
def Obligations.FaultRepair : Prop :=
  ∀ s : State, Inv s →
    let r := s.flt.repairs
    let u := ({ s with flt := { s.flt with phase := .repair, repairs := [] } } : State)
    let clear := ∀ e ∈ s.berths, e.2.role ≠ .dark
    (∀ (bad : List Berth) (lost : List (BitVec 15)),
      let ends := s.flt.phase = .quiesce ∧ s.cores.all (fun e => e.2.dyn.isEmpty) = true ∧ s.flt.cur.any (fun e => e.scope < 5) = true
      (¬ ends → exec (.quiesceComplete bad lost) s = .next s) ∧
      (ends → ∃ t, exec (.quiesceComplete bad []) s = .next t ∧ exec (.quiesceComplete bad lost) s = .next ((lost.map BitVec.toNat).foldl State.replaceModule t)) ∧
      (ends → clear → r = [] → exec (.quiesceComplete bad []) s = .next u) ∧
      (∀ (b : Berth) (p : Fin 156), let x := s.berth b.val
        ends → clear → r = [{ scope := 3, type := 0, inst := b.val * 156 + p.val, bit := 0 }] → x.role = .inService →
        Sparse.get (fun _ => 15) x.removed (p.val / 13) = 15 → p.val / 13 ∉ x.badBypass →
        exec (.quiesceComplete bad []) s = .next (({ u with flt := { u.flt with rowTest := s.flt.rowTest ++ [b.val * 12 + p.val / 13] } } : State).setBerth b.val
          { x with removed := Sparse.set (fun _ => 15) x.removed (p.val / 13) (p.val % 13) })) ∧
      (∀ b : Berth, let x := s.berth b.val
        ends → r = [{ scope := 4, type := 0, inst := b.val, bit := 0 }] → x.role = .inService →
        (s.sparesFor b.val = [] → (s.basin b.val).latched = true ∨ (s.basin b.val).phasesLost.length < 2 →
          ∃ t, exec (.quiesceComplete bad []) s = .next t ∧ t.flt.exec = false ∧ t.errSet .flt 0 1 = true ∧
            (t.berth b.val).role = (if (s.basin b.val).latched then .dark else .retired) ∧
            ∀ i, (s.stream i).state ≠ .free → 2 ∈ (t.stream i).holds) ∧
        (∀ (u' : State) (c : Nat), s.sparesFor b.val ≠ [] → x.storeOk = true → (s.basin b.val).latched = false → clear →
          let h := s.half (halfOf b.val)
          State.takeSpare x.logical (bad.map (fun y => y.val)) (((u.setBerth b.val { x with role := .retired, gated := true }).resetBerth b.val).setHalf (halfOf b.val)
            { h with phaseCap := h.phaseCap.filter (· ≠ b.val) }).retarget (s.sparesFor b.val) = (u', some c) →
          ∃ t, exec (.quiesceComplete bad []) s = .next t ∧
            t.berth b.val = { x with role := .retired, gated := true, logical := 127, held := [], holdSignal := false, badLines := [] } ∧
            (t.berth c).role = .inService ∧ (t.berth c).logical = x.logical ∧ (t.berth c).store = x.store ∧ t.reg .stor c 0x050 = s.reg .stor b.val 0x050 ∧
            x.logical ∈ t.flt.migrating ∧
            ∀ i ∈ s.imagesAt x.logical, ∀ st, (s.stream st).state ≠ .free → (s.stream st).image = i → 2 ∈ (t.stream st).holds))) ∧
    (∀ a : Nat, (s.boundAt a = none → s.replaceModule a = s) ∧
      ∀ n, s.boundAt a = some n →
        let c := a / 128 * 128 + 126
        s.replaceModule a = if s.spareAddress c = true ∧ a ≠ c then s.setRegI .zlnk 0 0x090 n (field c 0 ||| field 1 31) else { s with sliceFailed := true }) ∧
    (if s.flt.phase = .quiesce then ∃ m f, exec .quiesce s = .next { s with regs := m, flt := f } ∧ ({ s with regs := m } : State).errSet .flt 0 4 = true
      else exec .quiesce s = .next s) ∧
    (∀ ok : Bool, s.flt.rowTest = [] → exec (.spareSelftestDone ok) s = .next s) ∧
    (∀ q rest, s.flt.rowTest = q :: rest →
      exec (.spareSelftestDone true) s = .next { s with flt := { s.flt with rowTest := rest } } ∧
      ∃ t, exec (.spareSelftestDone false) s = .next t ∧ t.flt.rowTest = rest ∧ t.flt.cur = s.flt.cur.map atLeastBerth ∧
        ((s.berth (q / 12)).role = .inService → (s.basin (q / 12)).latched = true ∨ (s.basin (q / 12)).phasesLost.length < 2 →
          (t.berth (q / 12)).role ≠ .inService)) ∧
    (∀ b : Fin 80, (b.val ∉ s.flt.migrating → exec (.storeMigrationDone b) s = .next s) ∧
      (b.val ∈ s.flt.migrating → (∀ i, (s.image i).bkpEn = false) →
        let v := ({ s with flt := { s.flt with migrating := s.flt.migrating.filter (· ≠ b.val) } } : State)
        ∃ ss, exec (.storeMigrationDone b) s = .next { v with streams := ss } ∧
          ∀ i ∈ s.imagesAt b.val, v.shardsAway i = false → s.flt.exec = true → ∀ st, (s.stream st).state ≠ .free → (s.stream st).image = i →
            2 ∉ (({ v with streams := ss } : State).stream st).holds)) ∧
    (let due := s.flt.phase = .repair ∧ s.flt.rowTest = [] ∧ s.flt.msgs = []
     let v := s.mendAll
     let ended := fun (t : State) => t.flt.phase = .idle ∧ t.flt.cur = none ∧ t.flt.next = none ∧ t.flt.ovf = 0 ∧ t.seq.cur = none
     (s.mendDue = false → v.streams = s.streams ∧ v.images = s.images ∧ v.seq = s.seq ∧ v.hbm = s.hbm) ∧
     (¬ due → exec .restore s = .next s) ∧
     (due → s.seq.cur = none → ∃ t, exec .restore s = .next t ∧ ended t ∧ t.streams = v.streams) ∧
     (∀ j, due → s.seq.cur = some j → 3 < s.seq.replay → s.flt.exec = true → j.copy = none → (v.image j.image).swapAsked = false →
       ∃ t, exec .restore s = .next t ∧ ended t ∧ t.coresMode = .idle ∧ t.errSet .flt 0 0 = true ∧
         ∀ e ∈ j.entries, (v.stream e.stream).state ≠ .free → 0 ∈ (t.stream e.stream).holds ∧
           ((∀ e' ∈ j.entries, e'.stream = e.stream → e' = e) → (t.stream e.stream).kvlen = e.snapKv ∧ (t.stream e.stream).gen = e.snapGen)) ∧
     (∀ j, due → s.seq.cur = some j → s.seq.replay ≤ 3 → s.flt.exec = true → j.entries.all v.runnable = true → j.copy ≠ none ∨ j.entries ≠ [] →
       ∃ t, exec .restore s = .next t ∧ t.seq = v.seq ∧ t.streams = v.streams ∧
         t.flt = { v.flt with phase := if s.cool.st = .normal then .restore else .coolant })) ∧
    ((∀ e, s.flt.cur = some e → e.scope ≠ 5) ∨ s.flt.phase = .reset → exec .moduleFatal s = .next s) ∧
    (∀ e, s.flt.cur = some e → e.scope = 5 → s.flt.phase ≠ .reset → ∃ t, exec .moduleFatal s = .next t ∧ t.reg .flt 0 0x068 = errWord (some e) ∧
      t.alert = true ∧ t.flt.phase = .reset ∧ t.flt.fatal = true ∧ (s.powered = true → t.resetPending = true))

/-- R220, R422, R482, R485–R492: writes of registers. That nothing happens past 128 MiB or without power is the model's choice (log entry 145), and what lets a core capture a bounds fault
again is log entry 38. -/
def Obligations.RegisterWrites : Prop :=
  ∀ s : State, Inv s →
    (∀ (b : Berth) (v : Word),
      if s.pageWrites .stor b.val = false then exec (.kvBaseWrite b v) s = .next s
      else if s.kvBaseFits b.val v = true then ∃ m, exec (.kvBaseWrite b v) s = .next { s with regs := m } ∧
        ({ s with regs := m } : State).reg .stor b.val 0x050 = field (bits v 11 0) 0
      else ∃ m f, exec (.kvBaseWrite b v) s = .next { s with regs := m, flt := f } ∧ ({ s with regs := m } : State).errSet .stor b.val 7 = true ∧
        ({ s with regs := m } : State).reg .stor b.val 0x050 = s.reg .stor b.val 0x050) ∧
    (∀ (addr : Nat) (v : Word) (b : Blk) (i : Nat), pageAt addr = some (b, i, 0x010) →
      if s.powered = true ∧ s.pageDark b i = false then ∃ m l, exec (.errStsClear addr v) s = .next { s with regs := m, boundsHeld := l } ∧
        (l = if b = .core ∧ bit v 2 = true then s.boundsHeld.filter (· ≠ i) else s.boundsHeld) ∧
        (let e := s.errRegs b i
         let left := e.sts &&& ~~~v
         ({ s with regs := m } : State).errRegs b i =
           if left = 0 then { sts := 0, first := 0, next := 0, stamp := 0 } else { sts := left, first := e.first, next := e.next, stamp := e.stamp })
      else exec (.errStsClear addr v) s = .next s) ∧
    (∀ (addr : Nat) (v : Word) (b : Blk) (i : Nat), pageAt addr = some (b, i, 0x008) →
      if s.powered = true ∧ s.pageDark b i = false then ∃ m f, exec (.inject addr v) s = .next { s with regs := m, flt := f } ∧
        ({ s with regs := m } : State).reg b i 0x008 = field (bits v 12 8) 8 ∧
        (bit v 0 = true → s.secu.debug = 2 → (errClass b i (bits v 12 8)).isSome = true → ({ s with regs := m } : State).errSet b i (bits v 12 8) = true) ∧
        (bit v 0 = false ∨ s.secu.debug ≠ 2 → f = s.flt ∧ ({ s with regs := m } : State).errRegs b i = s.errRegs b i)
      else exec (.inject addr v) s = .next s) ∧
    (∀ (n : Basin) (v : Word), if s.pageWrites .bsn n.val = false then exec (.vminRestart n v) s = .next s
      else ∃ m, exec (.vminRestart n v) s = .next { s with regs := m } ∧
        ({ s with regs := m } : State).reg .bsn n.val 0x050 = field (min (s.setpoint n.val) 1023) 0) ∧
    ∀ (p : HostPort) (addr size : Nat) (en : Bool) (data : Dword),
      let x := exec (.registerWrite p addr size en data) s
      let v : Word := BitVec.ofNat 32 data.toNat
      (s.powered = false ∨ 2 ^ 27 < addr + size → x = .next s) ∧
      (s.powered = true → addr + size ≤ 2 ^ 27 →
        (en = false ∨ (size ≠ 4 ∧ size ≠ 8) ∨ addr % size ≠ 0 → ∃ m f, x = .next { s with regs := m, flt := f } ∧ ({ s with regs := m } : State).errSet .glb 0 0 = true) ∧
        (en = true → size = 4 ∨ size = 8 → addr % size = 0 → pageAt addr = none →
          ∃ m f, x = .next { s with regs := m, flt := f } ∧ ({ s with regs := m } : State).errSet .glb 0 1 = true) ∧
        (en = true → size = 4 → addr % 4 = 0 → ∀ b i o, pageAt addr = some (b, i, o) →
          (s.pageDark b i = true ∨ (0x030 ≤ o ∧ (s.blockReady b i = false ∨ regRow b i o = none)) → x = .next s) ∧
          (s.pageDark b i = false → 0x030 ≤ o → s.blockReady b i = true → b ≠ .schd → s.writeSpecial (.host p) b i o v = none → s.copyOf b i o = none →
            ∀ r, regRow b i o = some r → r.off = o → r.wk = .plain → r.fw = 0 →
              (s.secu.sealed = false ∨ r.rws = 0 → ∃ m, x = .next { s with regs := m } ∧
                ({ s with regs := m } : State).reg b i o = (s.reg b i o &&& ~~~(r.rw ||| r.rws)) ||| (v &&& (r.rw ||| r.rws)) ∧
                ∀ k, k ≠ regKey b i o → Sparse.get regReset m k = Sparse.get regReset s.regs k) ∧
              (s.secu.sealed = true → r.rws ≠ 0 → r.rw = 0 → b ≠ .secu → b ≠ .flt → ∃ m f, x = .next { s with regs := m, flt := f } ∧
                ({ s with regs := m } : State).errSet .secu 0 4 = true ∧ ({ s with regs := m } : State).reg b i o = s.reg b i o))))

/-- R470–R472, R475–R482: SECU. -/
def Obligations.AttestationAndFirmware : Prop :=
  ∀ s : State, Inv s →
    let u := s.secu
    (∀ n : List Byte, let x := exec (.attestationRequest n) s
      let i := u.blockNext
      (s.fwStarted = false → x = .next s) ∧
      (s.fwStarted = true → s.stage ≠ .ready ∨ u.waiting ≠ none → x = .next { s with mctpBusy := true }) ∧
      (s.fwStarted = true → s.stage = .ready → u.waiting = none → u.noSign = true → x = .next { s with mctpBusy := false }) ∧
      (s.fwStarted = true → s.stage = .ready → u.waiting = none → u.noSign = false →
        if s.rpmbGone = true then ∃ m f, x = .next { s with mctpBusy := false, regs := m, flt := f } ∧ ({ s with regs := m } : State).errSet .secu 0 2 = true
        else if i < u.blockEnd then
          if u.bottom ≤ i / 1024 then x = .next { s with mctpBusy := false, secu := { u with waiting := some n, building := true } }
          else x = .next { s with mctpBusy := false, secu := { u with
            blockNext := i + 1, waiting := none
            building := u.building || (decide (768 ≤ i % 1024) && decide (u.bottom = i / 1024 + 1))
            report := s.reportBytes n i ++ Config.identitySign i (s.reportBytes n i) ++ s.flash.identity ++ s.flash.cert } }
        else if 2 ^ 30 ≤ s.flash.nextFree then ∃ m f, x = .next { s with mctpBusy := false, regs := m, flt := f } ∧ ({ s with regs := m } : State).errSet .secu 0 3 = true
        else x = .next { s with mctpBusy := false, secu := { u with waiting := some n, reserving := true } })) ∧
    (∀ ok : Bool, let x := exec (.indexReservationAck ok) s
      let b := s.flash.nextFree
      (u.reserving = false → x = .next s) ∧
      (u.reserving = true → ok = true → s.rpmbGone = false → u.waiting = none → x = .next { s with
        flash := { s.flash with nextFree := b + 64 }, secu := { u with reserving := false, blockNext := b, blockEnd := b + 64 } }) ∧
      (u.reserving = true → ok = true → s.rpmbGone = false → ∀ n, u.waiting = some n → ∃ v, x = .next { s with flash := { s.flash with nextFree := b + 64 }, secu := v } ∧
        if u.bottom ≤ b / 1024 then v = { u with reserving := false, blockNext := b, blockEnd := b + 64, building := true }
        else v.waiting = none ∧ v.blockNext = b + 1 ∧ v.blockEnd = b + 64) ∧
      (u.reserving = true → ok = false ∨ s.rpmbGone = true → ∃ k m f, (k = b ∨ k = b + 64) ∧
        x = .next { s with draws := s.draws + 1, flash := { s.flash with nextFree := k }, secu := { u with reserving := false, waiting := none }, regs := m, flt := f } ∧
        ({ s with regs := m } : State).errSet .secu 0 2 = true)) ∧
    ((u.building = false → exec .bottomTreeReady s = .next s) ∧
      (u.building = true → u.waiting = none → exec .bottomTreeReady s = .next { s with secu := { u with building := false, bottom := u.bottom + 1 } })) ∧
    (∀ t : List Byte, let x := exec (.debugToken t) s
      if s.fwStarted = false ∨ u.sealed = true then x = .next s
      else if s.tokenGood t = true then x = .next { s with draws := s.draws + 1, secu := { u with
        debug := max u.debug (tokenLevel t), nonce := Config.nonce s.draws, noSign := u.noSign || max u.debug (tokenLevel t) == 2 } }
      else ∃ m f, x = .next { s with regs := m, flt := f } ∧ ({ s with regs := m } : State).errSet .secu 0 1 = true) ∧
    (∀ v : Word, exec (.seal v) s = if s.fwStarted = true ∧ bit v 0 = true then .next { s with secu := { u with sealed := true } } else .next s) ∧
    (∀ v : Word, exec (.svnCommit v) s =
      if s.fwStarted = true ∧ bit v 31 = true then .next { s with fuses := { s.fuses with rollback := max s.fuses.rollback u.svn } } else .next s) ∧
    ∀ (c : List Byte) (done : Bool), let x := exec (.firmwareUpdate c done) s
      let b := !(u.running.getD s.flash.preferB)
      if s.fwStarted = false ∧ s.stage ≠ .recovery then x = .next s
      else x = .next { s with flash := { s.flash with
        copyA := if b then s.flash.copyA else c
        copyB := if b then c else s.flash.copyB
        preferB := if done = true ∧ s.copyGood c = true then b else s.flash.preferB } }
end

