-- ==== Sys2Proof/Laws/Sparse.lean ====
section
/-! SUPPORT. The laws of the sparse maps and memories: a read after a write, and that every operation keeps the canonical form. -/

namespace Sys2Proof.Machine

section
variable {α : Type} {d : Nat → α}

@[simp] theorem Sparse.above_nil (k : Nat) : Sparse.above k ([] : List (Nat × α)) = true := rfl

@[simp] theorem Sparse.above_cons (k k' : Nat) (v : α) (t : List (Nat × α)) :
    Sparse.above k ((k', v) :: t) = (decide (k < k') && Sparse.above k t) := rfl

theorem Sparse.above_of_lt {j k : Nat} {m : List (Nat × α)} (h : Sparse.above k m = true) (hj : j ≤ k) : Sparse.above j m = true := by
  simp only [Sparse.above, List.all_eq_true, decide_eq_true_eq] at h ⊢
  exact fun e he => lt_of_le_of_lt hj (h e he)

/-- A key below every listed key reads as an unlisted one. -/
theorem Sparse.get_of_above {k : Nat} {m : List (Nat × α)} (h : Sparse.above k m = true) : Sparse.get d m k = d k := by
  induction m with
  | nil => rfl
  | cons e t ih =>
    obtain ⟨k', v⟩ := e
    simp only [Sparse.above, List.all_cons, Bool.and_eq_true, decide_eq_true_eq] at h
    simp only [Sparse.get, if_neg (Nat.ne_of_lt h.1)]
    exact ih h.2

theorem Sparse.above_insert {j k : Nat} {v : α} {m : List (Nat × α)} (h : Sparse.above j m = true) (hk : j < k) :
    Sparse.above j (Sparse.insert m k v) = true := by
  induction m with
  | nil => simp [Sparse.insert, hk]
  | cons e t ih =>
    obtain ⟨k', v'⟩ := e
    rw [Sparse.above_cons, Bool.and_eq_true, decide_eq_true_eq] at h
    simp only [Sparse.insert]
    split_ifs <;> simp [h, hk, ih h.2]

theorem Sparse.above_erase {j k : Nat} {m : List (Nat × α)} (h : Sparse.above j m = true) : Sparse.above j (Sparse.erase m k) = true := by
  induction m with
  | nil => rfl
  | cons e t ih =>
    obtain ⟨k', v'⟩ := e
    rw [Sparse.above_cons, Bool.and_eq_true, decide_eq_true_eq] at h
    simp only [Sparse.erase]
    split_ifs <;> simp [h, ih h.2]

theorem Sparse.get_insert_same (k : Nat) (v : α) (m : List (Nat × α)) : Sparse.get d (Sparse.insert m k v) k = v := by
  induction m with
  | nil => simp [Sparse.insert, Sparse.get]
  | cons e t ih =>
    obtain ⟨k', v'⟩ := e
    simp only [Sparse.insert]
    split_ifs with h1 h2
    · simp [Sparse.get]
    · simp [Sparse.get]
    · simp [Sparse.get, ih, h2]

theorem Sparse.get_insert_other {j k : Nat} (v : α) (m : List (Nat × α)) (h : j ≠ k) :
    Sparse.get d (Sparse.insert m k v) j = Sparse.get d m j := by
  induction m with
  | nil => simp [Sparse.insert, Sparse.get, h]
  | cons e t ih =>
    obtain ⟨k', v'⟩ := e
    simp only [Sparse.insert]
    split_ifs with h1 h2
    · simp [Sparse.get, h]
    · subst h2; simp [Sparse.get, h]
    · simp [Sparse.get, ih]

theorem Sparse.get_erase_other {j k : Nat} (m : List (Nat × α)) (h : j ≠ k) : Sparse.get d (Sparse.erase m k) j = Sparse.get d m j := by
  induction m with
  | nil => rfl
  | cons e t ih =>
    obtain ⟨k', v'⟩ := e
    simp only [Sparse.erase]
    split_ifs with h1
    · subst h1; simp [Sparse.get, h]
    · simp [Sparse.get, ih]

theorem Sparse.mem_erase {k : Nat} {m : List (Nat × α)} {e : Nat × α} (h : e ∈ Sparse.erase m k) : e ∈ m := by
  induction m with
  | nil => exact h
  | cons a t ih =>
    simp only [Sparse.erase] at h
    split at h
    · exact List.mem_cons_of_mem _ h
    · rcases List.mem_cons.1 h with rfl | h
      · exact List.mem_cons_self
      · exact List.mem_cons_of_mem _ (ih h)

theorem Sparse.mem_insert {k : Nat} {v : α} {m : List (Nat × α)} {e : Nat × α} (h : e ∈ Sparse.insert m k v) : e = (k, v) ∨ e ∈ m := by
  induction m with
  | nil => exact Or.inl (List.mem_singleton.1 h)
  | cons a t ih =>
    obtain ⟨k', v'⟩ := a
    simp only [Sparse.insert] at h
    split at h
    · exact List.mem_cons.1 h
    · split at h
      · rcases List.mem_cons.1 h with h | h
        · exact Or.inl h
        · exact Or.inr (List.mem_cons_of_mem _ h)
      · rcases List.mem_cons.1 h with rfl | h
        · exact Or.inr List.mem_cons_self
        · rcases ih h with h | h
          · exact Or.inl h
          · exact Or.inr (List.mem_cons_of_mem _ h)

/-- What holds of every listed value and of the value of unlisted keys holds of what is read. -/
theorem Sparse.get_of_all {P : α → Prop} {m : List (Nat × α)} {k : Nat} (h : ∀ e ∈ m, P e.2) (hd : P (d k)) : P (Sparse.get d m k) := by
  induction m with
  | nil => exact hd
  | cons a t ih =>
    simp only [Sparse.get]
    split
    · exact h a List.mem_cons_self
    · exact ih (fun e he => h e (List.mem_cons_of_mem _ he))

variable [DecidableEq α]

theorem Sparse.mem_set {k : Nat} {v : α} {m : List (Nat × α)} {e : Nat × α} (h : e ∈ Sparse.set d m k v) : e = (k, v) ∨ e ∈ m := by
  unfold Sparse.set at h
  split at h
  · exact Or.inr (Sparse.mem_erase h)
  · exact Sparse.mem_insert h

theorem Sparse.get_erase_same {k : Nat} {m : List (Nat × α)} (h : Sparse.wf d m = true) : Sparse.get d (Sparse.erase m k) k = d k := by
  induction m with
  | nil => rfl
  | cons e t ih =>
    obtain ⟨k', v'⟩ := e
    simp only [Sparse.wf, Bool.and_eq_true] at h
    simp only [Sparse.erase]
    split_ifs with h1
    · subst h1; exact Sparse.get_of_above h.1.1
    · simp [Sparse.get, h1, ih h.2]

/-- A read of another key after a write gives what it gave before. -/
@[simp] theorem Sparse.get_set_other {j k : Nat} (v : α) (m : List (Nat × α)) (h : j ≠ k) :
    Sparse.get d (Sparse.set d m k v) j = Sparse.get d m j := by
  unfold Sparse.set
  split
  · exact Sparse.get_erase_other m h
  · exact Sparse.get_insert_other v m h

/-- A read of the written key gives the value, in a map of canonical form. -/
theorem Sparse.get_set_same {k : Nat} (v : α) {m : List (Nat × α)} (h : Sparse.wf d m = true) : Sparse.get d (Sparse.set d m k v) k = v := by
  unfold Sparse.set
  split
  · next hv => rw [Sparse.get_erase_same h, hv]
  · exact Sparse.get_insert_same k v m

/-- A read of the written key gives any value but that of an unlisted key, in every map. -/
theorem Sparse.get_set_new {k : Nat} {v : α} (m : List (Nat × α)) (h : v ≠ d k) : Sparse.get d (Sparse.set d m k v) k = v := by
  unfold Sparse.set
  rw [if_neg h]
  exact Sparse.get_insert_same k v m

theorem Sparse.wf_insert {k : Nat} {v : α} {m : List (Nat × α)} (h : Sparse.wf d m = true) (hv : v ≠ d k) :
    Sparse.wf d (Sparse.insert m k v) = true := by
  induction m with
  | nil => simp [Sparse.insert, Sparse.wf, Sparse.above, hv]
  | cons e t ih =>
    obtain ⟨k', v'⟩ := e
    simp only [Sparse.wf, Bool.and_eq_true, decide_eq_true_eq] at h
    simp only [Sparse.insert]
    split_ifs with h1 h2
    · simp only [Sparse.wf, Bool.and_eq_true, decide_eq_true_eq]
      refine ⟨⟨?_, hv⟩, h⟩
      rw [Sparse.above_cons, Sparse.above_of_lt h.1.1 (Nat.le_of_lt h1)]
      simp [h1]
    · subst h2
      simp only [Sparse.wf, Bool.and_eq_true, decide_eq_true_eq]
      exact ⟨⟨h.1.1, hv⟩, h.2⟩
    · simp only [Sparse.wf, Bool.and_eq_true, decide_eq_true_eq]
      exact ⟨⟨Sparse.above_insert h.1.1 (by omega), h.1.2⟩, ih h.2⟩

theorem Sparse.wf_erase {k : Nat} {m : List (Nat × α)} (h : Sparse.wf d m = true) : Sparse.wf d (Sparse.erase m k) = true := by
  induction m with
  | nil => rfl
  | cons e t ih =>
    obtain ⟨k', v'⟩ := e
    simp only [Sparse.wf, Bool.and_eq_true] at h
    simp only [Sparse.erase]
    split_ifs with h1
    · exact h.2
    · simp only [Sparse.wf, Bool.and_eq_true]
      exact ⟨⟨Sparse.above_erase h.1.1, h.1.2⟩, ih h.2⟩

/-- A write keeps the canonical form. -/
theorem Sparse.wf_set {k : Nat} (v : α) {m : List (Nat × α)} (h : Sparse.wf d m = true) : Sparse.wf d (Sparse.set d m k v) = true := by
  unfold Sparse.set
  split
  · exact Sparse.wf_erase h
  · next hv => exact Sparse.wf_insert h hv

/-- Canonical maps that read alike everywhere are equal. -/
theorem Sparse.ext [DecidableEq α] : ∀ {m n : List (Nat × α)}, Sparse.wf d m = true → Sparse.wf d n = true →
    (∀ k, Sparse.get d m k = Sparse.get d n k) → m = n
  | [], [], _, _, _ => rfl
  | [], (k, v) :: t, _, hn, h => by
    simp only [Sparse.wf, Bool.and_eq_true, decide_eq_true_eq] at hn
    have := h k; simp only [Sparse.get, if_pos] at this
    exact absurd this.symm hn.1.2
  | (k, v) :: t, [], hm, _, h => by
    simp only [Sparse.wf, Bool.and_eq_true, decide_eq_true_eq] at hm
    have := h k; simp only [Sparse.get, if_pos] at this
    exact absurd this hm.1.2
  | (k, v) :: t, (j, w) :: u, hm, hn, h => by
    simp only [Sparse.wf, Bool.and_eq_true, decide_eq_true_eq] at hm hn
    have low : ∀ (i j : Nat) (v w : α) (t u : List (Nat × α)), v ≠ d i → Sparse.above j u = true → i < j →
        Sparse.get d ((i, v) :: t) i ≠ Sparse.get d ((j, w) :: u) i := by
      intro i j v w t u hv hu hl
      simp only [Sparse.get, if_pos, if_neg (Nat.ne_of_lt hl)]
      rw [Sparse.get_of_above (Sparse.above_of_lt hu (Nat.le_of_lt hl))]
      exact hv
    have hk : k = j := by
      rcases Nat.lt_trichotomy k j with hl | hl | hl
      · exact absurd (h k) (low k j v w t u hm.1.2 hn.1.1 hl)
      · exact hl
      · exact absurd (h j).symm (low j k w v u t hn.1.2 hm.1.1 hl)
    subst hk
    have hv : v = w := by have := h k; simpa [Sparse.get] using this
    subst hv
    rw [Sparse.ext (m := t) (n := u) hm.2 hn.2]
    intro i
    by_cases hi : i = k
    · subst hi; rw [Sparse.get_of_above hm.1.1, Sparse.get_of_above hn.1.1]
    · have := h i; simpa [Sparse.get, if_neg hi] using this

/-- The later of two writes at one key stands. -/
theorem Sparse.set_set [DecidableEq α] {m : List (Nat × α)} (h : Sparse.wf d m = true) (k : Nat) (v w : α) :
    Sparse.set d (Sparse.set d m k v) k w = Sparse.set d m k w := by
  refine Sparse.ext (Sparse.wf_set w (Sparse.wf_set v h)) (Sparse.wf_set w h) (fun j => ?_)
  by_cases hj : j = k
  · subst hj; rw [Sparse.get_set_same w (Sparse.wf_set v h), Sparse.get_set_same w h]
  · rw [Sparse.get_set_other w _ hj, Sparse.get_set_other v _ hj, Sparse.get_set_other w _ hj]

/-- Taking entries out keeps the canonical form. -/
theorem Sparse.wf_filter (p : Nat × α → Bool) {m : List (Nat × α)} (h : Sparse.wf d m = true) : Sparse.wf d (m.filter p) = true := by
  induction m with
  | nil => rfl
  | cons e t ih =>
    obtain ⟨k', v'⟩ := e
    simp only [Sparse.wf, Bool.and_eq_true] at h
    rw [List.filter_cons]
    split_ifs with h1
    · simp only [Sparse.wf, Bool.and_eq_true]
      refine ⟨⟨?_, h.1.2⟩, ih h.2⟩
      have h0 := h.1.1
      simp only [Sparse.above, List.all_eq_true, decide_eq_true_eq, List.mem_filter] at h0 ⊢
      exact fun e he => h0 e he.1
    · exact ih h.2

theorem Sparse.above_map {β : Type} (f : α → β) {j : Nat} {m : List (Nat × α)} (h : Sparse.above j m = true) :
    Sparse.above j (m.map (fun e => (e.1, f e.2))) = true := by
  simp only [Sparse.above, List.all_eq_true, decide_eq_true_eq, List.mem_map] at h ⊢
  rintro _ ⟨e, he, rfl⟩
  exact h e he

/-- Changing every value and taking out what an unlisted key reads as keeps the canonical form. -/
theorem Sparse.wf_map_filter {β : Type} [DecidableEq β] (f : α → β) (b : β) {m : List (Nat × α)} (h : Sparse.wf d m = true) :
    Sparse.wf (fun _ => b) ((m.map (fun e => (e.1, f e.2))).filter (fun e => e.2 ≠ b)) = true := by
  induction m with
  | nil => rfl
  | cons a t ih =>
    obtain ⟨k, v⟩ := a
    simp only [Sparse.wf, Bool.and_eq_true] at h
    rw [List.map_cons, List.filter_cons]
    split_ifs with hb
    · simp only [Sparse.wf, Bool.and_eq_true, decide_eq_true_eq]
      refine ⟨⟨?_, of_decide_eq_true hb⟩, ih h.2⟩
      have h0 := Sparse.above_map f h.1.1
      simp only [Sparse.above, List.all_eq_true, decide_eq_true_eq, List.mem_filter] at h0 ⊢
      exact fun e he => h0 e he.1
    · exact ih h.2

end

/-- Writing bytes keeps a memory's canonical form. -/
theorem Memory.wf_write (l : List Byte) {m : List (Nat × Byte)} {a : Nat} (h : Memory.wf m = true) : Memory.wf (Memory.write m a l) = true := by
  induction l generalizing m a with
  | nil => exact h
  | cons v t ih => exact ih (Sparse.wf_set v h)

theorem Memory.wf_setWord {m : List (Nat × Byte)} {a : Nat} (w : Word) (h : Memory.wf m = true) : Memory.wf (Memory.setWord m a w) = true :=
  Memory.wf_write _ h

theorem Memory.wf_setDword {m : List (Nat × Byte)} {a : Nat} (w : Dword) (h : Memory.wf m = true) :
    Memory.wf (Memory.setDword m a w) = true :=
  Memory.wf_write _ h

theorem Memory.wf_clear {m : List (Nat × Byte)} {a n : Nat} (h : Memory.wf m = true) : Memory.wf (Memory.clear m a n) = true :=
  Sparse.wf_filter _ h

/-- A byte outside the written range reads as before. -/
theorem Memory.byte_write_other (l : List Byte) {m : List (Nat × Byte)} {a x : Nat} (h : x < a ∨ a + l.length ≤ x) :
    Memory.byte (Memory.write m a l) x = Memory.byte m x := by
  induction l generalizing m a with
  | nil => rfl
  | cons v t ih =>
    rw [List.length_cons] at h
    rw [Memory.write, ih (by omega)]
    exact Sparse.get_set_other v m (by omega)

/-- Byte `i` of the written range reads as byte `i` of the list. -/
theorem Memory.byte_write_same (l : List Byte) {m : List (Nat × Byte)} {a i : Nat} (h : Memory.wf m = true) (hi : i < l.length) :
    Memory.byte (Memory.write m a l) (a + i) = l[i] := by
  induction l generalizing m a i with
  | nil => simp at hi
  | cons v t ih =>
    rw [Memory.write]
    cases i with
    | zero =>
      rw [Memory.byte_write_other t (by omega)]
      exact Sparse.get_set_same v h
    | succ i =>
      have := ih (a := a + 1) (Sparse.wf_set v h (k := a)) (i := i) (by simpa using hi)
      rwa [Nat.add_assoc, Nat.add_comm 1 i] at this

end Sys2Proof.Machine
end

