-- ==== Sys2Proof/Laws/Good.lean ====
section
/-! SUPPORT. How a run stays good: the rules by which an operation keeps the queue, the fuses and the invariant, whatever else it changes. -/

namespace Sys2Proof.Machine

section
variable {s0 x : State}

variable {stamp' : Dword} {draws' : Nat} {countFrom' : Nat} {flash' : Flash} {straps' : BitVec 4} {mctpBusy' : Bool} {powered' : Bool} {stage' :
  Stage} {tms' : Nat} {fwStarted' : Bool} {refLost' : Bool} {plateLost' : Bool} {resetPending' : Bool} {alert' : Bool} {dgen' : Nat}
  {dgenBusy' : Bool} {tableArea' : List TableRow} {coresMode' : CoresMode} {boundsHeld' : List Nat} {links' : List (Nat × Link)} {ways'
  : List (Nat × Way)} {packets' : List Packet} {packetNext' : Nat} {delivered' : List Packet} {passed' : List ChNode} {oneLeft' : List
  ChNode} {treeMoved' : List ChNode} {barrierTimer' : Bool} {lateSent' : Option Nat} {timeMsg' : Option Dword} {nodeClocks' : List (Nat
  × NodeClock)} {sliceIn' : List SliceMsg} {tier' : List (Nat × StackSt)} {streams' : List (Nat × Stream)} {seq' : Seq} {images' : List
  (Nat × ImageSt)} {chans' : List (Nat × ChannelSt)} {frames' : List (Nat × Nat)} {columns' : List (Nat × Nat)} {nodes' : List NodeSt}
  {copies' : List Nat} {backups' : List (Nat × Nat)} {ringCopies' : List (Nat × Nat)} {grammarChecks' : List Nat} {zports' : List (Nat ×
  ZPort)} {uncabled' : List Nat} {sliceFailed' : Bool} {portOut' : List (Nat × CtlMsg)} {gen' : GenSt} {forwarding' : Bool} {portA' :
  Port} {portB' : Port} {msix' : List (Nat × Nat)} {basins' : List (Nat × BasinSt)} {west' : HalfSt} {east' : HalfSt} {powerSteps' :
  List PowerStep} {cool' : Cool} {sites' : List (Nat × SiteSt)} {heartbeats' : Nat} {unav' : Nat} {flt' : Flt}

/-- A state with the same queue, fuses, registers, memories and SECU block is as good. -/
@[simp] theorem good_mk :
    Good s0 (State.mk x.pending stamp' draws' countFrom' x.fuses flash' straps' mctpBusy' powered' stage' tms' fwStarted' refLost' plateLost'
  resetPending' alert' dgen' dgenBusy' tableArea' x.regs x.berths x.cores coresMode' boundsHeld' links' ways' packets' packetNext'
  delivered' passed' oneLeft' treeMoved' barrierTimer' lateSent' timeMsg' nodeClocks' sliceIn' tier' x.hbm streams' seq' images' chans'
  frames' columns' nodes' copies' backups' ringCopies' grammarChecks' zports' uncabled' sliceFailed' portOut' gen' forwarding' portA'
  portB' msix' x.hostMem basins' west' east' powerSteps' cool' sites' heartbeats' unav' flt' x.secu) ↔ Good s0 x :=
  ⟨fun h => ⟨⟨h.kept.1, h.kept.2, h.kept.3, h.kept.4, h.kept.5, h.kept.6, h.kept.7, h.kept.8⟩, ⟨h.inv.1, h.inv.2, h.inv.3, h.inv.4, h.inv.5, h.inv.6, h.inv.7, h.inv.8, h.inv.9⟩⟩,
   fun h => ⟨⟨h.kept.1, h.kept.2, h.kept.3, h.kept.4, h.kept.5, h.kept.6, h.kept.7, h.kept.8⟩, ⟨h.inv.1, h.inv.2, h.inv.3, h.inv.4, h.inv.5, h.inv.6, h.inv.7, h.inv.8, h.inv.9⟩⟩⟩

/-- So it is with another SECU block of the same SVN. -/
@[simp] theorem good_mk_svn {u : Secu} (hu : u.svn = x.secu.svn) :
    Good s0 (State.mk x.pending stamp' draws' countFrom' x.fuses flash' straps' mctpBusy' powered' stage' tms' fwStarted' refLost' plateLost'
  resetPending' alert' dgen' dgenBusy' tableArea' x.regs x.berths x.cores coresMode' boundsHeld' links' ways' packets' packetNext'
  delivered' passed' oneLeft' treeMoved' barrierTimer' lateSent' timeMsg' nodeClocks' sliceIn' tier' x.hbm streams' seq' images' chans'
  frames' columns' nodes' copies' backups' ringCopies' grammarChecks' zports' uncabled' sliceFailed' portOut' gen' forwarding' portA'
  portB' msix' x.hostMem basins' west' east' powerSteps' cool' sites' heartbeats' unav' flt' u) ↔ Good s0 x :=
  ⟨fun h => ⟨⟨h.kept.1, h.kept.2, h.kept.3, h.kept.4, h.kept.5, h.kept.6, h.kept.7, h.kept.8⟩, ⟨h.inv.1, h.inv.2, h.inv.3, h.inv.4, hu ▸ h.inv.5, h.inv.6, h.inv.7, h.inv.8, h.inv.9⟩⟩,
   fun h => ⟨⟨h.kept.1, h.kept.2, h.kept.3, h.kept.4, h.kept.5, h.kept.6, h.kept.7, h.kept.8⟩, ⟨h.inv.1, h.inv.2, h.inv.3, h.inv.4, hu.symm ▸ h.inv.5, h.inv.6, h.inv.7, h.inv.8, h.inv.9⟩⟩⟩

/-- Registers may change to registers in canonical form. -/
theorem good_mk_regs {m : List (Nat × Word)} (h : Good s0 x) (hm : Sparse.wf regReset m = true) :
    Good s0 (State.mk x.pending stamp' draws' countFrom' x.fuses flash' straps' mctpBusy' powered' stage' tms' fwStarted' refLost' plateLost'
  resetPending' alert' dgen' dgenBusy' tableArea' m x.berths x.cores coresMode' boundsHeld' links' ways' packets' packetNext' delivered'
  passed' oneLeft' treeMoved' barrierTimer' lateSent' timeMsg' nodeClocks' sliceIn' tier' x.hbm streams' seq' images' chans' frames'
  columns' nodes' copies' backups' ringCopies' grammarChecks' zports' uncabled' sliceFailed' portOut' gen' forwarding' portA' portB'
  msix' x.hostMem basins' west' east' powerSteps' cool' sites' heartbeats' unav' flt' x.secu) :=
  ⟨⟨h.kept.1, h.kept.2, h.kept.3, h.kept.4, h.kept.5, h.kept.6, h.kept.7, h.kept.8⟩, ⟨h.inv.1, h.inv.2, hm, h.inv.4, h.inv.5, h.inv.6, h.inv.7, h.inv.8, h.inv.9⟩⟩

/-- The slower tier may change to a memory in canonical form. -/
theorem good_mk_hbm {m : List (Nat × Byte)} (h : Good s0 x) (hm : Memory.wf m = true) :
    Good s0 (State.mk x.pending stamp' draws' countFrom' x.fuses flash' straps' mctpBusy' powered' stage' tms' fwStarted' refLost' plateLost'
  resetPending' alert' dgen' dgenBusy' tableArea' x.regs x.berths x.cores coresMode' boundsHeld' links' ways' packets' packetNext'
  delivered' passed' oneLeft' treeMoved' barrierTimer' lateSent' timeMsg' nodeClocks' sliceIn' tier' m streams' seq' images' chans'
  frames' columns' nodes' copies' backups' ringCopies' grammarChecks' zports' uncabled' sliceFailed' portOut' gen' forwarding' portA'
  portB' msix' x.hostMem basins' west' east' powerSteps' cool' sites' heartbeats' unav' flt' x.secu) :=
  ⟨⟨h.kept.1, h.kept.2, h.kept.3, h.kept.4, h.kept.5, h.kept.6, h.kept.7, h.kept.8⟩, ⟨hm, h.inv.2, h.inv.3, h.inv.4, h.inv.5, h.inv.6, h.inv.7, h.inv.8, h.inv.9⟩⟩

/-- Host memory may change to a memory in canonical form. -/
theorem good_mk_hostMem {m : List (Nat × Byte)} (h : Good s0 x) (hm : Memory.wf m = true) :
    Good s0 (State.mk x.pending stamp' draws' countFrom' x.fuses flash' straps' mctpBusy' powered' stage' tms' fwStarted' refLost' plateLost'
  resetPending' alert' dgen' dgenBusy' tableArea' x.regs x.berths x.cores coresMode' boundsHeld' links' ways' packets' packetNext'
  delivered' passed' oneLeft' treeMoved' barrierTimer' lateSent' timeMsg' nodeClocks' sliceIn' tier' x.hbm streams' seq' images' chans'
  frames' columns' nodes' copies' backups' ringCopies' grammarChecks' zports' uncabled' sliceFailed' portOut' gen' forwarding' portA'
  portB' msix' m basins' west' east' powerSteps' cool' sites' heartbeats' unav' flt' x.secu) :=
  ⟨⟨h.kept.1, h.kept.2, h.kept.3, h.kept.4, h.kept.5, h.kept.6, h.kept.7, h.kept.8⟩, ⟨h.inv.1, hm, h.inv.3, h.inv.4, h.inv.5, h.inv.6, h.inv.7, h.inv.8, h.inv.9⟩⟩

/-- The SECU block may change to one whose SVN lies within 0 to 64. -/
theorem good_mk_secu {u : Secu} (h : Good s0 x) (hu : u.svn ≤ 64) :
    Good s0 (State.mk x.pending stamp' draws' countFrom' x.fuses flash' straps' mctpBusy' powered' stage' tms' fwStarted' refLost' plateLost'
  resetPending' alert' dgen' dgenBusy' tableArea' x.regs x.berths x.cores coresMode' boundsHeld' links' ways' packets' packetNext'
  delivered' passed' oneLeft' treeMoved' barrierTimer' lateSent' timeMsg' nodeClocks' sliceIn' tier' x.hbm streams' seq' images' chans'
  frames' columns' nodes' copies' backups' ringCopies' grammarChecks' zports' uncabled' sliceFailed' portOut' gen' forwarding' portA'
  portB' msix' x.hostMem basins' west' east' powerSteps' cool' sites' heartbeats' unav' flt' u) :=
  ⟨⟨h.kept.1, h.kept.2, h.kept.3, h.kept.4, h.kept.5, h.kept.6, h.kept.7, h.kept.8⟩, ⟨h.inv.1, h.inv.2, h.inv.3, h.inv.4, hu, h.inv.6, h.inv.7, h.inv.8, h.inv.9⟩⟩

/-- Cores may change to cores in canonical form. -/
theorem good_mk_cores {m : List (Nat × Core)} (h : Good s0 x) (hm : Sparse.wf (fun _ => ({} : Core)) m = true) (hc : ∀ e ∈ m, CoreOk e.2) :
    Good s0 (State.mk x.pending stamp' draws' countFrom' x.fuses flash' straps' mctpBusy' powered' stage' tms' fwStarted' refLost' plateLost'
  resetPending' alert' dgen' dgenBusy' tableArea' x.regs x.berths m coresMode' boundsHeld' links' ways' packets' packetNext' delivered'
  passed' oneLeft' treeMoved' barrierTimer' lateSent' timeMsg' nodeClocks' sliceIn' tier' x.hbm streams' seq' images' chans' frames'
  columns' nodes' copies' backups' ringCopies' grammarChecks' zports' uncabled' sliceFailed' portOut' gen' forwarding' portA' portB'
  msix' x.hostMem basins' west' east' powerSteps' cool' sites' heartbeats' unav' flt' x.secu) :=
  ⟨⟨h.kept.1, h.kept.2, h.kept.3, h.kept.4, h.kept.5, h.kept.6, h.kept.7, h.kept.8⟩,
   ⟨h.inv.1, h.inv.2, h.inv.3, h.inv.4, h.inv.5, hm, hc, h.inv.8, h.inv.9⟩⟩

/-- Berths may change to berths in canonical form. -/
theorem good_mk_berths {m : List (Nat × BerthSt)} (h : Good s0 x) (hm : Sparse.wf (fun _ => ({} : BerthSt)) m = true)
    (hb : ∀ e ∈ m, Memory.wf e.2.store = true) :
    Good s0 (State.mk x.pending stamp' draws' countFrom' x.fuses flash' straps' mctpBusy' powered' stage' tms' fwStarted' refLost' plateLost'
  resetPending' alert' dgen' dgenBusy' tableArea' x.regs m x.cores coresMode' boundsHeld' links' ways' packets' packetNext' delivered'
  passed' oneLeft' treeMoved' barrierTimer' lateSent' timeMsg' nodeClocks' sliceIn' tier' x.hbm streams' seq' images' chans' frames'
  columns' nodes' copies' backups' ringCopies' grammarChecks' zports' uncabled' sliceFailed' portOut' gen' forwarding' portA' portB'
  msix' x.hostMem basins' west' east' powerSteps' cool' sites' heartbeats' unav' flt' x.secu) :=
  ⟨⟨h.kept.1, h.kept.2, h.kept.3, h.kept.4, h.kept.5, h.kept.6, h.kept.7, h.kept.8⟩,
   ⟨h.inv.1, h.inv.2, h.inv.3, h.inv.4, h.inv.5, h.inv.6, h.inv.7, hm, hb⟩⟩

/-- Every core of a good state is in canonical form. -/
theorem core_ok {c : Nat} (h : Good s0 x) : CoreOk (x.core c) := Sparse.get_of_all h.inv.core ⟨rfl, rfl, rfl⟩

/-- Every store die of a good state is in canonical form. -/
theorem store_ok {b : Nat} (h : Good s0 x) : Memory.wf (x.berth b).store = true :=
  Sparse.get_of_all (P := fun (y : BerthSt) => Memory.wf y.store = true) h.inv.store rfl

theorem good_setCore {c : Nat} {k : Core} (hk : CoreOk k) (h : Good s0 x) : Good s0 (x.setCore c k) :=
  good_mk_cores h (Sparse.wf_set _ h.inv.cores) (fun e he => by
    rcases Sparse.mem_set he with rfl | he
    · exact hk
    · exact h.inv.core e he)

theorem good_setBerth {b : Nat} {y : BerthSt} (hy : Memory.wf y.store = true) (h : Good s0 x) : Good s0 (x.setBerth b y) :=
  good_mk_berths h (Sparse.wf_set _ h.inv.berths) (fun e he => by
    rcases Sparse.mem_set he with rfl | he
    · exact hy
    · exact h.inv.store e he)

end

theorem wf_putLanes {m : List (Nat × Word)} {r : VReg} {i : Nat} (l : List Word) (h : Sparse.wf (fun _ => (0 : Word)) m = true) :
    Sparse.wf (fun _ => (0 : Word)) (putLanes m r i l) = true := by
  induction l generalizing m i with
  | nil => exact h
  | cons w t ih => exact ih (Sparse.wf_set w h)

/-- A core with the same registers and scratchpad is as good. -/
@[simp] theorem ok_mk {k : Core} 
    {st' : CoreSt} {pc' : Nat} {tshape' : Word} {tfmt' : Word} {tbound' : Word} {sent' : List Nat} {cancelled' : List Nat} {landed' : List (Nat × Nat)} {readable' : List Nat} {tile' : Option Tile} {reads' : List LineWait} {dyn' : List DynReq} {issued' : Nat} {lines' : Nat} {requests' : Nat} {acc' : List Word} {damage' : List (Nat × Bool)} {slot' : Nat} {stalled' : Bool} : CoreOk (Core.mk st' pc' k.g k.v k.scratch tshape' tfmt' tbound' sent' cancelled' landed' readable' tile' reads' dyn' issued' lines' requests' acc' damage' slot' stalled') ↔ CoreOk k :=
  ⟨fun h => ⟨h.1, h.2, h.3⟩, fun h => ⟨h.1, h.2, h.3⟩⟩

/-- A write of the scratchpad keeps a core's canonical form. -/
theorem ok_write {k : Core} 
    {st' : CoreSt} {pc' : Nat} {tshape' : Word} {tfmt' : Word} {tbound' : Word} {sent' : List Nat} {cancelled' : List Nat} {landed' : List (Nat × Nat)} {readable' : List Nat} {tile' : Option Tile} {reads' : List LineWait} {dyn' : List DynReq} {issued' : Nat} {lines' : Nat} {requests' : Nat} {acc' : List Word} {damage' : List (Nat × Bool)} {slot' : Nat} {stalled' : Bool} {a : Nat} {l : List Byte} (h : CoreOk k) :
    CoreOk (Core.mk st' pc' k.g k.v (Memory.write k.scratch a l) tshape' tfmt' tbound' sent' cancelled' landed' readable' tile' reads' dyn' issued' lines' requests' acc' damage' slot' stalled') := ⟨h.1, h.2, Memory.wf_write _ h.3⟩

/-- A write of a general register keeps a core's canonical form. -/
theorem ok_setG {k : Core} {r : GReg} {w : Word} (h : CoreOk k) : CoreOk (setG k r w) := by
  unfold setG
  split
  · exact h
  · exact ⟨Sparse.wf_set _ h.1, h.2, h.3⟩

/-- A write of a vector register keeps it. -/
theorem ok_setV {k : Core} {r : VReg} {l : List Word} (h : CoreOk k) : CoreOk (setV k r l) := ⟨h.1, wf_putLanes _ h.2, h.3⟩

theorem good_foldl {α : Type} {s0 : State} {f : State → α → State} (l : List α) {s : State} (h : Good s0 s)
    (hf : ∀ t a, Good s0 t → Good s0 (f t a)) : Good s0 (l.foldl f s) := by
  induction l generalizing s with
  | nil => exact h
  | cons a l ih => exact ih (hf s a h)

theorem good_foldlM {α : Type} {s0 : State} {f : State → α → Option State} (hf : ∀ t a u, f t a = some u → Good s0 t → Good s0 u)
    (l : List α) {s u : State} (he : l.foldlM f s = some u) (h : Good s0 s) : Good s0 u := by
  induction l generalizing s with
  | nil => cases he; exact h
  | cons a l ih =>
    rw [List.foldlM_cons, Option.bind_eq_bind, Option.bind_eq_some_iff] at he
    obtain ⟨t, ht, hu⟩ := he
    exact ih hu (hf s a t ht h)

end Sys2Proof.Machine
end

