-- ==== Sys2Proof/Laws/GoodOps.lean ====
section
/-! SUPPORT. Every operation of Ops keeps a run good. -/

namespace Sys2Proof.Machine

theorem good_setLink {s0 s : State} {l : Nat} {x : Link} (hg : Good s0 s) : Good s0 (State.setLink s l x) := by
  unfold State.setLink
  repeat' (first | with_reducible assumption | (intro _) | (simp only [good_mk, good_mk_svn, ok_mk]) | split)

theorem good_setWay {s0 s : State} {w : Nat} {x : Way} (hg : Good s0 s) : Good s0 (State.setWay s w x) := by
  unfold State.setWay
  repeat' (first | with_reducible assumption | (intro _) | (simp only [good_mk, good_mk_svn, ok_mk]) | split)

theorem good_setStack {s0 s : State} {k : Nat} {x : StackSt} (hg : Good s0 s) : Good s0 (State.setStack s k x) := by
  unfold State.setStack
  repeat' (first | with_reducible assumption | (intro _) | (simp only [good_mk, good_mk_svn, ok_mk]) | split)

theorem good_setStream {s0 s : State} {i : Nat} {x : Stream} (hg : Good s0 s) : Good s0 (State.setStream s i x) := by
  unfold State.setStream
  repeat' (first | with_reducible assumption | (intro _) | (simp only [good_mk, good_mk_svn, ok_mk]) | split)

theorem good_setImage {s0 s : State} {i : Nat} {x : ImageSt} (hg : Good s0 s) : Good s0 (State.setImage s i x) := by
  unfold State.setImage
  repeat' (first | with_reducible assumption | (intro _) | (simp only [good_mk, good_mk_svn, ok_mk]) | split)

theorem good_setChan {s0 s : State} {i : Nat} {x : ChannelSt} (hg : Good s0 s) : Good s0 (State.setChan s i x) := by
  unfold State.setChan
  repeat' (first | with_reducible assumption | (intro _) | (simp only [good_mk, good_mk_svn, ok_mk]) | split)

theorem good_setZport {s0 s : State} {z : Nat} {x : ZPort} (hg : Good s0 s) : Good s0 (State.setZport s z x) := by
  unfold State.setZport
  repeat' (first | with_reducible assumption | (intro _) | (simp only [good_mk, good_mk_svn, ok_mk]) | split)

theorem good_setBasin {s0 s : State} {n : Nat} {x : BasinSt} (hg : Good s0 s) : Good s0 (State.setBasin s n x) := by
  unfold State.setBasin
  repeat' (first | with_reducible assumption | (intro _) | (simp only [good_mk, good_mk_svn, ok_mk]) | split)

theorem good_setSite {s0 s : State} {i : Nat} {x : SiteSt} (hg : Good s0 s) : Good s0 (State.setSite s i x) := by
  unfold State.setSite
  repeat' (first | with_reducible assumption | (intro _) | (simp only [good_mk, good_mk_svn, ok_mk]) | split)

theorem good_setPort {s0 s : State} {p : HostPort} {x : Port} (hg : Good s0 s) : Good s0 (State.setPort s p x) := by
  unfold State.setPort
  repeat' (first | with_reducible assumption | (intro _) | (simp only [good_mk, good_mk_svn, ok_mk]) | split)

theorem good_setHalf {s0 s : State} {w : Half} {x : HalfSt} (h : Good s0 s) : Good s0 (State.setHalf s w x) := by
  unfold State.setHalf
  cases w <;> simpa only [good_mk] using h

theorem good_setReg {s0 s : State} {b : Blk} {inst off : Nat} {v : Word} (h : Good s0 s) : Good s0 (State.setReg s b inst off v) :=
  good_mk_regs h (Sparse.wf_set v h.inv.regs)

theorem good_setRegI {s0 s : State} {b : Blk} {inst off i : Nat} {v : Word} (h : Good s0 s) :
    Good s0 (State.setRegI s b inst off i v) :=
  good_mk_regs h (Sparse.wf_set v h.inv.regs)

theorem good_count {s0 s : State} {b : Blk} {inst : Nat} {off : Nat} {n : Nat} (hg : Good s0 s) : Good s0 (State.count s b inst off n) := by
  unfold State.count
  repeat' (first | with_reducible assumption | (intro _) | with_reducible apply good_setReg | (simp only [good_mk, good_mk_svn, ok_mk])
                   | split)

theorem good_countSat {s0 s : State} {b : Blk} {inst : Nat} {off : Nat} {hi : Nat} {lo : Nat} (hg : Good s0 s) : Good s0 (State.countSat s
    b inst off hi lo) := by
  unfold State.countSat
  repeat' (first | with_reducible assumption | (intro _) | with_reducible apply good_setReg | (simp only [good_mk, good_mk_svn, ok_mk])
                   | split)

theorem good_drawn {s0 s : State}  (hg : Good s0 s) : Good s0 (State.drawn s) := by
  unfold State.drawn
  repeat' (first | with_reducible assumption | (intro _) | (simp only [good_mk, good_mk_svn, ok_mk]) | split)

theorem good_msi {s0 s : State} {p : Nat} {v : Nat} (hg : Good s0 s) : Good s0 (State.msi s p v) := by
  unfold State.msi
  repeat' (first | with_reducible assumption | (intro _) | (simp only [good_mk, good_mk_svn, ok_mk]) | split)

theorem good_msiFault {s0 s : State}  (hg : Good s0 s) : Good s0 (State.msiFault s) := by
  unfold State.msiFault
  repeat' (first | with_reducible assumption | (intro _) | with_reducible apply good_msi | (simp only [good_mk, good_mk_svn, ok_mk])
                   | split)

theorem good_alerted {s0 s : State}  (hg : Good s0 s) : Good s0 (State.alerted s) := by
  unfold State.alerted
  repeat' (first | with_reducible assumption | (intro _) | (simp only [good_mk, good_mk_svn, ok_mk]) | split)

theorem good_setErrRegs {s0 s : State} {b : Blk} {i : Nat} {e : ErrRegs} (h : Good s0 s) : Good s0 (State.setErrRegs s b i e) :=
  good_mk_regs h (Sparse.wf_set _ (Sparse.wf_set _ (Sparse.wf_set _ (Sparse.wf_set _ (Sparse.wf_set _ h.inv.regs)))))

theorem good_raiseAs {s0 s : State} {b : Blk} {i : Nat} {bit : Nat} {c : ErrClass} (hg : Good s0 s) : Good s0 (State.raiseAs s b i bit c)
    := by
  unfold State.raiseAs
  repeat' (first | with_reducible assumption | (intro _) | with_reducible apply good_setErrRegs | with_reducible apply good_count
                   | (simp only [good_mk, good_mk_svn, ok_mk]) | split)

theorem good_raise {s0 s : State} {b : Blk} {i : Nat} {bit : Nat} (hg : Good s0 s) : Good s0 (State.raise s b i bit) := by
  unfold State.raise
  repeat' (first | with_reducible assumption | (intro _) | with_reducible apply good_raiseAs | (simp only [good_mk, good_mk_svn, ok_mk])
                   | split)

theorem good_raiseOnce {s0 s : State} {b : Blk} {i : Nat} {bit : Nat} (hg : Good s0 s) : Good s0 (State.raiseOnce s b i bit) := by
  unfold State.raiseOnce
  repeat' (first | with_reducible assumption | (intro _) | with_reducible apply good_raise | (simp only [good_mk, good_mk_svn, ok_mk])
                   | split)

theorem good_putStream {s0 s : State} {i : Nat} {x : Stream} (hg : Good s0 s) : Good s0 (State.putStream s i x) := by
  unfold State.putStream
  repeat' (first | with_reducible assumption | (intro _) | with_reducible apply good_setStream | (simp only [good_mk, good_mk_svn, ok_mk])
                   | split)

theorem good_hold {s0 s : State} {i : Nat} {c : Nat} (hg : Good s0 s) : Good s0 (State.hold s i c) := by
  unfold State.hold
  repeat' (first | with_reducible assumption | (intro _) | with_reducible apply good_putStream | (simp only [good_mk, good_mk_svn, ok_mk])
                   | split)

theorem good_lift {s0 s : State} {i : Nat} {c : Nat} (hg : Good s0 s) : Good s0 (State.lift s i c) := by
  unfold State.lift
  repeat' (first | with_reducible assumption | (intro _) | with_reducible apply good_putStream | (simp only [good_mk, good_mk_svn, ok_mk])
                   | split)

theorem good_holdAll {s0 s : State} {l : List Nat} {c : Nat} (hg : Good s0 s) : Good s0 (State.holdAll s l c) := by
  unfold State.holdAll
  repeat' (first | with_reducible assumption | (intro _) | with_reducible apply good_hold | with_reducible apply good_foldl
                   | (simp only [good_mk, good_mk_svn, ok_mk]) | split)

theorem good_liftAll {s0 s : State} {l : List Nat} {c : Nat} (hg : Good s0 s) : Good s0 (State.liftAll s l c) := by
  unfold State.liftAll
  repeat' (first | with_reducible assumption | (intro _) | with_reducible apply good_lift | with_reducible apply good_foldl
                   | (simp only [good_mk, good_mk_svn, ok_mk]) | split)

theorem good_emit {s0 s : State} {p : Nat} {r : OutRec} (hg : Good s0 s) : Good s0 (State.emit s p r) := by
  unfold State.emit
  repeat' (first | with_reducible assumption | (intro _) | with_reducible apply good_setPort | (simp only [good_mk, good_mk_svn, ok_mk])
                   | split)

theorem good_status {s0 s : State} {p : Nat} {stream : Nat} {code : Nat} {step : Nat} (hg : Good s0 s) : Good s0 (State.status s p stream
    code step) := by
  unfold State.status
  repeat' (first | with_reducible assumption | (intro _) | with_reducible apply good_emit | (simp only [good_mk, good_mk_svn, ok_mk])
                   | split)

end Sys2Proof.Machine
end

