-- ==== Sys2Proof/Laws/GoodOperands.lean ====
section
/-! SUPPORT. Every operation of Operands keeps a run good. -/

namespace Sys2Proof.Machine

theorem good_boundsFault {s0 s : State} {c : Nat} {unit : Nat} {cause : Nat} {addr : Nat} (hg : Good s0 s) : Good s0 (State.boundsFault s
    c unit cause addr) := by
  unfold State.boundsFault
  repeat' (first | with_reducible assumption | (intro _) | with_reducible apply good_raise | with_reducible apply good_setReg
                   | (simp only [good_mk, good_mk_svn, ok_mk]) | split)

theorem good_fetchFault {s0 s : State} {c : Nat} (hg : Good s0 s) : Good s0 (State.fetchFault s c) := by
  unfold State.fetchFault
  repeat' (first | with_reducible assumption | (intro _) | with_reducible apply good_raise | with_reducible apply good_setCore
                   | with_reducible apply ok_setG | with_reducible apply ok_setV | with_reducible apply ok_write
                   | with_reducible refine core_ok (s0 := s0) ?_ | (simp only [good_mk, good_mk_svn, ok_mk]) | split)

theorem good_onCore {s0 s : State} {c : CoreId} {u : CoreUnit} {f : Core → State} (hg : Good s0 s) (hf : ∀ a, CoreOk a → Good s0 (f a)) :
    Good s0 (State.onCore s c u f) := by
  unfold State.onCore
  repeat' (first | with_reducible assumption | (intro _) | apply hf | with_reducible apply good_fetchFault
                   | with_reducible apply good_setCore | with_reducible apply ok_setG | with_reducible apply ok_setV
                   | with_reducible apply ok_write | with_reducible refine core_ok (s0 := s0) ?_
                   | (simp only [good_mk, good_mk_svn, ok_mk]) | split)

theorem good_stall {s0 s : State} {c : CoreId} {u : CoreUnit} {k : Core} (hg : Good s0 s) (hk : CoreOk k) : Good s0 (State.stall s c u k)
    := by
  unfold State.stall
  repeat' (first | with_reducible assumption | (intro _) | with_reducible apply good_setCore | with_reducible apply ok_setG
                   | with_reducible apply ok_setV | with_reducible apply ok_write | with_reducible refine core_ok (s0 := s0) ?_
                   | (simp only [good_mk, good_mk_svn, ok_mk]) | split)

theorem good_endBundleAt {s0 s : State} {c : CoreId} {k : Core} {t : Int} (hg : Good s0 s) (hk : CoreOk k) : Good s0 (State.endBundleAt s
    c k t) := by
  unfold State.endBundleAt
  repeat' (first | with_reducible assumption | (intro _) | with_reducible apply good_fetchFault | with_reducible apply good_setCore
                   | with_reducible apply ok_setG | with_reducible apply ok_setV | with_reducible apply ok_write
                   | with_reducible refine core_ok (s0 := s0) ?_ | (simp only [good_mk, good_mk_svn, ok_mk]) | split)

theorem good_endBundle {s0 s : State} {c : CoreId} {k : Core} (hg : Good s0 s) (hk : CoreOk k) : Good s0 (State.endBundle s c k) := by
  unfold State.endBundle
  repeat' (first | with_reducible assumption | (intro _) | with_reducible apply good_endBundleAt | with_reducible apply good_setCore
                   | with_reducible apply ok_setG | with_reducible apply ok_setV | with_reducible apply ok_write
                   | with_reducible refine core_ok (s0 := s0) ?_ | (simp only [good_mk, good_mk_svn, ok_mk]) | split)

theorem good_countCore {s0 s : State} {c : Nat} {off : Nat} {hi : Nat} {lo : Nat} (hg : Good s0 s) : Good s0 (State.countCore s c off hi
    lo) := by
  unfold State.countCore
  repeat' (first | with_reducible assumption | (intro _) | with_reducible apply good_countSat | (simp only [good_mk, good_mk_svn, ok_mk])
                   | split)

theorem good_noteRead {s0 s : State} {c : Nat} {k : Core} {a : Nat} {n : Nat} (hg : Good s0 s) (hk : CoreOk k) : Good s0 (State.noteRead s
    c k a n) := by
  unfold State.noteRead
  repeat' (first | with_reducible assumption | (intro _) | with_reducible apply good_countCore | with_reducible apply good_raise
                   | with_reducible apply good_setCore | with_reducible apply ok_setG | with_reducible apply ok_setV
                   | with_reducible apply ok_write | with_reducible refine core_ok (s0 := s0) ?_
                   | (simp only [good_mk, good_mk_svn, ok_mk]) | split)

theorem good_checked {s0 s : State} {c : CoreId} {u : CoreUnit} {k : Core} {unit : Nat} {acc : Access} {a : Nat} {n : Nat} {pass : State →
    State} {done : State → State} (hg : Good s0 s) (hk : CoreOk k) (hpass : ∀ t, Good s0 t → Good s0 (pass t)) (hdone : ∀ t, Good s0 t →
    Good s0 (done t)) : Good s0 (State.checked s c u k unit acc a n pass done) := by
  unfold State.checked
  repeat' (first | with_reducible assumption | (intro _) | apply hpass | apply hdone | with_reducible apply good_noteRead
                   | with_reducible apply good_stall | with_reducible apply good_boundsFault | with_reducible apply good_setCore
                   | with_reducible apply ok_setG | with_reducible apply ok_setV | with_reducible apply ok_write
                   | with_reducible refine core_ok (s0 := s0) ?_ | (simp only [good_mk, good_mk_svn, ok_mk]) | split)

end Sys2Proof.Machine
end

