-- ==== Sys2Proof/Laws/GoodPackets.lean ====
section
/-! SUPPORT. Every operation of Packets keeps a run good. -/

namespace Sys2Proof.Machine

theorem good_sendCtl {s0 s : State} {z : Nat} {m : CtlMsg} (hg : Good s0 s) : Good s0 (State.sendCtl s z m) := by
  unfold State.sendCtl
  repeat' (first | with_reducible assumption | (intro _) | with_reducible apply good_setZport | (simp only [good_mk, good_mk_svn, ok_mk])
                   | split)

theorem good_sendWaiting {s0 s : State} {z : Nat} (hg : Good s0 s) : Good s0 (State.sendWaiting s z) := by
  unfold State.sendWaiting
  repeat' (first | with_reducible assumption | (intro _) | with_reducible apply good_sendCtl | with_reducible apply good_setZport
                   | with_reducible apply good_foldl | (simp only [good_mk, good_mk_svn, ok_mk]) | split)

theorem good_received {s0 s : State} {z : Nat} {n : Nat} (hg : Good s0 s) : Good s0 (State.received s z n) := by
  unfold State.received
  repeat' (first | with_reducible assumption | (intro _) | with_reducible apply good_sendCtl | with_reducible apply good_setZport
                   | (simp only [good_mk, good_mk_svn, ok_mk]) | split)

theorem good_dropPacket {s0 s : State} {id : Nat} (hg : Good s0 s) : Good s0 (State.dropPacket s id) := by
  unfold State.dropPacket
  repeat' (first | with_reducible assumption | (intro _) | (simp only [good_mk, good_mk_svn, ok_mk]) | split)

theorem good_dropServed {s0 s : State} {id : Nat} (hg : Good s0 s) : Good s0 (State.dropServed s id) := by
  unfold State.dropServed
  repeat' (first | with_reducible assumption | (intro _) | (simp only [good_mk, good_mk_svn, ok_mk]) | split)

theorem good_failRequest {s0 s : State} {p : Packet} (hg : Good s0 s) : Good s0 (State.failRequest s p) := by
  unfold State.failRequest
  repeat' (first | with_reducible assumption | (intro _) | (simp only [good_mk, good_mk_svn, ok_mk]) | split)

theorem good_inject {s0 s : State} {b : Nat} {h : PacketHeader} {payload : List Byte} {origin : PacketFrom} {core : Option Nat} (hg : Good
    s0 s) : Good s0 (State.inject s b h payload origin core) := by
  unfold State.inject
  repeat' (first | with_reducible assumption | (intro _) | with_reducible apply good_failRequest | with_reducible apply good_raise
                   | (simp only [good_mk, good_mk_svn, ok_mk]) | split)

theorem good_respond {s0 s : State} {p : Packet} {data : List Byte} (hg : Good s0 s) : Good s0 (State.respond s p data) := by
  unfold State.respond
  repeat' (first | with_reducible assumption | (intro _) | with_reducible apply good_inject | with_reducible apply good_dropServed
                   | (simp only [good_mk, good_mk_svn, ok_mk]) | split)

theorem good_countPort {s0 s : State} {b : Nat} {off : Nat} {port : Nat} {out : Bool} {n : Nat} (hg : Good s0 s) : Good s0
    (State.countPort s b off port out n) := by
  unfold State.countPort
  repeat' (first | with_reducible assumption | (intro _) | with_reducible apply good_setRegI | (simp only [good_mk, good_mk_svn, ok_mk])
                   | split)

theorem good_countWay {s0 s : State} {w : Nat} {off : Nat} {out : Bool} {n : Nat} (hg : Good s0 s) : Good s0 (State.countWay s w off out
    n) := by
  unfold State.countWay
  repeat' (first | with_reducible assumption | (intro _) | with_reducible apply good_countPort | with_reducible apply good_foldl
                   | (simp only [good_mk, good_mk_svn, ok_mk]) | split)

theorem good_keepDynamic {s0 s : State}  (hg : Good s0 s) : Good s0 (State.keepDynamic s) := by
  unfold State.keepDynamic
  repeat' (first | with_reducible assumption | (intro _) | (simp only [good_mk, good_mk_svn, ok_mk]) | split)

end Sys2Proof.Machine
end

