-- ==== Sys2Proof/Laws/GoodStoreOps.lean ====
section
/-! SUPPORT. Every operation of StoreOps keeps a run good. -/

namespace Sys2Proof.Machine

theorem good_storePut {s0 s : State} {b off : Nat} {data : List Byte} (hg : Good s0 s) : Good s0 (s.storePut b off data) :=
  good_setBerth (Memory.wf_write _ (store_ok hg)) hg

theorem activate_store (x : BerthSt) (l : List Nat) : (l.foldl activate x).store = x.store := by
  induction l generalizing x with
  | nil => rfl
  | cons a t ih => exact ih (activate x a)

theorem good_storeWrite {s0 s : State} {b off : Nat} {data : List Byte} (hg : Good s0 s) : Good s0 (s.storeWrite b off data) := by
  unfold State.storeWrite
  refine good_storePut (good_setBerth ?_ hg)
  rw [activate_store]
  exact store_ok hg

theorem good_writeLines {s0 s : State} {b n line : Nat} {data : List Byte} (hg : Good s0 s) : Good s0 (s.writeLines b n line data) := by
  induction n generalizing s line data with
  | zero => exact hg
  | succ n ih => exact ih (good_storeWrite hg)

theorem good_logStoreError {s0 s : State} {b : Nat} {line : Nat} (hg : Good s0 s) : Good s0 (State.logStoreError s b line) := by
  unfold State.logStoreError
  repeat' (first | with_reducible assumption | (intro _) | with_reducible apply good_setReg | (simp only [good_mk, good_mk_svn, ok_mk])
                   | split)

theorem good_noteRow {s0 s : State} {b : Nat} {line : Nat} {lost : Bool} (hg : Good s0 s) : Good s0 (State.noteRow s b line lost) := by
  unfold State.noteRow
  repeat' (first | with_reducible assumption | (intro _) | with_reducible apply good_setBerth
                   | with_reducible refine store_ok (s0 := s0) ?_ | (simp only [good_mk, good_mk_svn, ok_mk]) | split)

theorem good_lineCorrected {s0 s : State} {b : Nat} {line : Nat} (hg : Good s0 s) : Good s0 (State.lineCorrected s b line) := by
  unfold State.lineCorrected
  repeat' (first | with_reducible assumption | (intro _) | with_reducible apply good_noteRow | with_reducible apply good_raise
                   | (simp only [good_mk, good_mk_svn, ok_mk]) | split)

theorem good_lineLost {s0 s : State} {b : Nat} {line : Nat} (hg : Good s0 s) : Good s0 (State.lineLost s b line) := by
  unfold State.lineLost
  repeat' (first | with_reducible assumption | (intro _) | with_reducible apply good_noteRow | with_reducible apply good_logStoreError
                   | with_reducible apply good_setBerth | with_reducible refine store_ok (s0 := s0) ?_
                   | (simp only [good_mk, good_mk_svn, ok_mk]) | split)

end Sys2Proof.Machine
end

