-- ==== Sys2Proof/Laws/GoodTierOps.lean ====
section
/-! SUPPORT. Every operation of TierOps keeps a run good. -/

namespace Sys2Proof.Machine

theorem wf_stackPut (l : List Byte) {m : List (Nat × Byte)} {k off : Nat} (h : Memory.wf m = true) : Memory.wf (stackPut m k off l) = true
    := by
  induction l generalizing m off with
  | nil => exact h
  | cons v t ih => exact ih (Sparse.wf_set v h)

theorem good_stackWrite {s0 s : State} {k off : Nat} {data : List Byte} (hg : Good s0 s) : Good s0 (s.stackWrite k off data) :=
  good_mk_hbm hg (wf_stackPut data hg.inv.hbm)

theorem good_logTierError {s0 s : State} {k : Nat} {off : Nat} (hg : Good s0 s) : Good s0 (State.logTierError s k off) := by
  unfold State.logTierError
  repeat' (first | with_reducible assumption | (intro _) | with_reducible apply good_setReg | (simp only [good_mk, good_mk_svn, ok_mk])
                   | split)

theorem good_unitLost {s0 s : State} {k : Nat} {off : Nat} (hg : Good s0 s) : Good s0 (State.unitLost s k off) := by
  unfold State.unitLost
  repeat' (first | with_reducible assumption | (intro _) | with_reducible apply good_setStack | (simp only [good_mk, good_mk_svn, ok_mk])
                   | split)

theorem good_tierLost {s0 s : State} {k : Nat} {off : Nat} (hg : Good s0 s) : Good s0 (State.tierLost s k off) := by
  unfold State.tierLost
  repeat' (first | with_reducible assumption | (intro _) | with_reducible apply good_unitLost | with_reducible apply good_logTierError
                   | (simp only [good_mk, good_mk_svn, ok_mk]) | split)

theorem good_correctUnit {s0 s : State} {k : Nat} (hg : Good s0 s) : Good s0 (State.correctUnit s k) := by
  unfold State.correctUnit
  repeat' (first | with_reducible assumption | (intro _) | with_reducible apply good_raise | with_reducible apply good_countSat
                   | (simp only [good_mk, good_mk_svn, ok_mk]) | split)

theorem good_mediaEvent {s0 s : State} {p : HostPort} {dpa : Nat} (hg : Good s0 s) : Good s0 (State.mediaEvent s p dpa) := by
  unfold State.mediaEvent
  repeat' (first | with_reducible assumption | (intro _) | with_reducible apply good_setPort | (simp only [good_mk, good_mk_svn, ok_mk])
                   | split)

theorem good_mediaAt {s0 s : State} {a : Nat} (hg : Good s0 s) : Good s0 (s.mediaAt a) := by
  unfold State.mediaAt
  cases ownerPort s a
  · exact hg
  · exact good_mediaEvent hg

theorem good_retirePage {s0 s : State} {k : Nat} {page : Nat} (hg : Good s0 s) : Good s0 (State.retirePage s k page) := by
  unfold State.retirePage
  repeat' (first | with_reducible assumption | (intro _) | with_reducible apply good_mediaAt | with_reducible apply good_unitLost
                   | with_reducible apply good_raise | with_reducible apply good_setStack | (simp only [good_mk, good_mk_svn, ok_mk])
                   | split)

end Sys2Proof.Machine
end

