-- ==== Sys2Proof/Laws/GoodRegions.lean ====
section
/-! SUPPORT. Every operation of Regions keeps a run good. -/

namespace Sys2Proof.Machine

theorem wf_regionPut (l : List Byte) {m : List (Nat × Byte)} {base off : Nat} {w : Half} (h : Memory.wf m = true) :
    Memory.wf (regionPut m base w off l) = true := by
  induction l generalizing m off with
  | nil => exact h
  | cons v t ih => exact ih (Sparse.wf_set v h)

theorem good_regionWrite {s0 s : State} {base : Nat} {w : Half} {off : Nat} {data : List Byte} (hg : Good s0 s) :
    Good s0 (s.regionWrite base w off data) :=
  good_mk_hbm hg (wf_regionPut data hg.inv.hbm)

end Sys2Proof.Machine
end

