-- ==== Sys2Proof/Laws/GoodKvOps.lean ====
section
/-! SUPPORT. Every operation of KvOps keeps a run good. -/

namespace Sys2Proof.Machine

theorem good_lbPut {s0 s : State} {lb : Nat} {off : Nat} {data : List Byte} (hg : Good s0 s) : Good s0 (State.lbPut s lb off data) := by
  unfold State.lbPut
  repeat' (first | with_reducible assumption | (intro _) | with_reducible apply good_storeWrite
                   | (simp only [good_mk, good_mk_svn, ok_mk]) | split)

theorem good_pagerWrite {s0 s : State} {b : Nat} {off : Nat} {data : List Byte} (hg : Good s0 s) : Good s0 (State.pagerWrite s b off data)
    := by
  unfold State.pagerWrite
  repeat' (first | with_reducible assumption | (intro _) | with_reducible apply good_storeWrite | with_reducible apply good_raise
                   | (simp only [good_mk, good_mk_svn, ok_mk]) | split)

theorem good_lbWrite {s0 s : State} {lb : Nat} {off : Nat} {data : List Byte} (hg : Good s0 s) : Good s0 (State.lbWrite s lb off data) := by
  unfold State.lbWrite
  repeat' (first | with_reducible assumption | (intro _) | with_reducible apply good_pagerWrite
                   | (simp only [good_mk, good_mk_svn, ok_mk]) | split)

theorem good_lbMirror {s0 s : State} {lb : Nat} {off : Nat} {data : List Byte} (hg : Good s0 s) : Good s0 (State.lbMirror s lb off data)
    := by
  unfold State.lbMirror
  repeat' (first | with_reducible assumption | (intro _) | with_reducible apply good_lbPut | (simp only [good_mk, good_mk_svn, ok_mk])
                   | split)

theorem good_setColumn {s0 s : State} {k : KvShape} {lb : Nat} {st : Nat} {h : Nat} {j : Nat} {line : Option Nat} (hg : Good s0 s) : Good
    s0 (State.setColumn s k lb st h j line) := by
  unfold State.setColumn
  repeat' (first | with_reducible assumption | (intro _) | with_reducible apply good_lbMirror | (simp only [good_mk, good_mk_svn, ok_mk])
                   | split)

theorem good_setIxWord {s0 s : State} {lb : Nat} {line : Nat} {off : Nat} {w : Word} (hg : Good s0 s) : Good s0 (State.setIxWord s lb line
    off w) := by
  unfold State.setIxWord
  repeat' (first | with_reducible assumption | (intro _) | with_reducible apply good_lbWrite | (simp only [good_mk, good_mk_svn, ok_mk])
                   | split)

theorem good_setRefs {s0 s : State} {lb : Nat} {line : Nat} {n : Nat} (hg : Good s0 s) : Good s0 (State.setRefs s lb line n) := by
  unfold State.setRefs
  repeat' (first | with_reducible assumption | (intro _) | with_reducible apply good_setIxWord | with_reducible apply good_lbWrite
                   | (simp only [good_mk, good_mk_svn, ok_mk]) | split)

theorem good_takeFrame {s0 s : State} {lb use : Nat} {u0 : State} {n0 : Nat} (he : s.takeFrame lb use = some (u0, n0)) (hg : Good s0 s) :
    Good s0 u0 := by
  unfold State.takeFrame at he
  dsimp only at he
  split at he
  · cases he
  · simp only [Option.some.injEq, Prod.mk.injEq] at he
    obtain ⟨rfl, -⟩ := he
    split
    · apply good_raise; simp only [good_mk]; exact good_drawn hg
    · simp only [good_mk]; exact good_drawn hg

theorem good_freeFrame {s0 s : State} {lb : Nat} {f : Nat} (hg : Good s0 s) : Good s0 (State.freeFrame s lb f) := by
  unfold State.freeFrame
  repeat' (first | with_reducible assumption | (intro _) | (simp only [good_mk, good_mk_svn, ok_mk]) | split)

theorem good_freeRings {s0 s : State} {st : Nat} (hg : Good s0 s) : Good s0 (State.freeRings s st) := by
  unfold State.freeRings
  repeat' (first | with_reducible assumption | (intro _) | (simp only [good_mk, good_mk_svn, ok_mk]) | split)

theorem good_newLayer {s0 s : State} {lb col w j l : Nat} {u0 : State} (he : newLayer lb col w j s l = some u0) (hg : Good s0 s) : Good s0
    u0 := by
  unfold newLayer at he
  rw [Option.map_eq_some_iff] at he
  obtain ⟨⟨t, f⟩, ht, rfl⟩ := he
  exact good_lbWrite (good_takeFrame ht hg)

theorem good_takeColumn {s0 s : State} {lb n : Nat} {u0 : State} {n0 : Nat} (he : s.takeColumn lb n = some (u0, n0)) (hg : Good s0 s) :
    Good s0 u0 := by
  unfold State.takeColumn at he
  dsimp only at he
  split at he
  · cases he
    simp only [good_mk]
    exact good_drawn hg
  · rw [Option.map_eq_some_iff] at he
    obtain ⟨⟨t, c⟩, ht, hu⟩ := he
    cases hu
    simp only [good_mk]
    exact good_drawn (good_takeFrame ht hg)

theorem good_freeColumn {s0 s : State} {lb : Nat} {line : Nat} (hg : Good s0 s) : Good s0 (State.freeColumn s lb line) := by
  unfold State.freeColumn
  repeat' (first | with_reducible assumption | (intro _) | with_reducible apply good_freeFrame | (simp only [good_mk, good_mk_svn, ok_mk])
                   | split)

theorem good_newColumn {s0 s : State} {k : KvShape} {lb w j : Nat} {u0 : State} {n0 : Nat} (he : s.newColumn k lb w j = some (u0, n0))
    (hg : Good s0 s) : Good s0 u0 := by
  unfold State.newColumn at he
  split at he
  · cases he
  · next t c ht =>
    rw [Option.map_eq_some_iff] at he
    obtain ⟨u, hu, hw⟩ := he
    cases hw
    exact good_foldlM (fun _ _ _ => good_newLayer) _ hu (good_takeColumn ht hg)

theorem good_dropSwitch {s0 s : State} {lb : Nat} {line : Nat} (hg : Good s0 s) : Good s0 (State.dropSwitch s lb line) := by
  unfold State.dropSwitch
  repeat' (first | with_reducible assumption | (intro _) | with_reducible apply good_freeFrame | with_reducible apply good_setStack
                   | (simp only [good_mk, good_mk_svn, ok_mk]) | split)

theorem good_dropCopy {s0 s : State} {dpa : Nat} (hg : Good s0 s) : Good s0 (State.dropCopy s dpa) := by
  unfold State.dropCopy
  repeat' (first | with_reducible assumption | (intro _) | (simp only [good_mk, good_mk_svn, ok_mk]) | split)

theorem good_freePage {s0 s : State} {lb : Nat} {line : Nat} (hg : Good s0 s) : Good s0 (State.freePage s lb line) := by
  unfold State.freePage
  repeat' (first | with_reducible assumption | (intro _) | with_reducible apply good_dropCopy | with_reducible apply good_dropSwitch
                   | with_reducible apply good_freeFrame | (simp only [good_mk, good_mk_svn, ok_mk]) | split)

theorem good_releaseColumn {s0 s : State} {k : KvShape} {lb : Nat} {col : Nat} (hg : Good s0 s) : Good s0 (State.releaseColumn s k lb col)
    := by
  unfold State.releaseColumn
  repeat' (first | with_reducible assumption | (intro _) | with_reducible apply good_freePage | with_reducible apply good_freeColumn
                   | with_reducible apply good_setRefs | with_reducible apply good_foldl | (simp only [good_mk, good_mk_svn, ok_mk])
                   | split)

theorem good_raiseRefs {s0 s : State} {k : KvShape} {lb : Nat} {col : Nat} (hg : Good s0 s) : Good s0 (State.raiseRefs s k lb col) := by
  unfold State.raiseRefs
  repeat' (first | with_reducible assumption | (intro _) | with_reducible apply good_setRefs | with_reducible apply good_foldl
                   | (simp only [good_mk, good_mk_svn, ok_mk]) | split)

theorem good_copyLayer {s0 s : State} {lb : Nat} {old : Nat} {new : Nat} (hg : Good s0 s) : Good s0 (State.copyLayer s lb old new) := by
  unfold State.copyLayer
  repeat' (first | with_reducible assumption | (intro _) | with_reducible apply good_freeFrame | with_reducible apply good_setRefs
                   | with_reducible apply good_setIxWord | with_reducible apply good_lbWrite | (simp only [good_mk, good_mk_svn, ok_mk])
                   | split)

theorem good_copyColumn {s0 s : State} {k : KvShape} {lb st w j col : Nat} {u0 : State} (he : s.copyColumn k lb st w j col = some u0)
    (hg : Good s0 s) : Good s0 u0 := by
  unfold State.copyColumn at he
  split at he
  · cases he
  · next t c ht =>
    simp only [Option.some.injEq] at he
    subst he
    refine good_count (good_setColumn ?_)
    simp only [good_mk]
    exact good_foldl _ (good_newColumn ht hg) fun _ _ h => good_copyLayer h

theorem good_openPage {s0 s : State} {lb line : Nat} {u0 : State} (he : s.openPage lb line = some u0) (hg : Good s0 s) : Good s0 u0 := by
  unfold State.openPage at he
  dsimp only at he
  rw [Option.map_eq_some_iff] at he
  obtain ⟨v, hv, rfl⟩ := he
  have gv : Good s0 v := by
    split at hv
    · rw [Option.map_eq_some_iff] at hv
      obtain ⟨⟨t, f⟩, ht, rfl⟩ := hv
      exact good_setIxWord (good_lbWrite (good_takeFrame ht (good_dropSwitch hg)))
    · cases hv
      exact good_dropSwitch hg
  split
  · exact good_setIxWord (good_dropCopy gv)
  · exact gv

theorem good_ensurePage {s0 s : State} {k : KvShape} {st first last : Nat} {hj : Nat × Nat} {u0 : State}
    (he : s.ensurePage k st first last hj = some u0) (hg : Good s0 s) : Good s0 u0 := by
  unfold State.ensurePage at he
  split at he
  · cases he; exact hg
  · split at he
    · rw [Option.map_eq_some_iff] at he
      obtain ⟨⟨t, c⟩, ht, rfl⟩ := he
      exact good_setColumn (good_newColumn ht hg)
    · split at he
      · cases he; exact hg
      · split at he
        · exact good_copyColumn he hg
        · exact good_foldlM (fun _ _ _ => good_openPage) _ he hg

theorem good_ensureRing {s0 s : State} {k : KvShape} {st : Nat} {lh : Nat × Nat} {u0 : State} (he : s.ensureRing k st lh = some u0)
    (hg : Good s0 s) : Good s0 u0 := by
  unfold State.ensureRing at he
  split at he
  · cases he; exact hg
  · split at he
    · cases he; exact hg
    · rw [Option.map_eq_some_iff] at he
      obtain ⟨⟨t, c⟩, ht, rfl⟩ := he
      exact good_takeFrame ht hg

theorem good_reserve {s0 s : State} {st first last : Nat} {u0 : State} (he : s.reserve st first last = some u0) (hg : Good s0 s) : Good s0
    u0 := by
  unfold State.reserve at he
  dsimp only at he
  split at he
  · cases he
  · split at he
    · cases he
    · next t ht =>
      exact good_foldlM (fun _ _ _ => good_ensureRing) _ he (good_foldlM (fun _ _ _ => good_ensurePage) _ ht hg)

theorem good_releasePages {s0 s : State} {st : Nat} {j0 : Nat} (hg : Good s0 s) : Good s0 (State.releasePages s st j0) := by
  unfold State.releasePages
  repeat' (first | with_reducible assumption | (intro _) | with_reducible apply good_releaseColumn | with_reducible apply good_setColumn
                   | with_reducible apply good_foldl | (simp only [good_mk, good_mk_svn, ok_mk]) | split)

theorem good_releaseAll {s0 s : State} {st : Nat} (hg : Good s0 s) : Good s0 (State.releaseAll s st) := by
  unfold State.releaseAll
  repeat' (first | with_reducible assumption | (intro _) | with_reducible apply good_releasePages | with_reducible apply good_freeRings
                   | (simp only [good_mk, good_mk_svn, ok_mk]) | split)

theorem good_rewriteRow {s0 s : State} {k : KvShape} {st : Nat} {layer : Nat} {h : Nat} {p : Nat} (hg : Good s0 s) : Good s0
    (State.rewriteRow s k st layer h p) := by
  unfold State.rewriteRow
  repeat' (first | with_reducible assumption | (intro _) | with_reducible apply good_lbWrite | (simp only [good_mk, good_mk_svn, ok_mk])
                   | split)

theorem good_rewriteRing {s0 s : State} {st : Nat} {len : Nat} {hiwrit : Nat} (hg : Good s0 s) : Good s0 (State.rewriteRing s st len
    hiwrit) := by
  unfold State.rewriteRing
  repeat' (first | with_reducible assumption | (intro _) | with_reducible apply good_rewriteRow | with_reducible apply good_foldl
                   | (simp only [good_mk, good_mk_svn, ok_mk]) | split)

end Sys2Proof.Machine
end

