-- ==== Sys2Proof/Laws/GoodSampler.lean ====
section
/-! SUPPORT. Every operation of Sampler keeps a run good. -/

namespace Sys2Proof.Machine

theorem good_restart {s0 s : State} {g : Nat} (hg : Good s0 s) : Good s0 (State.restart s g) := by
  unfold State.restart
  repeat' (first | with_reducible assumption | (intro _) | with_reducible apply good_setStream | with_reducible apply good_foldl
                   | (simp only [good_mk, good_mk_svn, ok_mk]) | split)

theorem good_writeGbase {s0 s : State} {v : Word} (hg : Good s0 s) : Good s0 (State.writeGbase s v) := by
  unfold State.writeGbase
  repeat' (first | with_reducible assumption | (intro _) | with_reducible apply good_restart | with_reducible apply good_setRegI
                   | (simp only [good_mk, good_mk_svn, ok_mk]) | split)

theorem good_raiseSampler {s0 s : State} {n : Nat} (hg : Good s0 s) : Good s0 (State.raiseSampler s n) := by
  unfold State.raiseSampler
  repeat' (first | with_reducible assumption | (intro _) | with_reducible apply good_raise | with_reducible apply good_foldl
                   | (simp only [good_mk, good_mk_svn, ok_mk]) | split)

theorem good_readsCorrected {s0 s : State} {l : List Nat} (hg : Good s0 s) : Good s0 (State.readsCorrected s l) := by
  unfold State.readsCorrected
  repeat' (first | with_reducible assumption | (intro _) | with_reducible apply good_raise | with_reducible apply good_foldl
                   | (simp only [good_mk, good_mk_svn, ok_mk]) | split)

theorem good_writeSgstate {s0 s : State} {v : Word} (hg : Good s0 s) : Good s0 (State.writeSgstate s v) := by
  unfold State.writeSgstate
  repeat' (first | with_reducible assumption | (intro _) | with_reducible apply good_setStream | (simp only [good_mk, good_mk_svn, ok_mk])
                   | split)

theorem good_writeSpcnt {s0 s : State} {v : Word} (hg : Good s0 s) : Good s0 (State.writeSpcnt s v) := by
  unfold State.writeSpcnt
  repeat' (first | with_reducible assumption | (intro _) | with_reducible apply good_setStream | (simp only [good_mk, good_mk_svn, ok_mk])
                   | split)

theorem good_writeScfg {s0 s : State} {v : Word} (hg : Good s0 s) : Good s0 (State.writeScfg s v) := by
  unfold State.writeScfg
  repeat' (first | with_reducible assumption | (intro _) | with_reducible apply good_setRegI | with_reducible apply good_setStream
                   | (simp only [good_mk, good_mk_svn, ok_mk]) | split)

end Sys2Proof.Machine
end

