-- ==== Sys2Proof/Laws/GoodPager.lean ====
section
/-! SUPPORT. Every operation of Pager keeps a run good. -/

namespace Sys2Proof.Machine

theorem good_addSwitch {s0 s : State} {lb : Nat} {line : Nat} {v : Nat} (hg : Good s0 s) : Good s0 (State.addSwitch s lb line v) := by
  unfold State.addSwitch
  repeat' (first | with_reducible assumption | (intro _) | with_reducible apply good_setStack | (simp only [good_mk, good_mk_svn, ok_mk])
                   | split)

theorem good_examine {s0 s : State} {x : Stream} {last : Nat} {e : Nat × Nat × Nat} (hg : Good s0 s) : Good s0 (State.examine s x last e)
    := by
  unfold State.examine
  repeat' (first | with_reducible assumption | (intro _) | with_reducible apply good_addSwitch | (simp only [good_mk, good_mk_svn, ok_mk])
                   | split)

theorem good_scan {s0 s : State} {st : Nat} {k : Nat} {last : Nat} (hg : Good s0 s) : Good s0 (State.scan s st k last) := by
  unfold State.scan
  repeat' (first | with_reducible assumption | (intro _) | with_reducible apply good_examine | with_reducible apply good_setStream
                   | with_reducible apply good_foldl | (simp only [good_mk, good_mk_svn, ok_mk]) | split)

theorem good_nextSwitch {s0 s : State} {lb : Nat} {line : Nat} {w : Nat} (hg : Good s0 s) : Good s0 (State.nextSwitch s lb line w) := by
  unfold State.nextSwitch
  repeat' (first | with_reducible assumption | (intro _) | with_reducible apply good_setStack | (simp only [good_mk, good_mk_svn, ok_mk])
                   | split)

theorem good_pageOut {s0 s : State} {lb line a : Nat} (hg : Good s0 s) : Good s0 (s.pageOut lb line a) :=
  good_nextSwitch (good_lbWrite (good_mk_hbm (good_drawn hg) (Memory.wf_write _ hg.inv.hbm)))

theorem good_pageIn {s0 : State} {lb line : Nat} {x : State × Nat} (hg : Good s0 x.1) : Good s0 (pageIn lb line x) :=
  good_nextSwitch (good_lbWrite hg)

theorem good_copyDone {s0 s : State} {lb line v : Nat} {u0 : State} (he : s.copyDone lb line v = some u0) (hg : Good s0 s) : Good s0 u0 :=
    by
  unfold State.copyDone at he
  split at he
  · rw [Option.map_eq_some_iff] at he
    obtain ⟨a, -, rfl⟩ := he
    exact good_pageOut hg
  · split at he
    · rw [Option.map_eq_some_iff] at he
      obtain ⟨x, hx, rfl⟩ := he
      exact good_pageIn (good_takeFrame hx hg)
    · cases he

theorem good_copyRead {s0 s : State} {lb : Nat} {line : Nat} {v : Nat} {e : EccOutcome} (hg : Good s0 s) : Good s0 (State.copyRead s lb
    line v e) := by
  unfold State.copyRead
  repeat' (first | with_reducible assumption | (intro _) | with_reducible apply good_correctUnit | with_reducible apply good_tierLost
                   | with_reducible apply good_lineLost | with_reducible apply good_lineCorrected | with_reducible apply good_raise
                   | (simp only [good_mk, good_mk_svn, ok_mk]) | split)

theorem good_switchLoc {s0 s : State} {k : Nat} {e : Nat × Nat} (hg : Good s0 s) : Good s0 (State.switchLoc s k e) := by
  unfold State.switchLoc
  repeat' (first | with_reducible assumption | (intro _) | with_reducible apply good_dropCopy | with_reducible apply good_freeFrame
                   | with_reducible apply good_setIxWord | with_reducible apply good_count | with_reducible apply good_setStack
                   | (simp only [good_mk, good_mk_svn, ok_mk]) | split)

theorem good_tableRead {s0 s : State} {k : Nat} {e : EccOutcome} (hg : Good s0 s) : Good s0 (State.tableRead s k e) := by
  unfold State.tableRead
  repeat' (first | with_reducible assumption | (intro _) | with_reducible apply good_raise | (simp only [good_mk, good_mk_svn, ok_mk])
                   | split)

theorem good_tableReads {s0 s : State} {l : List (Stack × EccOutcome)} (hg : Good s0 s) : Good s0 (State.tableReads s l) := by
  unfold State.tableReads
  repeat' (first | with_reducible assumption | (intro _) | with_reducible apply good_tableRead | with_reducible apply good_foldl
                   | (simp only [good_mk, good_mk_svn, ok_mk]) | split)

theorem good_eachHead {s0 s : State} {k : KvShape} {j : Nat} {f : State → Nat → Nat → State} (hg : Good s0 s) (hf : ∀ t a0 a1, Good s0 t →
    Good s0 (f t a0 a1)) : Good s0 (State.eachHead s k j f) := by
  unfold State.eachHead
  repeat' (first | with_reducible assumption | (intro _) | apply hf | with_reducible apply good_foldl
                   | (simp only [good_mk, good_mk_svn, ok_mk]) | split)

theorem good_adoptColumn {s0 s : State} {k : KvShape} {st : Nat} {j : Nat} {a : Nat} {lb : Nat} {h : Nat} (hg : Good s0 s) : Good s0
    (State.adoptColumn s k st j a lb h) := by
  unfold State.adoptColumn
  repeat' (first | with_reducible assumption | (intro _) | with_reducible apply good_raiseRefs | with_reducible apply good_releaseColumn
                   | with_reducible apply good_setColumn | (simp only [good_mk, good_mk_svn, ok_mk]) | split)

theorem good_touchNode {s0 s : State} {a : Nat} (hg : Good s0 s) : Good s0 (s.touchNode a) :=
  good_mk_hbm hg (Memory.wf_setDword _ hg.inv.hbm)

theorem good_matchBlock {s0 s : State} {st : Nat} (hg : Good s0 s) : Good s0 (State.matchBlock s st).1 := by
  unfold State.matchBlock
  repeat' (first | with_reducible assumption | (intro _) | with_reducible apply good_touchNode | with_reducible apply good_adoptColumn
                   | with_reducible apply good_eachHead | with_reducible apply good_raise | with_reducible apply good_count
                   | with_reducible apply good_setStream | (simp only [good_mk, good_mk_svn, ok_mk]) | split)

theorem good_matchBlocks {s0 s : State} {st y0 : Nat} (hg : Good s0 s) : Good s0 (s.matchBlocks st y0) := by
  induction y0 generalizing s with
  | zero => exact hg
  | succ n ih =>
    have h := good_matchBlock (st := st) hg
    unfold State.matchBlocks
    split <;> next t ht => rw [ht] at h; first | exact ih h | exact h

theorem good_setChildren {s0 s : State} {a n : Nat} (hg : Good s0 s) : Good s0 (s.setChildren a n) :=
  good_mk_hbm hg (Memory.wf_write _ hg.inv.hbm)

theorem good_addNode {s0 s : State} {st i key parent : Nat} {tokens : List Word} {a : Nat} (hg : Good s0 s) :
    Good s0 (s.addNode st i key parent tokens a) := by
  unfold State.addNode
  have h : ∀ m l, Memory.wf m = true → Good s0 ({ s.drawn with hbm := m, nodes := l } : State) := fun _ _ hm => good_mk_hbm (good_drawn hg) hm
  refine good_eachHead ?_ ?_
  · split
    · exact h _ _ (Memory.wf_write _ (Memory.wf_write _ hg.inv.hbm))
    · exact good_setChildren (h _ _ (Memory.wf_write _ (Memory.wf_write _ hg.inv.hbm)))
  · intro t lb w ht
    split
    · exact good_raiseRefs ht
    · exact ht

theorem good_insertBlock {s0 s : State} {st : Nat} (hg : Good s0 s) : Good s0 (s.insertBlock st).1 := by
  unfold State.insertBlock
  extract_lets x chain i k parent tokens key move
  have hmove : ∀ t a, Good s0 t → Good s0 (move t a) := fun t a h => good_setStream h
  split
  · exact hg
  · split
    · exact hmove _ _ (good_touchNode hg)
    · next c _ =>
      have ht : Good s0 (if c = true then s.raise .kvpg (s.blockPager st i) 3 else s) := by
        split
        · exact good_raise hg
        · exact hg
      dsimp only
      generalize (if c = true then s.raise .kvpg (s.blockPager st i) 3 else s) = t at ht
      split
      · exact ht
      · cases t.place 512 512 (Config.nodePlace t.draws)
        · exact ht
        · exact hmove _ _ (good_addNode ht)

theorem good_insertBlocks {s0 s : State} {st n : Nat} (hg : Good s0 s) : Good s0 (s.insertBlocks st n) := by
  induction n generalizing s with
  | zero => exact hg
  | succ n ih =>
    have h := good_insertBlock (st := st) hg
    unfold State.insertBlocks
    dsimp only
    split
    · split
      · exact hg
      · exact good_setStack hg
    · split <;> next t ht => rw [ht] at h; first | exact ih h | exact good_setStack (good_raise h) | exact h

theorem good_unlink {s0 s : State} {a : Nat} (hg : Good s0 s) : Good s0 (s.unlink a) :=
  good_mk_hbm hg (Memory.wf_write _ hg.inv.hbm)

theorem good_removeNode {s0 s : State} {n : NodeSt} (hg : Good s0 s) : Good s0 (State.removeNode s n) := by
  unfold State.removeNode
  repeat' (first | with_reducible assumption | (intro _) | with_reducible apply good_unlink | with_reducible apply good_setChildren
                   | with_reducible apply good_eachHead | with_reducible apply good_releaseColumn | with_reducible apply good_setStream
                   | with_reducible apply good_foldl | (simp only [good_mk, good_mk_svn, ok_mk]) | split)

theorem good_backupPageAt {s0 s : State} {key lb line a : Nat} (hg : Good s0 s) : Good s0 (s.backupPageAt key lb line a) :=
  good_lbWrite (good_lbWrite (good_mk_hbm (good_drawn hg) (Memory.wf_write _ hg.inv.hbm)))

theorem good_backupPage {s0 s : State} {st w j l lb line : Nat} (hg : Good s0 s) : Good s0 (s.backupPage st w j l lb line) := by
  unfold State.backupPage
  split
  · exact hg
  · split
    · exact good_mk.2 hg
    · split
      · exact hg
      · cases s.place 64 33792 (Config.copyPlace s.draws)
        · exact hg
        · exact good_backupPageAt hg

theorem good_backupRingAt {s0 s : State} {key : Nat} {rows : List Byte} {a : Nat} (hg : Good s0 s) : Good s0 (s.backupRingAt key rows a) :=
  good_mk_hbm (good_drawn hg) (Memory.wf_write _ hg.inv.hbm)

theorem good_backupRing {s0 s : State} {k : KvShape} {st l w : Nat} (hg : Good s0 s) : Good s0 (s.backupRing k st l w) := by
  unfold State.backupRing
  split
  · exact hg
  · dsimp only
    cases lookup s.ringCopies (st * 4096 + l * 16 + w) with
    | none =>
      cases s.place 64 33792 (Config.copyPlace s.draws) with
      | none => exact hg
      | some a => exact good_backupRingAt hg
    | some a => exact good_mk_hbm hg (Memory.wf_write _ hg.inv.hbm)

theorem good_backup {s0 s : State} {st : Nat} (hg : Good s0 s) : Good s0 (State.backup s st) := by
  unfold State.backup
  repeat' (first | with_reducible assumption | (intro _) | with_reducible apply good_backupRing | with_reducible apply good_backupPage
                   | with_reducible apply good_foldl | (simp only [good_mk, good_mk_svn, ok_mk]) | split)

end Sys2Proof.Machine
end

