-- ==== Sys2Proof/Laws/GoodScalar.lean ====
section
/-! SUPPORT. Every operation of Scalar keeps a run good. -/

namespace Sys2Proof.Machine

theorem good_alu {s0 s : State} {c : CoreId} {gd : GReg} {f : Core → Word} (hg : Good s0 s) : Good s0 (alu s c gd f) := by
  unfold alu
  repeat' (first | with_reducible assumption | (intro _) | with_reducible apply good_endBundle | with_reducible apply good_onCore
                   | with_reducible apply good_setCore | with_reducible apply ok_setG | with_reducible apply ok_setV
                   | with_reducible apply ok_write | with_reducible refine core_ok (s0 := s0) ?_
                   | (simp only [good_mk, good_mk_svn, ok_mk]) | split)

theorem good_branch {s0 s : State} {c : CoreId} {off : BitVec 16} {p : Core → Bool} (hg : Good s0 s) : Good s0 (branch s c off p) := by
  unfold branch
  repeat' (first | with_reducible assumption | (intro _) | with_reducible apply good_endBundle | with_reducible apply good_endBundleAt
                   | with_reducible apply good_onCore | with_reducible apply good_setCore | with_reducible apply ok_setG
                   | with_reducible apply ok_setV | with_reducible apply ok_write | with_reducible refine core_ok (s0 := s0) ?_
                   | (simp only [good_mk, good_mk_svn, ok_mk]) | split)

theorem good_reservedSlot {s0 s : State} {c : CoreId} {u : CoreUnit} (hg : Good s0 s) : Good s0 (reservedSlot s c u) := by
  unfold reservedSlot
  repeat' (first | with_reducible assumption | (intro _) | with_reducible apply good_onCore | with_reducible apply good_fetchFault
                   | with_reducible apply good_setCore | with_reducible apply ok_setG | with_reducible apply ok_setV
                   | with_reducible apply ok_write | with_reducible refine core_ok (s0 := s0) ?_
                   | (simp only [good_mk, good_mk_svn, ok_mk]) | split)

theorem good_flowFault {s0 s : State} {c : CoreId} {k : Core} {cause : Nat} {flow : Nat} (hg : Good s0 s) (hk : CoreOk k) : Good s0
    (flowFault s c k cause flow) := by
  unfold flowFault
  repeat' (first | with_reducible assumption | (intro _) | with_reducible apply good_endBundle | with_reducible apply good_boundsFault
                   | with_reducible apply good_setCore | with_reducible apply ok_setG | with_reducible apply ok_setV
                   | with_reducible apply ok_write | with_reducible refine core_ok (s0 := s0) ?_
                   | (simp only [good_mk, good_mk_svn, ok_mk]) | split)

theorem good_awaitDone {s0 s : State} {c : CoreId} {k : Core} {gd : GReg} {flow : Nat} {data : Bool} (hg : Good s0 s) (hk : CoreOk k) :
    Good s0 (awaitDone s c k gd flow data) := by
  unfold awaitDone
  repeat' (first | with_reducible assumption | (intro _) | with_reducible apply good_endBundle | with_reducible apply good_setCore
                   | with_reducible apply ok_setG | with_reducible apply ok_setV | with_reducible apply ok_write
                   | with_reducible refine core_ok (s0 := s0) ?_ | (simp only [good_mk, good_mk_svn, ok_mk]) | split)

theorem good_endChecked {s0 s : State} {c : Nat} {k : Core} (hg : Good s0 s) (hk : CoreOk k) : Good s0 (State.endChecked s c k) := by
  unfold State.endChecked
  repeat' (first | with_reducible assumption | (intro _) | with_reducible apply good_boundsFault | with_reducible apply good_setCore
                   | with_reducible apply ok_setG | with_reducible apply ok_setV | with_reducible apply ok_write
                   | with_reducible refine core_ok (s0 := s0) ?_ | (simp only [good_mk, good_mk_svn, ok_mk]) | split)

end Sys2Proof.Machine
end

