-- ==== Sys2Proof/Laws/GoodDivisors.lean ====
section
/-! SUPPORT. Every operation of Divisors keeps a run good. -/

namespace Sys2Proof.Machine

theorem good_retarget {s0 s : State}  (hg : Good s0 s) : Good s0 (State.retarget s) := by
  unfold State.retarget
  repeat' (first | with_reducible assumption | (intro _) | with_reducible apply good_setReg | with_reducible apply good_foldl
                   | (simp only [good_mk, good_mk_svn, ok_mk]) | split)

theorem good_seeRail {s0 s : State} {n : Nat} {mv : Nat} (hg : Good s0 s) : Good s0 (State.seeRail s n mv) := by
  unfold State.seeRail
  repeat' (first | with_reducible assumption | (intro _) | with_reducible apply good_setReg | (simp only [good_mk, good_mk_svn, ok_mk])
                   | split)

theorem good_setLdiv {s0 s : State} {b : Nat} {d : Nat} (hg : Good s0 s) : Good s0 (State.setLdiv s b d) := by
  unfold State.setLdiv
  repeat' (first | with_reducible assumption | (intro _) | with_reducible apply good_seeRail | with_reducible apply good_setBerth
                   | with_reducible refine store_ok (s0 := s0) ?_ | (simp only [good_mk, good_mk_svn, ok_mk]) | split)

theorem good_setDivisor {s0 s : State} {h : Half} {d : Nat} (hg : Good s0 s) : Good s0 (State.setDivisor s h d) := by
  unfold State.setDivisor
  repeat' (first | with_reducible assumption | (intro _) | with_reducible apply good_setLdiv | with_reducible apply good_count
                   | with_reducible apply good_setHalf | with_reducible apply good_foldl | (simp only [good_mk, good_mk_svn, ok_mk])
                   | split)

theorem good_stepDivisor {s0 s : State} {h : Half} {settled : Bool} (hg : Good s0 s) : Good s0 (State.stepDivisor s h settled) := by
  unfold State.stepDivisor
  repeat' (first | with_reducible assumption | (intro _) | with_reducible apply good_setDivisor
                   | (simp only [good_mk, good_mk_svn, ok_mk]) | split)

theorem good_applyDivisors {s0 s : State} {settledW : Bool} {settledE : Bool} (hg : Good s0 s) : Good s0 (State.applyDivisors s settledW
    settledE) := by
  unfold State.applyDivisors
  repeat' (first | with_reducible assumption | (intro _) | with_reducible apply good_stepDivisor | with_reducible apply good_retarget
                   | (simp only [good_mk, good_mk_svn, ok_mk]) | split)

theorem good_gateBerth {s0 s : State} {b : Nat} (hg : Good s0 s) : Good s0 (State.gateBerth s b) := by
  unfold State.gateBerth
  repeat' (first | with_reducible assumption | (intro _) | with_reducible apply good_seeRail | with_reducible apply good_setBerth
                   | with_reducible refine store_ok (s0 := s0) ?_ | (simp only [good_mk, good_mk_svn, ok_mk]) | split)

theorem good_gateAll {s0 s : State}  (hg : Good s0 s) : Good s0 (State.gateAll s) := by
  unfold State.gateAll
  repeat' (first | with_reducible assumption | (intro _) | with_reducible apply good_gateBerth | with_reducible apply good_foldl
                   | (simp only [good_mk, good_mk_svn, ok_mk]) | split)

end Sys2Proof.Machine
end

