-- ==== Sys2Proof/Laws/GoodSteps.lean ====
section
/-! SUPPORT. Every operation of Steps keeps a run good. -/

namespace Sys2Proof.Machine

theorem good_rollback {s0 s : State} {st : Nat} {len : Nat} (hg : Good s0 s) : Good s0 (State.rollback s st len) := by
  unfold State.rollback
  repeat' (first | with_reducible assumption | (intro _) | with_reducible apply good_rewriteRing | with_reducible apply good_releasePages
                   | with_reducible apply good_setStream | (simp only [good_mk, good_mk_svn, ok_mk]) | split)

theorem good_unlinkDraft {s0 s : State} {t : Nat} (hg : Good s0 s) : Good s0 (State.unlinkDraft s t) := by
  unfold State.unlinkDraft
  repeat' (first | with_reducible assumption | (intro _) | with_reducible apply good_setRegI | with_reducible apply good_setStream
                   | (simp only [good_mk, good_mk_svn, ok_mk]) | split)

theorem good_checkLink {s0 s : State} {t : Nat} (hg : Good s0 s) : Good s0 (State.checkLink s t) := by
  unfold State.checkLink
  repeat' (first | with_reducible assumption | (intro _) | with_reducible apply good_unlinkDraft | with_reducible apply good_raiseSampler
                   | (simp only [good_mk, good_mk_svn, ok_mk]) | split)

theorem good_resync {s0 s : State} {t : Nat} (hg : Good s0 s) : Good s0 (State.resync s t) := by
  unfold State.resync
  repeat' (first | with_reducible assumption | (intro _) | with_reducible apply good_unlinkDraft | with_reducible apply good_rollback
                   | with_reducible apply good_raiseSampler | with_reducible apply good_putStream | with_reducible apply good_setStream
                   | (simp only [good_mk, good_mk_svn, ok_mk]) | split)

theorem good_applyConfig {s0 s : State} {i : Nat} (hg : Good s0 s) : Good s0 (State.applyConfig s i) := by
  unfold State.applyConfig
  repeat' (first | with_reducible assumption | (intro _) | with_reducible apply good_setStream | (simp only [good_mk, good_mk_svn, ok_mk])
                   | split)

theorem good_takeCandidate {s0 : State} {a : State × Nat × List BatchEntry} {i : Nat} (hg : Good s0 a.1) : Good s0 (takeIn a i).1 := by
  obtain ⟨s, budget, l⟩ := a
  unfold takeIn
  dsimp only
  split
  · exact hg
  · have h1 := good_matchBlocks (st := i) (y0 := 64) hg
    have h2 : ∀ (c : Prop) [Decidable c] x, Good s0 (if c then s.matchBlocks i 64 else (s.matchBlocks i 64).setStream i x) := by
      intro c _ x
      split
      · exact h1
      · exact good_setStream h1
    split
    · exact good_status (h2 _ _)
    · next u hu => exact good_setStream (good_reserve hu (h2 _ _))

theorem good_writeInputs {s0 s : State} {t : Step} {lb : Nat} (hg : Good s0 s) : Good s0 (State.writeInputs s t lb) := by
  unfold State.writeInputs
  repeat' (first | with_reducible assumption | (intro _) | with_reducible apply good_lbMirror | (simp only [good_mk, good_mk_svn, ok_mk])
                   | split)

theorem good_takeInputs {s0 s : State} {e : BatchEntry} (hg : Good s0 s) : Good s0 (State.takeInputs s e) := by
  unfold State.takeInputs
  repeat' (first | with_reducible assumption | (intro _) | with_reducible apply good_setStream | (simp only [good_mk, good_mk_svn, ok_mk])
                   | split)

theorem good_restoreEntry {s0 s : State} {e : BatchEntry} (hg : Good s0 s) : Good s0 (State.restoreEntry s e) := by
  unfold State.restoreEntry
  repeat' (first | with_reducible assumption | (intro _) | with_reducible apply good_putStream | (simp only [good_mk, good_mk_svn, ok_mk])
                   | split)

theorem good_discardNext {s0 s : State}  (hg : Good s0 s) : Good s0 (State.discardNext s) := by
  unfold State.discardNext
  repeat' (first | with_reducible assumption | (intro _) | with_reducible apply good_restoreEntry | with_reducible apply good_foldl
                   | (simp only [good_mk, good_mk_svn, ok_mk]) | split)

theorem good_dropStale {s0 s : State}  (hg : Good s0 s) : Good s0 (State.dropStale s) := by
  unfold State.dropStale
  repeat' (first | with_reducible assumption | (intro _) | with_reducible apply good_discardNext
                   | (simp only [good_mk, good_mk_svn, ok_mk]) | split)

theorem good_holdNow {s0 s : State} {l : List Nat} {c : Nat} (hg : Good s0 s) : Good s0 (State.holdNow s l c) := by
  unfold State.holdNow
  repeat' (first | with_reducible assumption | (intro _) | with_reducible apply good_dropStale | with_reducible apply good_holdAll
                   | (simp only [good_mk, good_mk_svn, ok_mk]) | split)

theorem good_emitTokens {s0 s : State} {x : Stream} {st : Nat} {step : Nat} {acc : Nat} {first : Nat} {emitted : List Nat} {done : Bool}
    {len : Nat} (hg : Good s0 s) : Good s0 (State.emitTokens s x st step acc first emitted done len) := by
  unfold State.emitTokens
  repeat' (first | with_reducible assumption | (intro _) | with_reducible apply good_emit | with_reducible apply good_foldl
                   | (simp only [good_mk, good_mk_svn, ok_mk]) | split)

theorem good_settle {s0 s : State} {t : Step} {e : BatchEntry} {logits : List (List Word)} (hg : Good s0 s) : Good s0 (State.settle s t e
    logits) := by
  unfold State.settle
  repeat' (first | with_reducible assumption | (intro _) | with_reducible apply good_emitTokens | with_reducible apply good_raiseSampler
                   | with_reducible apply good_putStream | with_reducible apply good_count | with_reducible apply good_setStream
                   | with_reducible apply good_foldl | (simp only [good_mk, good_mk_svn, ok_mk]) | split)

theorem good_kvCommit {s0 s : State} {e : BatchEntry} (hg : Good s0 s) : Good s0 (State.kvCommit s e) := by
  unfold State.kvCommit
  repeat' (first | with_reducible assumption | (intro _) | with_reducible apply good_backup | with_reducible apply good_insertBlocks
                   | with_reducible apply good_scan | with_reducible apply good_setStream | with_reducible apply good_foldl
                   | (simp only [good_mk, good_mk_svn, ok_mk]) | split)

theorem good_holdBad {s0 s : State} {img : Nat} (hg : Good s0 s) : Good s0 (State.holdBad s img) := by
  unfold State.holdBad
  repeat' (first | with_reducible assumption | (intro _) | with_reducible apply good_holdNow | with_reducible apply good_msiFault
                   | with_reducible apply good_setImage | (simp only [good_mk, good_mk_svn, ok_mk]) | split)

theorem good_startSwap {s0 s : State} {img : Nat} (hg : Good s0 s) : Good s0 (State.startSwap s img) := by
  unfold State.startSwap
  repeat' (first | with_reducible assumption | (intro _) | with_reducible apply good_holdNow | with_reducible apply good_setImage
                   | (simp only [good_mk, good_mk_svn, ok_mk]) | split)

theorem good_endSwap {s0 s : State} {img : Nat} (hg : Good s0 s) : Good s0 (State.endSwap s img) := by
  unfold State.endSwap
  repeat' (first | with_reducible assumption | (intro _) | with_reducible apply good_liftAll | with_reducible apply good_setImage
                   | with_reducible apply good_setStream | with_reducible apply good_foldl | (simp only [good_mk, good_mk_svn, ok_mk])
                   | split)

theorem good_copyCommitted {s0 s : State} {img : Nat} {layer : Nat} (hg : Good s0 s) : Good s0 (State.copyCommitted s img layer) := by
  unfold State.copyCommitted
  repeat' (first | with_reducible assumption | (intro _) | with_reducible apply good_endSwap | with_reducible apply good_setImage
                   | (simp only [good_mk, good_mk_svn, ok_mk]) | split)

theorem good_freshInterval {s0 s : State}  (hg : Good s0 s) : Good s0 (State.freshInterval s) := by
  unfold State.freshInterval
  repeat' (first | with_reducible assumption | (intro _) | with_reducible apply good_setStack | with_reducible apply good_foldl
                   | (simp only [good_mk, good_mk_svn, ok_mk]) | split)

theorem good_stepOver {s0 s : State}  (hg : Good s0 s) : Good s0 (State.stepOver s) := by
  unfold State.stepOver
  repeat' (first | with_reducible assumption | (intro _) | (simp only [good_mk, good_mk_svn, ok_mk]) | split)

theorem good_holdStop {s0 s : State}  (hg : Good s0 s) : Good s0 (State.holdStop s) := by
  unfold State.holdStop
  repeat' (first | with_reducible assumption | (intro _) | with_reducible apply good_holdNow | (simp only [good_mk, good_mk_svn, ok_mk])
                   | split)

theorem good_settleStop {s0 s : State}  (hg : Good s0 s) : Good s0 (State.settleStop s) := by
  unfold State.settleStop
  repeat' (first | with_reducible assumption | (intro _) | with_reducible apply good_holdStop | with_reducible apply good_gateAll
                   | (simp only [good_mk, good_mk_svn, ok_mk]) | split)

theorem good_dueSwap {s0 s : State} {img : Nat} (hg : Good s0 s) : Good s0 (State.dueSwap s img) := by
  unfold State.dueSwap
  repeat' (first | with_reducible assumption | (intro _) | with_reducible apply good_startSwap | (simp only [good_mk, good_mk_svn, ok_mk])
                   | split)

end Sys2Proof.Machine
end

