-- ==== Sys2Proof/Laws/GoodMesh.lean ====
section
/-! SUPPORT. Every operation of Mesh keeps a run good. -/

namespace Sys2Proof.Machine

theorem good_noteEgress {s0 s : State} {l src : Nat} {u : SlotUnit} (hg : Good s0 s) : Good s0 (s.noteEgress l src u) := by
  unfold State.noteEgress
  split
  · split
    · exact good_noteRead hg (core_ok hg)
    · exact hg
  · exact hg

theorem good_releaseStaged {s0 s : State} {u : Nat} {flow : Nat} {i : Nat} (hg : Good s0 s) : Good s0 (State.releaseStaged s u flow i) := by
  unfold State.releaseStaged
  repeat' (first | with_reducible assumption | (intro _) | with_reducible apply good_setLink | (simp only [good_mk, good_mk_svn, ok_mk])
                   | split)

theorem good_useWindow {s0 s : State} {w : Nat} (hg : Good s0 s) : Good s0 (State.useWindow s w) := by
  unfold State.useWindow
  repeat' (first | with_reducible assumption | (intro _) | with_reducible apply good_setZport | (simp only [good_mk, good_mk_svn, ok_mk])
                   | split)

theorem good_ackSlot {s0 s : State} {w : Nat} (hg : Good s0 s) : Good s0 (State.ackSlot s w) := by
  unfold State.ackSlot
  repeat' (first | with_reducible assumption | (intro _) | with_reducible apply good_received | (simp only [good_mk, good_mk_svn, ok_mk])
                   | split)

theorem good_trackSeam {s0 s : State} {w : Nat} (hg : Good s0 s) : Good s0 (State.trackSeam s w) := by
  unfold State.trackSeam
  repeat' (first | with_reducible assumption | (intro _) | with_reducible apply good_setReg | (simp only [good_mk, good_mk_svn, ok_mk])
                   | split)

theorem good_issueOn {s0 s : State} {w : Nat} {u : LinkUnit} {flits : Nat} {f : Way → Way} (hg : Good s0 s) : Good s0 (State.issueOn s w u
    flits f) := by
  unfold State.issueOn
  repeat' (first | with_reducible assumption | (intro _) | with_reducible apply good_trackSeam | with_reducible apply good_countWay
                   | with_reducible apply good_setWay | (simp only [good_mk, good_mk_svn, ok_mk]) | split)

theorem good_issueSlot {s0 s : State} {w : Nat} {l : Nat} {hop : Nat} {u : SlotUnit} {tunnel : Bool} {own : Bool} (hg : Good s0 s) : Good
    s0 (State.issueSlot s w l hop u tunnel own) := by
  unfold State.issueSlot
  repeat' (first | with_reducible assumption | (intro _) | with_reducible apply good_issueOn | with_reducible apply good_ackSlot
                   | with_reducible apply good_useWindow | (simp only [good_mk, good_mk_svn, ok_mk]) | split)

theorem good_issueOwned {s0 s : State} {l : Nat} {external : List Byte} (hg : Good s0 s) : Good s0 (State.issueOwned s l external) := by
  unfold State.issueOwned
  repeat' (first | with_reducible assumption | (intro _) | with_reducible apply good_issueSlot | with_reducible apply good_releaseStaged
                   | with_reducible apply good_noteEgress | with_reducible apply good_raiseOnce | with_reducible apply good_setLink
                   | (simp only [good_mk, good_mk_svn, ok_mk]) | split)

theorem good_issueTunnel {s0 s : State} {l : Nat} {hop : Nat} (hg : Good s0 s) : Good s0 (State.issueTunnel s l hop) := by
  unfold State.issueTunnel
  repeat' (first | with_reducible assumption | (intro _) | with_reducible apply good_issueSlot | with_reducible apply good_setLink
                   | (simp only [good_mk, good_mk_svn, ok_mk]) | split)

theorem ok_put {k : Core} {a : Nat} {d : List Byte} (h : CoreOk k) : CoreOk (k.put a d) := ⟨h.1, h.2, Memory.wf_write _ h.3⟩

theorem ok_landed {k : Core} {l : List (Nat × Nat)} (h : CoreOk k) : CoreOk { k with landed := l } := ⟨h.1, h.2, h.3⟩

theorem good_ingest {s0 s : State} {c : Nat} {u : SlotUnit} (hg : Good s0 s) : Good s0 (s.ingest c u) := by
  unfold State.ingest
  dsimp only
  split
  · exact good_boundsFault hg
  · exact good_setCore (ok_landed (ok_put (core_ok hg))) hg

theorem good_trackStaging {s0 s : State} {l : Nat} {w : Nat} (hg : Good s0 s) : Good s0 (State.trackStaging s l w) := by
  unfold State.trackStaging
  repeat' (first | with_reducible assumption | (intro _) | with_reducible apply good_setRegI | with_reducible apply good_foldl
                   | (simp only [good_mk, good_mk_svn, ok_mk]) | split)

theorem good_slotEnds {s0 s : State} {l : Nat} {w : Nat} {u : SlotUnit} {tunnel : Bool} (hg : Good s0 s) : Good s0 (State.slotEnds s l w u
    tunnel) := by
  unfold State.slotEnds
  repeat' (first | with_reducible assumption | (intro _) | with_reducible apply good_trackStaging | with_reducible apply good_ingest
                   | with_reducible apply good_setLink | (simp only [good_mk, good_mk_svn, ok_mk]) | split)

theorem good_trackDyn {s0 s : State} {w : Nat} (hg : Good s0 s) : Good s0 (State.trackDyn s w) := by
  unfold State.trackDyn
  repeat' (first | with_reducible assumption | (intro _) | with_reducible apply good_setRegI | with_reducible apply good_foldl
                   | (simp only [good_mk, good_mk_svn, ok_mk]) | split)

theorem good_setPacket {s0 s : State} {id : Nat} {f : Packet → Packet} (hg : Good s0 s) : Good s0 (State.setPacket s id f) := by
  unfold State.setPacket
  repeat' (first | with_reducible assumption | (intro _) | (simp only [good_mk, good_mk_svn, ok_mk]) | split)

theorem good_countPacket {s0 s : State} {w : Nat} {p : Packet} (hg : Good s0 s) : Good s0 (State.countPacket s w p) := by
  unfold State.countPacket
  repeat' (first | with_reducible assumption | (intro _) | with_reducible apply good_countWay | (simp only [good_mk, good_mk_svn, ok_mk])
                   | split)

theorem good_countRetry {s0 s : State} {w : Nat} (hg : Good s0 s) : Good s0 (State.countRetry s w) := by
  unfold State.countRetry
  repeat' (first | with_reducible assumption | (intro _) | with_reducible apply good_setRegI | with_reducible apply good_foldl
                   | (simp only [good_mk, good_mk_svn, ok_mk]) | split)

theorem good_ninthFailure {s0 s : State} {w : Nat} {y0 : LinkUnit} (hg : Good s0 s) : Good s0 (State.ninthFailure s w y0) := by
  unfold State.ninthFailure
  repeat' (first | with_reducible assumption | (intro _) | with_reducible apply good_failRequest | with_reducible apply good_dropPacket
                   | with_reducible apply good_setWay | (simp only [good_mk, good_mk_svn, ok_mk]) | split)

theorem good_unitFails {s0 s : State} {w : Nat} {u : LinkUnit} (hg : Good s0 s) : Good s0 (State.unitFails s w u) := by
  unfold State.unitFails
  repeat' (first | with_reducible assumption | (intro _) | with_reducible apply good_ninthFailure | with_reducible apply good_countRetry
                   | with_reducible apply good_raise | with_reducible apply good_setWay | (simp only [good_mk, good_mk_svn, ok_mk])
                   | split)

theorem good_movePacket {s0 s : State} {p : Packet} {a : PacketAt} (hg : Good s0 s) : Good s0 (State.movePacket s p a) := by
  unfold State.movePacket
  repeat' (first | with_reducible assumption | (intro _) | with_reducible apply good_setPacket | with_reducible apply good_setWay
                   | with_reducible apply good_foldl | (simp only [good_mk, good_mk_svn, ok_mk]) | split)

theorem good_refusePacket {s0 s : State} {p : Packet} (hg : Good s0 s) : Good s0 (State.refusePacket s p) := by
  unfold State.refusePacket
  repeat' (first | with_reducible assumption | (intro _) | with_reducible apply good_failRequest | with_reducible apply good_dropPacket
                   | with_reducible apply good_raise | (simp only [good_mk, good_mk_svn, ok_mk]) | split)

theorem good_deliver {s0 s : State} {p : Packet} (hg : Good s0 s) : Good s0 (State.deliver s p) := by
  unfold State.deliver
  repeat' (first | with_reducible assumption | (intro _) | with_reducible apply good_dropPacket
                   | (simp only [good_mk, good_mk_svn, ok_mk]) | split)

theorem good_serveStore {s0 s : State} {p : Packet} (hg : Good s0 s) : Good s0 (State.serveStore s p) := by
  unfold State.serveStore
  repeat' (first | with_reducible assumption | (intro _) | with_reducible apply good_deliver | with_reducible apply good_storeWrite
                   | with_reducible apply good_respond | with_reducible apply good_dropPacket | with_reducible apply good_raise
                   | (simp only [good_mk, good_mk_svn, ok_mk]) | split)

theorem good_serveStack {s0 s : State} {k : Nat} {p : Packet} (hg : Good s0 s) : Good s0 (State.serveStack s k p) := by
  unfold State.serveStack
  repeat' (first | with_reducible assumption | (intro _) | with_reducible apply good_deliver | with_reducible apply good_dropPacket
                   | with_reducible apply good_setStack | (simp only [good_mk, good_mk_svn, ok_mk]) | split)

theorem good_serveHarbour {s0 s : State} {p : Packet} (hg : Good s0 s) : Good s0 (s.serveHarbour p) := by
  unfold State.serveHarbour
  split
  · dsimp only
    split
    · exact good_respond (good_mk_hostMem (good_dropPacket hg) (Memory.wf_write _ hg.inv.hostMem))
    · exact good_respond (good_dropPacket hg)
  · exact good_deliver hg

end Sys2Proof.Machine
end

