-- ==== Sys2Proof/Laws/GoodSlices.lean ====
section
/-! SUPPORT. Every operation of Slices keeps a run good. -/

namespace Sys2Proof.Machine

theorem good_sendEdge {s0 s : State} {m : CtlMsg} {role : Nat} (hg : Good s0 s) : Good s0 (State.sendEdge s m role) := by
  unfold State.sendEdge
  repeat' (first | with_reducible assumption | (intro _) | with_reducible apply good_sendCtl | (simp only [good_mk, good_mk_svn, ok_mk])
                   | split)

theorem good_sendUp {s0 s : State} {m : SliceMsg} (hg : Good s0 s) : Good s0 (State.sendUp s m) := by
  unfold State.sendUp
  repeat' (first | with_reducible assumption | (intro _) | with_reducible apply good_sendEdge | (simp only [good_mk, good_mk_svn, ok_mk])
                   | split)

theorem good_sendDown {s0 s : State} {m : SliceMsg} (hg : Good s0 s) : Good s0 (State.sendDown s m) := by
  unfold State.sendDown
  repeat' (first | with_reducible assumption | (intro _) | with_reducible apply good_sendEdge | with_reducible apply good_foldl
                   | (simp only [good_mk, good_mk_svn, ok_mk]) | split)

theorem good_sendTime {s0 s : State} {t : Dword} {ns : Nat} (hg : Good s0 s) : Good s0 (State.sendTime s t ns) := by
  unfold State.sendTime
  repeat' (first | with_reducible assumption | (intro _) | with_reducible apply good_sendEdge | with_reducible apply good_foldl
                   | (simp only [good_mk, good_mk_svn, ok_mk]) | split)

theorem good_passUp {s0 s : State}  (hg : Good s0 s) : Good s0 (State.passUp s) := by
  unfold State.passUp
  repeat' (first | with_reducible assumption | (intro _) | with_reducible apply good_sendUp | (simp only [good_mk, good_mk_svn, ok_mk])
                   | split)

end Sys2Proof.Machine
end

