-- ==== Sys2Proof/Laws/GoodChamois.lean ====
section
/-! SUPPORT. Every operation of Chamois keeps a run good. -/

namespace Sys2Proof.Machine

theorem good_moveNodes {s0 s : State}  (hg : Good s0 s) : Good s0 (State.moveNodes s) := by
  unfold State.moveNodes
  repeat' (first | with_reducible assumption | (intro _) | (simp only [good_mk, good_mk_svn, ok_mk]) | split)

theorem good_resendFlit {s0 s : State} {n : ChNode} {resent : Bool} (hg : Good s0 s) : Good s0 (State.resendFlit s n resent) := by
  unfold State.resendFlit
  repeat' (first | with_reducible assumption | (intro _) | with_reducible apply good_raise | (simp only [good_mk, good_mk_svn, ok_mk])
                   | split)

theorem good_recordLate {s0 s : State} {c : Nat} (hg : Good s0 s) : Good s0 (State.recordLate s c) := by
  unfold State.recordLate
  repeat' (first | with_reducible assumption | (intro _) | with_reducible apply good_raise | with_reducible apply good_setReg
                   | (simp only [good_mk, good_mk_svn, ok_mk]) | split)

theorem good_recordSlots {s0 s : State} (hg : Good s0 s) : Good s0 s.recordSlots := by
  unfold State.recordSlots
  dsimp only
  refine good_foldl _ (good_mk_regs hg (Sparse.wf_filter _ hg.inv.regs)) ?_
  intro t e h
  refine good_foldl _ h ?_
  intro t x h
  exact good_setRegI h

theorem good_compareHint {s0 s : State} {cycles : Nat} (hg : Good s0 s) : Good s0 (State.compareHint s cycles) := by
  unfold State.compareHint
  repeat' (first | with_reducible assumption | (intro _) | with_reducible apply good_count | (simp only [good_mk, good_mk_svn, ok_mk])
                   | split)

theorem good_countSecond {s0 s : State}  (hg : Good s0 s) : Good s0 (State.countSecond s) := by
  unfold State.countSecond
  repeat' (first | with_reducible assumption | (intro _) | with_reducible apply good_drawn | with_reducible apply good_count
                   | (simp only [good_mk, good_mk_svn, ok_mk]) | split)

theorem good_countBarrier {s0 s : State} {relNclk : List Nat} (hg : Good s0 s) : Good s0 (State.countBarrier s relNclk) := by
  unfold State.countBarrier
  repeat' (first | with_reducible assumption | (intro _) | with_reducible apply good_setReg | with_reducible apply good_foldl
                   | (simp only [good_mk, good_mk_svn, ok_mk]) | split)

theorem ok_fresh {l : List (Nat × Core)} (h : ∀ e ∈ l, CoreOk e.2) :
    ∀ e ∈ (l.map (fun e => (e.1, freshCore e.2))).filter (fun e => e.2 ≠ {}), CoreOk e.2 := by
  intro e he
  obtain ⟨e', he', rfl⟩ := List.mem_map.1 (List.mem_of_mem_filter he)
  have h := h e' he'
  exact ⟨h.1, h.2, h.3⟩

theorem good_nextEpoch {s0 s : State} (hg : Good s0 s) : Good s0 s.nextEpoch := by
  unfold State.nextEpoch
  extract_lets n u t
  have h : Good s0 t := (good_mk (x := u)).2 (good_keepDynamic hg)
  clear_value t u n
  split
  · exact good_mk_cores h (Sparse.wf_map_filter freshCore {} h.inv.cores) (ok_fresh h.inv.core)
  · exact good_mk.2 h

theorem good_correctClock {s0 s : State} {b : Nat} {c : Int} {v : Int} (hg : Good s0 s) : Good s0 (State.correctClock s b c v) := by
  unfold State.correctClock
  repeat' (first | with_reducible assumption | (intro _) | with_reducible apply good_hold | (simp only [good_mk, good_mk_svn, ok_mk])
                   | split)

theorem good_holdClocks {s0 s : State}  (hg : Good s0 s) : Good s0 (State.holdClocks s) := by
  unfold State.holdClocks
  repeat' (first | with_reducible assumption | (intro _) | with_reducible apply good_hold | (simp only [good_mk, good_mk_svn, ok_mk])
                   | split)

end Sys2Proof.Machine
end

