-- ==== Sys2Proof/Laws/GoodStreamOps.lean ====
section
/-! SUPPORT. Every operation of StreamOps keeps a run good. -/

namespace Sys2Proof.Machine

theorem good_unlinkAll {s0 s : State} {st : Nat} (hg : Good s0 s) : Good s0 (State.unlinkAll s st) := by
  unfold State.unlinkAll
  repeat' (first | with_reducible assumption | (intro _) | with_reducible apply good_unlinkDraft | with_reducible apply good_foldl
                   | (simp only [good_mk, good_mk_svn, ok_mk]) | split)

theorem good_freeStream {s0 s : State} {st : Nat} (hg : Good s0 s) : Good s0 (State.freeStream s st) := by
  unfold State.freeStream
  repeat' (first | with_reducible assumption | (intro _) | with_reducible apply good_unlinkAll | with_reducible apply good_releaseAll
                   | with_reducible apply good_setStream | with_reducible apply good_setStack | with_reducible apply good_foldl
                   | (simp only [good_mk, good_mk_svn, ok_mk]) | split)

theorem good_loseStream {s0 s : State} {st : Nat} (hg : Good s0 s) : Good s0 (State.loseStream s st) := by
  unfold State.loseStream
  repeat' (first | with_reducible assumption | (intro _) | with_reducible apply good_freeStream | with_reducible apply good_status
                   | (simp only [good_mk, good_mk_svn, ok_mk]) | split)

end Sys2Proof.Machine
end

