-- ==== Sys2Proof/Laws/GoodEpoch.lean ====
section
/-! SUPPORT. Every operation of Epoch keeps a run good. -/

namespace Sys2Proof.Machine

theorem ok_dropped {m : List (Nat × Core)} (h : ∀ e ∈ m, CoreOk e.2) :
    ∀ e ∈ (m.map (fun e => (e.1, { e.2 with reads := [], tile := none }))).filter (fun e => e.2 ≠ {}), CoreOk e.2 := by
  intro e he
  obtain ⟨e', he', rfl⟩ := List.mem_map.1 (List.mem_of_mem_filter he)
  exact ⟨(h e' he').1, (h e' he').2, (h e' he').3⟩

theorem store_dropped {m : List (Nat × BerthSt)} (h : ∀ e ∈ m, Memory.wf e.2.store = true) :
    ∀ e ∈ (m.map (fun e => (e.1, { e.2 with entries := dropCoreReads e.2.entries }))).filter (fun e => e.2 ≠ {}),
      Memory.wf e.2.store = true := by
  intro e he
  obtain ⟨e', he', rfl⟩ := List.mem_map.1 (List.mem_of_mem_filter he)
  exact h e' he'

theorem good_abortRun {s0 s : State} {counted : Bool} (hg : Good s0 s) : Good s0 (s.abortRun counted) := by
  unfold State.abortRun
  split
  · exact hg
  · split
    · exact hg
    · exact ⟨⟨hg.kept.1, hg.kept.2, hg.kept.3, hg.kept.4, hg.kept.5, hg.kept.6, hg.kept.7, hg.kept.8⟩,
        ⟨hg.inv.1, hg.inv.2, hg.inv.3, hg.inv.4, hg.inv.5,
         Sparse.wf_map_filter (fun k : Core => { k with reads := [], tile := none }) {} hg.inv.cores, ok_dropped hg.inv.core,
         Sparse.wf_map_filter (fun y : BerthSt => { y with entries := dropCoreReads y.entries }) {} hg.inv.berths,
         store_dropped hg.inv.store⟩⟩

theorem good_endHandling {s0 s : State}  (hg : Good s0 s) : Good s0 (State.endHandling s) := by
  unfold State.endHandling
  repeat' (first | with_reducible assumption | (intro _) | with_reducible apply good_count | with_reducible apply good_setReg
                   | (simp only [good_mk, good_mk_svn, ok_mk]) | split)

theorem good_startRun {s0 s : State} {t : Step} (hg : Good s0 s) : Good s0 (s.startRun t) := by
  unfold State.startRun
  have h : Good s0 (s.applyDivisors true true).keepDynamic := good_keepDynamic (good_applyDivisors hg)
  dsimp only
  generalize (s.applyDivisors true true).keepDynamic = u at h
  exact good_mk_cores h rfl (fun _ h => nomatch h)

theorem good_markWritten {s0 s : State} {t : Step} (hg : Good s0 s) : Good s0 (State.markWritten s t) := by
  unfold State.markWritten
  repeat' (first | with_reducible assumption | (intro _) | with_reducible apply good_setStream | with_reducible apply good_foldl
                   | (simp only [good_mk, good_mk_svn, ok_mk]) | split)

theorem good_takeTurn {s0 s : State}  (hg : Good s0 s) : Good s0 (State.takeTurn s) := by
  unfold State.takeTurn
  repeat' (first | with_reducible assumption | (intro _) | with_reducible apply good_setImage | with_reducible apply good_foldl
                   | (simp only [good_mk, good_mk_svn, ok_mk]) | split)

end Sys2Proof.Machine
end

