-- ==== Sys2Proof/Laws/GoodFaults.lean ====
section
/-! SUPPORT. Every operation of Faults keeps a run good. -/

namespace Sys2Proof.Machine

theorem good_loseShards {s0 s : State} {lb : Nat} (hg : Good s0 s) : Good s0 (State.loseShards s lb) := by
  unfold State.loseShards
  repeat' (first | with_reducible assumption | (intro _) | with_reducible apply good_setImage | with_reducible apply good_foldl
                   | (simp only [good_mk, good_mk_svn, ok_mk]) | split)

theorem good_rewriteShard {s0 s : State} {x : ImageSt} {m : Manifest} {i : Nat} {y : Shard} (hg : Good s0 s) : Good s0 (State.rewriteShard
    s x m i y) := by
  unfold State.rewriteShard
  repeat' (first | with_reducible assumption | (intro _) | with_reducible apply good_regionWrite | with_reducible apply good_storeWrite
                   | (simp only [good_mk, good_mk_svn, ok_mk]) | split)

theorem good_fromBackup {s0 s : State} {img : Nat} (hg : Good s0 s) : Good s0 (State.fromBackup s img) := by
  unfold State.fromBackup
  repeat' (first | with_reducible assumption | (intro _) | with_reducible apply good_rewriteShard | with_reducible apply good_setImage
                   | with_reducible apply good_foldl | (simp only [good_mk, good_mk_svn, ok_mk]) | split)

theorem good_forgetSummaries {s0 s : State} {lb : Nat} (hg : Good s0 s) : Good s0 (State.forgetSummaries s lb) := by
  unfold State.forgetSummaries
  repeat' (first | with_reducible assumption | (intro _) | with_reducible apply good_setIxWord | with_reducible apply good_setStream
                   | with_reducible apply good_foldl | (simp only [good_mk, good_mk_svn, ok_mk]) | split)

theorem good_restorePages {s0 s : State} {lb : Nat} (hg : Good s0 s) : Good s0 (State.restorePages s lb) := by
  unfold State.restorePages
  repeat' (first | with_reducible assumption | (intro _) | with_reducible apply good_lbPut | with_reducible apply good_foldl
                   | (simp only [good_mk, good_mk_svn, ok_mk]) | split)

theorem good_dropNodesAt {s0 s : State} {lb : Nat} (hg : Good s0 s) : Good s0 (State.dropNodesAt s lb) := by
  unfold State.dropNodesAt
  repeat' (first | with_reducible assumption | (intro _) | with_reducible apply good_removeNode | with_reducible apply good_foldl
                   | (simp only [good_mk, good_mk_svn, ok_mk]) | split)

theorem good_retire {s0 s : State} {c : Nat} (hg : Good s0 s) : Good s0 (State.retire s c) := by
  unfold State.retire
  repeat' (first | with_reducible assumption | (intro _) | with_reducible apply good_setBerth
                   | with_reducible refine store_ok (s0 := s0) ?_ | (simp only [good_mk, good_mk_svn, ok_mk]) | split)

theorem good_noSpare {s0 s : State}  (hg : Good s0 s) : Good s0 (State.noSpare s) := by
  unfold State.noSpare
  repeat' (first | with_reducible assumption | (intro _) | with_reducible apply good_holdNow | with_reducible apply good_raise
                   | with_reducible apply good_msiFault | (simp only [good_mk, good_mk_svn, ok_mk]) | split)

theorem wf_rebuilt {s : State} {lb : Nat} {m : List (Nat × Byte)} (h : Memory.wf m = true) : Memory.wf (s.rebuilt lb m) = true :=
  Sparse.wf_filter _ h

theorem good_rebuildDie {s0 s : State} {c lb : Nat} (hg : Good s0 s) : Good s0 (s.rebuildDie c lb) := by
  unfold State.rebuildDie
  have h1 : Good s0 ((s.liveStreams.filter (fun i => s.losesAt i lb)).foldl State.loseStream s) :=
    good_foldl _ hg (fun _ _ h => good_loseStream h)
  generalize (s.liveStreams.filter (fun i => s.losesAt i lb)).foldl State.loseStream s = t at h1
  have h2 : Good s0 (t.dropNodesAt lb) := good_dropNodesAt h1
  dsimp only
  generalize t.dropNodesAt lb = u at h2
  exact good_loseShards (good_forgetSummaries (good_restorePages (good_setBerth (wf_rebuilt (store_ok h2)) h2)))

theorem good_bindSpare {s0 s : State} {b c lb : Nat} (hg : Good s0 s) : Good s0 (s.bindSpare b c lb) := by
  unfold State.bindSpare
  extract_lets x y bad t1 t2 t3 t4
  have hx : Memory.wf x.store = true := store_ok hg
  have h1 : Good s0 t1 := by
    refine good_setBerth ?_ hg
    show Memory.wf (if x.role = .dark then [] else x.store) = true
    split
    · rfl
    · exact hx
  have h2 : Good s0 t2 := good_setBerth hx h1
  have h3 : Good s0 t3 := good_setReg h2
  have h4 : Good s0 t4 := by
    unfold t4
    split
    · exact h3
    · exact good_rebuildDie h3
  exact good_holdNow (good_mk.2 h4)

theorem good_resetBerth {s0 s : State} {b : Nat} (hg : Good s0 s) : Good s0 (s.resetBerth b) := by
  unfold State.resetBerth
  exact good_setBasin (good_mk_regs hg (Sparse.wf_filter _ hg.inv.regs))

theorem good_skipAround {s0 s : State} {b : Nat} (hg : Good s0 s) : Good s0 (State.skipAround s b) := by
  unfold State.skipAround
  repeat' (first | with_reducible assumption | (intro _) | with_reducible apply good_raise | with_reducible apply good_setReg
                   | with_reducible apply good_foldl | (simp only [good_mk, good_mk_svn, ok_mk]) | split)

theorem good_takeSpare {s0 : State} {lb : Nat} {bad : List Nat} (l : List Nat) {s : State} (hg : Good s0 s) :
    Good s0 (State.takeSpare lb bad s l).1 := by
  induction l generalizing s with
  | nil => exact hg
  | cons c l ih =>
    unfold State.takeSpare
    repeat' split
    · exact ih hg
    · exact ih (good_retire hg)
    · exact hg

theorem good_repairBerth {s0 s : State} {bad : List Nat} {b : Nat} (hg : Good s0 s) : Good s0 (s.repairBerth bad b) := by
  unfold State.repairBerth
  extract_lets x lb latched serves w uncap spares t v
  have hu : ∀ t, Good s0 t → Good s0 (uncap t) := fun t h => good_retarget (good_setHalf h)
  have ht : Good s0 t := good_setBerth (store_ok hg) hg
  have hv : Good s0 v := by
    unfold v
    split
    · exact ht
    · exact good_resetBerth ht
  split
  · split
    · exact hu _ (good_setBerth (store_ok hg) hg)
    · exact hg
  · split
    · exact hg
    · have h := good_takeSpare (lb := lb) (bad := bad) spares (hu v hv)
      split
      · next u c ht =>
        rw [ht] at h
        exact good_bindSpare (good_resetBerth h)
      · next u ht =>
        rw [ht] at h
        apply good_noSpare
        split
        · exact good_msiFault (good_raise h)
        · exact h

theorem good_widenBerth {s0 s : State}  (hg : Good s0 s) : Good s0 (State.widenBerth s) := by
  unfold State.widenBerth
  repeat' (first | with_reducible assumption | (intro _) | (simp only [good_mk, good_mk_svn, ok_mk]) | split)

theorem good_repairRow {s0 s : State} {bad : List Nat} {inst : Nat} (hg : Good s0 s) : Good s0 (State.repairRow s bad inst) := by
  unfold State.repairRow
  repeat' (first | with_reducible assumption | (intro _) | with_reducible apply good_widenBerth | with_reducible apply good_repairBerth
                   | with_reducible apply good_setBerth | with_reducible refine store_ok (s0 := s0) ?_
                   | (simp only [good_mk, good_mk_svn, ok_mk]) | split)

theorem good_mendShard {s0 s : State} {b : Nat} {line : Nat} {e : Nat × Nat} (hg : Good s0 s) : Good s0 (State.mendShard s b line e) := by
  unfold State.mendShard
  repeat' (first | with_reducible assumption | (intro _) | with_reducible apply good_holdNow | with_reducible apply good_storePut
                   | with_reducible apply good_setImage | (simp only [good_mk, good_mk_svn, ok_mk]) | split)

theorem good_mendWeights {s0 s : State} {b : Nat} {line : Nat} (hg : Good s0 s) : Good s0 (State.mendWeights s b line) := by
  unfold State.mendWeights
  repeat' (first | with_reducible assumption | (intro _) | with_reducible apply good_mendShard | with_reducible apply good_foldl
                   | (simp only [good_mk, good_mk_svn, ok_mk]) | split)

theorem good_restoreCopies {s0 s : State} {lb : Nat} {line : Nat} {st : Nat} (hg : Good s0 s) : Good s0 (State.restoreCopies s lb line st)
    := by
  unfold State.restoreCopies
  repeat' (first | with_reducible assumption | (intro _) | with_reducible apply good_lbPut | with_reducible apply good_foldl
                   | (simp only [good_mk, good_mk_svn, ok_mk]) | split)

theorem good_mendKv {s0 s : State} {b : Nat} {line : Nat} (hg : Good s0 s) : Good s0 (State.mendKv s b line) := by
  unfold State.mendKv
  repeat' (first | with_reducible assumption | (intro _) | with_reducible apply good_restoreCopies | with_reducible apply good_loseStream
                   | with_reducible apply good_foldl | (simp only [good_mk, good_mk_svn, ok_mk]) | split)

theorem good_mendBerth {s0 s : State} {b : Nat} (hg : Good s0 s) : Good s0 (State.mendBerth s b) := by
  unfold State.mendBerth
  repeat' (first | with_reducible assumption | (intro _) | with_reducible apply good_mendKv | with_reducible apply good_mendWeights
                   | with_reducible apply good_setBerth | with_reducible refine store_ok (s0 := s0) ?_ | with_reducible apply good_foldl
                   | (simp only [good_mk, good_mk_svn, ok_mk]) | split)

theorem good_forgetCopies {s0 s : State} {st : Nat} {dpa : Nat} {n : Nat} (hg : Good s0 s) : Good s0 (State.forgetCopies s st dpa n) := by
  unfold State.forgetCopies
  repeat' (first | with_reducible assumption | (intro _) | with_reducible apply good_dropCopy | with_reducible apply good_setIxWord
                   | with_reducible apply good_foldl | (simp only [good_mk, good_mk_svn, ok_mk]) | split)

theorem good_mendRegions {s0 s : State} {dpa : Nat} {n : Nat} {i : Nat} (hg : Good s0 s) : Good s0 (State.mendRegions s dpa n i) := by
  unfold State.mendRegions
  repeat' (first | with_reducible assumption | (intro _) | with_reducible apply good_rewriteShard | with_reducible apply good_holdNow
                   | with_reducible apply good_regionWrite | with_reducible apply good_setImage | with_reducible apply good_foldl
                   | (simp only [good_mk, good_mk_svn, ok_mk]) | split)

theorem good_mendTier {s0 s : State} {dpa : Nat} {n : Nat} (hg : Good s0 s) : Good s0 (State.mendTier s dpa n) := by
  unfold State.mendTier
  repeat' (first | with_reducible assumption | (intro _) | with_reducible apply good_mendRegions | with_reducible apply good_forgetCopies
                   | with_reducible apply good_loseStream | with_reducible apply good_removeNode | with_reducible apply good_foldl
                   | (simp only [good_mk, good_mk_svn, ok_mk]) | split)

theorem good_mendStack {s0 s : State} {k : Nat} (hg : Good s0 s) : Good s0 (State.mendStack s k) := by
  unfold State.mendStack
  repeat' (first | with_reducible assumption | (intro _) | with_reducible apply good_mendTier | with_reducible apply good_setStack
                   | with_reducible apply good_foldl | (simp only [good_mk, good_mk_svn, ok_mk]) | split)

theorem good_rewriteLine {s0 s : State} {e : FltErr} (hg : Good s0 s) : Good s0 (State.rewriteLine s e) := by
  unfold State.rewriteLine
  repeat' (first | with_reducible assumption | (intro _) | with_reducible apply good_mendStack | with_reducible apply good_mendBerth
                   | (simp only [good_mk, good_mk_svn, ok_mk]) | split)

theorem good_mendAll {s0 s : State}  (hg : Good s0 s) : Good s0 (State.mendAll s) := by
  unfold State.mendAll
  repeat' (first | with_reducible assumption | (intro _) | with_reducible apply good_mendStack | with_reducible apply good_mendBerth
                   | with_reducible apply good_foldl | (simp only [good_mk, good_mk_svn, ok_mk]) | split)

theorem good_rebind {s0 s : State} {bad : List Nat} {lb : Nat} (hg : Good s0 s) : Good s0 (s.rebind bad lb) := by
  unfold State.rebind
  split
  · exact hg
  · next b _ =>
    split
    · exact hg
    · have h := good_takeSpare (lb := lb) (bad := bad) (s.sparesFor b) hg
      split
      · next u c ht =>
        rw [ht] at h
        exact good_bindSpare (good_setBerth (store_ok h) h)
      · next u ht =>
        rw [ht] at h
        exact good_noSpare (good_msiFault (good_raise h))

theorem good_rebindAll {s0 s : State} {bad : List Nat} (hg : Good s0 s) : Good s0 (State.rebindAll s bad) := by
  unfold State.rebindAll
  repeat' (first | with_reducible assumption | (intro _) | with_reducible apply good_rebind | with_reducible apply good_foldl
                   | (simp only [good_mk, good_mk_svn, ok_mk]) | split)

theorem good_repairAll {s0 s : State} {bad : List Nat} (hg : Good s0 s) : Good s0 (State.repairAll s bad) := by
  unfold State.repairAll
  repeat' (first | with_reducible assumption | (intro _) | with_reducible apply good_rebindAll | with_reducible apply good_rewriteLine
                   | with_reducible apply good_repairRow | with_reducible apply good_repairBerth | with_reducible apply good_foldl
                   | (simp only [good_mk, good_mk_svn, ok_mk]) | split)

theorem good_replaceModule {s0 s : State} {a : Nat} (hg : Good s0 s) : Good s0 (State.replaceModule s a) := by
  unfold State.replaceModule
  repeat' (first | with_reducible assumption | (intro _) | with_reducible apply good_setRegI | (simp only [good_mk, good_mk_svn, ok_mk])
                   | split)

theorem good_liftRepaired {s0 s : State} {img : Nat} (hg : Good s0 s) : Good s0 (State.liftRepaired s img) := by
  unfold State.liftRepaired
  repeat' (first | with_reducible assumption | (intro _) | with_reducible apply good_liftAll | (simp only [good_mk, good_mk_svn, ok_mk])
                   | split)

theorem good_giveUp {s0 s : State}  (hg : Good s0 s) : Good s0 (State.giveUp s) := by
  unfold State.giveUp
  repeat' (first | with_reducible assumption | (intro _) | with_reducible apply good_dueSwap | with_reducible apply good_stepOver
                   | (simp only [good_mk, good_mk_svn, ok_mk]) | split)

theorem good_escalateStep {s0 s : State} {t : Step} (hg : Good s0 s) : Good s0 (State.escalateStep s t) := by
  unfold State.escalateStep
  repeat' (first | with_reducible assumption | (intro _) | with_reducible apply good_giveUp | with_reducible apply good_restoreEntry
                   | with_reducible apply good_status | with_reducible apply good_holdAll | with_reducible apply good_hold
                   | with_reducible apply good_raise | with_reducible apply good_msiFault | with_reducible apply good_count
                   | with_reducible apply good_setImage | with_reducible apply good_foldl | (simp only [good_mk, good_mk_svn, ok_mk])
                   | split)

theorem good_restoreStep {s0 s : State} {t : Step} (hg : Good s0 s) : Good s0 (State.restoreStep s t) := by
  unfold State.restoreStep
  repeat' (first | with_reducible assumption | (intro _) | with_reducible apply good_giveUp | with_reducible apply good_restoreEntry
                   | with_reducible apply good_writeInputs | with_reducible apply good_foldl | (simp only [good_mk, good_mk_svn, ok_mk])
                   | split)

theorem good_escalateOrDrop {s0 s : State} {t : Step} (hg : Good s0 s) : Good s0 (State.escalateOrDrop s t) := by
  unfold State.escalateOrDrop
  repeat' (first | with_reducible assumption | (intro _) | with_reducible apply good_escalateStep | with_reducible apply good_giveUp
                   | with_reducible apply good_restoreEntry | with_reducible apply good_foldl | (simp only [good_mk, good_mk_svn, ok_mk])
                   | split)

theorem good_rewriteTable {s0 s : State}  (hg : Good s0 s) : Good s0 (State.rewriteTable s) := by
  unfold State.rewriteTable
  repeat' (first | with_reducible assumption | (intro _) | (simp only [good_mk, good_mk_svn, ok_mk]) | split)

end Sys2Proof.Machine
end

