-- ==== Sys2Proof/Laws/GoodPortOps.lean ====
section
/-! SUPPORT. Every operation of PortOps keeps a run good. -/

namespace Sys2Proof.Machine

theorem good_ringFailed {s0 s : State} {p : HostPort} {k : RingKind} (hg : Good s0 s) : Good s0 (State.ringFailed s p k) := by
  unfold State.ringFailed
  repeat' (first | with_reducible assumption | (intro _) | with_reducible apply good_raise | with_reducible apply good_setReg
                   | (simp only [good_mk, good_mk_svn, ok_mk]) | split)

theorem good_logRefused {s0 s : State} {p : HostPort} {dpa : Nat} (hg : Good s0 s) : Good s0 (State.logRefused s p dpa) := by
  unfold State.logRefused
  repeat' (first | with_reducible assumption | (intro _) | with_reducible apply good_raise | with_reducible apply good_setReg
                   | (simp only [good_mk, good_mk_svn, ok_mk]) | split)

end Sys2Proof.Machine
end

