-- ==== Sys2Proof/Laws/GoodRequests.lean ====
section
/-! SUPPORT. Every operation of Requests keeps a run good. -/

namespace Sys2Proof.Machine

theorem good_badReq {s0 s : State} {p : HostPort} {r : RequestRec} (hg : Good s0 s) : Good s0 (State.badReq s p r) := by
  unfold State.badReq
  repeat' (first | with_reducible assumption | (intro _) | with_reducible apply good_status | (simp only [good_mk, good_mk_svn, ok_mk])
                   | split)

theorem good_onRequest {s0 s : State} {p : HostPort} {op : Nat} {f : State → RequestRec → State} (hg : Good s0 s) (hf : ∀ t a0, Good s0 t
    → Good s0 (f t a0)) : Good s0 (State.onRequest s p op f) := by
  unfold State.onRequest
  repeat' (first | with_reducible assumption | (intro _) | apply hf | with_reducible apply good_setPort
                   | (simp only [good_mk, good_mk_svn, ok_mk]) | split)

theorem good_onOwnStream {s0 s : State} {p : HostPort} {r : RequestRec} {valid : Stream → Bool} {f : State → State} (hg : Good s0 s) (hf :
    ∀ t, Good s0 t → Good s0 (f t)) : Good s0 (State.onOwnStream s p r valid f) := by
  unfold State.onOwnStream
  repeat' (first | with_reducible assumption | (intro _) | apply hf | with_reducible apply good_badReq
                   | (simp only [good_mk, good_mk_svn, ok_mk]) | split)

theorem good_resetConfig {s0 s : State} {i : Nat} (hg : Good s0 s) : Good s0 (State.resetConfig s i) := by
  unfold State.resetConfig
  repeat' (first | with_reducible assumption | (intro _) | with_reducible apply good_setRegI | (simp only [good_mk, good_mk_svn, ok_mk])
                   | split)

theorem good_shipDone {s0 s : State} {i : Nat} {len : Nat} (hg : Good s0 s) : Good s0 (State.shipDone s i len) := by
  unfold State.shipDone
  repeat' (first | with_reducible assumption | (intro _) | with_reducible apply good_putStream | with_reducible apply good_drawn
                   | (simp only [good_mk, good_mk_svn, ok_mk]) | split)

end Sys2Proof.Machine
end

