-- ==== Sys2Proof/Laws/GoodMatrix.lean ====
section
/-! SUPPORT. Every operation of Matrix keeps a run good. -/

namespace Sys2Proof.Machine

theorem good_noteTile {s0 s : State} {c : Nat} {k : Core} {l : List (Nat × Nat)} (hg : Good s0 s) (hk : CoreOk k) : Good s0
    (State.noteTile s c k l) := by
  unfold State.noteTile
  repeat' (first | with_reducible assumption | (intro _) | with_reducible apply good_noteRead | with_reducible apply good_setCore
                   | with_reducible apply ok_setG | with_reducible apply ok_setV | with_reducible apply ok_write
                   | with_reducible refine core_ok (s0 := s0) ?_ | with_reducible apply good_foldl
                   | (simp only [good_mk, good_mk_svn, ok_mk]) | split)

theorem good_recordTrouble {s0 s : State} {c : Nat} {code : Nat} {fmt : Nat} {nxt : Nat} (hg : Good s0 s) : Good s0 (State.recordTrouble s
    c code fmt nxt) := by
  unfold State.recordTrouble
  repeat' (first | with_reducible assumption | (intro _) | with_reducible apply good_countSat | with_reducible apply good_setReg
                   | (simp only [good_mk, good_mk_svn, ok_mk]) | split)

end Sys2Proof.Machine
end

