-- ==== Sys2Proof/Laws/GoodVector.lean ====
section
/-! SUPPORT. Every operation of Vector keeps a run good. -/

namespace Sys2Proof.Machine

theorem good_vop {s0 s : State} {c : CoreId} {vd : VReg} {f : Core → List Word} (hg : Good s0 s) : Good s0 (vop s c vd f) := by
  unfold vop
  repeat' (first | with_reducible assumption | (intro _) | with_reducible apply good_onCore | with_reducible apply good_setCore
                   | with_reducible apply ok_setG | with_reducible apply ok_setV | with_reducible apply ok_write
                   | with_reducible refine core_ok (s0 := s0) ?_ | (simp only [good_mk, good_mk_svn, ok_mk]) | split)

end Sys2Proof.Machine
end

