-- ==== Sys2Proof/Laws/GoodMemorySlot.lean ====
section
/-! SUPPORT. Every operation of MemorySlot keeps a run good. -/

namespace Sys2Proof.Machine

theorem good_trackPeak {s0 s : State} {c : Nat} (hg : Good s0 s) : Good s0 (State.trackPeak s c) := by
  unfold State.trackPeak
  repeat' (first | with_reducible assumption | (intro _) | with_reducible apply good_setReg | (simp only [good_mk, good_mk_svn, ok_mk])
                   | split)

theorem good_sendRequest {s0 s : State} {c : Nat} {k : Core} {a : Nat} {d : DreqDesc} (hg : Good s0 s) (hk : CoreOk k) : Good s0
    (State.sendRequest s c k a d) := by
  unfold State.sendRequest
  repeat' (first | with_reducible assumption | (intro _) | with_reducible apply good_trackPeak | with_reducible apply good_inject
                   | with_reducible apply good_raise | with_reducible apply good_setCore | with_reducible apply ok_setG
                   | with_reducible apply ok_setV | with_reducible apply ok_write | with_reducible refine core_ok (s0 := s0) ?_
                   | (simp only [good_mk, good_mk_svn, ok_mk]) | split)

theorem good_resumeEnd {s0 s : State} {c : Nat} (hg : Good s0 s) : Good s0 (s.resumeEnd c) := by
  unfold State.resumeEnd
  dsimp only
  split
  · exact good_endChecked hg (core_ok hg)
  · exact hg

end Sys2Proof.Machine
end

