-- ==== Sys2Proof/Laws/GoodStore.lean ====
section
/-! SUPPORT. Every operation of Store keeps a run good. -/

namespace Sys2Proof.Machine

theorem good_noteArrival {s0 s : State} {line : Nat} {y0 : StoreReader} (hg : Good s0 s) : Good s0 (State.noteArrival s line y0) := by
  unfold State.noteArrival
  repeat' (first | with_reducible assumption | (intro _) | with_reducible apply good_setCore | with_reducible apply ok_setG
                   | with_reducible apply ok_setV | with_reducible apply ok_write | with_reducible refine core_ok (s0 := s0) ?_
                   | (simp only [good_mk, good_mk_svn, ok_mk]) | split)

theorem good_countMerge {s0 s : State} {y0 : StoreReader} (hg : Good s0 s) : Good s0 (State.countMerge s y0) := by
  unfold State.countMerge
  repeat' (first | with_reducible assumption | (intro _) | with_reducible apply good_count | (simp only [good_mk, good_mk_svn, ok_mk])
                   | split)

theorem good_issueRead {s0 s : State} {b line : Nat} {opened : Bool} {r : StoreReader} (hg : Good s0 s) :
    Good s0 (s.issueRead b line opened r) := good_setBerth (store_ok hg) hg

theorem good_deliverLine {s0 s : State} {line : Nat} {data : List Byte} {r : StoreReader} (hg : Good s0 s) :
    Good s0 (s.deliverLine line data r) := by
  unfold State.deliverLine
  dsimp only
  repeat' split
  · exact hg
  · exact good_setCore (ok_mk.2 (ok_put (core_ok hg))) hg
  · exact hg
  · exact good_respond hg
  · exact good_mk.2 hg
  · exact hg

theorem good_failLine {s0 s : State} {y0 : StoreReader} (hg : Good s0 s) : Good s0 (State.failLine s y0) := by
  unfold State.failLine
  repeat' (first | with_reducible assumption | (intro _) | with_reducible apply good_respond | (simp only [good_mk, good_mk_svn, ok_mk])
                   | split)

theorem good_refreshDue {s0 s : State} {b bank : Nat} {waiting : Bool} (hg : Good s0 s) : Good s0 (s.refreshDue b bank waiting) := by
  unfold State.refreshDue
  dsimp only
  split
  · split
    · exact good_setBerth (store_ok hg) hg
    · exact good_count hg
  · exact good_setBerth (store_ok hg) hg

theorem good_countPass {s0 s : State} {b : Nat} {line : Nat} (hg : Good s0 s) : Good s0 (State.countPass s b line) := by
  unfold State.countPass
  repeat' (first | with_reducible assumption | (intro _) | with_reducible apply good_setReg | (simp only [good_mk, good_mk_svn, ok_mk])
                   | split)

end Sys2Proof.Machine
end

