-- ==== Sys2Proof/Laws/GoodHbm.lean ====
section
/-! SUPPORT. Every operation of Hbm keeps a run good. -/

namespace Sys2Proof.Machine

theorem good_answer {s0 s : State} {packet : Nat} {d : List Byte} (hg : Good s0 s) : Good s0 (State.answer s packet d) := by
  unfold State.answer
  cases s.served? packet with
  | none => exact hg
  | some p => exact good_respond hg

end Sys2Proof.Machine
end

