-- ==== Sys2Proof/Laws/GoodShipments.lean ====
section
/-! SUPPORT. Every operation of Shipments keeps a run good. -/

namespace Sys2Proof.Machine

theorem good_sendPieces {s0 s : State} {b : Nat} {m : Nat} {seqn : Nat} {dlb : Nat} {record : List Byte} (hg : Good s0 s) : Good s0
    (State.sendPieces s b m seqn dlb record) := by
  unfold State.sendPieces
  repeat' (first | with_reducible assumption | (intro _) | with_reducible apply good_inject | with_reducible apply good_raise
                   | with_reducible apply good_foldl | (simp only [good_mk, good_mk_svn, ok_mk]) | split)

theorem good_ackShipment {s0 s : State} {b : Nat} {m : Nat} {seqn : Nat} {dlb : Nat} {refused : Bool} (hg : Good s0 s) : Good s0
    (State.ackShipment s b m seqn dlb refused) := by
  unfold State.ackShipment
  repeat' (first | with_reducible assumption | (intro _) | with_reducible apply good_inject | with_reducible apply good_raise
                   | (simp only [good_mk, good_mk_svn, ok_mk]) | split)

theorem good_sendShipped {s0 s : State} {st : Nat} {o : ShipOut} {n : Nat} (hg : Good s0 s) : Good s0 (State.sendShipped s st o n) := by
  unfold State.sendShipped
  repeat' (first | with_reducible assumption | (intro _) | with_reducible apply good_sendPieces | with_reducible apply good_drawn
                   | (simp only [good_mk, good_mk_svn, ok_mk]) | split)

theorem good_shipEnds {s0 s : State} {st : Nat} {code : Nat} (hg : Good s0 s) : Good s0 (State.shipEnds s st code) := by
  unfold State.shipEnds
  repeat' (first | with_reducible assumption | (intro _) | with_reducible apply good_status | with_reducible apply good_putStream
                   | (simp only [good_mk, good_mk_svn, ok_mk]) | split)

theorem good_shipFails {s0 s : State} {st : Nat} (hg : Good s0 s) : Good s0 (State.shipFails s st) := by
  unfold State.shipFails
  repeat' (first | with_reducible assumption | (intro _) | with_reducible apply good_releaseAll | with_reducible apply good_status
                   | with_reducible apply good_putStream | (simp only [good_mk, good_mk_svn, ok_mk]) | split)

theorem good_landPage {s0 s : State} {k : KvShape} {st : Nat} {lb : Nat} {c : Nat} {l : Nat} {h : Nat} {j : Nat} {len : Nat} {dropped :
    Bool} {body : List Byte} (hg : Good s0 s) : Good s0 (State.landPage s k st lb c l h j len dropped body) := by
  unfold State.landPage
  repeat' (first | with_reducible assumption | (intro _) | with_reducible apply good_freeFrame | with_reducible apply good_setIxWord
                   | with_reducible apply good_lbWrite | with_reducible apply good_foldl | (simp only [good_mk, good_mk_svn, ok_mk])
                   | split)

end Sys2Proof.Machine
end

