-- ==== Sys2Proof/Laws/GoodLighter.lean ====
section
/-! SUPPORT. Every operation of Lighter keeps a run good. -/

namespace Sys2Proof.Machine

theorem good_setJob {s0 s : State} {p : HostPort} {ch : Channel} {j : Job} (hg : Good s0 s) : Good s0 (State.setJob s p ch j) := by
  unfold State.setJob
  repeat' (first | with_reducible assumption | (intro _) | with_reducible apply good_setChan | (simp only [good_mk, good_mk_svn, ok_mk])
                   | split)

theorem good_onJob {s0 s : State} {p : HostPort} {ch : Channel} {kind : Nat} {f : Job → State} (hg : Good s0 s) (hf : ∀ a, Good s0 (f a))
    : Good s0 (State.onJob s p ch kind f) := by
  unfold State.onJob
  repeat' (first | with_reducible assumption | (intro _) | apply hf | (simp only [good_mk, good_mk_svn, ok_mk]) | split)

theorem good_toBuffer {s0 s : State} {dpa : Nat} {x : LighterBuf} (hg : Good s0 s) : Good s0 (State.toBuffer s dpa x) := by
  unfold State.toBuffer
  repeat' (first | with_reducible assumption | (intro _) | with_reducible apply good_setStack | (simp only [good_mk, good_mk_svn, ok_mk])
                   | split)

theorem good_writeBuffer {s0 s : State} {x : LighterBuf} (hg : Good s0 s) : Good s0 (s.writeBuffer x) := by
  unfold State.writeBuffer
  split
  · exact good_mk_hbm hg (Memory.wf_write _ hg.inv.hbm)
  · exact good_mk_hostMem hg (Memory.wf_write _ hg.inv.hostMem)

theorem good_drainBuffer {s0 s : State} {k : Nat} (hg : Good s0 s) : Good s0 (State.drainBuffer s k) := by
  unfold State.drainBuffer
  repeat' (first | with_reducible assumption | (intro _) | with_reducible apply good_writeBuffer | with_reducible apply good_setStack
                   | (simp only [good_mk, good_mk_svn, ok_mk]) | split)

theorem good_drainBuffers {s0 s : State}  (hg : Good s0 s) : Good s0 (State.drainBuffers s) := by
  unfold State.drainBuffers
  repeat' (first | with_reducible assumption | (intro _) | with_reducible apply good_drainBuffer | with_reducible apply good_foldl
                   | (simp only [good_mk, good_mk_svn, ok_mk]) | split)

theorem good_flushBuffers {s0 s : State}  (hg : Good s0 s) : Good s0 (State.flushBuffers s) := by
  unfold State.flushBuffers
  repeat' (first | with_reducible assumption | (intro _) | with_reducible apply good_writeBuffer | with_reducible apply good_setStack
                   | with_reducible apply good_foldl | (simp only [good_mk, good_mk_svn, ok_mk]) | split)

theorem good_startCopy {s0 s : State} {p : HostPort} {ch : Channel} {j : Job} {a : Nat} (hg : Good s0 s) : Good s0 (s.startCopy p ch j a)
    := by
  unfold State.startCopy
  cases s.copyRefused a j.len
  · exact good_setJob hg
  · refine good_setJob ?_
    split
    · exact good_raise hg
    · exact hg

theorem good_placeShard {s0 s : State} {d : ShardPlace} {off : Nat} {refill : Bool} {data : List Byte} (hg : Good s0 s) : Good s0
    (State.placeShard s d off refill data) := by
  unfold State.placeShard
  repeat' (first | with_reducible assumption | (intro _) | with_reducible apply good_toBuffer | with_reducible apply good_pagerWrite
                   | with_reducible apply good_setBerth | with_reducible refine store_ok (s0 := s0) ?_ | with_reducible apply good_foldl
                   | (simp only [good_mk, good_mk_svn, ok_mk]) | split)

theorem good_spoilShard {s0 s : State} {d : ShardPlace} (hg : Good s0 s) : Good s0 (s.spoilShard d) := by
  unfold State.spoilShard
  refine good_foldl _ ?_ (fun t e ht => good_foldl _ ht (fun u a hu => good_mk_hbm hu (Sparse.wf_set _ hu.inv.hbm)))
  split
  · exact good_lbWrite (good_drawn hg)
  · exact good_drawn hg

theorem good_unmark {s0 s : State} {d : ShardPlace} (hg : Good s0 s) : Good s0 (State.unmark s d) := by
  unfold State.unmark
  repeat' (first | with_reducible assumption | (intro _) | with_reducible apply good_setImage | (simp only [good_mk, good_mk_svn, ok_mk])
                   | split)

theorem good_takeBurst {s0 s : State} {p : HostPort} {ch : Channel} {j : Job} {d : ShardPlace} {refill : Bool} {source : Option (List
    Byte)} {err : DescCode} (hg : Good s0 s) : Good s0 (State.takeBurst s p ch j d refill source err) := by
  unfold State.takeBurst
  repeat' (first | with_reducible assumption | (intro _) | with_reducible apply good_unmark | with_reducible apply good_placeShard
                   | with_reducible apply good_setJob | (simp only [good_mk, good_mk_svn, ok_mk]) | split)

theorem good_burstShard {s0 s : State} {p : HostPort} {ch : Channel} {j : Job} {host : Option (List Byte)} (hg : Good s0 s) : Good s0
    (State.burstShard s p ch j host) := by
  unfold State.burstShard
  repeat' (first | with_reducible assumption | (intro _) | with_reducible apply good_takeBurst | (simp only [good_mk, good_mk_svn, ok_mk])
                   | split)

theorem good_burstIn {s0 s : State} {p : HostPort} {ch : Channel} {j : Job} {host : Option (List Byte)} (hg : Good s0 s) :
    Good s0 (s.burstIn p ch j host) := by
  unfold State.burstIn
  dsimp only
  repeat' split
  · exact hg
  · exact good_setJob hg
  · exact good_setJob hg
  · exact good_setJob hg
  · exact good_setJob (good_toBuffer hg)

theorem good_burstOut {s0 s : State} {p : HostPort} {ch : Channel} {j : Job} {e : EccOutcome} {unit : Nat} (hg : Good s0 s) :
    Good s0 (s.burstOut p ch j e unit) := by
  unfold State.burstOut
  dsimp only
  split
  · exact hg
  · split
    · exact good_setJob hg
    · split
      · exact good_setJob (good_raise (good_tierLost hg))
      · refine good_setJob (good_toBuffer ?_)
        split
        · exact good_correctUnit hg
        · exact hg

theorem good_pullShard {s0 s : State} {p : HostPort} {ch : Channel} {j : Job} {d : ShardPlace} {reply : Option (List Byte)} (hg : Good s0
    s) : Good s0 (State.pullShard s p ch j d reply) := by
  unfold State.pullShard
  repeat' (first | with_reducible assumption | (intro _) | with_reducible apply good_takeBurst | (simp only [good_mk, good_mk_svn, ok_mk])
                   | split)

theorem good_reportLoad {s0 s : State} {slot : Nat} {prog : Nat} {f : LoadFault} (hg : Good s0 s) : Good s0 (State.reportLoad s slot prog
    f) := by
  unfold State.reportLoad
  repeat' (first | with_reducible assumption | (intro _) | with_reducible apply good_setReg | (simp only [good_mk, good_mk_svn, ok_mk])
                   | split)

theorem good_shardArrived {s0 s : State} {j : Job} (hg : Good s0 s) : Good s0 (State.shardArrived s j).1 := by
  unfold State.shardArrived
  repeat' (first | with_reducible assumption | (intro _) | with_reducible apply good_unmark | with_reducible apply good_spoilShard
                   | with_reducible apply good_liftRepaired | with_reducible apply good_raise | with_reducible apply good_setImage
                   | (simp only [good_mk, good_mk_svn, ok_mk]) | split)

theorem good_cutJobs {s0 s : State} {lb : Nat} (hg : Good s0 s) : Good s0 (State.cutJobs s lb) := by
  unfold State.cutJobs
  repeat' (first | with_reducible assumption | (intro _) | with_reducible apply good_setChan | with_reducible apply good_foldl
                   | (simp only [good_mk, good_mk_svn, ok_mk]) | split)

theorem good_writeBack {s0 s : State} {p : HostPort} {j : Job} (hg : Good s0 s) : Good s0 (s.writeBack p j) := by
  have put : ∀ (t : State) (i : Nat) (data : List Byte), Good s0 t → Good s0 (if j.inTier then
      (if t.dpaRetired (j.addr + 4 * i) data.length then t else { t with hbm := Memory.write t.hbm (j.addr + 4 * i) data })
      else { t with hostMem := Memory.write t.hostMem (hostKey p (j.addr + 4 * i)) data }) := by
    intro t i data h
    split
    · split
      · exact h
      · exact good_mk_hbm h (Memory.wf_write _ h.inv.hbm)
    · exact good_mk_hostMem h (Memory.wf_write _ h.inv.hostMem)
  unfold State.writeBack
  dsimp only
  refine put _ 0 _ (put _ 7 _ ?_)
  split
  · split
    · exact hg
    · exact put _ 8 _ hg
  · exact hg

theorem good_abandonNow {s0 s : State} {slot : Nat} (hg : Good s0 s) : Good s0 (State.abandonNow s slot) := by
  unfold State.abandonNow
  repeat' (first | with_reducible assumption | (intro _) | with_reducible apply good_setImage | (simp only [good_mk, good_mk_svn, ok_mk])
                   | split)

theorem good_settleSlot {s0 s : State} {slot : Nat} (hg : Good s0 s) : Good s0 (State.settleSlot s slot) := by
  unfold State.settleSlot
  repeat' (first | with_reducible assumption | (intro _) | with_reducible apply good_abandonNow | with_reducible apply good_setImage
                   | (simp only [good_mk, good_mk_svn, ok_mk]) | split)

theorem good_writeChcfg {s0 s : State} {p : HostPort} {v : Word} (hg : Good s0 s) : Good s0 (State.writeChcfg s p v) := by
  unfold State.writeChcfg
  repeat' (first | with_reducible assumption | (intro _) | with_reducible apply good_setRegI | with_reducible apply good_setChan
                   | (simp only [good_mk, good_mk_svn, ok_mk]) | split)

end Sys2Proof.Machine
end

