-- ==== Sys2Proof/Laws/GoodResidency.lean ====
section
/-! SUPPORT. Every operation of Residency keeps a run good. -/

namespace Sys2Proof.Machine

theorem good_answerSlot {s0 s : State} {slot : Nat} {r : Nat} (hg : Good s0 s) : Good s0 (State.answerSlot s slot r) := by
  unfold State.answerSlot
  repeat' (first | with_reducible assumption | (intro _) | with_reducible apply good_setImage | (simp only [good_mk, good_mk_svn, ok_mk])
                   | split)

theorem good_openLoad {s0 s : State}  (hg : Good s0 s) : Good s0 (State.openLoad s) := by
  unfold State.openLoad
  repeat' (first | with_reducible assumption | (intro _) | with_reducible apply good_answerSlot | with_reducible apply good_setImage
                   | (simp only [good_mk, good_mk_svn, ok_mk]) | split)

theorem good_commitSlot {s0 s : State}  (hg : Good s0 s) : Good s0 (State.commitSlot s) := by
  unfold State.commitSlot
  repeat' (first | with_reducible assumption | (intro _) | with_reducible apply good_answerSlot | with_reducible apply good_setImage
                   | (simp only [good_mk, good_mk_svn, ok_mk]) | split)

theorem good_unload {s0 s : State}  (hg : Good s0 s) : Good s0 (State.unload s) := by
  unfold State.unload
  repeat' (first | with_reducible assumption | (intro _) | with_reducible apply good_answerSlot | with_reducible apply good_settleSlot
                   | with_reducible apply good_setImage | (simp only [good_mk, good_mk_svn, ok_mk]) | split)

theorem good_openStage {s0 s : State}  (hg : Good s0 s) : Good s0 (State.openStage s) := by
  unfold State.openStage
  repeat' (first | with_reducible assumption | (intro _) | with_reducible apply good_answerSlot | with_reducible apply good_setImage
                   | (simp only [good_mk, good_mk_svn, ok_mk]) | split)

theorem good_swap {s0 s : State}  (hg : Good s0 s) : Good s0 (State.swap s) := by
  unfold State.swap
  repeat' (first | with_reducible assumption | (intro _) | with_reducible apply good_answerSlot | with_reducible apply good_startSwap
                   | with_reducible apply good_setImage | (simp only [good_mk, good_mk_svn, ok_mk]) | split)

theorem good_abandon {s0 s : State}  (hg : Good s0 s) : Good s0 (State.abandon s) := by
  unfold State.abandon
  repeat' (first | with_reducible assumption | (intro _) | with_reducible apply good_answerSlot | with_reducible apply good_settleSlot
                   | with_reducible apply good_setImage | (simp only [good_mk, good_mk_svn, ok_mk]) | split)

end Sys2Proof.Machine
end

