-- ==== Sys2Proof/Laws/GoodZhoza.lean ====
section
/-! SUPPORT. Every operation of Zhoza keeps a run good. -/

namespace Sys2Proof.Machine

theorem good_fromPort {s0 s : State} {z : Nat} {n : Nat} {f : State → State} (hg : Good s0 s) (hf : ∀ t, Good s0 t → Good s0 (f t)) : Good
    s0 (State.fromPort s z n f) := by
  unfold State.fromPort
  repeat' (first | with_reducible assumption | (intro _) | apply hf | with_reducible apply good_received | with_reducible apply good_raise
                   | (simp only [good_mk, good_mk_svn, ok_mk]) | split)

theorem good_sendIdent {s0 s : State} {z : Nat} (hg : Good s0 s) : Good s0 (State.sendIdent s z) := by
  unfold State.sendIdent
  repeat' (first | with_reducible assumption | (intro _) | with_reducible apply good_sendCtl | (simp only [good_mk, good_mk_svn, ok_mk])
                   | split)

theorem good_reroute {s0 s : State} {p : Packet} (hg : Good s0 s) : Good s0 (State.reroute s p) := by
  unfold State.reroute
  repeat' (first | with_reducible assumption | (intro _) | with_reducible apply good_failRequest | with_reducible apply good_dropPacket
                   | with_reducible apply good_raise | (simp only [good_mk, good_mk_svn, ok_mk]) | split)

theorem good_leaveUp {s0 s : State} {z : Nat} (hg : Good s0 s) : Good s0 (State.leaveUp s z) := by
  unfold State.leaveUp
  repeat' (first | with_reducible assumption | (intro _) | with_reducible apply good_reroute | with_reducible apply good_sendUp
                   | with_reducible apply good_raise | with_reducible apply good_setZport | with_reducible apply good_foldl
                   | (simp only [good_mk, good_mk_svn, ok_mk]) | split)

theorem good_flitFailed {s0 s : State} {z : Nat} (hg : Good s0 s) : Good s0 (State.flitFailed s z) := by
  unfold State.flitFailed
  repeat' (first | with_reducible assumption | (intro _) | with_reducible apply good_leaveUp | with_reducible apply good_raise
                   | with_reducible apply good_countSat | with_reducible apply good_setZport | (simp only [good_mk, good_mk_svn, ok_mk])
                   | split)

theorem good_sendOut {s0 s : State} {id : Nat} (hg : Good s0 s) : Good s0 (State.sendOut s id) := by
  unfold State.sendOut
  repeat' (first | with_reducible assumption | (intro _) | with_reducible apply good_reroute | with_reducible apply good_setPacket
                   | with_reducible apply good_setZport | (simp only [good_mk, good_mk_svn, ok_mk]) | split)

theorem good_takeIn {s0 s : State} {z : Nat} {h : PacketHeader} {payload : List Byte} (hg : Good s0 s) : Good s0 (State.takeIn s z h
    payload) := by
  unfold State.takeIn
  repeat' (first | with_reducible assumption | (intro _) | with_reducible apply good_inject | with_reducible apply good_sendCtl
                   | with_reducible apply good_raise | (simp only [good_mk, good_mk_svn, ok_mk]) | split)

theorem good_flipTo {s0 s : State} {g : Nat} (hg : Good s0 s) : Good s0 (State.flipTo s g) := by
  unfold State.flipTo
  repeat' (first | with_reducible assumption | (intro _) | with_reducible apply good_sendCtl | with_reducible apply good_foldl
                   | (simp only [good_mk, good_mk_svn, ok_mk]) | split)

theorem good_askDrain {s0 s : State} {g : Nat} (hg : Good s0 s) : Good s0 (State.askDrain s g) := by
  unfold State.askDrain
  repeat' (first | with_reducible assumption | (intro _) | with_reducible apply good_sendEdge | with_reducible apply good_foldl
                   | (simp only [good_mk, good_mk_svn, ok_mk]) | split)

theorem good_releaseBank {s0 s : State} {g : Nat} (hg : Good s0 s) : Good s0 (State.releaseBank s g) := by
  unfold State.releaseBank
  repeat' (first | with_reducible assumption | (intro _) | with_reducible apply good_sendEdge | with_reducible apply good_foldl
                   | (simp only [good_mk, good_mk_svn, ok_mk]) | split)

theorem good_roundDone {s0 s : State} {g : Nat} (hg : Good s0 s) : Good s0 (State.roundDone s g) := by
  unfold State.roundDone
  repeat' (first | with_reducible assumption | (intro _) | with_reducible apply good_releaseBank | with_reducible apply good_askDrain
                   | with_reducible apply good_sendEdge | (simp only [good_mk, good_mk_svn, ok_mk]) | split)

theorem good_writeGen {s0 s : State} {v : Word} (hg : Good s0 s) : Good s0 (State.writeGen s v) := by
  unfold State.writeGen
  repeat' (first | with_reducible assumption | (intro _) | with_reducible apply good_askDrain | with_reducible apply good_flipTo
                   | (simp only [good_mk, good_mk_svn, ok_mk]) | split)

theorem good_drainAlone {s0 s : State}  (hg : Good s0 s) : Good s0 (State.drainAlone s) := by
  unfold State.drainAlone
  repeat' (first | with_reducible assumption | (intro _) | with_reducible apply good_releaseBank
                   | (simp only [good_mk, good_mk_svn, ok_mk]) | split)

theorem good_sliceAbort {s0 s : State} {z : Nat} (hg : Good s0 s) : Good s0 (State.sliceAbort s z) := by
  unfold State.sliceAbort
  repeat' (first | with_reducible assumption | (intro _) | (simp only [good_mk, good_mk_svn, ok_mk]) | split)

theorem good_sliceTime {s0 s : State} {z : Nat} {t : Dword} {ns : Nat} (hg : Good s0 s) : Good s0 (State.sliceTime s z t ns) := by
  unfold State.sliceTime
  repeat' (first | with_reducible assumption | (intro _) | with_reducible apply good_sendTime | (simp only [good_mk, good_mk_svn, ok_mk])
                   | split)

end Sys2Proof.Machine
end

