-- ==== Sys2Proof/Laws/GoodHostPorts.lean ====
section
/-! SUPPORT. Every operation of HostPorts keeps a run good. -/

namespace Sys2Proof.Machine

theorem good_refuseRead {s0 s : State} {p : HostPort} {dpa : Nat} (hg : Good s0 s) : Good s0 (State.refuseRead s p dpa) := by
  unfold State.refuseRead
  repeat' (first | with_reducible assumption | (intro _) | with_reducible apply good_logRefused | with_reducible apply good_mediaEvent
                   | with_reducible apply good_setPort | (simp only [good_mk, good_mk_svn, ok_mk]) | split)

theorem good_linkErred {s0 s : State} {p : HostPort} {linkErr : Bool} (hg : Good s0 s) : Good s0 (State.linkErred s p linkErr) := by
  unfold State.linkErred
  repeat' (first | with_reducible assumption | (intro _) | with_reducible apply good_raise | with_reducible apply good_setPort
                   | (simp only [good_mk, good_mk_svn, ok_mk]) | split)

theorem good_takePart {s0 s : State} {p : HostPort} {otherDownMs : Nat} (hg : Good s0 s) : Good s0 (State.takePart s p otherDownMs) := by
  unfold State.takePart
  repeat' (first | with_reducible assumption | (intro _) | with_reducible apply good_raise | with_reducible apply good_setPort
                   | (simp only [good_mk, good_mk_svn, ok_mk]) | split)

theorem good_returnPart {s0 s : State} {p : HostPort} (hg : Good s0 s) : Good s0 (State.returnPart s p) := by
  unfold State.returnPart
  repeat' (first | with_reducible assumption | (intro _) | with_reducible apply good_raise | with_reducible apply good_setPort
                   | (simp only [good_mk, good_mk_svn, ok_mk]) | split)

theorem good_writeRing {s0 s : State} {p : HostPort} {k : RingKind} {v : Word} (hg : Good s0 s) : Good s0 (State.writeRing s p k v) := by
  unfold State.writeRing
  repeat' (first | with_reducible assumption | (intro _) | with_reducible apply good_raise | with_reducible apply good_setReg
                   | with_reducible apply good_setPort | (simp only [good_mk, good_mk_svn, ok_mk]) | split)

theorem good_stopChannels {s0 s : State} {p : HostPort} (hg : Good s0 s) : Good s0 (State.stopChannels s p) := by
  unfold State.stopChannels
  repeat' (first | with_reducible assumption | (intro _) | with_reducible apply good_settleSlot | with_reducible apply good_setChan
                   | with_reducible apply good_foldl | (simp only [good_mk, good_mk_svn, ok_mk]) | split)

theorem good_disableRings {s0 s : State} {p : HostPort} (hg : Good s0 s) : Good s0 (State.disableRings s p) := by
  unfold State.disableRings
  repeat' (first | with_reducible assumption | (intro _) | with_reducible apply good_setReg | (simp only [good_mk, good_mk_svn, ok_mk])
                   | split)

theorem good_linkTo {s0 s : State} {p : HostPort} {l : LinkState} (hg : Good s0 s) : Good s0 (State.linkTo s p l) := by
  unfold State.linkTo
  repeat' (first | with_reducible assumption | (intro _) | with_reducible apply good_raise | with_reducible apply good_setPort
                   | (simp only [good_mk, good_mk_svn, ok_mk]) | split)

theorem good_mailbox {s0 s : State} {p : HostPort} {f : State → State} (hg : Good s0 s) (hf : ∀ t, Good s0 t → Good s0 (f t)) : Good s0
    (State.mailbox s p f) := by
  unfold State.mailbox
  repeat' (first | with_reducible assumption | (intro _) | apply hf | with_reducible apply good_setPort
                   | (simp only [good_mk, good_mk_svn, ok_mk]) | split)

end Sys2Proof.Machine
end

