-- ==== Sys2Proof/Laws/GoodCoolant.lean ====
section
/-! SUPPORT. Every operation of Coolant keeps a run good. -/

namespace Sys2Proof.Machine

theorem good_beginStop {s0 s : State}  (hg : Good s0 s) : Good s0 (State.beginStop s) := by
  unfold State.beginStop
  repeat' (first | with_reducible assumption | (intro _) | with_reducible apply good_abortRun | (simp only [good_mk, good_mk_svn, ok_mk])
                   | split)

theorem good_suddenStop {s0 s : State}  (hg : Good s0 s) : Good s0 (State.suddenStop s) := by
  unfold State.suddenStop
  repeat' (first | with_reducible assumption | (intro _) | with_reducible apply good_beginStop | with_reducible apply good_holdStop
                   | with_reducible apply good_gateAll | with_reducible apply good_setDivisor | with_reducible apply good_retarget
                   | with_reducible apply good_raise | with_reducible apply good_msiFault | (simp only [good_mk, good_mk_svn, ok_mk])
                   | split)

theorem good_liftStop {s0 s : State}  (hg : Good s0 s) : Good s0 (State.liftStop s) := by
  unfold State.liftStop
  repeat' (first | with_reducible assumption | (intro _) | with_reducible apply good_liftAll | (simp only [good_mk, good_mk_svn, ok_mk])
                   | split)

theorem good_restoreDivisors {s0 s : State}  (hg : Good s0 s) : Good s0 (State.restoreDivisors s) := by
  unfold State.restoreDivisors
  repeat' (first | with_reducible assumption | (intro _) | with_reducible apply good_setDivisor | with_reducible apply good_retarget
                   | with_reducible apply good_foldl | (simp only [good_mk, good_mk_svn, ok_mk]) | split)

theorem good_wiped {s0 s : State} (hg : Good s0 s) : Good s0 s.wiped :=
  ⟨⟨hg.kept.1, hg.kept.2, hg.kept.3, hg.kept.4, hg.kept.5, hg.kept.6, hg.kept.7, hg.kept.8⟩, ⟨rfl, hg.inv.2, rfl, hg.inv.4, Nat.zero_le _,
    rfl, (fun _ h => nomatch h), rfl, (fun _ h => nomatch h)⟩⟩

theorem good_capNow {s0 s : State} {second : Bool} (hg : Good s0 s) : Good s0 (State.capNow s second) := by
  unfold State.capNow
  repeat' (first | with_reducible assumption | (intro _) | with_reducible apply good_setReg | (simp only [good_mk, good_mk_svn, ok_mk])
                   | split)

theorem good_raiseLevels {s0 s : State} {old : Cool} (hg : Good s0 s) : Good s0 (State.raiseLevels s old) := by
  unfold State.raiseLevels
  repeat' (first | with_reducible assumption | (intro _) | with_reducible apply good_raise | (simp only [good_mk, good_mk_svn, ok_mk])
                   | split)

theorem good_askThermal {s0 s : State} {h : Half} {d : Nat} (hg : Good s0 s) : Good s0 (State.askThermal s h d) := by
  unfold State.askThermal
  repeat' (first | with_reducible assumption | (intro _) | with_reducible apply good_retarget | with_reducible apply good_setHalf
                   | (simp only [good_mk, good_mk_svn, ok_mk]) | split)

theorem good_limitHeat {s0 s : State} {h : Half} (hg : Good s0 s) : Good s0 (State.limitHeat s h) := by
  unfold State.limitHeat
  repeat' (first | with_reducible assumption | (intro _) | with_reducible apply good_askThermal
                   | (simp only [good_mk, good_mk_svn, ok_mk]) | split)

end Sys2Proof.Machine
end

