-- ==== Sys2Proof/Laws/GoodBist.lean ====
section
/-! SUPPORT. Every operation of Bist keeps a run good. -/

namespace Sys2Proof.Machine

theorem good_bindHalf {s0 s : State} {h : Half} {l : Nat} (hg : Good s0 s) : Good s0 (State.bindHalf s h l) := by
  unfold State.bindHalf
  repeat' (first | with_reducible assumption | (intro _) | with_reducible apply good_setBerth
                   | with_reducible refine store_ok (s0 := s0) ?_ | with_reducible apply good_foldl
                   | (simp only [good_mk, good_mk_svn, ok_mk]) | split)

theorem good_endBist {s0 s : State}  (hg : Good s0 s) : Good s0 (State.endBist s) := by
  unfold State.endBist
  repeat' (first | with_reducible assumption | (intro _) | with_reducible apply good_bindHalf | with_reducible apply good_rewriteTable
                   | with_reducible apply good_raiseOnce | with_reducible apply good_alerted | with_reducible apply good_foldl
                   | (simp only [good_mk, good_mk_svn, ok_mk]) | split)

theorem good_goOn {s0 s : State}  (hg : Good s0 s) : Good s0 (State.goOn s) := by
  unfold State.goOn
  repeat' (first | with_reducible assumption | (intro _) | with_reducible apply good_endBist | (simp only [good_mk, good_mk_svn, ok_mk])
                   | split)

end Sys2Proof.Machine
end

