-- ==== Sys2Proof/Laws/GoodPower.lean ====
section
/-! SUPPORT. Every operation of Power keeps a run good. -/

namespace Sys2Proof.Machine

theorem good_gateClocks {s0 s : State}  (hg : Good s0 s) : Good s0 (State.gateClocks s) := by
  unfold State.gateClocks
  repeat' (first | with_reducible assumption | (intro _) | with_reducible apply good_abortRun | with_reducible apply good_gateAll
                   | (simp only [good_mk, good_mk_svn, ok_mk]) | split)

theorem good_loseLock {s0 s : State} {standby : Bool} (hg : Good s0 s) : Good s0 (State.loseLock s standby) := by
  unfold State.loseLock
  repeat' (first | with_reducible assumption | (intro _) | with_reducible apply good_gateClocks | with_reducible apply good_raiseAs
                   | with_reducible apply good_countSat | with_reducible apply good_setReg | (simp only [good_mk, good_mk_svn, ok_mk])
                   | split)

theorem good_losePort {s0 s : State} {p : HostPort} (hg : Good s0 s) : Good s0 (State.losePort s p) := by
  unfold State.losePort
  repeat' (first | with_reducible assumption | (intro _) | with_reducible apply good_linkTo | with_reducible apply good_stopChannels
                   | (simp only [good_mk, good_mk_svn, ok_mk]) | split)

theorem good_isolateHarbour {s0 s : State} {b : Nat} (hg : Good s0 s) : Good s0 (State.isolateHarbour s b) := by
  unfold State.isolateHarbour
  repeat' (first | with_reducible assumption | (intro _) | with_reducible apply good_losePort | with_reducible apply good_raise
                   | (simp only [good_mk, good_mk_svn, ok_mk]) | split)

theorem good_failIsolated {s0 s : State} {b : Nat} (hg : Good s0 s) : Good s0 (State.failIsolated s b) := by
  unfold State.failIsolated
  repeat' (first | with_reducible assumption | (intro _) | with_reducible apply good_raise | (simp only [good_mk, good_mk_svn, ok_mk])
                   | split)

theorem good_dropWays {s0 s : State} {b : Nat} (hg : Good s0 s) : Good s0 (State.dropWays s b) := by
  unfold State.dropWays
  repeat' (first | with_reducible assumption | (intro _) | (simp only [good_mk, good_mk_svn, ok_mk]) | split)

theorem good_goDark {s0 s : State} {b : Nat} (hg : Good s0 s) : Good s0 (s.goDark b) := by
  unfold State.goDark
  extract_lets t1 t2 t2x w t3 x t4 t5 t6 t7
  have h3 : Good s0 t3 := good_retarget (good_setHalf (good_setZport (good_leaveUp hg)))
  have h4 : Good s0 t4 := good_setBerth (store_ok h3) h3
  have h5 : Good s0 t5 := by
    unfold t5
    split
    · exact h4
    · exact good_cutJobs (good_loseShards h4)
  have h6 : Good s0 t6 := good_dropWays (good_foldl _ h5 (fun _ _ h => good_failRequest (good_dropPacket h)))
  have h7 : Good s0 t7 := by
    unfold t7
    split
    · exact h6
    · exact good_moveNodes h6
  exact good_failIsolated (good_isolateHarbour (good_skipAround h7))

theorem good_latchOff {s0 s : State} {n : Nat} (hg : Good s0 s) : Good s0 (State.latchOff s n) := by
  unfold State.latchOff
  repeat' (first | with_reducible assumption | (intro _) | with_reducible apply good_goDark | with_reducible apply good_losePort
                   | with_reducible apply good_loseLock | with_reducible apply good_goOn | with_reducible apply good_raise
                   | with_reducible apply good_setBasin | (simp only [good_mk, good_mk_svn, ok_mk]) | split)

theorem good_losePhase {s0 s : State} {n : Nat} {i : Nat} (hg : Good s0 s) : Good s0 (State.losePhase s n i) := by
  unfold State.losePhase
  repeat' (first | with_reducible assumption | (intro _) | with_reducible apply good_latchOff | with_reducible apply good_retarget
                   | with_reducible apply good_raise | with_reducible apply good_setHalf | with_reducible apply good_setBasin
                   | with_reducible apply good_setStack | (simp only [good_mk, good_mk_svn, ok_mk]) | split)

theorem good_restartVmin {s0 s : State} {n : Nat} (hg : Good s0 s) : Good s0 (State.restartVmin s n) := by
  unfold State.restartVmin
  repeat' (first | with_reducible assumption | (intro _) | with_reducible apply good_seeRail | with_reducible apply good_setReg
                   | (simp only [good_mk, good_mk_svn, ok_mk]) | split)

theorem good_endWake {s0 s : State} {b : Nat} (hg : Good s0 s) : Good s0 (State.endWake s b) := by
  unfold State.endWake
  repeat' (first | with_reducible assumption | (intro _) | with_reducible apply good_liftStop | with_reducible apply good_seeRail
                   | with_reducible apply good_setBerth | with_reducible refine store_ok (s0 := s0) ?_
                   | (simp only [good_mk, good_mk_svn, ok_mk]) | split)

theorem good_beginRamp {s0 s : State} {b : Nat} {slow : Bool} (hg : Good s0 s) : Good s0 (State.beginRamp s b slow) := by
  unfold State.beginRamp
  repeat' (first | with_reducible assumption | (intro _) | with_reducible apply good_endWake | with_reducible apply good_raise
                   | with_reducible apply good_setBerth | with_reducible refine store_ok (s0 := s0) ?_
                   | (simp only [good_mk, good_mk_svn, ok_mk]) | split)

theorem good_recordDrops {s0 s : State} {total : Nat} (hg : Good s0 s) : Good s0 (State.recordDrops s total) := by
  unfold State.recordDrops
  repeat' (first | with_reducible assumption | (intro _) | (simp only [good_mk, good_mk_svn, ok_mk]) | split)

theorem good_askPower {s0 s : State} {h : Half} {d : Nat} (hg : Good s0 s) : Good s0 (State.askPower s h d) := by
  unfold State.askPower
  repeat' (first | with_reducible assumption | (intro _) | with_reducible apply good_retarget | with_reducible apply good_setHalf
                   | (simp only [good_mk, good_mk_svn, ok_mk]) | split)

theorem good_powerUp {s0 s : State} {h : Half} {total : Nat} (hg : Good s0 s) : Good s0 (State.powerUp s h total) := by
  unfold State.powerUp
  repeat' (first | with_reducible assumption | (intro _) | with_reducible apply good_askPower | (simp only [good_mk, good_mk_svn, ok_mk])
                   | split)

theorem good_refGone {s0 s : State}  (hg : Good s0 s) : Good s0 (State.refGone s) := by
  unfold State.refGone
  repeat' (first | with_reducible assumption | (intro _) | with_reducible apply good_raise | (simp only [good_mk, good_mk_svn, ok_mk])
                   | split)

theorem good_lockClocks {s0 s : State}  (hg : Good s0 s) : Good s0 (State.lockClocks s) := by
  unfold State.lockClocks
  repeat' (first | with_reducible assumption | (intro _) | with_reducible apply good_setReg | (simp only [good_mk, good_mk_svn, ok_mk])
                   | split)

end Sys2Proof.Machine
end

