-- ==== Sys2Proof/Laws/GoodBoot.lean ====
section
/-! SUPPORT. Every operation of Boot keeps a run good. -/

namespace Sys2Proof.Machine

theorem good_startWarm {s0 s : State}  (hg : Good s0 s) : Good s0 (State.startWarm s) := by
  unfold State.startWarm
  repeat' (first | with_reducible assumption | (intro _) | with_reducible apply good_linkTo | with_reducible apply good_disableRings
                   | with_reducible apply good_stopChannels | with_reducible apply good_sendCtl | with_reducible apply good_setPort
                   | with_reducible apply good_foldl | (simp only [good_mk, good_mk_svn, ok_mk]) | split)

theorem good_msiLive {s0 s : State}  (hg : Good s0 s) : Good s0 (State.msiLive s) := by
  unfold State.msiLive
  repeat' (first | with_reducible assumption | (intro _) | with_reducible apply good_msi | (simp only [good_mk, good_mk_svn, ok_mk])
                   | split)

theorem good_harboursUp {s0 s : State}  (hg : Good s0 s) : Good s0 (State.harboursUp s) := by
  unfold State.harboursUp
  repeat' (first | with_reducible assumption | (intro _) | with_reducible apply good_seeRail | with_reducible apply good_setBasin
                   | with_reducible apply good_foldl | (simp only [good_mk, good_mk_svn, ok_mk]) | split)

theorem good_onStage {s0 s : State} {inpkg : Bool} (hg : Good s0 s) : Good s0 (State.onStage s inpkg) := by
  unfold State.onStage
  repeat' (first | with_reducible assumption | (intro _) | with_reducible apply good_setReg | with_reducible apply good_setBasin
                   | with_reducible apply good_foldl | (simp only [good_mk, good_mk_svn, ok_mk]) | split)

theorem good_keptWarm {s0 s : State} (hg : Good s0 s) : Good s0 s.keptWarm := by
  unfold State.keptWarm
  dsimp only
  refine good_foldl _ (good_setReg (good_setReg (good_setReg (good_setReg (good_setReg ?_))))) ?_
  · exact good_mk_secu (good_wiped hg) (Nat.zero_le _)
  · intro t n ht
    split
    · exact ht
    · exact good_setReg (good_setBasin ht)

theorem good_runFirmware {s0 s : State} {b : Bool} (hc : s.copyGood (s.fwCopy b) = true) (hg : Good s0 s) : Good s0 (s.runFirmware b) := by
  have hv : copySvn (s.fwCopy b) ≤ 64 := by
    unfold State.copyGood at hc
    simp only [Bool.and_eq_true, decide_eq_true_eq] at hc
    exact hc.1.1.1.1.1.2
  exact good_lockClocks (good_drawn (good_mk_secu hg hv))

theorem good_basinUp {s0 s : State} {n : Nat} (hg : Good s0 s) : Good s0 (State.basinUp s n) := by
  unfold State.basinUp
  repeat' (first | with_reducible assumption | (intro _) | with_reducible apply good_seeRail | with_reducible apply good_setBasin
                   | with_reducible apply good_setZport | (simp only [good_mk, good_mk_svn, ok_mk]) | split)

theorem good_standAll {s0 : State} {f : State → Nat × List Byte → Option State} (hf : ∀ t e u, f t e = some u → Good s0 t → Good s0 u)
    (l : List (Nat × List Byte)) {s u : State} (he : standAll f l s = some u) (hg : Good s0 s) : Good s0 u := by
  induction l generalizing s with
  | nil => cases he; exact hg
  | cons e l ih =>
    unfold standAll at he
    split at he
    · next t ht => exact ih he (hf _ _ _ ht hg)
    · cases he

theorem good_standShard {s0 s : State} {m : Manifest} {e : Nat × List Byte} {u0 : State} (he : s.standShard m e = some u0) (hg : Good s0
    s) :
    Good s0 u0 := by
  unfold State.standShard at he
  split at he
  · cases he; exact hg
  · dsimp only at he
    split at he
    · cases he
    · cases he
      exact good_setImage (good_placeShard hg)

theorem good_standProgram {s0 s : State} {m : Manifest} {e : Nat × List Byte} {u0 : State} (he : s.standProgram m e = some u0)
    (hg : Good s0 s) : Good s0 u0 := by
  unfold State.standProgram at he
  split at he
  · cases he; exact hg
  · split at he
    · cases he
    · cases he
      exact good_setImage hg

theorem good_standLoad {s0 s : State} {m : Manifest} {u0 : State} (he : s.standLoad m = some u0) (hg : Good s0 s) : Good s0 u0 := by
  unfold State.standLoad at he
  dsimp only at he
  split at he
  · cases he
  · next t ht =>
    have h1 := good_standAll (fun _ _ _ => good_standProgram) _ ht (good_setImage hg)
    split at he
    · cases he
    · next u hu =>
      have h2 := good_standAll (fun _ _ _ => good_standShard) _ hu h1
      split at he
      · cases he
        exact good_setImage h2
      · cases he

theorem good_reportStanding {s0 s : State} {m : Manifest} (hg : Good s0 s) : Good s0 (s.reportStanding m) := by
  unfold State.reportStanding
  dsimp only
  repeat' split
  · exact hg
  · exact hg
  · exact hg
  · cases loadFault _ s.opticalBerths s.moduleCount
    · exact hg
    · exact good_reportLoad hg

theorem good_standing {s0 s : State}  (hg : Good s0 s) : Good s0 (State.standing s) := by
  unfold State.standing
  repeat' (first | with_reducible assumption | (intro _) | with_reducible apply good_reportStanding
                   | (with_reducible apply good_standLoad; with_reducible assumption) | with_reducible apply good_raise
                   | (simp only [good_mk, good_mk_svn, ok_mk]) | split)

end Sys2Proof.Machine
end

