-- ==== Sys2Proof/Laws/GoodSecu.lean ====
section
/-! SUPPORT. Every operation of Secu keeps a run good. -/

namespace Sys2Proof.Machine

theorem good_growTree {s0 s : State} {i : Nat} (hg : Good s0 s) : Good s0 (State.growTree s i) := by
  unfold State.growTree
  repeat' (first | with_reducible assumption | (intro _) | (simp only [good_mk, good_mk_svn, ok_mk]) | split)

theorem good_signWaiting {s0 s : State}  (hg : Good s0 s) : Good s0 (State.signWaiting s) := by
  unfold State.signWaiting
  repeat' (first | with_reducible assumption | (intro _) | with_reducible apply good_growTree | (simp only [good_mk, good_mk_svn, ok_mk])
                   | split)

theorem good_reserveBlock {s0 s : State} {nonce : List Byte} (hg : Good s0 s) : Good s0 (State.reserveBlock s nonce) := by
  unfold State.reserveBlock
  repeat' (first | with_reducible assumption | (intro _) | with_reducible apply good_raise | (simp only [good_mk, good_mk_svn, ok_mk])
                   | split)

theorem good_writeSeal {s0 s : State} {v : Word} (hg : Good s0 s) : Good s0 (State.writeSeal s v) := by
  unfold State.writeSeal
  repeat' (first | with_reducible assumption | (intro _) | (simp only [good_mk, good_mk_svn, ok_mk]) | split)

theorem good_writeSvn {s0 s : State} {v : Word} (hg : Good s0 s) : Good s0 (s.writeSvn v) := by
  unfold State.writeSvn
  split
  · next h =>
    simp only [Bool.and_eq_true, decide_eq_true_eq] at h
    exact ⟨⟨hg.kept.1, hg.kept.2, hg.kept.3, hg.kept.4, hg.kept.5, hg.kept.6, hg.kept.7, Nat.le_trans hg.kept.8 (Nat.le_of_lt h.2)⟩,
      ⟨hg.inv.1, hg.inv.2, hg.inv.3, hg.inv.5, hg.inv.5, hg.inv.6, hg.inv.7, hg.inv.8, hg.inv.9⟩⟩
  · exact hg

theorem good_writeCopy {s0 s : State} {b : Bool} {c : List Byte} (hg : Good s0 s) : Good s0 (State.writeCopy s b c) := by
  unfold State.writeCopy
  repeat' (first | with_reducible assumption | (intro _) | (simp only [good_mk, good_mk_svn, ok_mk]) | split)

end Sys2Proof.Machine
end

