-- ==== Sys2Proof/Laws/GoodRegWrite.lean ====
section
/-! SUPPORT. Every operation of RegWrite keeps a run good. -/

namespace Sys2Proof.Machine

theorem good_setRegAt {s0 s : State} {b : Blk} {inst : Nat} {off : Nat} {v : Word} (hg : Good s0 s) : Good s0 (State.setRegAt s b inst off
    v) := by
  unfold State.setRegAt
  repeat' (first | with_reducible assumption | (intro _) | with_reducible apply good_setRegI | with_reducible apply good_setReg
                   | (simp only [good_mk, good_mk_svn, ok_mk]) | split)

theorem good_writeRow {s0 s : State} {who : RegWriter} {b : Blk} {inst : Nat} {r : RegRow} {v : Word} (hg : Good s0 s) : Good s0
    (State.writeRow s who b inst r v) := by
  unfold State.writeRow
  repeat' (first | with_reducible assumption | (intro _) | with_reducible apply good_setRegAt | (simp only [good_mk, good_mk_svn, ok_mk])
                   | split)

theorem good_writeKvBase {s0 s : State} {b : Nat} {v : Word} (hg : Good s0 s) : Good s0 (State.writeKvBase s b v) := by
  unfold State.writeKvBase
  repeat' (first | with_reducible assumption | (intro _) | with_reducible apply good_raise | with_reducible apply good_setReg
                   | (simp only [good_mk, good_mk_svn, ok_mk]) | split)

theorem good_writeDynPeak {s0 s : State} {i : Nat} {v : Word} (hg : Good s0 s) : Good s0 (State.writeDynPeak s i v) := by
  unfold State.writeDynPeak
  repeat' (first | with_reducible assumption | (intro _) | with_reducible apply good_setReg | (simp only [good_mk, good_mk_svn, ok_mk])
                   | split)

theorem good_writeZrole {s0 s : State} {z : Nat} {v : Word} (hg : Good s0 s) : Good s0 (State.writeZrole s z v) := by
  unfold State.writeZrole
  repeat' (first | with_reducible assumption | (intro _) | with_reducible apply good_setZport | (simp only [good_mk, good_mk_svn, ok_mk])
                   | split)

theorem good_writeRoute {s0 s : State} {v : Word} (hg : Good s0 s) : Good s0 (State.writeRoute s v) := by
  unfold State.writeRoute
  repeat' (first | with_reducible assumption | (intro _) | with_reducible apply good_setRegI | (simp only [good_mk, good_mk_svn, ok_mk])
                   | split)

theorem good_writeIcmd {s0 s : State} {v : Word} (hg : Good s0 s) : Good s0 (State.writeIcmd s v) := by
  unfold State.writeIcmd
  repeat' (first | with_reducible assumption | (intro _) | with_reducible apply good_abandon | with_reducible apply good_swap
                   | with_reducible apply good_openStage | with_reducible apply good_unload | with_reducible apply good_commitSlot
                   | with_reducible apply good_openLoad | (simp only [good_mk, good_mk_svn, ok_mk]) | split)

theorem good_writeOwn {s0 s : State} {p : HostPort} {v : Word} (hg : Good s0 s) : Good s0 (State.writeOwn s p v) := by
  unfold State.writeOwn
  repeat' (first | with_reducible assumption | (intro _) | with_reducible apply good_returnPart | with_reducible apply good_takePart
                   | (simp only [good_mk, good_mk_svn, ok_mk]) | split)

theorem good_writeRingBase {s0 s : State} {p : HostPort} {k : RingKind} {v : Word} (hg : Good s0 s) : Good s0 (State.writeRingBase s p k
    v) := by
  unfold State.writeRingBase
  repeat' (first | with_reducible assumption | (intro _) | with_reducible apply good_setReg | with_reducible apply good_setPort
                   | (simp only [good_mk, good_mk_svn, ok_mk]) | split)

theorem good_writePkhash {s0 s : State} {off : Nat} {v : Word} (hg : Good s0 s) : Good s0 (State.writePkhash s off v) := by
  unfold State.writePkhash
  repeat' (first | with_reducible assumption | (intro _) | with_reducible apply good_raise | with_reducible apply good_setRegI
                   | (simp only [good_mk, good_mk_svn, ok_mk]) | split)

theorem good_writeFlt {s0 s : State} {off : Nat} {v : Word} (hg : Good s0 s) : Good s0 (State.writeFlt s off v) := by
  unfold State.writeFlt
  repeat' (first | with_reducible assumption | (intro _) | with_reducible apply good_setReg | (simp only [good_mk, good_mk_svn, ok_mk])
                   | split)

theorem good_clearCycles {s0 s : State} {b : Blk} {inst : Nat} {off : Nat} {v : Word} (hg : Good s0 s) : Good s0 (State.clearCycles s b
    inst off v) := by
  unfold State.clearCycles
  repeat' (first | with_reducible assumption | (intro _) | with_reducible apply good_setRegAt | (simp only [good_mk, good_mk_svn, ok_mk])
                   | split)

theorem good_writeSpecial {s0 s : State} {who : RegWriter} {b : Blk} {inst off : Nat} {v : Word} {u0 : State}
    (he : s.writeSpecial who b inst off v = some u0) (hg : Good s0 s) : Good s0 u0 := by
  unfold State.writeSpecial at he
  dsimp only at he
  split at he
  all_goals repeat' split at he
  all_goals cases he
  all_goals with_reducible first
    | exact hg | exact good_setBerth (store_ok hg) hg | exact good_writeDynPeak hg | exact good_writeKvBase hg | exact good_writeScfg hg
    | exact good_writeSgstate hg | exact good_writeSpcnt hg | exact good_writeGbase hg | exact good_writeChcfg hg
    | exact good_writeIcmd hg | exact good_writeZrole hg | exact good_writeGen hg | exact good_writeRoute hg | exact good_writeOwn hg
    | exact good_writeRingBase hg | exact good_writeRing hg | exact good_restartVmin hg | exact good_writeFlt hg
    | exact good_clearCycles hg | exact good_writeSeal hg | exact good_writeSvn hg | exact good_writePkhash hg

theorem good_reportWrite {s0 s : State} {who : RegWriter} {b : Blk} {inst : Nat} {r : RegRow} {v : Word} (hg : Good s0 s) : Good s0
    (State.reportWrite s who b inst r v) := by
  unfold State.reportWrite
  repeat' (first | with_reducible assumption | (intro _) | with_reducible apply good_raise | (simp only [good_mk, good_mk_svn, ok_mk])
                   | split)

theorem good_writeBlock {s0 s : State} {who : RegWriter} {b : Blk} {inst : Nat} {off : Nat} {v : Word} (hg : Good s0 s) : Good s0
    (State.writeBlock s who b inst off v) := by
  unfold State.writeBlock
  repeat' (first | with_reducible assumption | (intro _) | with_reducible apply good_reportWrite
                   | (with_reducible apply good_writeSpecial; with_reducible assumption) | with_reducible apply good_writeRow
                   | with_reducible apply good_retarget | (simp only [good_mk, good_mk_svn, ok_mk]) | split)

theorem good_clearCaptures {s0 s : State} {b : Blk} {inst : Nat} {v : Word} (hg : Good s0 s) : Good s0 (State.clearCaptures s b inst v) :=
    by
  unfold State.clearCaptures
  repeat' (first | with_reducible assumption | (intro _) | with_reducible apply good_setReg | (simp only [good_mk, good_mk_svn, ok_mk])
                   | split)

theorem good_clearErrors {s0 s : State} {b : Blk} {inst : Nat} {v : Word} (hg : Good s0 s) : Good s0 (State.clearErrors s b inst v) := by
  unfold State.clearErrors
  repeat' (first | with_reducible assumption | (intro _) | with_reducible apply good_clearCaptures | with_reducible apply good_setErrRegs
                   | (simp only [good_mk, good_mk_svn, ok_mk]) | split)

theorem good_writeCtl {s0 s : State} {b : Blk} {inst : Nat} {v : Word} (hg : Good s0 s) : Good s0 (State.writeCtl s b inst v) := by
  unfold State.writeCtl
  repeat' (first | with_reducible assumption | (intro _) | with_reducible apply good_raise | with_reducible apply good_setReg
                   | (simp only [good_mk, good_mk_svn, ok_mk]) | split)

theorem good_writeHeader {s0 s : State} {b : Blk} {inst : Nat} {off : Nat} {v : Word} (hg : Good s0 s) : Good s0 (State.writeHeader s b
    inst off v) := by
  unfold State.writeHeader
  repeat' (first | with_reducible assumption | (intro _) | with_reducible apply good_writeCtl | with_reducible apply good_clearErrors
                   | with_reducible apply good_setReg | (simp only [good_mk, good_mk_svn, ok_mk]) | split)

theorem good_writeWord {s0 s : State} {who : RegWriter} {addr : Nat} {v : Word} (hg : Good s0 s) : Good s0 (State.writeWord s who addr v)
    := by
  unfold State.writeWord
  repeat' (first | with_reducible assumption | (intro _) | with_reducible apply good_writeHeader | with_reducible apply good_writeBlock
                   | with_reducible apply good_raise | (simp only [good_mk, good_mk_svn, ok_mk]) | split)

theorem good_whenOn {s0 s : State} {f : State → State} (hg : Good s0 s) (hf : ∀ t, Good s0 t → Good s0 (f t)) : Good s0 (State.whenOn s f)
    := by
  unfold State.whenOn
  repeat' (first | with_reducible assumption | (intro _) | apply hf | (simp only [good_mk, good_mk_svn, ok_mk]) | split)

theorem good_writeWords {s0 s : State} {who : RegWriter} {addr : Nat} {size : Nat} {data : Dword} (hg : Good s0 s) : Good s0
    (State.writeWords s who addr size data) := by
  unfold State.writeWords
  repeat' (first | with_reducible assumption | (intro _) | with_reducible apply good_writeWord | (simp only [good_mk, good_mk_svn, ok_mk])
                   | split)

end Sys2Proof.Machine
end

