-- ==== Sys2Proof/Laws/GoodIdle.lean ====
section
/-! SUPPORT. Every operation of Idle keeps a run good. -/

namespace Sys2Proof.Machine

theorem good_countUnav {s0 s : State}  (hg : Good s0 s) : Good s0 (State.countUnav s) := by
  unfold State.countUnav
  repeat' (first | with_reducible assumption | (intro _) | with_reducible apply good_setReg | (simp only [good_mk, good_mk_svn, ok_mk])
                   | split)

theorem good_rewriteShards {s0 s : State}  (hg : Good s0 s) : Good s0 (State.rewriteShards s) := by
  unfold State.rewriteShards
  repeat' (first | with_reducible assumption | (intro _) | with_reducible apply good_liftRepaired | with_reducible apply good_fromBackup
                   | with_reducible apply good_foldl | (simp only [good_mk, good_mk_svn, ok_mk]) | split)

theorem good_mendIdle {s0 s : State}  (hg : Good s0 s) : Good s0 (State.mendIdle s) := by
  unfold State.mendIdle
  repeat' (first | with_reducible assumption | (intro _) | with_reducible apply good_mendAll | (simp only [good_mk, good_mk_svn, ok_mk])
                   | split)

theorem good_readWays {s0 s : State}  (hg : Good s0 s) : Good s0 (State.readWays s) := by
  unfold State.readWays
  repeat' (first | with_reducible assumption | (intro _) | (simp only [good_mk, good_mk_svn, ok_mk]) | split)

theorem good_berthError {s0 s : State} {b : Nat} (hg : Good s0 s) : Good s0 (State.berthError s b) := by
  unfold State.berthError
  repeat' (first | with_reducible assumption | (intro _) | (simp only [good_mk, good_mk_svn, ok_mk]) | split)

theorem good_upset {s0 s : State} {y0 : Upset} (hg : Good s0 s) : Good s0 (State.upset s y0) := by
  unfold State.upset
  repeat' (first | with_reducible assumption | (intro _) | with_reducible apply good_berthError | with_reducible apply good_fetchFault
                   | with_reducible apply good_raiseOnce | with_reducible apply good_raise | with_reducible apply good_setStack
                   | with_reducible apply good_setCore | with_reducible apply ok_setG | with_reducible apply ok_setV
                   | with_reducible apply ok_write | with_reducible refine core_ok (s0 := s0) ?_ | with_reducible apply good_setBerth
                   | with_reducible refine store_ok (s0 := s0) ?_ | (simp only [good_mk, good_mk_svn, ok_mk]) | split)

theorem good_upsets {s0 s : State}  (hg : Good s0 s) : Good s0 (State.upsets s) := by
  unfold State.upsets
  repeat' (first | with_reducible assumption | (intro _) | with_reducible apply good_upset | (simp only [good_mk, good_mk_svn, ok_mk])
                   | split)

theorem good_tick {s0 s : State} (hg : Good s0 s) : Good s0 (tick s) := by
  unfold tick
  split
  · exact good_drainAlone (good_rewriteShards (good_mendIdle (good_countUnav (good_drainBuffers (good_readWays (good_holdClocks
      (good_upsets (good_drawn ((good_mk (x := s)).2 hg)))))))))
  · exact hg

end Sys2Proof.Machine
end

