-- ==== Sys2Proof/Laws/GoodForms.lean ====
section
/-! SUPPORT. What the commands use beside the operations of the other files: scratchpad words, configuration words, postponed refreshes,
operations that may fail, and the choice of a batch. -/

namespace Sys2Proof.Machine

/-- A scratchpad in canonical form may take the place of a core's. -/
theorem ok_scratch {k : Core} {m : List (Nat × Byte)} (h : CoreOk k) (hm : Memory.wf m = true) : CoreOk { k with scratch := m } :=
  ⟨h.1, h.2, hm⟩

theorem ok_setWord {k : Core} {a : Nat} {w : Word} (h : CoreOk k) : CoreOk { k with scratch := Memory.setWord k.scratch a w } :=
  ok_scratch h (Memory.wf_setWord w h.3)

theorem ok_setCfg {k : Core} {f : CfgWord} {w : Word} (h : CoreOk k) : CoreOk (setCfg k f w) := by
  cases f <;> exact ⟨h.1, h.2, h.3⟩

@[simp] theorem setDebt_store (x : BerthSt) (bank n : Nat) : (setDebt x bank n).store = x.store := rfl

@[simp] theorem nextInterval_store (x : BerthSt) (bank : Nat) : (nextInterval x bank).store = x.store := rfl

theorem good_getD {s0 s : State} {o : Option State} (h : ∀ t, o = some t → Good s0 t) (hg : Good s0 s) : Good s0 (o.getD s) := by
  cases o with
  | none => exact hg
  | some t => exact h t rfl

theorem good_elim {α : Type} {s0 s : State} {o : Option α} {f : α → State} (hg : Good s0 s) (h : ∀ a, Good s0 (f a)) :
    Good s0 (o.elim s f) := by
  cases o with
  | none => exact hg
  | some a => exact h a

/-- The choice of a batch over the candidates keeps a run good. -/
theorem good_takeCandidates {s0 : State} (l : List Nat) {a : State × Nat × List BatchEntry} (hg : Good s0 a.1) :
    Good s0 (l.foldl takeIn a).1 := by
  induction l generalizing a with
  | nil => exact hg
  | cons i l ih => exact ih (good_takeCandidate hg)

/-- Writing bytes to the slower tier keeps a run good. -/
theorem good_tierWrite {s0 s : State} {a : Nat} {l : List Byte} (hg : Good s0 s) : Good s0 { s with hbm := Memory.write s.hbm a l } :=
  good_mk_hbm hg (Memory.wf_write _ hg.inv.hbm)

end Sys2Proof.Machine
end

