-- ==== Sys2Proof/Laws/State.lean ====
section
/-! SUPPORT. The small laws of the state's updates: what each leaves as it is, and what a read of the written part gives. -/

namespace Sys2Proof.Machine

theorem State.withRegs_pending (s : State) (m : List (Nat × Word)) : ({ s with regs := m } : State).pending = s.pending := rfl
theorem State.withRegs_stamp (s : State) (m : List (Nat × Word)) : ({ s with regs := m } : State).stamp = s.stamp := rfl
theorem State.withRegs_draws (s : State) (m : List (Nat × Word)) : ({ s with regs := m } : State).draws = s.draws := rfl
theorem State.withRegs_countFrom (s : State) (m : List (Nat × Word)) : ({ s with regs := m } : State).countFrom = s.countFrom := rfl
theorem State.withRegs_fuses (s : State) (m : List (Nat × Word)) : ({ s with regs := m } : State).fuses = s.fuses := rfl
theorem State.withRegs_flash (s : State) (m : List (Nat × Word)) : ({ s with regs := m } : State).flash = s.flash := rfl
theorem State.withRegs_straps (s : State) (m : List (Nat × Word)) : ({ s with regs := m } : State).straps = s.straps := rfl
theorem State.withRegs_mctpBusy (s : State) (m : List (Nat × Word)) : ({ s with regs := m } : State).mctpBusy = s.mctpBusy := rfl
theorem State.withRegs_powered (s : State) (m : List (Nat × Word)) : ({ s with regs := m } : State).powered = s.powered := rfl
theorem State.withRegs_stage (s : State) (m : List (Nat × Word)) : ({ s with regs := m } : State).stage = s.stage := rfl
theorem State.withRegs_tms (s : State) (m : List (Nat × Word)) : ({ s with regs := m } : State).tms = s.tms := rfl
theorem State.withRegs_fwStarted (s : State) (m : List (Nat × Word)) : ({ s with regs := m } : State).fwStarted = s.fwStarted := rfl
theorem State.withRegs_refLost (s : State) (m : List (Nat × Word)) : ({ s with regs := m } : State).refLost = s.refLost := rfl
theorem State.withRegs_plateLost (s : State) (m : List (Nat × Word)) : ({ s with regs := m } : State).plateLost = s.plateLost := rfl
theorem State.withRegs_resetPending (s : State) (m : List (Nat × Word)) : ({ s with regs := m } : State).resetPending = s.resetPending :=
    rfl
theorem State.withRegs_alert (s : State) (m : List (Nat × Word)) : ({ s with regs := m } : State).alert = s.alert := rfl
theorem State.withRegs_dgen (s : State) (m : List (Nat × Word)) : ({ s with regs := m } : State).dgen = s.dgen := rfl
theorem State.withRegs_dgenBusy (s : State) (m : List (Nat × Word)) : ({ s with regs := m } : State).dgenBusy = s.dgenBusy := rfl
theorem State.withRegs_tableArea (s : State) (m : List (Nat × Word)) : ({ s with regs := m } : State).tableArea = s.tableArea := rfl
theorem State.withRegs_berths (s : State) (m : List (Nat × Word)) : ({ s with regs := m } : State).berths = s.berths := rfl
theorem State.withRegs_cores (s : State) (m : List (Nat × Word)) : ({ s with regs := m } : State).cores = s.cores := rfl
theorem State.withRegs_coresMode (s : State) (m : List (Nat × Word)) : ({ s with regs := m } : State).coresMode = s.coresMode := rfl
theorem State.withRegs_boundsHeld (s : State) (m : List (Nat × Word)) : ({ s with regs := m } : State).boundsHeld = s.boundsHeld := rfl
theorem State.withRegs_links (s : State) (m : List (Nat × Word)) : ({ s with regs := m } : State).links = s.links := rfl
theorem State.withRegs_ways (s : State) (m : List (Nat × Word)) : ({ s with regs := m } : State).ways = s.ways := rfl
theorem State.withRegs_packets (s : State) (m : List (Nat × Word)) : ({ s with regs := m } : State).packets = s.packets := rfl
theorem State.withRegs_packetNext (s : State) (m : List (Nat × Word)) : ({ s with regs := m } : State).packetNext = s.packetNext := rfl
theorem State.withRegs_delivered (s : State) (m : List (Nat × Word)) : ({ s with regs := m } : State).delivered = s.delivered := rfl
theorem State.withRegs_passed (s : State) (m : List (Nat × Word)) : ({ s with regs := m } : State).passed = s.passed := rfl
theorem State.withRegs_oneLeft (s : State) (m : List (Nat × Word)) : ({ s with regs := m } : State).oneLeft = s.oneLeft := rfl
theorem State.withRegs_treeMoved (s : State) (m : List (Nat × Word)) : ({ s with regs := m } : State).treeMoved = s.treeMoved := rfl
theorem State.withRegs_barrierTimer (s : State) (m : List (Nat × Word)) : ({ s with regs := m } : State).barrierTimer = s.barrierTimer :=
    rfl
theorem State.withRegs_lateSent (s : State) (m : List (Nat × Word)) : ({ s with regs := m } : State).lateSent = s.lateSent := rfl
theorem State.withRegs_timeMsg (s : State) (m : List (Nat × Word)) : ({ s with regs := m } : State).timeMsg = s.timeMsg := rfl
theorem State.withRegs_nodeClocks (s : State) (m : List (Nat × Word)) : ({ s with regs := m } : State).nodeClocks = s.nodeClocks := rfl
theorem State.withRegs_sliceIn (s : State) (m : List (Nat × Word)) : ({ s with regs := m } : State).sliceIn = s.sliceIn := rfl
theorem State.withRegs_tier (s : State) (m : List (Nat × Word)) : ({ s with regs := m } : State).tier = s.tier := rfl
theorem State.withRegs_hbm (s : State) (m : List (Nat × Word)) : ({ s with regs := m } : State).hbm = s.hbm := rfl
theorem State.withRegs_streams (s : State) (m : List (Nat × Word)) : ({ s with regs := m } : State).streams = s.streams := rfl
theorem State.withRegs_seq (s : State) (m : List (Nat × Word)) : ({ s with regs := m } : State).seq = s.seq := rfl
theorem State.withRegs_images (s : State) (m : List (Nat × Word)) : ({ s with regs := m } : State).images = s.images := rfl
theorem State.withRegs_chans (s : State) (m : List (Nat × Word)) : ({ s with regs := m } : State).chans = s.chans := rfl
theorem State.withRegs_frames (s : State) (m : List (Nat × Word)) : ({ s with regs := m } : State).frames = s.frames := rfl
theorem State.withRegs_columns (s : State) (m : List (Nat × Word)) : ({ s with regs := m } : State).columns = s.columns := rfl
theorem State.withRegs_nodes (s : State) (m : List (Nat × Word)) : ({ s with regs := m } : State).nodes = s.nodes := rfl
theorem State.withRegs_copies (s : State) (m : List (Nat × Word)) : ({ s with regs := m } : State).copies = s.copies := rfl
theorem State.withRegs_backups (s : State) (m : List (Nat × Word)) : ({ s with regs := m } : State).backups = s.backups := rfl
theorem State.withRegs_ringCopies (s : State) (m : List (Nat × Word)) : ({ s with regs := m } : State).ringCopies = s.ringCopies := rfl
theorem State.withRegs_grammarChecks (s : State) (m : List (Nat × Word)) : ({ s with regs := m } : State).grammarChecks = s.grammarChecks :=
    rfl
theorem State.withRegs_zports (s : State) (m : List (Nat × Word)) : ({ s with regs := m } : State).zports = s.zports := rfl
theorem State.withRegs_uncabled (s : State) (m : List (Nat × Word)) : ({ s with regs := m } : State).uncabled = s.uncabled := rfl
theorem State.withRegs_sliceFailed (s : State) (m : List (Nat × Word)) : ({ s with regs := m } : State).sliceFailed = s.sliceFailed := rfl
theorem State.withRegs_portOut (s : State) (m : List (Nat × Word)) : ({ s with regs := m } : State).portOut = s.portOut := rfl
theorem State.withRegs_gen (s : State) (m : List (Nat × Word)) : ({ s with regs := m } : State).gen = s.gen := rfl
theorem State.withRegs_forwarding (s : State) (m : List (Nat × Word)) : ({ s with regs := m } : State).forwarding = s.forwarding := rfl
theorem State.withRegs_portA (s : State) (m : List (Nat × Word)) : ({ s with regs := m } : State).portA = s.portA := rfl
theorem State.withRegs_portB (s : State) (m : List (Nat × Word)) : ({ s with regs := m } : State).portB = s.portB := rfl
theorem State.withRegs_msix (s : State) (m : List (Nat × Word)) : ({ s with regs := m } : State).msix = s.msix := rfl
theorem State.withRegs_hostMem (s : State) (m : List (Nat × Word)) : ({ s with regs := m } : State).hostMem = s.hostMem := rfl
theorem State.withRegs_basins (s : State) (m : List (Nat × Word)) : ({ s with regs := m } : State).basins = s.basins := rfl
theorem State.withRegs_west (s : State) (m : List (Nat × Word)) : ({ s with regs := m } : State).west = s.west := rfl
theorem State.withRegs_east (s : State) (m : List (Nat × Word)) : ({ s with regs := m } : State).east = s.east := rfl
theorem State.withRegs_powerSteps (s : State) (m : List (Nat × Word)) : ({ s with regs := m } : State).powerSteps = s.powerSteps := rfl
theorem State.withRegs_cool (s : State) (m : List (Nat × Word)) : ({ s with regs := m } : State).cool = s.cool := rfl
theorem State.withRegs_sites (s : State) (m : List (Nat × Word)) : ({ s with regs := m } : State).sites = s.sites := rfl
theorem State.withRegs_heartbeats (s : State) (m : List (Nat × Word)) : ({ s with regs := m } : State).heartbeats = s.heartbeats := rfl
theorem State.withRegs_unav (s : State) (m : List (Nat × Word)) : ({ s with regs := m } : State).unav = s.unav := rfl
theorem State.withRegs_flt (s : State) (m : List (Nat × Word)) : ({ s with regs := m } : State).flt = s.flt := rfl
theorem State.withRegs_secu (s : State) (m : List (Nat × Word)) : ({ s with regs := m } : State).secu = s.secu := rfl
@[simp] theorem State.setBerth_pending (s : State) (b : Nat) (x : BerthSt) : (s.setBerth b x).pending = s.pending := rfl
@[simp] theorem State.setBerth_stamp (s : State) (b : Nat) (x : BerthSt) : (s.setBerth b x).stamp = s.stamp := rfl
@[simp] theorem State.setBerth_draws (s : State) (b : Nat) (x : BerthSt) : (s.setBerth b x).draws = s.draws := rfl
@[simp] theorem State.setBerth_countFrom (s : State) (b : Nat) (x : BerthSt) : (s.setBerth b x).countFrom = s.countFrom := rfl
@[simp] theorem State.setBerth_fuses (s : State) (b : Nat) (x : BerthSt) : (s.setBerth b x).fuses = s.fuses := rfl
@[simp] theorem State.setBerth_flash (s : State) (b : Nat) (x : BerthSt) : (s.setBerth b x).flash = s.flash := rfl
@[simp] theorem State.setBerth_straps (s : State) (b : Nat) (x : BerthSt) : (s.setBerth b x).straps = s.straps := rfl
@[simp] theorem State.setBerth_mctpBusy (s : State) (b : Nat) (x : BerthSt) : (s.setBerth b x).mctpBusy = s.mctpBusy := rfl
@[simp] theorem State.setBerth_powered (s : State) (b : Nat) (x : BerthSt) : (s.setBerth b x).powered = s.powered := rfl
@[simp] theorem State.setBerth_stage (s : State) (b : Nat) (x : BerthSt) : (s.setBerth b x).stage = s.stage := rfl
@[simp] theorem State.setBerth_tms (s : State) (b : Nat) (x : BerthSt) : (s.setBerth b x).tms = s.tms := rfl
@[simp] theorem State.setBerth_fwStarted (s : State) (b : Nat) (x : BerthSt) : (s.setBerth b x).fwStarted = s.fwStarted := rfl
@[simp] theorem State.setBerth_refLost (s : State) (b : Nat) (x : BerthSt) : (s.setBerth b x).refLost = s.refLost := rfl
@[simp] theorem State.setBerth_plateLost (s : State) (b : Nat) (x : BerthSt) : (s.setBerth b x).plateLost = s.plateLost := rfl
@[simp] theorem State.setBerth_resetPending (s : State) (b : Nat) (x : BerthSt) : (s.setBerth b x).resetPending = s.resetPending := rfl
@[simp] theorem State.setBerth_alert (s : State) (b : Nat) (x : BerthSt) : (s.setBerth b x).alert = s.alert := rfl
@[simp] theorem State.setBerth_dgen (s : State) (b : Nat) (x : BerthSt) : (s.setBerth b x).dgen = s.dgen := rfl
@[simp] theorem State.setBerth_dgenBusy (s : State) (b : Nat) (x : BerthSt) : (s.setBerth b x).dgenBusy = s.dgenBusy := rfl
@[simp] theorem State.setBerth_tableArea (s : State) (b : Nat) (x : BerthSt) : (s.setBerth b x).tableArea = s.tableArea := rfl
@[simp] theorem State.setBerth_regs (s : State) (b : Nat) (x : BerthSt) : (s.setBerth b x).regs = s.regs := rfl
@[simp] theorem State.setBerth_cores (s : State) (b : Nat) (x : BerthSt) : (s.setBerth b x).cores = s.cores := rfl
@[simp] theorem State.setBerth_coresMode (s : State) (b : Nat) (x : BerthSt) : (s.setBerth b x).coresMode = s.coresMode := rfl
@[simp] theorem State.setBerth_boundsHeld (s : State) (b : Nat) (x : BerthSt) : (s.setBerth b x).boundsHeld = s.boundsHeld := rfl
@[simp] theorem State.setBerth_links (s : State) (b : Nat) (x : BerthSt) : (s.setBerth b x).links = s.links := rfl
@[simp] theorem State.setBerth_ways (s : State) (b : Nat) (x : BerthSt) : (s.setBerth b x).ways = s.ways := rfl
@[simp] theorem State.setBerth_packets (s : State) (b : Nat) (x : BerthSt) : (s.setBerth b x).packets = s.packets := rfl
@[simp] theorem State.setBerth_packetNext (s : State) (b : Nat) (x : BerthSt) : (s.setBerth b x).packetNext = s.packetNext := rfl
@[simp] theorem State.setBerth_delivered (s : State) (b : Nat) (x : BerthSt) : (s.setBerth b x).delivered = s.delivered := rfl
@[simp] theorem State.setBerth_passed (s : State) (b : Nat) (x : BerthSt) : (s.setBerth b x).passed = s.passed := rfl
@[simp] theorem State.setBerth_oneLeft (s : State) (b : Nat) (x : BerthSt) : (s.setBerth b x).oneLeft = s.oneLeft := rfl
@[simp] theorem State.setBerth_treeMoved (s : State) (b : Nat) (x : BerthSt) : (s.setBerth b x).treeMoved = s.treeMoved := rfl
@[simp] theorem State.setBerth_barrierTimer (s : State) (b : Nat) (x : BerthSt) : (s.setBerth b x).barrierTimer = s.barrierTimer := rfl
@[simp] theorem State.setBerth_lateSent (s : State) (b : Nat) (x : BerthSt) : (s.setBerth b x).lateSent = s.lateSent := rfl
@[simp] theorem State.setBerth_timeMsg (s : State) (b : Nat) (x : BerthSt) : (s.setBerth b x).timeMsg = s.timeMsg := rfl
@[simp] theorem State.setBerth_nodeClocks (s : State) (b : Nat) (x : BerthSt) : (s.setBerth b x).nodeClocks = s.nodeClocks := rfl
@[simp] theorem State.setBerth_sliceIn (s : State) (b : Nat) (x : BerthSt) : (s.setBerth b x).sliceIn = s.sliceIn := rfl
@[simp] theorem State.setBerth_tier (s : State) (b : Nat) (x : BerthSt) : (s.setBerth b x).tier = s.tier := rfl
@[simp] theorem State.setBerth_hbm (s : State) (b : Nat) (x : BerthSt) : (s.setBerth b x).hbm = s.hbm := rfl
@[simp] theorem State.setBerth_streams (s : State) (b : Nat) (x : BerthSt) : (s.setBerth b x).streams = s.streams := rfl
@[simp] theorem State.setBerth_seq (s : State) (b : Nat) (x : BerthSt) : (s.setBerth b x).seq = s.seq := rfl
@[simp] theorem State.setBerth_images (s : State) (b : Nat) (x : BerthSt) : (s.setBerth b x).images = s.images := rfl
@[simp] theorem State.setBerth_chans (s : State) (b : Nat) (x : BerthSt) : (s.setBerth b x).chans = s.chans := rfl
@[simp] theorem State.setBerth_frames (s : State) (b : Nat) (x : BerthSt) : (s.setBerth b x).frames = s.frames := rfl
@[simp] theorem State.setBerth_columns (s : State) (b : Nat) (x : BerthSt) : (s.setBerth b x).columns = s.columns := rfl
@[simp] theorem State.setBerth_nodes (s : State) (b : Nat) (x : BerthSt) : (s.setBerth b x).nodes = s.nodes := rfl
@[simp] theorem State.setBerth_copies (s : State) (b : Nat) (x : BerthSt) : (s.setBerth b x).copies = s.copies := rfl
@[simp] theorem State.setBerth_backups (s : State) (b : Nat) (x : BerthSt) : (s.setBerth b x).backups = s.backups := rfl
@[simp] theorem State.setBerth_ringCopies (s : State) (b : Nat) (x : BerthSt) : (s.setBerth b x).ringCopies = s.ringCopies := rfl
@[simp] theorem State.setBerth_grammarChecks (s : State) (b : Nat) (x : BerthSt) : (s.setBerth b x).grammarChecks = s.grammarChecks := rfl
@[simp] theorem State.setBerth_zports (s : State) (b : Nat) (x : BerthSt) : (s.setBerth b x).zports = s.zports := rfl
@[simp] theorem State.setBerth_uncabled (s : State) (b : Nat) (x : BerthSt) : (s.setBerth b x).uncabled = s.uncabled := rfl
@[simp] theorem State.setBerth_sliceFailed (s : State) (b : Nat) (x : BerthSt) : (s.setBerth b x).sliceFailed = s.sliceFailed := rfl
@[simp] theorem State.setBerth_portOut (s : State) (b : Nat) (x : BerthSt) : (s.setBerth b x).portOut = s.portOut := rfl
@[simp] theorem State.setBerth_gen (s : State) (b : Nat) (x : BerthSt) : (s.setBerth b x).gen = s.gen := rfl
@[simp] theorem State.setBerth_forwarding (s : State) (b : Nat) (x : BerthSt) : (s.setBerth b x).forwarding = s.forwarding := rfl
@[simp] theorem State.setBerth_portA (s : State) (b : Nat) (x : BerthSt) : (s.setBerth b x).portA = s.portA := rfl
@[simp] theorem State.setBerth_portB (s : State) (b : Nat) (x : BerthSt) : (s.setBerth b x).portB = s.portB := rfl
@[simp] theorem State.setBerth_msix (s : State) (b : Nat) (x : BerthSt) : (s.setBerth b x).msix = s.msix := rfl
@[simp] theorem State.setBerth_hostMem (s : State) (b : Nat) (x : BerthSt) : (s.setBerth b x).hostMem = s.hostMem := rfl
@[simp] theorem State.setBerth_basins (s : State) (b : Nat) (x : BerthSt) : (s.setBerth b x).basins = s.basins := rfl
@[simp] theorem State.setBerth_west (s : State) (b : Nat) (x : BerthSt) : (s.setBerth b x).west = s.west := rfl
@[simp] theorem State.setBerth_east (s : State) (b : Nat) (x : BerthSt) : (s.setBerth b x).east = s.east := rfl
@[simp] theorem State.setBerth_powerSteps (s : State) (b : Nat) (x : BerthSt) : (s.setBerth b x).powerSteps = s.powerSteps := rfl
@[simp] theorem State.setBerth_cool (s : State) (b : Nat) (x : BerthSt) : (s.setBerth b x).cool = s.cool := rfl
@[simp] theorem State.setBerth_sites (s : State) (b : Nat) (x : BerthSt) : (s.setBerth b x).sites = s.sites := rfl
@[simp] theorem State.setBerth_heartbeats (s : State) (b : Nat) (x : BerthSt) : (s.setBerth b x).heartbeats = s.heartbeats := rfl
@[simp] theorem State.setBerth_unav (s : State) (b : Nat) (x : BerthSt) : (s.setBerth b x).unav = s.unav := rfl
@[simp] theorem State.setBerth_flt (s : State) (b : Nat) (x : BerthSt) : (s.setBerth b x).flt = s.flt := rfl
@[simp] theorem State.setBerth_secu (s : State) (b : Nat) (x : BerthSt) : (s.setBerth b x).secu = s.secu := rfl
@[simp] theorem State.setBerth_core_at (s : State) (b : Nat) (x : BerthSt) (j : Nat) : (s.setBerth b x).core j = s.core j := rfl
@[simp] theorem State.setBerth_link_at (s : State) (b : Nat) (x : BerthSt) (j : Nat) : (s.setBerth b x).link j = s.link j := rfl
@[simp] theorem State.setBerth_way_at (s : State) (b : Nat) (x : BerthSt) (j : Nat) : (s.setBerth b x).way j = s.way j := rfl
@[simp] theorem State.setBerth_stack_at (s : State) (b : Nat) (x : BerthSt) (j : Nat) : (s.setBerth b x).stack j = s.stack j := rfl
@[simp] theorem State.setBerth_stream_at (s : State) (b : Nat) (x : BerthSt) (j : Nat) : (s.setBerth b x).stream j = s.stream j := rfl
@[simp] theorem State.setBerth_image_at (s : State) (b : Nat) (x : BerthSt) (j : Nat) : (s.setBerth b x).image j = s.image j := rfl
@[simp] theorem State.setBerth_chan_at (s : State) (b : Nat) (x : BerthSt) (j : Nat) : (s.setBerth b x).chan j = s.chan j := rfl
@[simp] theorem State.setBerth_zport_at (s : State) (b : Nat) (x : BerthSt) (j : Nat) : (s.setBerth b x).zport j = s.zport j := rfl
@[simp] theorem State.setBerth_basin_at (s : State) (b : Nat) (x : BerthSt) (j : Nat) : (s.setBerth b x).basin j = s.basin j := rfl
@[simp] theorem State.setBerth_site_at (s : State) (b : Nat) (x : BerthSt) (j : Nat) : (s.setBerth b x).site j = s.site j := rfl
@[simp] theorem State.setBerth_port_at (s : State) (b : Nat) (x : BerthSt) (q : HostPort) : (s.setBerth b x).port q = s.port q := rfl
@[simp] theorem State.setBerth_half_at (s : State) (b : Nat) (x : BerthSt) (w : Half) : (s.setBerth b x).half w = s.half w := rfl
@[simp] theorem State.setBerth_reg_at (s : State) (b : Nat) (x : BerthSt) (b' : Blk) (inst' off' : Nat) : (s.setBerth b x).reg b' inst' off' = s.reg b' inst' off' :=
    rfl
@[simp] theorem State.setBerth_regI_at (s : State) (b : Nat) (x : BerthSt) (b' : Blk) (inst' off' i' : Nat) : (s.setBerth b x).regI b' inst' off' i' = s.regI b' inst' off' i' :=
    rfl

@[simp] theorem State.setCore_pending (s : State) (c : Nat) (x : Core) : (s.setCore c x).pending = s.pending := rfl
@[simp] theorem State.setCore_stamp (s : State) (c : Nat) (x : Core) : (s.setCore c x).stamp = s.stamp := rfl
@[simp] theorem State.setCore_draws (s : State) (c : Nat) (x : Core) : (s.setCore c x).draws = s.draws := rfl
@[simp] theorem State.setCore_countFrom (s : State) (c : Nat) (x : Core) : (s.setCore c x).countFrom = s.countFrom := rfl
@[simp] theorem State.setCore_fuses (s : State) (c : Nat) (x : Core) : (s.setCore c x).fuses = s.fuses := rfl
@[simp] theorem State.setCore_flash (s : State) (c : Nat) (x : Core) : (s.setCore c x).flash = s.flash := rfl
@[simp] theorem State.setCore_straps (s : State) (c : Nat) (x : Core) : (s.setCore c x).straps = s.straps := rfl
@[simp] theorem State.setCore_mctpBusy (s : State) (c : Nat) (x : Core) : (s.setCore c x).mctpBusy = s.mctpBusy := rfl
@[simp] theorem State.setCore_powered (s : State) (c : Nat) (x : Core) : (s.setCore c x).powered = s.powered := rfl
@[simp] theorem State.setCore_stage (s : State) (c : Nat) (x : Core) : (s.setCore c x).stage = s.stage := rfl
@[simp] theorem State.setCore_tms (s : State) (c : Nat) (x : Core) : (s.setCore c x).tms = s.tms := rfl
@[simp] theorem State.setCore_fwStarted (s : State) (c : Nat) (x : Core) : (s.setCore c x).fwStarted = s.fwStarted := rfl
@[simp] theorem State.setCore_refLost (s : State) (c : Nat) (x : Core) : (s.setCore c x).refLost = s.refLost := rfl
@[simp] theorem State.setCore_plateLost (s : State) (c : Nat) (x : Core) : (s.setCore c x).plateLost = s.plateLost := rfl
@[simp] theorem State.setCore_resetPending (s : State) (c : Nat) (x : Core) : (s.setCore c x).resetPending = s.resetPending := rfl
@[simp] theorem State.setCore_alert (s : State) (c : Nat) (x : Core) : (s.setCore c x).alert = s.alert := rfl
@[simp] theorem State.setCore_dgen (s : State) (c : Nat) (x : Core) : (s.setCore c x).dgen = s.dgen := rfl
@[simp] theorem State.setCore_dgenBusy (s : State) (c : Nat) (x : Core) : (s.setCore c x).dgenBusy = s.dgenBusy := rfl
@[simp] theorem State.setCore_tableArea (s : State) (c : Nat) (x : Core) : (s.setCore c x).tableArea = s.tableArea := rfl
@[simp] theorem State.setCore_regs (s : State) (c : Nat) (x : Core) : (s.setCore c x).regs = s.regs := rfl
@[simp] theorem State.setCore_berths (s : State) (c : Nat) (x : Core) : (s.setCore c x).berths = s.berths := rfl
@[simp] theorem State.setCore_coresMode (s : State) (c : Nat) (x : Core) : (s.setCore c x).coresMode = s.coresMode := rfl
@[simp] theorem State.setCore_boundsHeld (s : State) (c : Nat) (x : Core) : (s.setCore c x).boundsHeld = s.boundsHeld := rfl
@[simp] theorem State.setCore_links (s : State) (c : Nat) (x : Core) : (s.setCore c x).links = s.links := rfl
@[simp] theorem State.setCore_ways (s : State) (c : Nat) (x : Core) : (s.setCore c x).ways = s.ways := rfl
@[simp] theorem State.setCore_packets (s : State) (c : Nat) (x : Core) : (s.setCore c x).packets = s.packets := rfl
@[simp] theorem State.setCore_packetNext (s : State) (c : Nat) (x : Core) : (s.setCore c x).packetNext = s.packetNext := rfl
@[simp] theorem State.setCore_delivered (s : State) (c : Nat) (x : Core) : (s.setCore c x).delivered = s.delivered := rfl
@[simp] theorem State.setCore_passed (s : State) (c : Nat) (x : Core) : (s.setCore c x).passed = s.passed := rfl
@[simp] theorem State.setCore_oneLeft (s : State) (c : Nat) (x : Core) : (s.setCore c x).oneLeft = s.oneLeft := rfl
@[simp] theorem State.setCore_treeMoved (s : State) (c : Nat) (x : Core) : (s.setCore c x).treeMoved = s.treeMoved := rfl
@[simp] theorem State.setCore_barrierTimer (s : State) (c : Nat) (x : Core) : (s.setCore c x).barrierTimer = s.barrierTimer := rfl
@[simp] theorem State.setCore_lateSent (s : State) (c : Nat) (x : Core) : (s.setCore c x).lateSent = s.lateSent := rfl
@[simp] theorem State.setCore_timeMsg (s : State) (c : Nat) (x : Core) : (s.setCore c x).timeMsg = s.timeMsg := rfl
@[simp] theorem State.setCore_nodeClocks (s : State) (c : Nat) (x : Core) : (s.setCore c x).nodeClocks = s.nodeClocks := rfl
@[simp] theorem State.setCore_sliceIn (s : State) (c : Nat) (x : Core) : (s.setCore c x).sliceIn = s.sliceIn := rfl
@[simp] theorem State.setCore_tier (s : State) (c : Nat) (x : Core) : (s.setCore c x).tier = s.tier := rfl
@[simp] theorem State.setCore_hbm (s : State) (c : Nat) (x : Core) : (s.setCore c x).hbm = s.hbm := rfl
@[simp] theorem State.setCore_streams (s : State) (c : Nat) (x : Core) : (s.setCore c x).streams = s.streams := rfl
@[simp] theorem State.setCore_seq (s : State) (c : Nat) (x : Core) : (s.setCore c x).seq = s.seq := rfl
@[simp] theorem State.setCore_images (s : State) (c : Nat) (x : Core) : (s.setCore c x).images = s.images := rfl
@[simp] theorem State.setCore_chans (s : State) (c : Nat) (x : Core) : (s.setCore c x).chans = s.chans := rfl
@[simp] theorem State.setCore_frames (s : State) (c : Nat) (x : Core) : (s.setCore c x).frames = s.frames := rfl
@[simp] theorem State.setCore_columns (s : State) (c : Nat) (x : Core) : (s.setCore c x).columns = s.columns := rfl
@[simp] theorem State.setCore_nodes (s : State) (c : Nat) (x : Core) : (s.setCore c x).nodes = s.nodes := rfl
@[simp] theorem State.setCore_copies (s : State) (c : Nat) (x : Core) : (s.setCore c x).copies = s.copies := rfl
@[simp] theorem State.setCore_backups (s : State) (c : Nat) (x : Core) : (s.setCore c x).backups = s.backups := rfl
@[simp] theorem State.setCore_ringCopies (s : State) (c : Nat) (x : Core) : (s.setCore c x).ringCopies = s.ringCopies := rfl
@[simp] theorem State.setCore_grammarChecks (s : State) (c : Nat) (x : Core) : (s.setCore c x).grammarChecks = s.grammarChecks := rfl
@[simp] theorem State.setCore_zports (s : State) (c : Nat) (x : Core) : (s.setCore c x).zports = s.zports := rfl
@[simp] theorem State.setCore_uncabled (s : State) (c : Nat) (x : Core) : (s.setCore c x).uncabled = s.uncabled := rfl
@[simp] theorem State.setCore_sliceFailed (s : State) (c : Nat) (x : Core) : (s.setCore c x).sliceFailed = s.sliceFailed := rfl
@[simp] theorem State.setCore_portOut (s : State) (c : Nat) (x : Core) : (s.setCore c x).portOut = s.portOut := rfl
@[simp] theorem State.setCore_gen (s : State) (c : Nat) (x : Core) : (s.setCore c x).gen = s.gen := rfl
@[simp] theorem State.setCore_forwarding (s : State) (c : Nat) (x : Core) : (s.setCore c x).forwarding = s.forwarding := rfl
@[simp] theorem State.setCore_portA (s : State) (c : Nat) (x : Core) : (s.setCore c x).portA = s.portA := rfl
@[simp] theorem State.setCore_portB (s : State) (c : Nat) (x : Core) : (s.setCore c x).portB = s.portB := rfl
@[simp] theorem State.setCore_msix (s : State) (c : Nat) (x : Core) : (s.setCore c x).msix = s.msix := rfl
@[simp] theorem State.setCore_hostMem (s : State) (c : Nat) (x : Core) : (s.setCore c x).hostMem = s.hostMem := rfl
@[simp] theorem State.setCore_basins (s : State) (c : Nat) (x : Core) : (s.setCore c x).basins = s.basins := rfl
@[simp] theorem State.setCore_west (s : State) (c : Nat) (x : Core) : (s.setCore c x).west = s.west := rfl
@[simp] theorem State.setCore_east (s : State) (c : Nat) (x : Core) : (s.setCore c x).east = s.east := rfl
@[simp] theorem State.setCore_powerSteps (s : State) (c : Nat) (x : Core) : (s.setCore c x).powerSteps = s.powerSteps := rfl
@[simp] theorem State.setCore_cool (s : State) (c : Nat) (x : Core) : (s.setCore c x).cool = s.cool := rfl
@[simp] theorem State.setCore_sites (s : State) (c : Nat) (x : Core) : (s.setCore c x).sites = s.sites := rfl
@[simp] theorem State.setCore_heartbeats (s : State) (c : Nat) (x : Core) : (s.setCore c x).heartbeats = s.heartbeats := rfl
@[simp] theorem State.setCore_unav (s : State) (c : Nat) (x : Core) : (s.setCore c x).unav = s.unav := rfl
@[simp] theorem State.setCore_flt (s : State) (c : Nat) (x : Core) : (s.setCore c x).flt = s.flt := rfl
@[simp] theorem State.setCore_secu (s : State) (c : Nat) (x : Core) : (s.setCore c x).secu = s.secu := rfl
@[simp] theorem State.setCore_berth_at (s : State) (c : Nat) (x : Core) (j : Nat) : (s.setCore c x).berth j = s.berth j := rfl
@[simp] theorem State.setCore_link_at (s : State) (c : Nat) (x : Core) (j : Nat) : (s.setCore c x).link j = s.link j := rfl
@[simp] theorem State.setCore_way_at (s : State) (c : Nat) (x : Core) (j : Nat) : (s.setCore c x).way j = s.way j := rfl
@[simp] theorem State.setCore_stack_at (s : State) (c : Nat) (x : Core) (j : Nat) : (s.setCore c x).stack j = s.stack j := rfl
@[simp] theorem State.setCore_stream_at (s : State) (c : Nat) (x : Core) (j : Nat) : (s.setCore c x).stream j = s.stream j := rfl
@[simp] theorem State.setCore_image_at (s : State) (c : Nat) (x : Core) (j : Nat) : (s.setCore c x).image j = s.image j := rfl
@[simp] theorem State.setCore_chan_at (s : State) (c : Nat) (x : Core) (j : Nat) : (s.setCore c x).chan j = s.chan j := rfl
@[simp] theorem State.setCore_zport_at (s : State) (c : Nat) (x : Core) (j : Nat) : (s.setCore c x).zport j = s.zport j := rfl
@[simp] theorem State.setCore_basin_at (s : State) (c : Nat) (x : Core) (j : Nat) : (s.setCore c x).basin j = s.basin j := rfl
@[simp] theorem State.setCore_site_at (s : State) (c : Nat) (x : Core) (j : Nat) : (s.setCore c x).site j = s.site j := rfl
@[simp] theorem State.setCore_port_at (s : State) (c : Nat) (x : Core) (q : HostPort) : (s.setCore c x).port q = s.port q := rfl
@[simp] theorem State.setCore_half_at (s : State) (c : Nat) (x : Core) (w : Half) : (s.setCore c x).half w = s.half w := rfl
@[simp] theorem State.setCore_reg_at (s : State) (c : Nat) (x : Core) (b' : Blk) (inst' off' : Nat) : (s.setCore c x).reg b' inst' off' = s.reg b' inst' off' :=
    rfl
@[simp] theorem State.setCore_regI_at (s : State) (c : Nat) (x : Core) (b' : Blk) (inst' off' i' : Nat) : (s.setCore c x).regI b' inst' off' i' = s.regI b' inst' off' i' :=
    rfl

@[simp] theorem State.setLink_pending (s : State) (l : Nat) (x : Link) : (s.setLink l x).pending = s.pending := rfl
@[simp] theorem State.setLink_stamp (s : State) (l : Nat) (x : Link) : (s.setLink l x).stamp = s.stamp := rfl
@[simp] theorem State.setLink_draws (s : State) (l : Nat) (x : Link) : (s.setLink l x).draws = s.draws := rfl
@[simp] theorem State.setLink_countFrom (s : State) (l : Nat) (x : Link) : (s.setLink l x).countFrom = s.countFrom := rfl
@[simp] theorem State.setLink_fuses (s : State) (l : Nat) (x : Link) : (s.setLink l x).fuses = s.fuses := rfl
@[simp] theorem State.setLink_flash (s : State) (l : Nat) (x : Link) : (s.setLink l x).flash = s.flash := rfl
@[simp] theorem State.setLink_straps (s : State) (l : Nat) (x : Link) : (s.setLink l x).straps = s.straps := rfl
@[simp] theorem State.setLink_mctpBusy (s : State) (l : Nat) (x : Link) : (s.setLink l x).mctpBusy = s.mctpBusy := rfl
@[simp] theorem State.setLink_powered (s : State) (l : Nat) (x : Link) : (s.setLink l x).powered = s.powered := rfl
@[simp] theorem State.setLink_stage (s : State) (l : Nat) (x : Link) : (s.setLink l x).stage = s.stage := rfl
@[simp] theorem State.setLink_tms (s : State) (l : Nat) (x : Link) : (s.setLink l x).tms = s.tms := rfl
@[simp] theorem State.setLink_fwStarted (s : State) (l : Nat) (x : Link) : (s.setLink l x).fwStarted = s.fwStarted := rfl
@[simp] theorem State.setLink_refLost (s : State) (l : Nat) (x : Link) : (s.setLink l x).refLost = s.refLost := rfl
@[simp] theorem State.setLink_plateLost (s : State) (l : Nat) (x : Link) : (s.setLink l x).plateLost = s.plateLost := rfl
@[simp] theorem State.setLink_resetPending (s : State) (l : Nat) (x : Link) : (s.setLink l x).resetPending = s.resetPending := rfl
@[simp] theorem State.setLink_alert (s : State) (l : Nat) (x : Link) : (s.setLink l x).alert = s.alert := rfl
@[simp] theorem State.setLink_dgen (s : State) (l : Nat) (x : Link) : (s.setLink l x).dgen = s.dgen := rfl
@[simp] theorem State.setLink_dgenBusy (s : State) (l : Nat) (x : Link) : (s.setLink l x).dgenBusy = s.dgenBusy := rfl
@[simp] theorem State.setLink_tableArea (s : State) (l : Nat) (x : Link) : (s.setLink l x).tableArea = s.tableArea := rfl
@[simp] theorem State.setLink_regs (s : State) (l : Nat) (x : Link) : (s.setLink l x).regs = s.regs := rfl
@[simp] theorem State.setLink_berths (s : State) (l : Nat) (x : Link) : (s.setLink l x).berths = s.berths := rfl
@[simp] theorem State.setLink_cores (s : State) (l : Nat) (x : Link) : (s.setLink l x).cores = s.cores := rfl
@[simp] theorem State.setLink_coresMode (s : State) (l : Nat) (x : Link) : (s.setLink l x).coresMode = s.coresMode := rfl
@[simp] theorem State.setLink_boundsHeld (s : State) (l : Nat) (x : Link) : (s.setLink l x).boundsHeld = s.boundsHeld := rfl
@[simp] theorem State.setLink_ways (s : State) (l : Nat) (x : Link) : (s.setLink l x).ways = s.ways := rfl
@[simp] theorem State.setLink_packets (s : State) (l : Nat) (x : Link) : (s.setLink l x).packets = s.packets := rfl
@[simp] theorem State.setLink_packetNext (s : State) (l : Nat) (x : Link) : (s.setLink l x).packetNext = s.packetNext := rfl
@[simp] theorem State.setLink_delivered (s : State) (l : Nat) (x : Link) : (s.setLink l x).delivered = s.delivered := rfl
@[simp] theorem State.setLink_passed (s : State) (l : Nat) (x : Link) : (s.setLink l x).passed = s.passed := rfl
@[simp] theorem State.setLink_oneLeft (s : State) (l : Nat) (x : Link) : (s.setLink l x).oneLeft = s.oneLeft := rfl
@[simp] theorem State.setLink_treeMoved (s : State) (l : Nat) (x : Link) : (s.setLink l x).treeMoved = s.treeMoved := rfl
@[simp] theorem State.setLink_barrierTimer (s : State) (l : Nat) (x : Link) : (s.setLink l x).barrierTimer = s.barrierTimer := rfl
@[simp] theorem State.setLink_lateSent (s : State) (l : Nat) (x : Link) : (s.setLink l x).lateSent = s.lateSent := rfl
@[simp] theorem State.setLink_timeMsg (s : State) (l : Nat) (x : Link) : (s.setLink l x).timeMsg = s.timeMsg := rfl
@[simp] theorem State.setLink_nodeClocks (s : State) (l : Nat) (x : Link) : (s.setLink l x).nodeClocks = s.nodeClocks := rfl
@[simp] theorem State.setLink_sliceIn (s : State) (l : Nat) (x : Link) : (s.setLink l x).sliceIn = s.sliceIn := rfl
@[simp] theorem State.setLink_tier (s : State) (l : Nat) (x : Link) : (s.setLink l x).tier = s.tier := rfl
@[simp] theorem State.setLink_hbm (s : State) (l : Nat) (x : Link) : (s.setLink l x).hbm = s.hbm := rfl
@[simp] theorem State.setLink_streams (s : State) (l : Nat) (x : Link) : (s.setLink l x).streams = s.streams := rfl
@[simp] theorem State.setLink_seq (s : State) (l : Nat) (x : Link) : (s.setLink l x).seq = s.seq := rfl
@[simp] theorem State.setLink_images (s : State) (l : Nat) (x : Link) : (s.setLink l x).images = s.images := rfl
@[simp] theorem State.setLink_chans (s : State) (l : Nat) (x : Link) : (s.setLink l x).chans = s.chans := rfl
@[simp] theorem State.setLink_frames (s : State) (l : Nat) (x : Link) : (s.setLink l x).frames = s.frames := rfl
@[simp] theorem State.setLink_columns (s : State) (l : Nat) (x : Link) : (s.setLink l x).columns = s.columns := rfl
@[simp] theorem State.setLink_nodes (s : State) (l : Nat) (x : Link) : (s.setLink l x).nodes = s.nodes := rfl
@[simp] theorem State.setLink_copies (s : State) (l : Nat) (x : Link) : (s.setLink l x).copies = s.copies := rfl
@[simp] theorem State.setLink_backups (s : State) (l : Nat) (x : Link) : (s.setLink l x).backups = s.backups := rfl
@[simp] theorem State.setLink_ringCopies (s : State) (l : Nat) (x : Link) : (s.setLink l x).ringCopies = s.ringCopies := rfl
@[simp] theorem State.setLink_grammarChecks (s : State) (l : Nat) (x : Link) : (s.setLink l x).grammarChecks = s.grammarChecks := rfl
@[simp] theorem State.setLink_zports (s : State) (l : Nat) (x : Link) : (s.setLink l x).zports = s.zports := rfl
@[simp] theorem State.setLink_uncabled (s : State) (l : Nat) (x : Link) : (s.setLink l x).uncabled = s.uncabled := rfl
@[simp] theorem State.setLink_sliceFailed (s : State) (l : Nat) (x : Link) : (s.setLink l x).sliceFailed = s.sliceFailed := rfl
@[simp] theorem State.setLink_portOut (s : State) (l : Nat) (x : Link) : (s.setLink l x).portOut = s.portOut := rfl
@[simp] theorem State.setLink_gen (s : State) (l : Nat) (x : Link) : (s.setLink l x).gen = s.gen := rfl
@[simp] theorem State.setLink_forwarding (s : State) (l : Nat) (x : Link) : (s.setLink l x).forwarding = s.forwarding := rfl
@[simp] theorem State.setLink_portA (s : State) (l : Nat) (x : Link) : (s.setLink l x).portA = s.portA := rfl
@[simp] theorem State.setLink_portB (s : State) (l : Nat) (x : Link) : (s.setLink l x).portB = s.portB := rfl
@[simp] theorem State.setLink_msix (s : State) (l : Nat) (x : Link) : (s.setLink l x).msix = s.msix := rfl
@[simp] theorem State.setLink_hostMem (s : State) (l : Nat) (x : Link) : (s.setLink l x).hostMem = s.hostMem := rfl
@[simp] theorem State.setLink_basins (s : State) (l : Nat) (x : Link) : (s.setLink l x).basins = s.basins := rfl
@[simp] theorem State.setLink_west (s : State) (l : Nat) (x : Link) : (s.setLink l x).west = s.west := rfl
@[simp] theorem State.setLink_east (s : State) (l : Nat) (x : Link) : (s.setLink l x).east = s.east := rfl
@[simp] theorem State.setLink_powerSteps (s : State) (l : Nat) (x : Link) : (s.setLink l x).powerSteps = s.powerSteps := rfl
@[simp] theorem State.setLink_cool (s : State) (l : Nat) (x : Link) : (s.setLink l x).cool = s.cool := rfl
@[simp] theorem State.setLink_sites (s : State) (l : Nat) (x : Link) : (s.setLink l x).sites = s.sites := rfl
@[simp] theorem State.setLink_heartbeats (s : State) (l : Nat) (x : Link) : (s.setLink l x).heartbeats = s.heartbeats := rfl
@[simp] theorem State.setLink_unav (s : State) (l : Nat) (x : Link) : (s.setLink l x).unav = s.unav := rfl
@[simp] theorem State.setLink_flt (s : State) (l : Nat) (x : Link) : (s.setLink l x).flt = s.flt := rfl
@[simp] theorem State.setLink_secu (s : State) (l : Nat) (x : Link) : (s.setLink l x).secu = s.secu := rfl
@[simp] theorem State.setLink_berth_at (s : State) (l : Nat) (x : Link) (j : Nat) : (s.setLink l x).berth j = s.berth j := rfl
@[simp] theorem State.setLink_core_at (s : State) (l : Nat) (x : Link) (j : Nat) : (s.setLink l x).core j = s.core j := rfl
@[simp] theorem State.setLink_way_at (s : State) (l : Nat) (x : Link) (j : Nat) : (s.setLink l x).way j = s.way j := rfl
@[simp] theorem State.setLink_stack_at (s : State) (l : Nat) (x : Link) (j : Nat) : (s.setLink l x).stack j = s.stack j := rfl
@[simp] theorem State.setLink_stream_at (s : State) (l : Nat) (x : Link) (j : Nat) : (s.setLink l x).stream j = s.stream j := rfl
@[simp] theorem State.setLink_image_at (s : State) (l : Nat) (x : Link) (j : Nat) : (s.setLink l x).image j = s.image j := rfl
@[simp] theorem State.setLink_chan_at (s : State) (l : Nat) (x : Link) (j : Nat) : (s.setLink l x).chan j = s.chan j := rfl
@[simp] theorem State.setLink_zport_at (s : State) (l : Nat) (x : Link) (j : Nat) : (s.setLink l x).zport j = s.zport j := rfl
@[simp] theorem State.setLink_basin_at (s : State) (l : Nat) (x : Link) (j : Nat) : (s.setLink l x).basin j = s.basin j := rfl
@[simp] theorem State.setLink_site_at (s : State) (l : Nat) (x : Link) (j : Nat) : (s.setLink l x).site j = s.site j := rfl
@[simp] theorem State.setLink_port_at (s : State) (l : Nat) (x : Link) (q : HostPort) : (s.setLink l x).port q = s.port q := rfl
@[simp] theorem State.setLink_half_at (s : State) (l : Nat) (x : Link) (w : Half) : (s.setLink l x).half w = s.half w := rfl
@[simp] theorem State.setLink_reg_at (s : State) (l : Nat) (x : Link) (b' : Blk) (inst' off' : Nat) : (s.setLink l x).reg b' inst' off' = s.reg b' inst' off' :=
    rfl
@[simp] theorem State.setLink_regI_at (s : State) (l : Nat) (x : Link) (b' : Blk) (inst' off' i' : Nat) : (s.setLink l x).regI b' inst' off' i' = s.regI b' inst' off' i' :=
    rfl

@[simp] theorem State.setWay_pending (s : State) (y : Nat) (x : Way) : (s.setWay y x).pending = s.pending := rfl
@[simp] theorem State.setWay_stamp (s : State) (y : Nat) (x : Way) : (s.setWay y x).stamp = s.stamp := rfl
@[simp] theorem State.setWay_draws (s : State) (y : Nat) (x : Way) : (s.setWay y x).draws = s.draws := rfl
@[simp] theorem State.setWay_countFrom (s : State) (y : Nat) (x : Way) : (s.setWay y x).countFrom = s.countFrom := rfl
@[simp] theorem State.setWay_fuses (s : State) (y : Nat) (x : Way) : (s.setWay y x).fuses = s.fuses := rfl
@[simp] theorem State.setWay_flash (s : State) (y : Nat) (x : Way) : (s.setWay y x).flash = s.flash := rfl
@[simp] theorem State.setWay_straps (s : State) (y : Nat) (x : Way) : (s.setWay y x).straps = s.straps := rfl
@[simp] theorem State.setWay_mctpBusy (s : State) (y : Nat) (x : Way) : (s.setWay y x).mctpBusy = s.mctpBusy := rfl
@[simp] theorem State.setWay_powered (s : State) (y : Nat) (x : Way) : (s.setWay y x).powered = s.powered := rfl
@[simp] theorem State.setWay_stage (s : State) (y : Nat) (x : Way) : (s.setWay y x).stage = s.stage := rfl
@[simp] theorem State.setWay_tms (s : State) (y : Nat) (x : Way) : (s.setWay y x).tms = s.tms := rfl
@[simp] theorem State.setWay_fwStarted (s : State) (y : Nat) (x : Way) : (s.setWay y x).fwStarted = s.fwStarted := rfl
@[simp] theorem State.setWay_refLost (s : State) (y : Nat) (x : Way) : (s.setWay y x).refLost = s.refLost := rfl
@[simp] theorem State.setWay_plateLost (s : State) (y : Nat) (x : Way) : (s.setWay y x).plateLost = s.plateLost := rfl
@[simp] theorem State.setWay_resetPending (s : State) (y : Nat) (x : Way) : (s.setWay y x).resetPending = s.resetPending := rfl
@[simp] theorem State.setWay_alert (s : State) (y : Nat) (x : Way) : (s.setWay y x).alert = s.alert := rfl
@[simp] theorem State.setWay_dgen (s : State) (y : Nat) (x : Way) : (s.setWay y x).dgen = s.dgen := rfl
@[simp] theorem State.setWay_dgenBusy (s : State) (y : Nat) (x : Way) : (s.setWay y x).dgenBusy = s.dgenBusy := rfl
@[simp] theorem State.setWay_tableArea (s : State) (y : Nat) (x : Way) : (s.setWay y x).tableArea = s.tableArea := rfl
@[simp] theorem State.setWay_regs (s : State) (y : Nat) (x : Way) : (s.setWay y x).regs = s.regs := rfl
@[simp] theorem State.setWay_berths (s : State) (y : Nat) (x : Way) : (s.setWay y x).berths = s.berths := rfl
@[simp] theorem State.setWay_cores (s : State) (y : Nat) (x : Way) : (s.setWay y x).cores = s.cores := rfl
@[simp] theorem State.setWay_coresMode (s : State) (y : Nat) (x : Way) : (s.setWay y x).coresMode = s.coresMode := rfl
@[simp] theorem State.setWay_boundsHeld (s : State) (y : Nat) (x : Way) : (s.setWay y x).boundsHeld = s.boundsHeld := rfl
@[simp] theorem State.setWay_links (s : State) (y : Nat) (x : Way) : (s.setWay y x).links = s.links := rfl
@[simp] theorem State.setWay_packets (s : State) (y : Nat) (x : Way) : (s.setWay y x).packets = s.packets := rfl
@[simp] theorem State.setWay_packetNext (s : State) (y : Nat) (x : Way) : (s.setWay y x).packetNext = s.packetNext := rfl
@[simp] theorem State.setWay_delivered (s : State) (y : Nat) (x : Way) : (s.setWay y x).delivered = s.delivered := rfl
@[simp] theorem State.setWay_passed (s : State) (y : Nat) (x : Way) : (s.setWay y x).passed = s.passed := rfl
@[simp] theorem State.setWay_oneLeft (s : State) (y : Nat) (x : Way) : (s.setWay y x).oneLeft = s.oneLeft := rfl
@[simp] theorem State.setWay_treeMoved (s : State) (y : Nat) (x : Way) : (s.setWay y x).treeMoved = s.treeMoved := rfl
@[simp] theorem State.setWay_barrierTimer (s : State) (y : Nat) (x : Way) : (s.setWay y x).barrierTimer = s.barrierTimer := rfl
@[simp] theorem State.setWay_lateSent (s : State) (y : Nat) (x : Way) : (s.setWay y x).lateSent = s.lateSent := rfl
@[simp] theorem State.setWay_timeMsg (s : State) (y : Nat) (x : Way) : (s.setWay y x).timeMsg = s.timeMsg := rfl
@[simp] theorem State.setWay_nodeClocks (s : State) (y : Nat) (x : Way) : (s.setWay y x).nodeClocks = s.nodeClocks := rfl
@[simp] theorem State.setWay_sliceIn (s : State) (y : Nat) (x : Way) : (s.setWay y x).sliceIn = s.sliceIn := rfl
@[simp] theorem State.setWay_tier (s : State) (y : Nat) (x : Way) : (s.setWay y x).tier = s.tier := rfl
@[simp] theorem State.setWay_hbm (s : State) (y : Nat) (x : Way) : (s.setWay y x).hbm = s.hbm := rfl
@[simp] theorem State.setWay_streams (s : State) (y : Nat) (x : Way) : (s.setWay y x).streams = s.streams := rfl
@[simp] theorem State.setWay_seq (s : State) (y : Nat) (x : Way) : (s.setWay y x).seq = s.seq := rfl
@[simp] theorem State.setWay_images (s : State) (y : Nat) (x : Way) : (s.setWay y x).images = s.images := rfl
@[simp] theorem State.setWay_chans (s : State) (y : Nat) (x : Way) : (s.setWay y x).chans = s.chans := rfl
@[simp] theorem State.setWay_frames (s : State) (y : Nat) (x : Way) : (s.setWay y x).frames = s.frames := rfl
@[simp] theorem State.setWay_columns (s : State) (y : Nat) (x : Way) : (s.setWay y x).columns = s.columns := rfl
@[simp] theorem State.setWay_nodes (s : State) (y : Nat) (x : Way) : (s.setWay y x).nodes = s.nodes := rfl
@[simp] theorem State.setWay_copies (s : State) (y : Nat) (x : Way) : (s.setWay y x).copies = s.copies := rfl
@[simp] theorem State.setWay_backups (s : State) (y : Nat) (x : Way) : (s.setWay y x).backups = s.backups := rfl
@[simp] theorem State.setWay_ringCopies (s : State) (y : Nat) (x : Way) : (s.setWay y x).ringCopies = s.ringCopies := rfl
@[simp] theorem State.setWay_grammarChecks (s : State) (y : Nat) (x : Way) : (s.setWay y x).grammarChecks = s.grammarChecks := rfl
@[simp] theorem State.setWay_zports (s : State) (y : Nat) (x : Way) : (s.setWay y x).zports = s.zports := rfl
@[simp] theorem State.setWay_uncabled (s : State) (y : Nat) (x : Way) : (s.setWay y x).uncabled = s.uncabled := rfl
@[simp] theorem State.setWay_sliceFailed (s : State) (y : Nat) (x : Way) : (s.setWay y x).sliceFailed = s.sliceFailed := rfl
@[simp] theorem State.setWay_portOut (s : State) (y : Nat) (x : Way) : (s.setWay y x).portOut = s.portOut := rfl
@[simp] theorem State.setWay_gen (s : State) (y : Nat) (x : Way) : (s.setWay y x).gen = s.gen := rfl
@[simp] theorem State.setWay_forwarding (s : State) (y : Nat) (x : Way) : (s.setWay y x).forwarding = s.forwarding := rfl
@[simp] theorem State.setWay_portA (s : State) (y : Nat) (x : Way) : (s.setWay y x).portA = s.portA := rfl
@[simp] theorem State.setWay_portB (s : State) (y : Nat) (x : Way) : (s.setWay y x).portB = s.portB := rfl
@[simp] theorem State.setWay_msix (s : State) (y : Nat) (x : Way) : (s.setWay y x).msix = s.msix := rfl
@[simp] theorem State.setWay_hostMem (s : State) (y : Nat) (x : Way) : (s.setWay y x).hostMem = s.hostMem := rfl
@[simp] theorem State.setWay_basins (s : State) (y : Nat) (x : Way) : (s.setWay y x).basins = s.basins := rfl
@[simp] theorem State.setWay_west (s : State) (y : Nat) (x : Way) : (s.setWay y x).west = s.west := rfl
@[simp] theorem State.setWay_east (s : State) (y : Nat) (x : Way) : (s.setWay y x).east = s.east := rfl
@[simp] theorem State.setWay_powerSteps (s : State) (y : Nat) (x : Way) : (s.setWay y x).powerSteps = s.powerSteps := rfl
@[simp] theorem State.setWay_cool (s : State) (y : Nat) (x : Way) : (s.setWay y x).cool = s.cool := rfl
@[simp] theorem State.setWay_sites (s : State) (y : Nat) (x : Way) : (s.setWay y x).sites = s.sites := rfl
@[simp] theorem State.setWay_heartbeats (s : State) (y : Nat) (x : Way) : (s.setWay y x).heartbeats = s.heartbeats := rfl
@[simp] theorem State.setWay_unav (s : State) (y : Nat) (x : Way) : (s.setWay y x).unav = s.unav := rfl
@[simp] theorem State.setWay_flt (s : State) (y : Nat) (x : Way) : (s.setWay y x).flt = s.flt := rfl
@[simp] theorem State.setWay_secu (s : State) (y : Nat) (x : Way) : (s.setWay y x).secu = s.secu := rfl
@[simp] theorem State.setWay_berth_at (s : State) (y : Nat) (x : Way) (j : Nat) : (s.setWay y x).berth j = s.berth j := rfl
@[simp] theorem State.setWay_core_at (s : State) (y : Nat) (x : Way) (j : Nat) : (s.setWay y x).core j = s.core j := rfl
@[simp] theorem State.setWay_link_at (s : State) (y : Nat) (x : Way) (j : Nat) : (s.setWay y x).link j = s.link j := rfl
@[simp] theorem State.setWay_stack_at (s : State) (y : Nat) (x : Way) (j : Nat) : (s.setWay y x).stack j = s.stack j := rfl
@[simp] theorem State.setWay_stream_at (s : State) (y : Nat) (x : Way) (j : Nat) : (s.setWay y x).stream j = s.stream j := rfl
@[simp] theorem State.setWay_image_at (s : State) (y : Nat) (x : Way) (j : Nat) : (s.setWay y x).image j = s.image j := rfl
@[simp] theorem State.setWay_chan_at (s : State) (y : Nat) (x : Way) (j : Nat) : (s.setWay y x).chan j = s.chan j := rfl
@[simp] theorem State.setWay_zport_at (s : State) (y : Nat) (x : Way) (j : Nat) : (s.setWay y x).zport j = s.zport j := rfl
@[simp] theorem State.setWay_basin_at (s : State) (y : Nat) (x : Way) (j : Nat) : (s.setWay y x).basin j = s.basin j := rfl
@[simp] theorem State.setWay_site_at (s : State) (y : Nat) (x : Way) (j : Nat) : (s.setWay y x).site j = s.site j := rfl
@[simp] theorem State.setWay_port_at (s : State) (y : Nat) (x : Way) (q : HostPort) : (s.setWay y x).port q = s.port q := rfl
@[simp] theorem State.setWay_half_at (s : State) (y : Nat) (x : Way) (w : Half) : (s.setWay y x).half w = s.half w := rfl
@[simp] theorem State.setWay_reg_at (s : State) (y : Nat) (x : Way) (b' : Blk) (inst' off' : Nat) : (s.setWay y x).reg b' inst' off' = s.reg b' inst' off' :=
    rfl
@[simp] theorem State.setWay_regI_at (s : State) (y : Nat) (x : Way) (b' : Blk) (inst' off' i' : Nat) : (s.setWay y x).regI b' inst' off' i' = s.regI b' inst' off' i' :=
    rfl

@[simp] theorem State.setStack_pending (s : State) (k : Nat) (x : StackSt) : (s.setStack k x).pending = s.pending := rfl
@[simp] theorem State.setStack_stamp (s : State) (k : Nat) (x : StackSt) : (s.setStack k x).stamp = s.stamp := rfl
@[simp] theorem State.setStack_draws (s : State) (k : Nat) (x : StackSt) : (s.setStack k x).draws = s.draws := rfl
@[simp] theorem State.setStack_countFrom (s : State) (k : Nat) (x : StackSt) : (s.setStack k x).countFrom = s.countFrom := rfl
@[simp] theorem State.setStack_fuses (s : State) (k : Nat) (x : StackSt) : (s.setStack k x).fuses = s.fuses := rfl
@[simp] theorem State.setStack_flash (s : State) (k : Nat) (x : StackSt) : (s.setStack k x).flash = s.flash := rfl
@[simp] theorem State.setStack_straps (s : State) (k : Nat) (x : StackSt) : (s.setStack k x).straps = s.straps := rfl
@[simp] theorem State.setStack_mctpBusy (s : State) (k : Nat) (x : StackSt) : (s.setStack k x).mctpBusy = s.mctpBusy := rfl
@[simp] theorem State.setStack_powered (s : State) (k : Nat) (x : StackSt) : (s.setStack k x).powered = s.powered := rfl
@[simp] theorem State.setStack_stage (s : State) (k : Nat) (x : StackSt) : (s.setStack k x).stage = s.stage := rfl
@[simp] theorem State.setStack_tms (s : State) (k : Nat) (x : StackSt) : (s.setStack k x).tms = s.tms := rfl
@[simp] theorem State.setStack_fwStarted (s : State) (k : Nat) (x : StackSt) : (s.setStack k x).fwStarted = s.fwStarted := rfl
@[simp] theorem State.setStack_refLost (s : State) (k : Nat) (x : StackSt) : (s.setStack k x).refLost = s.refLost := rfl
@[simp] theorem State.setStack_plateLost (s : State) (k : Nat) (x : StackSt) : (s.setStack k x).plateLost = s.plateLost := rfl
@[simp] theorem State.setStack_resetPending (s : State) (k : Nat) (x : StackSt) : (s.setStack k x).resetPending = s.resetPending := rfl
@[simp] theorem State.setStack_alert (s : State) (k : Nat) (x : StackSt) : (s.setStack k x).alert = s.alert := rfl
@[simp] theorem State.setStack_dgen (s : State) (k : Nat) (x : StackSt) : (s.setStack k x).dgen = s.dgen := rfl
@[simp] theorem State.setStack_dgenBusy (s : State) (k : Nat) (x : StackSt) : (s.setStack k x).dgenBusy = s.dgenBusy := rfl
@[simp] theorem State.setStack_tableArea (s : State) (k : Nat) (x : StackSt) : (s.setStack k x).tableArea = s.tableArea := rfl
@[simp] theorem State.setStack_regs (s : State) (k : Nat) (x : StackSt) : (s.setStack k x).regs = s.regs := rfl
@[simp] theorem State.setStack_berths (s : State) (k : Nat) (x : StackSt) : (s.setStack k x).berths = s.berths := rfl
@[simp] theorem State.setStack_cores (s : State) (k : Nat) (x : StackSt) : (s.setStack k x).cores = s.cores := rfl
@[simp] theorem State.setStack_coresMode (s : State) (k : Nat) (x : StackSt) : (s.setStack k x).coresMode = s.coresMode := rfl
@[simp] theorem State.setStack_boundsHeld (s : State) (k : Nat) (x : StackSt) : (s.setStack k x).boundsHeld = s.boundsHeld := rfl
@[simp] theorem State.setStack_links (s : State) (k : Nat) (x : StackSt) : (s.setStack k x).links = s.links := rfl
@[simp] theorem State.setStack_ways (s : State) (k : Nat) (x : StackSt) : (s.setStack k x).ways = s.ways := rfl
@[simp] theorem State.setStack_packets (s : State) (k : Nat) (x : StackSt) : (s.setStack k x).packets = s.packets := rfl
@[simp] theorem State.setStack_packetNext (s : State) (k : Nat) (x : StackSt) : (s.setStack k x).packetNext = s.packetNext := rfl
@[simp] theorem State.setStack_delivered (s : State) (k : Nat) (x : StackSt) : (s.setStack k x).delivered = s.delivered := rfl
@[simp] theorem State.setStack_passed (s : State) (k : Nat) (x : StackSt) : (s.setStack k x).passed = s.passed := rfl
@[simp] theorem State.setStack_oneLeft (s : State) (k : Nat) (x : StackSt) : (s.setStack k x).oneLeft = s.oneLeft := rfl
@[simp] theorem State.setStack_treeMoved (s : State) (k : Nat) (x : StackSt) : (s.setStack k x).treeMoved = s.treeMoved := rfl
@[simp] theorem State.setStack_barrierTimer (s : State) (k : Nat) (x : StackSt) : (s.setStack k x).barrierTimer = s.barrierTimer := rfl
@[simp] theorem State.setStack_lateSent (s : State) (k : Nat) (x : StackSt) : (s.setStack k x).lateSent = s.lateSent := rfl
@[simp] theorem State.setStack_timeMsg (s : State) (k : Nat) (x : StackSt) : (s.setStack k x).timeMsg = s.timeMsg := rfl
@[simp] theorem State.setStack_nodeClocks (s : State) (k : Nat) (x : StackSt) : (s.setStack k x).nodeClocks = s.nodeClocks := rfl
@[simp] theorem State.setStack_sliceIn (s : State) (k : Nat) (x : StackSt) : (s.setStack k x).sliceIn = s.sliceIn := rfl
@[simp] theorem State.setStack_hbm (s : State) (k : Nat) (x : StackSt) : (s.setStack k x).hbm = s.hbm := rfl
@[simp] theorem State.setStack_streams (s : State) (k : Nat) (x : StackSt) : (s.setStack k x).streams = s.streams := rfl
@[simp] theorem State.setStack_seq (s : State) (k : Nat) (x : StackSt) : (s.setStack k x).seq = s.seq := rfl
@[simp] theorem State.setStack_images (s : State) (k : Nat) (x : StackSt) : (s.setStack k x).images = s.images := rfl
@[simp] theorem State.setStack_chans (s : State) (k : Nat) (x : StackSt) : (s.setStack k x).chans = s.chans := rfl
@[simp] theorem State.setStack_frames (s : State) (k : Nat) (x : StackSt) : (s.setStack k x).frames = s.frames := rfl
@[simp] theorem State.setStack_columns (s : State) (k : Nat) (x : StackSt) : (s.setStack k x).columns = s.columns := rfl
@[simp] theorem State.setStack_nodes (s : State) (k : Nat) (x : StackSt) : (s.setStack k x).nodes = s.nodes := rfl
@[simp] theorem State.setStack_copies (s : State) (k : Nat) (x : StackSt) : (s.setStack k x).copies = s.copies := rfl
@[simp] theorem State.setStack_backups (s : State) (k : Nat) (x : StackSt) : (s.setStack k x).backups = s.backups := rfl
@[simp] theorem State.setStack_ringCopies (s : State) (k : Nat) (x : StackSt) : (s.setStack k x).ringCopies = s.ringCopies := rfl
@[simp] theorem State.setStack_grammarChecks (s : State) (k : Nat) (x : StackSt) : (s.setStack k x).grammarChecks = s.grammarChecks := rfl
@[simp] theorem State.setStack_zports (s : State) (k : Nat) (x : StackSt) : (s.setStack k x).zports = s.zports := rfl
@[simp] theorem State.setStack_uncabled (s : State) (k : Nat) (x : StackSt) : (s.setStack k x).uncabled = s.uncabled := rfl
@[simp] theorem State.setStack_sliceFailed (s : State) (k : Nat) (x : StackSt) : (s.setStack k x).sliceFailed = s.sliceFailed := rfl
@[simp] theorem State.setStack_portOut (s : State) (k : Nat) (x : StackSt) : (s.setStack k x).portOut = s.portOut := rfl
@[simp] theorem State.setStack_gen (s : State) (k : Nat) (x : StackSt) : (s.setStack k x).gen = s.gen := rfl
@[simp] theorem State.setStack_forwarding (s : State) (k : Nat) (x : StackSt) : (s.setStack k x).forwarding = s.forwarding := rfl
@[simp] theorem State.setStack_portA (s : State) (k : Nat) (x : StackSt) : (s.setStack k x).portA = s.portA := rfl
@[simp] theorem State.setStack_portB (s : State) (k : Nat) (x : StackSt) : (s.setStack k x).portB = s.portB := rfl
@[simp] theorem State.setStack_msix (s : State) (k : Nat) (x : StackSt) : (s.setStack k x).msix = s.msix := rfl
@[simp] theorem State.setStack_hostMem (s : State) (k : Nat) (x : StackSt) : (s.setStack k x).hostMem = s.hostMem := rfl
@[simp] theorem State.setStack_basins (s : State) (k : Nat) (x : StackSt) : (s.setStack k x).basins = s.basins := rfl
@[simp] theorem State.setStack_west (s : State) (k : Nat) (x : StackSt) : (s.setStack k x).west = s.west := rfl
@[simp] theorem State.setStack_east (s : State) (k : Nat) (x : StackSt) : (s.setStack k x).east = s.east := rfl
@[simp] theorem State.setStack_powerSteps (s : State) (k : Nat) (x : StackSt) : (s.setStack k x).powerSteps = s.powerSteps := rfl
@[simp] theorem State.setStack_cool (s : State) (k : Nat) (x : StackSt) : (s.setStack k x).cool = s.cool := rfl
@[simp] theorem State.setStack_sites (s : State) (k : Nat) (x : StackSt) : (s.setStack k x).sites = s.sites := rfl
@[simp] theorem State.setStack_heartbeats (s : State) (k : Nat) (x : StackSt) : (s.setStack k x).heartbeats = s.heartbeats := rfl
@[simp] theorem State.setStack_unav (s : State) (k : Nat) (x : StackSt) : (s.setStack k x).unav = s.unav := rfl
@[simp] theorem State.setStack_flt (s : State) (k : Nat) (x : StackSt) : (s.setStack k x).flt = s.flt := rfl
@[simp] theorem State.setStack_secu (s : State) (k : Nat) (x : StackSt) : (s.setStack k x).secu = s.secu := rfl
@[simp] theorem State.setStack_berth_at (s : State) (k : Nat) (x : StackSt) (j : Nat) : (s.setStack k x).berth j = s.berth j := rfl
@[simp] theorem State.setStack_core_at (s : State) (k : Nat) (x : StackSt) (j : Nat) : (s.setStack k x).core j = s.core j := rfl
@[simp] theorem State.setStack_link_at (s : State) (k : Nat) (x : StackSt) (j : Nat) : (s.setStack k x).link j = s.link j := rfl
@[simp] theorem State.setStack_way_at (s : State) (k : Nat) (x : StackSt) (j : Nat) : (s.setStack k x).way j = s.way j := rfl
@[simp] theorem State.setStack_stream_at (s : State) (k : Nat) (x : StackSt) (j : Nat) : (s.setStack k x).stream j = s.stream j := rfl
@[simp] theorem State.setStack_image_at (s : State) (k : Nat) (x : StackSt) (j : Nat) : (s.setStack k x).image j = s.image j := rfl
@[simp] theorem State.setStack_chan_at (s : State) (k : Nat) (x : StackSt) (j : Nat) : (s.setStack k x).chan j = s.chan j := rfl
@[simp] theorem State.setStack_zport_at (s : State) (k : Nat) (x : StackSt) (j : Nat) : (s.setStack k x).zport j = s.zport j := rfl
@[simp] theorem State.setStack_basin_at (s : State) (k : Nat) (x : StackSt) (j : Nat) : (s.setStack k x).basin j = s.basin j := rfl
@[simp] theorem State.setStack_site_at (s : State) (k : Nat) (x : StackSt) (j : Nat) : (s.setStack k x).site j = s.site j := rfl
@[simp] theorem State.setStack_port_at (s : State) (k : Nat) (x : StackSt) (q : HostPort) : (s.setStack k x).port q = s.port q := rfl
@[simp] theorem State.setStack_half_at (s : State) (k : Nat) (x : StackSt) (w : Half) : (s.setStack k x).half w = s.half w := rfl
@[simp] theorem State.setStack_reg_at (s : State) (k : Nat) (x : StackSt) (b' : Blk) (inst' off' : Nat) : (s.setStack k x).reg b' inst' off' = s.reg b' inst' off' :=
    rfl
@[simp] theorem State.setStack_regI_at (s : State) (k : Nat) (x : StackSt) (b' : Blk) (inst' off' i' : Nat) : (s.setStack k x).regI b' inst' off' i' = s.regI b' inst' off' i' :=
    rfl

@[simp] theorem State.setStream_pending (s : State) (i : Nat) (x : Stream) : (s.setStream i x).pending = s.pending := rfl
@[simp] theorem State.setStream_stamp (s : State) (i : Nat) (x : Stream) : (s.setStream i x).stamp = s.stamp := rfl
@[simp] theorem State.setStream_draws (s : State) (i : Nat) (x : Stream) : (s.setStream i x).draws = s.draws := rfl
@[simp] theorem State.setStream_countFrom (s : State) (i : Nat) (x : Stream) : (s.setStream i x).countFrom = s.countFrom := rfl
@[simp] theorem State.setStream_fuses (s : State) (i : Nat) (x : Stream) : (s.setStream i x).fuses = s.fuses := rfl
@[simp] theorem State.setStream_flash (s : State) (i : Nat) (x : Stream) : (s.setStream i x).flash = s.flash := rfl
@[simp] theorem State.setStream_straps (s : State) (i : Nat) (x : Stream) : (s.setStream i x).straps = s.straps := rfl
@[simp] theorem State.setStream_mctpBusy (s : State) (i : Nat) (x : Stream) : (s.setStream i x).mctpBusy = s.mctpBusy := rfl
@[simp] theorem State.setStream_powered (s : State) (i : Nat) (x : Stream) : (s.setStream i x).powered = s.powered := rfl
@[simp] theorem State.setStream_stage (s : State) (i : Nat) (x : Stream) : (s.setStream i x).stage = s.stage := rfl
@[simp] theorem State.setStream_tms (s : State) (i : Nat) (x : Stream) : (s.setStream i x).tms = s.tms := rfl
@[simp] theorem State.setStream_fwStarted (s : State) (i : Nat) (x : Stream) : (s.setStream i x).fwStarted = s.fwStarted := rfl
@[simp] theorem State.setStream_refLost (s : State) (i : Nat) (x : Stream) : (s.setStream i x).refLost = s.refLost := rfl
@[simp] theorem State.setStream_plateLost (s : State) (i : Nat) (x : Stream) : (s.setStream i x).plateLost = s.plateLost := rfl
@[simp] theorem State.setStream_resetPending (s : State) (i : Nat) (x : Stream) : (s.setStream i x).resetPending = s.resetPending := rfl
@[simp] theorem State.setStream_alert (s : State) (i : Nat) (x : Stream) : (s.setStream i x).alert = s.alert := rfl
@[simp] theorem State.setStream_dgen (s : State) (i : Nat) (x : Stream) : (s.setStream i x).dgen = s.dgen := rfl
@[simp] theorem State.setStream_dgenBusy (s : State) (i : Nat) (x : Stream) : (s.setStream i x).dgenBusy = s.dgenBusy := rfl
@[simp] theorem State.setStream_tableArea (s : State) (i : Nat) (x : Stream) : (s.setStream i x).tableArea = s.tableArea := rfl
@[simp] theorem State.setStream_regs (s : State) (i : Nat) (x : Stream) : (s.setStream i x).regs = s.regs := rfl
@[simp] theorem State.setStream_berths (s : State) (i : Nat) (x : Stream) : (s.setStream i x).berths = s.berths := rfl
@[simp] theorem State.setStream_cores (s : State) (i : Nat) (x : Stream) : (s.setStream i x).cores = s.cores := rfl
@[simp] theorem State.setStream_coresMode (s : State) (i : Nat) (x : Stream) : (s.setStream i x).coresMode = s.coresMode := rfl
@[simp] theorem State.setStream_boundsHeld (s : State) (i : Nat) (x : Stream) : (s.setStream i x).boundsHeld = s.boundsHeld := rfl
@[simp] theorem State.setStream_links (s : State) (i : Nat) (x : Stream) : (s.setStream i x).links = s.links := rfl
@[simp] theorem State.setStream_ways (s : State) (i : Nat) (x : Stream) : (s.setStream i x).ways = s.ways := rfl
@[simp] theorem State.setStream_packets (s : State) (i : Nat) (x : Stream) : (s.setStream i x).packets = s.packets := rfl
@[simp] theorem State.setStream_packetNext (s : State) (i : Nat) (x : Stream) : (s.setStream i x).packetNext = s.packetNext := rfl
@[simp] theorem State.setStream_delivered (s : State) (i : Nat) (x : Stream) : (s.setStream i x).delivered = s.delivered := rfl
@[simp] theorem State.setStream_passed (s : State) (i : Nat) (x : Stream) : (s.setStream i x).passed = s.passed := rfl
@[simp] theorem State.setStream_oneLeft (s : State) (i : Nat) (x : Stream) : (s.setStream i x).oneLeft = s.oneLeft := rfl
@[simp] theorem State.setStream_treeMoved (s : State) (i : Nat) (x : Stream) : (s.setStream i x).treeMoved = s.treeMoved := rfl
@[simp] theorem State.setStream_barrierTimer (s : State) (i : Nat) (x : Stream) : (s.setStream i x).barrierTimer = s.barrierTimer := rfl
@[simp] theorem State.setStream_lateSent (s : State) (i : Nat) (x : Stream) : (s.setStream i x).lateSent = s.lateSent := rfl
@[simp] theorem State.setStream_timeMsg (s : State) (i : Nat) (x : Stream) : (s.setStream i x).timeMsg = s.timeMsg := rfl
@[simp] theorem State.setStream_nodeClocks (s : State) (i : Nat) (x : Stream) : (s.setStream i x).nodeClocks = s.nodeClocks := rfl
@[simp] theorem State.setStream_sliceIn (s : State) (i : Nat) (x : Stream) : (s.setStream i x).sliceIn = s.sliceIn := rfl
@[simp] theorem State.setStream_tier (s : State) (i : Nat) (x : Stream) : (s.setStream i x).tier = s.tier := rfl
@[simp] theorem State.setStream_hbm (s : State) (i : Nat) (x : Stream) : (s.setStream i x).hbm = s.hbm := rfl
@[simp] theorem State.setStream_seq (s : State) (i : Nat) (x : Stream) : (s.setStream i x).seq = s.seq := rfl
@[simp] theorem State.setStream_images (s : State) (i : Nat) (x : Stream) : (s.setStream i x).images = s.images := rfl
@[simp] theorem State.setStream_chans (s : State) (i : Nat) (x : Stream) : (s.setStream i x).chans = s.chans := rfl
@[simp] theorem State.setStream_frames (s : State) (i : Nat) (x : Stream) : (s.setStream i x).frames = s.frames := rfl
@[simp] theorem State.setStream_columns (s : State) (i : Nat) (x : Stream) : (s.setStream i x).columns = s.columns := rfl
@[simp] theorem State.setStream_nodes (s : State) (i : Nat) (x : Stream) : (s.setStream i x).nodes = s.nodes := rfl
@[simp] theorem State.setStream_copies (s : State) (i : Nat) (x : Stream) : (s.setStream i x).copies = s.copies := rfl
@[simp] theorem State.setStream_backups (s : State) (i : Nat) (x : Stream) : (s.setStream i x).backups = s.backups := rfl
@[simp] theorem State.setStream_ringCopies (s : State) (i : Nat) (x : Stream) : (s.setStream i x).ringCopies = s.ringCopies := rfl
@[simp] theorem State.setStream_grammarChecks (s : State) (i : Nat) (x : Stream) : (s.setStream i x).grammarChecks = s.grammarChecks := rfl
@[simp] theorem State.setStream_zports (s : State) (i : Nat) (x : Stream) : (s.setStream i x).zports = s.zports := rfl
@[simp] theorem State.setStream_uncabled (s : State) (i : Nat) (x : Stream) : (s.setStream i x).uncabled = s.uncabled := rfl
@[simp] theorem State.setStream_sliceFailed (s : State) (i : Nat) (x : Stream) : (s.setStream i x).sliceFailed = s.sliceFailed := rfl
@[simp] theorem State.setStream_portOut (s : State) (i : Nat) (x : Stream) : (s.setStream i x).portOut = s.portOut := rfl
@[simp] theorem State.setStream_gen (s : State) (i : Nat) (x : Stream) : (s.setStream i x).gen = s.gen := rfl
@[simp] theorem State.setStream_forwarding (s : State) (i : Nat) (x : Stream) : (s.setStream i x).forwarding = s.forwarding := rfl
@[simp] theorem State.setStream_portA (s : State) (i : Nat) (x : Stream) : (s.setStream i x).portA = s.portA := rfl
@[simp] theorem State.setStream_portB (s : State) (i : Nat) (x : Stream) : (s.setStream i x).portB = s.portB := rfl
@[simp] theorem State.setStream_msix (s : State) (i : Nat) (x : Stream) : (s.setStream i x).msix = s.msix := rfl
@[simp] theorem State.setStream_hostMem (s : State) (i : Nat) (x : Stream) : (s.setStream i x).hostMem = s.hostMem := rfl
@[simp] theorem State.setStream_basins (s : State) (i : Nat) (x : Stream) : (s.setStream i x).basins = s.basins := rfl
@[simp] theorem State.setStream_west (s : State) (i : Nat) (x : Stream) : (s.setStream i x).west = s.west := rfl
@[simp] theorem State.setStream_east (s : State) (i : Nat) (x : Stream) : (s.setStream i x).east = s.east := rfl
@[simp] theorem State.setStream_powerSteps (s : State) (i : Nat) (x : Stream) : (s.setStream i x).powerSteps = s.powerSteps := rfl
@[simp] theorem State.setStream_cool (s : State) (i : Nat) (x : Stream) : (s.setStream i x).cool = s.cool := rfl
@[simp] theorem State.setStream_sites (s : State) (i : Nat) (x : Stream) : (s.setStream i x).sites = s.sites := rfl
@[simp] theorem State.setStream_heartbeats (s : State) (i : Nat) (x : Stream) : (s.setStream i x).heartbeats = s.heartbeats := rfl
@[simp] theorem State.setStream_unav (s : State) (i : Nat) (x : Stream) : (s.setStream i x).unav = s.unav := rfl
@[simp] theorem State.setStream_flt (s : State) (i : Nat) (x : Stream) : (s.setStream i x).flt = s.flt := rfl
@[simp] theorem State.setStream_secu (s : State) (i : Nat) (x : Stream) : (s.setStream i x).secu = s.secu := rfl
@[simp] theorem State.setStream_berth_at (s : State) (i : Nat) (x : Stream) (j : Nat) : (s.setStream i x).berth j = s.berth j := rfl
@[simp] theorem State.setStream_core_at (s : State) (i : Nat) (x : Stream) (j : Nat) : (s.setStream i x).core j = s.core j := rfl
@[simp] theorem State.setStream_link_at (s : State) (i : Nat) (x : Stream) (j : Nat) : (s.setStream i x).link j = s.link j := rfl
@[simp] theorem State.setStream_way_at (s : State) (i : Nat) (x : Stream) (j : Nat) : (s.setStream i x).way j = s.way j := rfl
@[simp] theorem State.setStream_stack_at (s : State) (i : Nat) (x : Stream) (j : Nat) : (s.setStream i x).stack j = s.stack j := rfl
@[simp] theorem State.setStream_image_at (s : State) (i : Nat) (x : Stream) (j : Nat) : (s.setStream i x).image j = s.image j := rfl
@[simp] theorem State.setStream_chan_at (s : State) (i : Nat) (x : Stream) (j : Nat) : (s.setStream i x).chan j = s.chan j := rfl
@[simp] theorem State.setStream_zport_at (s : State) (i : Nat) (x : Stream) (j : Nat) : (s.setStream i x).zport j = s.zport j := rfl
@[simp] theorem State.setStream_basin_at (s : State) (i : Nat) (x : Stream) (j : Nat) : (s.setStream i x).basin j = s.basin j := rfl
@[simp] theorem State.setStream_site_at (s : State) (i : Nat) (x : Stream) (j : Nat) : (s.setStream i x).site j = s.site j := rfl
@[simp] theorem State.setStream_port_at (s : State) (i : Nat) (x : Stream) (q : HostPort) : (s.setStream i x).port q = s.port q := rfl
@[simp] theorem State.setStream_half_at (s : State) (i : Nat) (x : Stream) (w : Half) : (s.setStream i x).half w = s.half w := rfl
@[simp] theorem State.setStream_reg_at (s : State) (i : Nat) (x : Stream) (b' : Blk) (inst' off' : Nat) : (s.setStream i x).reg b' inst' off' = s.reg b' inst' off' :=
    rfl
@[simp] theorem State.setStream_regI_at (s : State) (i : Nat) (x : Stream) (b' : Blk) (inst' off' i' : Nat) : (s.setStream i x).regI b' inst' off' i' = s.regI b' inst' off' i' :=
    rfl

@[simp] theorem State.setImage_pending (s : State) (i : Nat) (x : ImageSt) : (s.setImage i x).pending = s.pending := rfl
@[simp] theorem State.setImage_stamp (s : State) (i : Nat) (x : ImageSt) : (s.setImage i x).stamp = s.stamp := rfl
@[simp] theorem State.setImage_draws (s : State) (i : Nat) (x : ImageSt) : (s.setImage i x).draws = s.draws := rfl
@[simp] theorem State.setImage_countFrom (s : State) (i : Nat) (x : ImageSt) : (s.setImage i x).countFrom = s.countFrom := rfl
@[simp] theorem State.setImage_fuses (s : State) (i : Nat) (x : ImageSt) : (s.setImage i x).fuses = s.fuses := rfl
@[simp] theorem State.setImage_flash (s : State) (i : Nat) (x : ImageSt) : (s.setImage i x).flash = s.flash := rfl
@[simp] theorem State.setImage_straps (s : State) (i : Nat) (x : ImageSt) : (s.setImage i x).straps = s.straps := rfl
@[simp] theorem State.setImage_mctpBusy (s : State) (i : Nat) (x : ImageSt) : (s.setImage i x).mctpBusy = s.mctpBusy := rfl
@[simp] theorem State.setImage_powered (s : State) (i : Nat) (x : ImageSt) : (s.setImage i x).powered = s.powered := rfl
@[simp] theorem State.setImage_stage (s : State) (i : Nat) (x : ImageSt) : (s.setImage i x).stage = s.stage := rfl
@[simp] theorem State.setImage_tms (s : State) (i : Nat) (x : ImageSt) : (s.setImage i x).tms = s.tms := rfl
@[simp] theorem State.setImage_fwStarted (s : State) (i : Nat) (x : ImageSt) : (s.setImage i x).fwStarted = s.fwStarted := rfl
@[simp] theorem State.setImage_refLost (s : State) (i : Nat) (x : ImageSt) : (s.setImage i x).refLost = s.refLost := rfl
@[simp] theorem State.setImage_plateLost (s : State) (i : Nat) (x : ImageSt) : (s.setImage i x).plateLost = s.plateLost := rfl
@[simp] theorem State.setImage_resetPending (s : State) (i : Nat) (x : ImageSt) : (s.setImage i x).resetPending = s.resetPending := rfl
@[simp] theorem State.setImage_alert (s : State) (i : Nat) (x : ImageSt) : (s.setImage i x).alert = s.alert := rfl
@[simp] theorem State.setImage_dgen (s : State) (i : Nat) (x : ImageSt) : (s.setImage i x).dgen = s.dgen := rfl
@[simp] theorem State.setImage_dgenBusy (s : State) (i : Nat) (x : ImageSt) : (s.setImage i x).dgenBusy = s.dgenBusy := rfl
@[simp] theorem State.setImage_tableArea (s : State) (i : Nat) (x : ImageSt) : (s.setImage i x).tableArea = s.tableArea := rfl
@[simp] theorem State.setImage_regs (s : State) (i : Nat) (x : ImageSt) : (s.setImage i x).regs = s.regs := rfl
@[simp] theorem State.setImage_berths (s : State) (i : Nat) (x : ImageSt) : (s.setImage i x).berths = s.berths := rfl
@[simp] theorem State.setImage_cores (s : State) (i : Nat) (x : ImageSt) : (s.setImage i x).cores = s.cores := rfl
@[simp] theorem State.setImage_coresMode (s : State) (i : Nat) (x : ImageSt) : (s.setImage i x).coresMode = s.coresMode := rfl
@[simp] theorem State.setImage_boundsHeld (s : State) (i : Nat) (x : ImageSt) : (s.setImage i x).boundsHeld = s.boundsHeld := rfl
@[simp] theorem State.setImage_links (s : State) (i : Nat) (x : ImageSt) : (s.setImage i x).links = s.links := rfl
@[simp] theorem State.setImage_ways (s : State) (i : Nat) (x : ImageSt) : (s.setImage i x).ways = s.ways := rfl
@[simp] theorem State.setImage_packets (s : State) (i : Nat) (x : ImageSt) : (s.setImage i x).packets = s.packets := rfl
@[simp] theorem State.setImage_packetNext (s : State) (i : Nat) (x : ImageSt) : (s.setImage i x).packetNext = s.packetNext := rfl
@[simp] theorem State.setImage_delivered (s : State) (i : Nat) (x : ImageSt) : (s.setImage i x).delivered = s.delivered := rfl
@[simp] theorem State.setImage_passed (s : State) (i : Nat) (x : ImageSt) : (s.setImage i x).passed = s.passed := rfl
@[simp] theorem State.setImage_oneLeft (s : State) (i : Nat) (x : ImageSt) : (s.setImage i x).oneLeft = s.oneLeft := rfl
@[simp] theorem State.setImage_treeMoved (s : State) (i : Nat) (x : ImageSt) : (s.setImage i x).treeMoved = s.treeMoved := rfl
@[simp] theorem State.setImage_barrierTimer (s : State) (i : Nat) (x : ImageSt) : (s.setImage i x).barrierTimer = s.barrierTimer := rfl
@[simp] theorem State.setImage_lateSent (s : State) (i : Nat) (x : ImageSt) : (s.setImage i x).lateSent = s.lateSent := rfl
@[simp] theorem State.setImage_timeMsg (s : State) (i : Nat) (x : ImageSt) : (s.setImage i x).timeMsg = s.timeMsg := rfl
@[simp] theorem State.setImage_nodeClocks (s : State) (i : Nat) (x : ImageSt) : (s.setImage i x).nodeClocks = s.nodeClocks := rfl
@[simp] theorem State.setImage_sliceIn (s : State) (i : Nat) (x : ImageSt) : (s.setImage i x).sliceIn = s.sliceIn := rfl
@[simp] theorem State.setImage_tier (s : State) (i : Nat) (x : ImageSt) : (s.setImage i x).tier = s.tier := rfl
@[simp] theorem State.setImage_hbm (s : State) (i : Nat) (x : ImageSt) : (s.setImage i x).hbm = s.hbm := rfl
@[simp] theorem State.setImage_streams (s : State) (i : Nat) (x : ImageSt) : (s.setImage i x).streams = s.streams := rfl
@[simp] theorem State.setImage_seq (s : State) (i : Nat) (x : ImageSt) : (s.setImage i x).seq = s.seq := rfl
@[simp] theorem State.setImage_chans (s : State) (i : Nat) (x : ImageSt) : (s.setImage i x).chans = s.chans := rfl
@[simp] theorem State.setImage_frames (s : State) (i : Nat) (x : ImageSt) : (s.setImage i x).frames = s.frames := rfl
@[simp] theorem State.setImage_columns (s : State) (i : Nat) (x : ImageSt) : (s.setImage i x).columns = s.columns := rfl
@[simp] theorem State.setImage_nodes (s : State) (i : Nat) (x : ImageSt) : (s.setImage i x).nodes = s.nodes := rfl
@[simp] theorem State.setImage_copies (s : State) (i : Nat) (x : ImageSt) : (s.setImage i x).copies = s.copies := rfl
@[simp] theorem State.setImage_backups (s : State) (i : Nat) (x : ImageSt) : (s.setImage i x).backups = s.backups := rfl
@[simp] theorem State.setImage_ringCopies (s : State) (i : Nat) (x : ImageSt) : (s.setImage i x).ringCopies = s.ringCopies := rfl
@[simp] theorem State.setImage_grammarChecks (s : State) (i : Nat) (x : ImageSt) : (s.setImage i x).grammarChecks = s.grammarChecks := rfl
@[simp] theorem State.setImage_zports (s : State) (i : Nat) (x : ImageSt) : (s.setImage i x).zports = s.zports := rfl
@[simp] theorem State.setImage_uncabled (s : State) (i : Nat) (x : ImageSt) : (s.setImage i x).uncabled = s.uncabled := rfl
@[simp] theorem State.setImage_sliceFailed (s : State) (i : Nat) (x : ImageSt) : (s.setImage i x).sliceFailed = s.sliceFailed := rfl
@[simp] theorem State.setImage_portOut (s : State) (i : Nat) (x : ImageSt) : (s.setImage i x).portOut = s.portOut := rfl
@[simp] theorem State.setImage_gen (s : State) (i : Nat) (x : ImageSt) : (s.setImage i x).gen = s.gen := rfl
@[simp] theorem State.setImage_forwarding (s : State) (i : Nat) (x : ImageSt) : (s.setImage i x).forwarding = s.forwarding := rfl
@[simp] theorem State.setImage_portA (s : State) (i : Nat) (x : ImageSt) : (s.setImage i x).portA = s.portA := rfl
@[simp] theorem State.setImage_portB (s : State) (i : Nat) (x : ImageSt) : (s.setImage i x).portB = s.portB := rfl
@[simp] theorem State.setImage_msix (s : State) (i : Nat) (x : ImageSt) : (s.setImage i x).msix = s.msix := rfl
@[simp] theorem State.setImage_hostMem (s : State) (i : Nat) (x : ImageSt) : (s.setImage i x).hostMem = s.hostMem := rfl
@[simp] theorem State.setImage_basins (s : State) (i : Nat) (x : ImageSt) : (s.setImage i x).basins = s.basins := rfl
@[simp] theorem State.setImage_west (s : State) (i : Nat) (x : ImageSt) : (s.setImage i x).west = s.west := rfl
@[simp] theorem State.setImage_east (s : State) (i : Nat) (x : ImageSt) : (s.setImage i x).east = s.east := rfl
@[simp] theorem State.setImage_powerSteps (s : State) (i : Nat) (x : ImageSt) : (s.setImage i x).powerSteps = s.powerSteps := rfl
@[simp] theorem State.setImage_cool (s : State) (i : Nat) (x : ImageSt) : (s.setImage i x).cool = s.cool := rfl
@[simp] theorem State.setImage_sites (s : State) (i : Nat) (x : ImageSt) : (s.setImage i x).sites = s.sites := rfl
@[simp] theorem State.setImage_heartbeats (s : State) (i : Nat) (x : ImageSt) : (s.setImage i x).heartbeats = s.heartbeats := rfl
@[simp] theorem State.setImage_unav (s : State) (i : Nat) (x : ImageSt) : (s.setImage i x).unav = s.unav := rfl
@[simp] theorem State.setImage_flt (s : State) (i : Nat) (x : ImageSt) : (s.setImage i x).flt = s.flt := rfl
@[simp] theorem State.setImage_secu (s : State) (i : Nat) (x : ImageSt) : (s.setImage i x).secu = s.secu := rfl
@[simp] theorem State.setImage_berth_at (s : State) (i : Nat) (x : ImageSt) (j : Nat) : (s.setImage i x).berth j = s.berth j := rfl
@[simp] theorem State.setImage_core_at (s : State) (i : Nat) (x : ImageSt) (j : Nat) : (s.setImage i x).core j = s.core j := rfl
@[simp] theorem State.setImage_link_at (s : State) (i : Nat) (x : ImageSt) (j : Nat) : (s.setImage i x).link j = s.link j := rfl
@[simp] theorem State.setImage_way_at (s : State) (i : Nat) (x : ImageSt) (j : Nat) : (s.setImage i x).way j = s.way j := rfl
@[simp] theorem State.setImage_stack_at (s : State) (i : Nat) (x : ImageSt) (j : Nat) : (s.setImage i x).stack j = s.stack j := rfl
@[simp] theorem State.setImage_stream_at (s : State) (i : Nat) (x : ImageSt) (j : Nat) : (s.setImage i x).stream j = s.stream j := rfl
@[simp] theorem State.setImage_chan_at (s : State) (i : Nat) (x : ImageSt) (j : Nat) : (s.setImage i x).chan j = s.chan j := rfl
@[simp] theorem State.setImage_zport_at (s : State) (i : Nat) (x : ImageSt) (j : Nat) : (s.setImage i x).zport j = s.zport j := rfl
@[simp] theorem State.setImage_basin_at (s : State) (i : Nat) (x : ImageSt) (j : Nat) : (s.setImage i x).basin j = s.basin j := rfl
@[simp] theorem State.setImage_site_at (s : State) (i : Nat) (x : ImageSt) (j : Nat) : (s.setImage i x).site j = s.site j := rfl
@[simp] theorem State.setImage_port_at (s : State) (i : Nat) (x : ImageSt) (q : HostPort) : (s.setImage i x).port q = s.port q := rfl
@[simp] theorem State.setImage_half_at (s : State) (i : Nat) (x : ImageSt) (w : Half) : (s.setImage i x).half w = s.half w := rfl
@[simp] theorem State.setImage_reg_at (s : State) (i : Nat) (x : ImageSt) (b' : Blk) (inst' off' : Nat) : (s.setImage i x).reg b' inst' off' = s.reg b' inst' off' :=
    rfl
@[simp] theorem State.setImage_regI_at (s : State) (i : Nat) (x : ImageSt) (b' : Blk) (inst' off' i' : Nat) : (s.setImage i x).regI b' inst' off' i' = s.regI b' inst' off' i' :=
    rfl

@[simp] theorem State.setChan_pending (s : State) (i : Nat) (x : ChannelSt) : (s.setChan i x).pending = s.pending := rfl
@[simp] theorem State.setChan_stamp (s : State) (i : Nat) (x : ChannelSt) : (s.setChan i x).stamp = s.stamp := rfl
@[simp] theorem State.setChan_draws (s : State) (i : Nat) (x : ChannelSt) : (s.setChan i x).draws = s.draws := rfl
@[simp] theorem State.setChan_countFrom (s : State) (i : Nat) (x : ChannelSt) : (s.setChan i x).countFrom = s.countFrom := rfl
@[simp] theorem State.setChan_fuses (s : State) (i : Nat) (x : ChannelSt) : (s.setChan i x).fuses = s.fuses := rfl
@[simp] theorem State.setChan_flash (s : State) (i : Nat) (x : ChannelSt) : (s.setChan i x).flash = s.flash := rfl
@[simp] theorem State.setChan_straps (s : State) (i : Nat) (x : ChannelSt) : (s.setChan i x).straps = s.straps := rfl
@[simp] theorem State.setChan_mctpBusy (s : State) (i : Nat) (x : ChannelSt) : (s.setChan i x).mctpBusy = s.mctpBusy := rfl
@[simp] theorem State.setChan_powered (s : State) (i : Nat) (x : ChannelSt) : (s.setChan i x).powered = s.powered := rfl
@[simp] theorem State.setChan_stage (s : State) (i : Nat) (x : ChannelSt) : (s.setChan i x).stage = s.stage := rfl
@[simp] theorem State.setChan_tms (s : State) (i : Nat) (x : ChannelSt) : (s.setChan i x).tms = s.tms := rfl
@[simp] theorem State.setChan_fwStarted (s : State) (i : Nat) (x : ChannelSt) : (s.setChan i x).fwStarted = s.fwStarted := rfl
@[simp] theorem State.setChan_refLost (s : State) (i : Nat) (x : ChannelSt) : (s.setChan i x).refLost = s.refLost := rfl
@[simp] theorem State.setChan_plateLost (s : State) (i : Nat) (x : ChannelSt) : (s.setChan i x).plateLost = s.plateLost := rfl
@[simp] theorem State.setChan_resetPending (s : State) (i : Nat) (x : ChannelSt) : (s.setChan i x).resetPending = s.resetPending := rfl
@[simp] theorem State.setChan_alert (s : State) (i : Nat) (x : ChannelSt) : (s.setChan i x).alert = s.alert := rfl
@[simp] theorem State.setChan_dgen (s : State) (i : Nat) (x : ChannelSt) : (s.setChan i x).dgen = s.dgen := rfl
@[simp] theorem State.setChan_dgenBusy (s : State) (i : Nat) (x : ChannelSt) : (s.setChan i x).dgenBusy = s.dgenBusy := rfl
@[simp] theorem State.setChan_tableArea (s : State) (i : Nat) (x : ChannelSt) : (s.setChan i x).tableArea = s.tableArea := rfl
@[simp] theorem State.setChan_regs (s : State) (i : Nat) (x : ChannelSt) : (s.setChan i x).regs = s.regs := rfl
@[simp] theorem State.setChan_berths (s : State) (i : Nat) (x : ChannelSt) : (s.setChan i x).berths = s.berths := rfl
@[simp] theorem State.setChan_cores (s : State) (i : Nat) (x : ChannelSt) : (s.setChan i x).cores = s.cores := rfl
@[simp] theorem State.setChan_coresMode (s : State) (i : Nat) (x : ChannelSt) : (s.setChan i x).coresMode = s.coresMode := rfl
@[simp] theorem State.setChan_boundsHeld (s : State) (i : Nat) (x : ChannelSt) : (s.setChan i x).boundsHeld = s.boundsHeld := rfl
@[simp] theorem State.setChan_links (s : State) (i : Nat) (x : ChannelSt) : (s.setChan i x).links = s.links := rfl
@[simp] theorem State.setChan_ways (s : State) (i : Nat) (x : ChannelSt) : (s.setChan i x).ways = s.ways := rfl
@[simp] theorem State.setChan_packets (s : State) (i : Nat) (x : ChannelSt) : (s.setChan i x).packets = s.packets := rfl
@[simp] theorem State.setChan_packetNext (s : State) (i : Nat) (x : ChannelSt) : (s.setChan i x).packetNext = s.packetNext := rfl
@[simp] theorem State.setChan_delivered (s : State) (i : Nat) (x : ChannelSt) : (s.setChan i x).delivered = s.delivered := rfl
@[simp] theorem State.setChan_passed (s : State) (i : Nat) (x : ChannelSt) : (s.setChan i x).passed = s.passed := rfl
@[simp] theorem State.setChan_oneLeft (s : State) (i : Nat) (x : ChannelSt) : (s.setChan i x).oneLeft = s.oneLeft := rfl
@[simp] theorem State.setChan_treeMoved (s : State) (i : Nat) (x : ChannelSt) : (s.setChan i x).treeMoved = s.treeMoved := rfl
@[simp] theorem State.setChan_barrierTimer (s : State) (i : Nat) (x : ChannelSt) : (s.setChan i x).barrierTimer = s.barrierTimer := rfl
@[simp] theorem State.setChan_lateSent (s : State) (i : Nat) (x : ChannelSt) : (s.setChan i x).lateSent = s.lateSent := rfl
@[simp] theorem State.setChan_timeMsg (s : State) (i : Nat) (x : ChannelSt) : (s.setChan i x).timeMsg = s.timeMsg := rfl
@[simp] theorem State.setChan_nodeClocks (s : State) (i : Nat) (x : ChannelSt) : (s.setChan i x).nodeClocks = s.nodeClocks := rfl
@[simp] theorem State.setChan_sliceIn (s : State) (i : Nat) (x : ChannelSt) : (s.setChan i x).sliceIn = s.sliceIn := rfl
@[simp] theorem State.setChan_tier (s : State) (i : Nat) (x : ChannelSt) : (s.setChan i x).tier = s.tier := rfl
@[simp] theorem State.setChan_hbm (s : State) (i : Nat) (x : ChannelSt) : (s.setChan i x).hbm = s.hbm := rfl
@[simp] theorem State.setChan_streams (s : State) (i : Nat) (x : ChannelSt) : (s.setChan i x).streams = s.streams := rfl
@[simp] theorem State.setChan_seq (s : State) (i : Nat) (x : ChannelSt) : (s.setChan i x).seq = s.seq := rfl
@[simp] theorem State.setChan_images (s : State) (i : Nat) (x : ChannelSt) : (s.setChan i x).images = s.images := rfl
@[simp] theorem State.setChan_frames (s : State) (i : Nat) (x : ChannelSt) : (s.setChan i x).frames = s.frames := rfl
@[simp] theorem State.setChan_columns (s : State) (i : Nat) (x : ChannelSt) : (s.setChan i x).columns = s.columns := rfl
@[simp] theorem State.setChan_nodes (s : State) (i : Nat) (x : ChannelSt) : (s.setChan i x).nodes = s.nodes := rfl
@[simp] theorem State.setChan_copies (s : State) (i : Nat) (x : ChannelSt) : (s.setChan i x).copies = s.copies := rfl
@[simp] theorem State.setChan_backups (s : State) (i : Nat) (x : ChannelSt) : (s.setChan i x).backups = s.backups := rfl
@[simp] theorem State.setChan_ringCopies (s : State) (i : Nat) (x : ChannelSt) : (s.setChan i x).ringCopies = s.ringCopies := rfl
@[simp] theorem State.setChan_grammarChecks (s : State) (i : Nat) (x : ChannelSt) : (s.setChan i x).grammarChecks = s.grammarChecks := rfl
@[simp] theorem State.setChan_zports (s : State) (i : Nat) (x : ChannelSt) : (s.setChan i x).zports = s.zports := rfl
@[simp] theorem State.setChan_uncabled (s : State) (i : Nat) (x : ChannelSt) : (s.setChan i x).uncabled = s.uncabled := rfl
@[simp] theorem State.setChan_sliceFailed (s : State) (i : Nat) (x : ChannelSt) : (s.setChan i x).sliceFailed = s.sliceFailed := rfl
@[simp] theorem State.setChan_portOut (s : State) (i : Nat) (x : ChannelSt) : (s.setChan i x).portOut = s.portOut := rfl
@[simp] theorem State.setChan_gen (s : State) (i : Nat) (x : ChannelSt) : (s.setChan i x).gen = s.gen := rfl
@[simp] theorem State.setChan_forwarding (s : State) (i : Nat) (x : ChannelSt) : (s.setChan i x).forwarding = s.forwarding := rfl
@[simp] theorem State.setChan_portA (s : State) (i : Nat) (x : ChannelSt) : (s.setChan i x).portA = s.portA := rfl
@[simp] theorem State.setChan_portB (s : State) (i : Nat) (x : ChannelSt) : (s.setChan i x).portB = s.portB := rfl
@[simp] theorem State.setChan_msix (s : State) (i : Nat) (x : ChannelSt) : (s.setChan i x).msix = s.msix := rfl
@[simp] theorem State.setChan_hostMem (s : State) (i : Nat) (x : ChannelSt) : (s.setChan i x).hostMem = s.hostMem := rfl
@[simp] theorem State.setChan_basins (s : State) (i : Nat) (x : ChannelSt) : (s.setChan i x).basins = s.basins := rfl
@[simp] theorem State.setChan_west (s : State) (i : Nat) (x : ChannelSt) : (s.setChan i x).west = s.west := rfl
@[simp] theorem State.setChan_east (s : State) (i : Nat) (x : ChannelSt) : (s.setChan i x).east = s.east := rfl
@[simp] theorem State.setChan_powerSteps (s : State) (i : Nat) (x : ChannelSt) : (s.setChan i x).powerSteps = s.powerSteps := rfl
@[simp] theorem State.setChan_cool (s : State) (i : Nat) (x : ChannelSt) : (s.setChan i x).cool = s.cool := rfl
@[simp] theorem State.setChan_sites (s : State) (i : Nat) (x : ChannelSt) : (s.setChan i x).sites = s.sites := rfl
@[simp] theorem State.setChan_heartbeats (s : State) (i : Nat) (x : ChannelSt) : (s.setChan i x).heartbeats = s.heartbeats := rfl
@[simp] theorem State.setChan_unav (s : State) (i : Nat) (x : ChannelSt) : (s.setChan i x).unav = s.unav := rfl
@[simp] theorem State.setChan_flt (s : State) (i : Nat) (x : ChannelSt) : (s.setChan i x).flt = s.flt := rfl
@[simp] theorem State.setChan_secu (s : State) (i : Nat) (x : ChannelSt) : (s.setChan i x).secu = s.secu := rfl
@[simp] theorem State.setChan_berth_at (s : State) (i : Nat) (x : ChannelSt) (j : Nat) : (s.setChan i x).berth j = s.berth j := rfl
@[simp] theorem State.setChan_core_at (s : State) (i : Nat) (x : ChannelSt) (j : Nat) : (s.setChan i x).core j = s.core j := rfl
@[simp] theorem State.setChan_link_at (s : State) (i : Nat) (x : ChannelSt) (j : Nat) : (s.setChan i x).link j = s.link j := rfl
@[simp] theorem State.setChan_way_at (s : State) (i : Nat) (x : ChannelSt) (j : Nat) : (s.setChan i x).way j = s.way j := rfl
@[simp] theorem State.setChan_stack_at (s : State) (i : Nat) (x : ChannelSt) (j : Nat) : (s.setChan i x).stack j = s.stack j := rfl
@[simp] theorem State.setChan_stream_at (s : State) (i : Nat) (x : ChannelSt) (j : Nat) : (s.setChan i x).stream j = s.stream j := rfl
@[simp] theorem State.setChan_image_at (s : State) (i : Nat) (x : ChannelSt) (j : Nat) : (s.setChan i x).image j = s.image j := rfl
@[simp] theorem State.setChan_zport_at (s : State) (i : Nat) (x : ChannelSt) (j : Nat) : (s.setChan i x).zport j = s.zport j := rfl
@[simp] theorem State.setChan_basin_at (s : State) (i : Nat) (x : ChannelSt) (j : Nat) : (s.setChan i x).basin j = s.basin j := rfl
@[simp] theorem State.setChan_site_at (s : State) (i : Nat) (x : ChannelSt) (j : Nat) : (s.setChan i x).site j = s.site j := rfl
@[simp] theorem State.setChan_port_at (s : State) (i : Nat) (x : ChannelSt) (q : HostPort) : (s.setChan i x).port q = s.port q := rfl
@[simp] theorem State.setChan_half_at (s : State) (i : Nat) (x : ChannelSt) (w : Half) : (s.setChan i x).half w = s.half w := rfl
@[simp] theorem State.setChan_reg_at (s : State) (i : Nat) (x : ChannelSt) (b' : Blk) (inst' off' : Nat) : (s.setChan i x).reg b' inst' off' = s.reg b' inst' off' :=
    rfl
@[simp] theorem State.setChan_regI_at (s : State) (i : Nat) (x : ChannelSt) (b' : Blk) (inst' off' i' : Nat) : (s.setChan i x).regI b' inst' off' i' = s.regI b' inst' off' i' :=
    rfl

@[simp] theorem State.setZport_pending (s : State) (z : Nat) (x : ZPort) : (s.setZport z x).pending = s.pending := rfl
@[simp] theorem State.setZport_stamp (s : State) (z : Nat) (x : ZPort) : (s.setZport z x).stamp = s.stamp := rfl
@[simp] theorem State.setZport_draws (s : State) (z : Nat) (x : ZPort) : (s.setZport z x).draws = s.draws := rfl
@[simp] theorem State.setZport_countFrom (s : State) (z : Nat) (x : ZPort) : (s.setZport z x).countFrom = s.countFrom := rfl
@[simp] theorem State.setZport_fuses (s : State) (z : Nat) (x : ZPort) : (s.setZport z x).fuses = s.fuses := rfl
@[simp] theorem State.setZport_flash (s : State) (z : Nat) (x : ZPort) : (s.setZport z x).flash = s.flash := rfl
@[simp] theorem State.setZport_straps (s : State) (z : Nat) (x : ZPort) : (s.setZport z x).straps = s.straps := rfl
@[simp] theorem State.setZport_mctpBusy (s : State) (z : Nat) (x : ZPort) : (s.setZport z x).mctpBusy = s.mctpBusy := rfl
@[simp] theorem State.setZport_powered (s : State) (z : Nat) (x : ZPort) : (s.setZport z x).powered = s.powered := rfl
@[simp] theorem State.setZport_stage (s : State) (z : Nat) (x : ZPort) : (s.setZport z x).stage = s.stage := rfl
@[simp] theorem State.setZport_tms (s : State) (z : Nat) (x : ZPort) : (s.setZport z x).tms = s.tms := rfl
@[simp] theorem State.setZport_fwStarted (s : State) (z : Nat) (x : ZPort) : (s.setZport z x).fwStarted = s.fwStarted := rfl
@[simp] theorem State.setZport_refLost (s : State) (z : Nat) (x : ZPort) : (s.setZport z x).refLost = s.refLost := rfl
@[simp] theorem State.setZport_plateLost (s : State) (z : Nat) (x : ZPort) : (s.setZport z x).plateLost = s.plateLost := rfl
@[simp] theorem State.setZport_resetPending (s : State) (z : Nat) (x : ZPort) : (s.setZport z x).resetPending = s.resetPending := rfl
@[simp] theorem State.setZport_alert (s : State) (z : Nat) (x : ZPort) : (s.setZport z x).alert = s.alert := rfl
@[simp] theorem State.setZport_dgen (s : State) (z : Nat) (x : ZPort) : (s.setZport z x).dgen = s.dgen := rfl
@[simp] theorem State.setZport_dgenBusy (s : State) (z : Nat) (x : ZPort) : (s.setZport z x).dgenBusy = s.dgenBusy := rfl
@[simp] theorem State.setZport_tableArea (s : State) (z : Nat) (x : ZPort) : (s.setZport z x).tableArea = s.tableArea := rfl
@[simp] theorem State.setZport_regs (s : State) (z : Nat) (x : ZPort) : (s.setZport z x).regs = s.regs := rfl
@[simp] theorem State.setZport_berths (s : State) (z : Nat) (x : ZPort) : (s.setZport z x).berths = s.berths := rfl
@[simp] theorem State.setZport_cores (s : State) (z : Nat) (x : ZPort) : (s.setZport z x).cores = s.cores := rfl
@[simp] theorem State.setZport_coresMode (s : State) (z : Nat) (x : ZPort) : (s.setZport z x).coresMode = s.coresMode := rfl
@[simp] theorem State.setZport_boundsHeld (s : State) (z : Nat) (x : ZPort) : (s.setZport z x).boundsHeld = s.boundsHeld := rfl
@[simp] theorem State.setZport_links (s : State) (z : Nat) (x : ZPort) : (s.setZport z x).links = s.links := rfl
@[simp] theorem State.setZport_ways (s : State) (z : Nat) (x : ZPort) : (s.setZport z x).ways = s.ways := rfl
@[simp] theorem State.setZport_packets (s : State) (z : Nat) (x : ZPort) : (s.setZport z x).packets = s.packets := rfl
@[simp] theorem State.setZport_packetNext (s : State) (z : Nat) (x : ZPort) : (s.setZport z x).packetNext = s.packetNext := rfl
@[simp] theorem State.setZport_delivered (s : State) (z : Nat) (x : ZPort) : (s.setZport z x).delivered = s.delivered := rfl
@[simp] theorem State.setZport_passed (s : State) (z : Nat) (x : ZPort) : (s.setZport z x).passed = s.passed := rfl
@[simp] theorem State.setZport_oneLeft (s : State) (z : Nat) (x : ZPort) : (s.setZport z x).oneLeft = s.oneLeft := rfl
@[simp] theorem State.setZport_treeMoved (s : State) (z : Nat) (x : ZPort) : (s.setZport z x).treeMoved = s.treeMoved := rfl
@[simp] theorem State.setZport_barrierTimer (s : State) (z : Nat) (x : ZPort) : (s.setZport z x).barrierTimer = s.barrierTimer := rfl
@[simp] theorem State.setZport_lateSent (s : State) (z : Nat) (x : ZPort) : (s.setZport z x).lateSent = s.lateSent := rfl
@[simp] theorem State.setZport_timeMsg (s : State) (z : Nat) (x : ZPort) : (s.setZport z x).timeMsg = s.timeMsg := rfl
@[simp] theorem State.setZport_nodeClocks (s : State) (z : Nat) (x : ZPort) : (s.setZport z x).nodeClocks = s.nodeClocks := rfl
@[simp] theorem State.setZport_sliceIn (s : State) (z : Nat) (x : ZPort) : (s.setZport z x).sliceIn = s.sliceIn := rfl
@[simp] theorem State.setZport_tier (s : State) (z : Nat) (x : ZPort) : (s.setZport z x).tier = s.tier := rfl
@[simp] theorem State.setZport_hbm (s : State) (z : Nat) (x : ZPort) : (s.setZport z x).hbm = s.hbm := rfl
@[simp] theorem State.setZport_streams (s : State) (z : Nat) (x : ZPort) : (s.setZport z x).streams = s.streams := rfl
@[simp] theorem State.setZport_seq (s : State) (z : Nat) (x : ZPort) : (s.setZport z x).seq = s.seq := rfl
@[simp] theorem State.setZport_images (s : State) (z : Nat) (x : ZPort) : (s.setZport z x).images = s.images := rfl
@[simp] theorem State.setZport_chans (s : State) (z : Nat) (x : ZPort) : (s.setZport z x).chans = s.chans := rfl
@[simp] theorem State.setZport_frames (s : State) (z : Nat) (x : ZPort) : (s.setZport z x).frames = s.frames := rfl
@[simp] theorem State.setZport_columns (s : State) (z : Nat) (x : ZPort) : (s.setZport z x).columns = s.columns := rfl
@[simp] theorem State.setZport_nodes (s : State) (z : Nat) (x : ZPort) : (s.setZport z x).nodes = s.nodes := rfl
@[simp] theorem State.setZport_copies (s : State) (z : Nat) (x : ZPort) : (s.setZport z x).copies = s.copies := rfl
@[simp] theorem State.setZport_backups (s : State) (z : Nat) (x : ZPort) : (s.setZport z x).backups = s.backups := rfl
@[simp] theorem State.setZport_ringCopies (s : State) (z : Nat) (x : ZPort) : (s.setZport z x).ringCopies = s.ringCopies := rfl
@[simp] theorem State.setZport_grammarChecks (s : State) (z : Nat) (x : ZPort) : (s.setZport z x).grammarChecks = s.grammarChecks := rfl
@[simp] theorem State.setZport_uncabled (s : State) (z : Nat) (x : ZPort) : (s.setZport z x).uncabled = s.uncabled := rfl
@[simp] theorem State.setZport_sliceFailed (s : State) (z : Nat) (x : ZPort) : (s.setZport z x).sliceFailed = s.sliceFailed := rfl
@[simp] theorem State.setZport_portOut (s : State) (z : Nat) (x : ZPort) : (s.setZport z x).portOut = s.portOut := rfl
@[simp] theorem State.setZport_gen (s : State) (z : Nat) (x : ZPort) : (s.setZport z x).gen = s.gen := rfl
@[simp] theorem State.setZport_forwarding (s : State) (z : Nat) (x : ZPort) : (s.setZport z x).forwarding = s.forwarding := rfl
@[simp] theorem State.setZport_portA (s : State) (z : Nat) (x : ZPort) : (s.setZport z x).portA = s.portA := rfl
@[simp] theorem State.setZport_portB (s : State) (z : Nat) (x : ZPort) : (s.setZport z x).portB = s.portB := rfl
@[simp] theorem State.setZport_msix (s : State) (z : Nat) (x : ZPort) : (s.setZport z x).msix = s.msix := rfl
@[simp] theorem State.setZport_hostMem (s : State) (z : Nat) (x : ZPort) : (s.setZport z x).hostMem = s.hostMem := rfl
@[simp] theorem State.setZport_basins (s : State) (z : Nat) (x : ZPort) : (s.setZport z x).basins = s.basins := rfl
@[simp] theorem State.setZport_west (s : State) (z : Nat) (x : ZPort) : (s.setZport z x).west = s.west := rfl
@[simp] theorem State.setZport_east (s : State) (z : Nat) (x : ZPort) : (s.setZport z x).east = s.east := rfl
@[simp] theorem State.setZport_powerSteps (s : State) (z : Nat) (x : ZPort) : (s.setZport z x).powerSteps = s.powerSteps := rfl
@[simp] theorem State.setZport_cool (s : State) (z : Nat) (x : ZPort) : (s.setZport z x).cool = s.cool := rfl
@[simp] theorem State.setZport_sites (s : State) (z : Nat) (x : ZPort) : (s.setZport z x).sites = s.sites := rfl
@[simp] theorem State.setZport_heartbeats (s : State) (z : Nat) (x : ZPort) : (s.setZport z x).heartbeats = s.heartbeats := rfl
@[simp] theorem State.setZport_unav (s : State) (z : Nat) (x : ZPort) : (s.setZport z x).unav = s.unav := rfl
@[simp] theorem State.setZport_flt (s : State) (z : Nat) (x : ZPort) : (s.setZport z x).flt = s.flt := rfl
@[simp] theorem State.setZport_secu (s : State) (z : Nat) (x : ZPort) : (s.setZport z x).secu = s.secu := rfl
@[simp] theorem State.setZport_berth_at (s : State) (z : Nat) (x : ZPort) (j : Nat) : (s.setZport z x).berth j = s.berth j := rfl
@[simp] theorem State.setZport_core_at (s : State) (z : Nat) (x : ZPort) (j : Nat) : (s.setZport z x).core j = s.core j := rfl
@[simp] theorem State.setZport_link_at (s : State) (z : Nat) (x : ZPort) (j : Nat) : (s.setZport z x).link j = s.link j := rfl
@[simp] theorem State.setZport_way_at (s : State) (z : Nat) (x : ZPort) (j : Nat) : (s.setZport z x).way j = s.way j := rfl
@[simp] theorem State.setZport_stack_at (s : State) (z : Nat) (x : ZPort) (j : Nat) : (s.setZport z x).stack j = s.stack j := rfl
@[simp] theorem State.setZport_stream_at (s : State) (z : Nat) (x : ZPort) (j : Nat) : (s.setZport z x).stream j = s.stream j := rfl
@[simp] theorem State.setZport_image_at (s : State) (z : Nat) (x : ZPort) (j : Nat) : (s.setZport z x).image j = s.image j := rfl
@[simp] theorem State.setZport_chan_at (s : State) (z : Nat) (x : ZPort) (j : Nat) : (s.setZport z x).chan j = s.chan j := rfl
@[simp] theorem State.setZport_basin_at (s : State) (z : Nat) (x : ZPort) (j : Nat) : (s.setZport z x).basin j = s.basin j := rfl
@[simp] theorem State.setZport_site_at (s : State) (z : Nat) (x : ZPort) (j : Nat) : (s.setZport z x).site j = s.site j := rfl
@[simp] theorem State.setZport_port_at (s : State) (z : Nat) (x : ZPort) (q : HostPort) : (s.setZport z x).port q = s.port q := rfl
@[simp] theorem State.setZport_half_at (s : State) (z : Nat) (x : ZPort) (w : Half) : (s.setZport z x).half w = s.half w := rfl
@[simp] theorem State.setZport_reg_at (s : State) (z : Nat) (x : ZPort) (b' : Blk) (inst' off' : Nat) : (s.setZport z x).reg b' inst' off' = s.reg b' inst' off' :=
    rfl
@[simp] theorem State.setZport_regI_at (s : State) (z : Nat) (x : ZPort) (b' : Blk) (inst' off' i' : Nat) : (s.setZport z x).regI b' inst' off' i' = s.regI b' inst' off' i' :=
    rfl

@[simp] theorem State.setBasin_pending (s : State) (n : Nat) (x : BasinSt) : (s.setBasin n x).pending = s.pending := rfl
@[simp] theorem State.setBasin_stamp (s : State) (n : Nat) (x : BasinSt) : (s.setBasin n x).stamp = s.stamp := rfl
@[simp] theorem State.setBasin_draws (s : State) (n : Nat) (x : BasinSt) : (s.setBasin n x).draws = s.draws := rfl
@[simp] theorem State.setBasin_countFrom (s : State) (n : Nat) (x : BasinSt) : (s.setBasin n x).countFrom = s.countFrom := rfl
@[simp] theorem State.setBasin_fuses (s : State) (n : Nat) (x : BasinSt) : (s.setBasin n x).fuses = s.fuses := rfl
@[simp] theorem State.setBasin_flash (s : State) (n : Nat) (x : BasinSt) : (s.setBasin n x).flash = s.flash := rfl
@[simp] theorem State.setBasin_straps (s : State) (n : Nat) (x : BasinSt) : (s.setBasin n x).straps = s.straps := rfl
@[simp] theorem State.setBasin_mctpBusy (s : State) (n : Nat) (x : BasinSt) : (s.setBasin n x).mctpBusy = s.mctpBusy := rfl
@[simp] theorem State.setBasin_powered (s : State) (n : Nat) (x : BasinSt) : (s.setBasin n x).powered = s.powered := rfl
@[simp] theorem State.setBasin_stage (s : State) (n : Nat) (x : BasinSt) : (s.setBasin n x).stage = s.stage := rfl
@[simp] theorem State.setBasin_tms (s : State) (n : Nat) (x : BasinSt) : (s.setBasin n x).tms = s.tms := rfl
@[simp] theorem State.setBasin_fwStarted (s : State) (n : Nat) (x : BasinSt) : (s.setBasin n x).fwStarted = s.fwStarted := rfl
@[simp] theorem State.setBasin_refLost (s : State) (n : Nat) (x : BasinSt) : (s.setBasin n x).refLost = s.refLost := rfl
@[simp] theorem State.setBasin_plateLost (s : State) (n : Nat) (x : BasinSt) : (s.setBasin n x).plateLost = s.plateLost := rfl
@[simp] theorem State.setBasin_resetPending (s : State) (n : Nat) (x : BasinSt) : (s.setBasin n x).resetPending = s.resetPending := rfl
@[simp] theorem State.setBasin_alert (s : State) (n : Nat) (x : BasinSt) : (s.setBasin n x).alert = s.alert := rfl
@[simp] theorem State.setBasin_dgen (s : State) (n : Nat) (x : BasinSt) : (s.setBasin n x).dgen = s.dgen := rfl
@[simp] theorem State.setBasin_dgenBusy (s : State) (n : Nat) (x : BasinSt) : (s.setBasin n x).dgenBusy = s.dgenBusy := rfl
@[simp] theorem State.setBasin_tableArea (s : State) (n : Nat) (x : BasinSt) : (s.setBasin n x).tableArea = s.tableArea := rfl
@[simp] theorem State.setBasin_regs (s : State) (n : Nat) (x : BasinSt) : (s.setBasin n x).regs = s.regs := rfl
@[simp] theorem State.setBasin_berths (s : State) (n : Nat) (x : BasinSt) : (s.setBasin n x).berths = s.berths := rfl
@[simp] theorem State.setBasin_cores (s : State) (n : Nat) (x : BasinSt) : (s.setBasin n x).cores = s.cores := rfl
@[simp] theorem State.setBasin_coresMode (s : State) (n : Nat) (x : BasinSt) : (s.setBasin n x).coresMode = s.coresMode := rfl
@[simp] theorem State.setBasin_boundsHeld (s : State) (n : Nat) (x : BasinSt) : (s.setBasin n x).boundsHeld = s.boundsHeld := rfl
@[simp] theorem State.setBasin_links (s : State) (n : Nat) (x : BasinSt) : (s.setBasin n x).links = s.links := rfl
@[simp] theorem State.setBasin_ways (s : State) (n : Nat) (x : BasinSt) : (s.setBasin n x).ways = s.ways := rfl
@[simp] theorem State.setBasin_packets (s : State) (n : Nat) (x : BasinSt) : (s.setBasin n x).packets = s.packets := rfl
@[simp] theorem State.setBasin_packetNext (s : State) (n : Nat) (x : BasinSt) : (s.setBasin n x).packetNext = s.packetNext := rfl
@[simp] theorem State.setBasin_delivered (s : State) (n : Nat) (x : BasinSt) : (s.setBasin n x).delivered = s.delivered := rfl
@[simp] theorem State.setBasin_passed (s : State) (n : Nat) (x : BasinSt) : (s.setBasin n x).passed = s.passed := rfl
@[simp] theorem State.setBasin_oneLeft (s : State) (n : Nat) (x : BasinSt) : (s.setBasin n x).oneLeft = s.oneLeft := rfl
@[simp] theorem State.setBasin_treeMoved (s : State) (n : Nat) (x : BasinSt) : (s.setBasin n x).treeMoved = s.treeMoved := rfl
@[simp] theorem State.setBasin_barrierTimer (s : State) (n : Nat) (x : BasinSt) : (s.setBasin n x).barrierTimer = s.barrierTimer := rfl
@[simp] theorem State.setBasin_lateSent (s : State) (n : Nat) (x : BasinSt) : (s.setBasin n x).lateSent = s.lateSent := rfl
@[simp] theorem State.setBasin_timeMsg (s : State) (n : Nat) (x : BasinSt) : (s.setBasin n x).timeMsg = s.timeMsg := rfl
@[simp] theorem State.setBasin_nodeClocks (s : State) (n : Nat) (x : BasinSt) : (s.setBasin n x).nodeClocks = s.nodeClocks := rfl
@[simp] theorem State.setBasin_sliceIn (s : State) (n : Nat) (x : BasinSt) : (s.setBasin n x).sliceIn = s.sliceIn := rfl
@[simp] theorem State.setBasin_tier (s : State) (n : Nat) (x : BasinSt) : (s.setBasin n x).tier = s.tier := rfl
@[simp] theorem State.setBasin_hbm (s : State) (n : Nat) (x : BasinSt) : (s.setBasin n x).hbm = s.hbm := rfl
@[simp] theorem State.setBasin_streams (s : State) (n : Nat) (x : BasinSt) : (s.setBasin n x).streams = s.streams := rfl
@[simp] theorem State.setBasin_seq (s : State) (n : Nat) (x : BasinSt) : (s.setBasin n x).seq = s.seq := rfl
@[simp] theorem State.setBasin_images (s : State) (n : Nat) (x : BasinSt) : (s.setBasin n x).images = s.images := rfl
@[simp] theorem State.setBasin_chans (s : State) (n : Nat) (x : BasinSt) : (s.setBasin n x).chans = s.chans := rfl
@[simp] theorem State.setBasin_frames (s : State) (n : Nat) (x : BasinSt) : (s.setBasin n x).frames = s.frames := rfl
@[simp] theorem State.setBasin_columns (s : State) (n : Nat) (x : BasinSt) : (s.setBasin n x).columns = s.columns := rfl
@[simp] theorem State.setBasin_nodes (s : State) (n : Nat) (x : BasinSt) : (s.setBasin n x).nodes = s.nodes := rfl
@[simp] theorem State.setBasin_copies (s : State) (n : Nat) (x : BasinSt) : (s.setBasin n x).copies = s.copies := rfl
@[simp] theorem State.setBasin_backups (s : State) (n : Nat) (x : BasinSt) : (s.setBasin n x).backups = s.backups := rfl
@[simp] theorem State.setBasin_ringCopies (s : State) (n : Nat) (x : BasinSt) : (s.setBasin n x).ringCopies = s.ringCopies := rfl
@[simp] theorem State.setBasin_grammarChecks (s : State) (n : Nat) (x : BasinSt) : (s.setBasin n x).grammarChecks = s.grammarChecks := rfl
@[simp] theorem State.setBasin_zports (s : State) (n : Nat) (x : BasinSt) : (s.setBasin n x).zports = s.zports := rfl
@[simp] theorem State.setBasin_uncabled (s : State) (n : Nat) (x : BasinSt) : (s.setBasin n x).uncabled = s.uncabled := rfl
@[simp] theorem State.setBasin_sliceFailed (s : State) (n : Nat) (x : BasinSt) : (s.setBasin n x).sliceFailed = s.sliceFailed := rfl
@[simp] theorem State.setBasin_portOut (s : State) (n : Nat) (x : BasinSt) : (s.setBasin n x).portOut = s.portOut := rfl
@[simp] theorem State.setBasin_gen (s : State) (n : Nat) (x : BasinSt) : (s.setBasin n x).gen = s.gen := rfl
@[simp] theorem State.setBasin_forwarding (s : State) (n : Nat) (x : BasinSt) : (s.setBasin n x).forwarding = s.forwarding := rfl
@[simp] theorem State.setBasin_portA (s : State) (n : Nat) (x : BasinSt) : (s.setBasin n x).portA = s.portA := rfl
@[simp] theorem State.setBasin_portB (s : State) (n : Nat) (x : BasinSt) : (s.setBasin n x).portB = s.portB := rfl
@[simp] theorem State.setBasin_msix (s : State) (n : Nat) (x : BasinSt) : (s.setBasin n x).msix = s.msix := rfl
@[simp] theorem State.setBasin_hostMem (s : State) (n : Nat) (x : BasinSt) : (s.setBasin n x).hostMem = s.hostMem := rfl
@[simp] theorem State.setBasin_west (s : State) (n : Nat) (x : BasinSt) : (s.setBasin n x).west = s.west := rfl
@[simp] theorem State.setBasin_east (s : State) (n : Nat) (x : BasinSt) : (s.setBasin n x).east = s.east := rfl
@[simp] theorem State.setBasin_powerSteps (s : State) (n : Nat) (x : BasinSt) : (s.setBasin n x).powerSteps = s.powerSteps := rfl
@[simp] theorem State.setBasin_cool (s : State) (n : Nat) (x : BasinSt) : (s.setBasin n x).cool = s.cool := rfl
@[simp] theorem State.setBasin_sites (s : State) (n : Nat) (x : BasinSt) : (s.setBasin n x).sites = s.sites := rfl
@[simp] theorem State.setBasin_heartbeats (s : State) (n : Nat) (x : BasinSt) : (s.setBasin n x).heartbeats = s.heartbeats := rfl
@[simp] theorem State.setBasin_unav (s : State) (n : Nat) (x : BasinSt) : (s.setBasin n x).unav = s.unav := rfl
@[simp] theorem State.setBasin_flt (s : State) (n : Nat) (x : BasinSt) : (s.setBasin n x).flt = s.flt := rfl
@[simp] theorem State.setBasin_secu (s : State) (n : Nat) (x : BasinSt) : (s.setBasin n x).secu = s.secu := rfl
@[simp] theorem State.setBasin_berth_at (s : State) (n : Nat) (x : BasinSt) (j : Nat) : (s.setBasin n x).berth j = s.berth j := rfl
@[simp] theorem State.setBasin_core_at (s : State) (n : Nat) (x : BasinSt) (j : Nat) : (s.setBasin n x).core j = s.core j := rfl
@[simp] theorem State.setBasin_link_at (s : State) (n : Nat) (x : BasinSt) (j : Nat) : (s.setBasin n x).link j = s.link j := rfl
@[simp] theorem State.setBasin_way_at (s : State) (n : Nat) (x : BasinSt) (j : Nat) : (s.setBasin n x).way j = s.way j := rfl
@[simp] theorem State.setBasin_stack_at (s : State) (n : Nat) (x : BasinSt) (j : Nat) : (s.setBasin n x).stack j = s.stack j := rfl
@[simp] theorem State.setBasin_stream_at (s : State) (n : Nat) (x : BasinSt) (j : Nat) : (s.setBasin n x).stream j = s.stream j := rfl
@[simp] theorem State.setBasin_image_at (s : State) (n : Nat) (x : BasinSt) (j : Nat) : (s.setBasin n x).image j = s.image j := rfl
@[simp] theorem State.setBasin_chan_at (s : State) (n : Nat) (x : BasinSt) (j : Nat) : (s.setBasin n x).chan j = s.chan j := rfl
@[simp] theorem State.setBasin_zport_at (s : State) (n : Nat) (x : BasinSt) (j : Nat) : (s.setBasin n x).zport j = s.zport j := rfl
@[simp] theorem State.setBasin_site_at (s : State) (n : Nat) (x : BasinSt) (j : Nat) : (s.setBasin n x).site j = s.site j := rfl
@[simp] theorem State.setBasin_port_at (s : State) (n : Nat) (x : BasinSt) (q : HostPort) : (s.setBasin n x).port q = s.port q := rfl
@[simp] theorem State.setBasin_half_at (s : State) (n : Nat) (x : BasinSt) (w : Half) : (s.setBasin n x).half w = s.half w := rfl
@[simp] theorem State.setBasin_reg_at (s : State) (n : Nat) (x : BasinSt) (b' : Blk) (inst' off' : Nat) : (s.setBasin n x).reg b' inst' off' = s.reg b' inst' off' :=
    rfl
@[simp] theorem State.setBasin_regI_at (s : State) (n : Nat) (x : BasinSt) (b' : Blk) (inst' off' i' : Nat) : (s.setBasin n x).regI b' inst' off' i' = s.regI b' inst' off' i' :=
    rfl

@[simp] theorem State.setSite_pending (s : State) (i : Nat) (x : SiteSt) : (s.setSite i x).pending = s.pending := rfl
@[simp] theorem State.setSite_stamp (s : State) (i : Nat) (x : SiteSt) : (s.setSite i x).stamp = s.stamp := rfl
@[simp] theorem State.setSite_draws (s : State) (i : Nat) (x : SiteSt) : (s.setSite i x).draws = s.draws := rfl
@[simp] theorem State.setSite_countFrom (s : State) (i : Nat) (x : SiteSt) : (s.setSite i x).countFrom = s.countFrom := rfl
@[simp] theorem State.setSite_fuses (s : State) (i : Nat) (x : SiteSt) : (s.setSite i x).fuses = s.fuses := rfl
@[simp] theorem State.setSite_flash (s : State) (i : Nat) (x : SiteSt) : (s.setSite i x).flash = s.flash := rfl
@[simp] theorem State.setSite_straps (s : State) (i : Nat) (x : SiteSt) : (s.setSite i x).straps = s.straps := rfl
@[simp] theorem State.setSite_mctpBusy (s : State) (i : Nat) (x : SiteSt) : (s.setSite i x).mctpBusy = s.mctpBusy := rfl
@[simp] theorem State.setSite_powered (s : State) (i : Nat) (x : SiteSt) : (s.setSite i x).powered = s.powered := rfl
@[simp] theorem State.setSite_stage (s : State) (i : Nat) (x : SiteSt) : (s.setSite i x).stage = s.stage := rfl
@[simp] theorem State.setSite_tms (s : State) (i : Nat) (x : SiteSt) : (s.setSite i x).tms = s.tms := rfl
@[simp] theorem State.setSite_fwStarted (s : State) (i : Nat) (x : SiteSt) : (s.setSite i x).fwStarted = s.fwStarted := rfl
@[simp] theorem State.setSite_refLost (s : State) (i : Nat) (x : SiteSt) : (s.setSite i x).refLost = s.refLost := rfl
@[simp] theorem State.setSite_plateLost (s : State) (i : Nat) (x : SiteSt) : (s.setSite i x).plateLost = s.plateLost := rfl
@[simp] theorem State.setSite_resetPending (s : State) (i : Nat) (x : SiteSt) : (s.setSite i x).resetPending = s.resetPending := rfl
@[simp] theorem State.setSite_alert (s : State) (i : Nat) (x : SiteSt) : (s.setSite i x).alert = s.alert := rfl
@[simp] theorem State.setSite_dgen (s : State) (i : Nat) (x : SiteSt) : (s.setSite i x).dgen = s.dgen := rfl
@[simp] theorem State.setSite_dgenBusy (s : State) (i : Nat) (x : SiteSt) : (s.setSite i x).dgenBusy = s.dgenBusy := rfl
@[simp] theorem State.setSite_tableArea (s : State) (i : Nat) (x : SiteSt) : (s.setSite i x).tableArea = s.tableArea := rfl
@[simp] theorem State.setSite_regs (s : State) (i : Nat) (x : SiteSt) : (s.setSite i x).regs = s.regs := rfl
@[simp] theorem State.setSite_berths (s : State) (i : Nat) (x : SiteSt) : (s.setSite i x).berths = s.berths := rfl
@[simp] theorem State.setSite_cores (s : State) (i : Nat) (x : SiteSt) : (s.setSite i x).cores = s.cores := rfl
@[simp] theorem State.setSite_coresMode (s : State) (i : Nat) (x : SiteSt) : (s.setSite i x).coresMode = s.coresMode := rfl
@[simp] theorem State.setSite_boundsHeld (s : State) (i : Nat) (x : SiteSt) : (s.setSite i x).boundsHeld = s.boundsHeld := rfl
@[simp] theorem State.setSite_links (s : State) (i : Nat) (x : SiteSt) : (s.setSite i x).links = s.links := rfl
@[simp] theorem State.setSite_ways (s : State) (i : Nat) (x : SiteSt) : (s.setSite i x).ways = s.ways := rfl
@[simp] theorem State.setSite_packets (s : State) (i : Nat) (x : SiteSt) : (s.setSite i x).packets = s.packets := rfl
@[simp] theorem State.setSite_packetNext (s : State) (i : Nat) (x : SiteSt) : (s.setSite i x).packetNext = s.packetNext := rfl
@[simp] theorem State.setSite_delivered (s : State) (i : Nat) (x : SiteSt) : (s.setSite i x).delivered = s.delivered := rfl
@[simp] theorem State.setSite_passed (s : State) (i : Nat) (x : SiteSt) : (s.setSite i x).passed = s.passed := rfl
@[simp] theorem State.setSite_oneLeft (s : State) (i : Nat) (x : SiteSt) : (s.setSite i x).oneLeft = s.oneLeft := rfl
@[simp] theorem State.setSite_treeMoved (s : State) (i : Nat) (x : SiteSt) : (s.setSite i x).treeMoved = s.treeMoved := rfl
@[simp] theorem State.setSite_barrierTimer (s : State) (i : Nat) (x : SiteSt) : (s.setSite i x).barrierTimer = s.barrierTimer := rfl
@[simp] theorem State.setSite_lateSent (s : State) (i : Nat) (x : SiteSt) : (s.setSite i x).lateSent = s.lateSent := rfl
@[simp] theorem State.setSite_timeMsg (s : State) (i : Nat) (x : SiteSt) : (s.setSite i x).timeMsg = s.timeMsg := rfl
@[simp] theorem State.setSite_nodeClocks (s : State) (i : Nat) (x : SiteSt) : (s.setSite i x).nodeClocks = s.nodeClocks := rfl
@[simp] theorem State.setSite_sliceIn (s : State) (i : Nat) (x : SiteSt) : (s.setSite i x).sliceIn = s.sliceIn := rfl
@[simp] theorem State.setSite_tier (s : State) (i : Nat) (x : SiteSt) : (s.setSite i x).tier = s.tier := rfl
@[simp] theorem State.setSite_hbm (s : State) (i : Nat) (x : SiteSt) : (s.setSite i x).hbm = s.hbm := rfl
@[simp] theorem State.setSite_streams (s : State) (i : Nat) (x : SiteSt) : (s.setSite i x).streams = s.streams := rfl
@[simp] theorem State.setSite_seq (s : State) (i : Nat) (x : SiteSt) : (s.setSite i x).seq = s.seq := rfl
@[simp] theorem State.setSite_images (s : State) (i : Nat) (x : SiteSt) : (s.setSite i x).images = s.images := rfl
@[simp] theorem State.setSite_chans (s : State) (i : Nat) (x : SiteSt) : (s.setSite i x).chans = s.chans := rfl
@[simp] theorem State.setSite_frames (s : State) (i : Nat) (x : SiteSt) : (s.setSite i x).frames = s.frames := rfl
@[simp] theorem State.setSite_columns (s : State) (i : Nat) (x : SiteSt) : (s.setSite i x).columns = s.columns := rfl
@[simp] theorem State.setSite_nodes (s : State) (i : Nat) (x : SiteSt) : (s.setSite i x).nodes = s.nodes := rfl
@[simp] theorem State.setSite_copies (s : State) (i : Nat) (x : SiteSt) : (s.setSite i x).copies = s.copies := rfl
@[simp] theorem State.setSite_backups (s : State) (i : Nat) (x : SiteSt) : (s.setSite i x).backups = s.backups := rfl
@[simp] theorem State.setSite_ringCopies (s : State) (i : Nat) (x : SiteSt) : (s.setSite i x).ringCopies = s.ringCopies := rfl
@[simp] theorem State.setSite_grammarChecks (s : State) (i : Nat) (x : SiteSt) : (s.setSite i x).grammarChecks = s.grammarChecks := rfl
@[simp] theorem State.setSite_zports (s : State) (i : Nat) (x : SiteSt) : (s.setSite i x).zports = s.zports := rfl
@[simp] theorem State.setSite_uncabled (s : State) (i : Nat) (x : SiteSt) : (s.setSite i x).uncabled = s.uncabled := rfl
@[simp] theorem State.setSite_sliceFailed (s : State) (i : Nat) (x : SiteSt) : (s.setSite i x).sliceFailed = s.sliceFailed := rfl
@[simp] theorem State.setSite_portOut (s : State) (i : Nat) (x : SiteSt) : (s.setSite i x).portOut = s.portOut := rfl
@[simp] theorem State.setSite_gen (s : State) (i : Nat) (x : SiteSt) : (s.setSite i x).gen = s.gen := rfl
@[simp] theorem State.setSite_forwarding (s : State) (i : Nat) (x : SiteSt) : (s.setSite i x).forwarding = s.forwarding := rfl
@[simp] theorem State.setSite_portA (s : State) (i : Nat) (x : SiteSt) : (s.setSite i x).portA = s.portA := rfl
@[simp] theorem State.setSite_portB (s : State) (i : Nat) (x : SiteSt) : (s.setSite i x).portB = s.portB := rfl
@[simp] theorem State.setSite_msix (s : State) (i : Nat) (x : SiteSt) : (s.setSite i x).msix = s.msix := rfl
@[simp] theorem State.setSite_hostMem (s : State) (i : Nat) (x : SiteSt) : (s.setSite i x).hostMem = s.hostMem := rfl
@[simp] theorem State.setSite_basins (s : State) (i : Nat) (x : SiteSt) : (s.setSite i x).basins = s.basins := rfl
@[simp] theorem State.setSite_west (s : State) (i : Nat) (x : SiteSt) : (s.setSite i x).west = s.west := rfl
@[simp] theorem State.setSite_east (s : State) (i : Nat) (x : SiteSt) : (s.setSite i x).east = s.east := rfl
@[simp] theorem State.setSite_powerSteps (s : State) (i : Nat) (x : SiteSt) : (s.setSite i x).powerSteps = s.powerSteps := rfl
@[simp] theorem State.setSite_cool (s : State) (i : Nat) (x : SiteSt) : (s.setSite i x).cool = s.cool := rfl
@[simp] theorem State.setSite_heartbeats (s : State) (i : Nat) (x : SiteSt) : (s.setSite i x).heartbeats = s.heartbeats := rfl
@[simp] theorem State.setSite_unav (s : State) (i : Nat) (x : SiteSt) : (s.setSite i x).unav = s.unav := rfl
@[simp] theorem State.setSite_flt (s : State) (i : Nat) (x : SiteSt) : (s.setSite i x).flt = s.flt := rfl
@[simp] theorem State.setSite_secu (s : State) (i : Nat) (x : SiteSt) : (s.setSite i x).secu = s.secu := rfl
@[simp] theorem State.setSite_berth_at (s : State) (i : Nat) (x : SiteSt) (j : Nat) : (s.setSite i x).berth j = s.berth j := rfl
@[simp] theorem State.setSite_core_at (s : State) (i : Nat) (x : SiteSt) (j : Nat) : (s.setSite i x).core j = s.core j := rfl
@[simp] theorem State.setSite_link_at (s : State) (i : Nat) (x : SiteSt) (j : Nat) : (s.setSite i x).link j = s.link j := rfl
@[simp] theorem State.setSite_way_at (s : State) (i : Nat) (x : SiteSt) (j : Nat) : (s.setSite i x).way j = s.way j := rfl
@[simp] theorem State.setSite_stack_at (s : State) (i : Nat) (x : SiteSt) (j : Nat) : (s.setSite i x).stack j = s.stack j := rfl
@[simp] theorem State.setSite_stream_at (s : State) (i : Nat) (x : SiteSt) (j : Nat) : (s.setSite i x).stream j = s.stream j := rfl
@[simp] theorem State.setSite_image_at (s : State) (i : Nat) (x : SiteSt) (j : Nat) : (s.setSite i x).image j = s.image j := rfl
@[simp] theorem State.setSite_chan_at (s : State) (i : Nat) (x : SiteSt) (j : Nat) : (s.setSite i x).chan j = s.chan j := rfl
@[simp] theorem State.setSite_zport_at (s : State) (i : Nat) (x : SiteSt) (j : Nat) : (s.setSite i x).zport j = s.zport j := rfl
@[simp] theorem State.setSite_basin_at (s : State) (i : Nat) (x : SiteSt) (j : Nat) : (s.setSite i x).basin j = s.basin j := rfl
@[simp] theorem State.setSite_port_at (s : State) (i : Nat) (x : SiteSt) (q : HostPort) : (s.setSite i x).port q = s.port q := rfl
@[simp] theorem State.setSite_half_at (s : State) (i : Nat) (x : SiteSt) (w : Half) : (s.setSite i x).half w = s.half w := rfl
@[simp] theorem State.setSite_reg_at (s : State) (i : Nat) (x : SiteSt) (b' : Blk) (inst' off' : Nat) : (s.setSite i x).reg b' inst' off' = s.reg b' inst' off' :=
    rfl
@[simp] theorem State.setSite_regI_at (s : State) (i : Nat) (x : SiteSt) (b' : Blk) (inst' off' i' : Nat) : (s.setSite i x).regI b' inst' off' i' = s.regI b' inst' off' i' :=
    rfl

@[simp] theorem State.setReg_pending (s : State) (b : Blk) (inst off : Nat) (v : Word) : (s.setReg b inst off v).pending = s.pending :=
    State.withRegs_pending s _
@[simp] theorem State.setReg_stamp (s : State) (b : Blk) (inst off : Nat) (v : Word) : (s.setReg b inst off v).stamp = s.stamp :=
    State.withRegs_stamp s _
@[simp] theorem State.setReg_draws (s : State) (b : Blk) (inst off : Nat) (v : Word) : (s.setReg b inst off v).draws = s.draws :=
    State.withRegs_draws s _
@[simp] theorem State.setReg_countFrom (s : State) (b : Blk) (inst off : Nat) (v : Word) : (s.setReg b inst off v).countFrom = s.countFrom :=
    State.withRegs_countFrom s _
@[simp] theorem State.setReg_fuses (s : State) (b : Blk) (inst off : Nat) (v : Word) : (s.setReg b inst off v).fuses = s.fuses :=
    State.withRegs_fuses s _
@[simp] theorem State.setReg_flash (s : State) (b : Blk) (inst off : Nat) (v : Word) : (s.setReg b inst off v).flash = s.flash :=
    State.withRegs_flash s _
@[simp] theorem State.setReg_straps (s : State) (b : Blk) (inst off : Nat) (v : Word) : (s.setReg b inst off v).straps = s.straps :=
    State.withRegs_straps s _
@[simp] theorem State.setReg_mctpBusy (s : State) (b : Blk) (inst off : Nat) (v : Word) : (s.setReg b inst off v).mctpBusy = s.mctpBusy :=
    State.withRegs_mctpBusy s _
@[simp] theorem State.setReg_powered (s : State) (b : Blk) (inst off : Nat) (v : Word) : (s.setReg b inst off v).powered = s.powered :=
    State.withRegs_powered s _
@[simp] theorem State.setReg_stage (s : State) (b : Blk) (inst off : Nat) (v : Word) : (s.setReg b inst off v).stage = s.stage :=
    State.withRegs_stage s _
@[simp] theorem State.setReg_tms (s : State) (b : Blk) (inst off : Nat) (v : Word) : (s.setReg b inst off v).tms = s.tms :=
    State.withRegs_tms s _
@[simp] theorem State.setReg_fwStarted (s : State) (b : Blk) (inst off : Nat) (v : Word) : (s.setReg b inst off v).fwStarted = s.fwStarted :=
    State.withRegs_fwStarted s _
@[simp] theorem State.setReg_refLost (s : State) (b : Blk) (inst off : Nat) (v : Word) : (s.setReg b inst off v).refLost = s.refLost :=
    State.withRegs_refLost s _
@[simp] theorem State.setReg_plateLost (s : State) (b : Blk) (inst off : Nat) (v : Word) : (s.setReg b inst off v).plateLost = s.plateLost :=
    State.withRegs_plateLost s _
@[simp] theorem State.setReg_resetPending (s : State) (b : Blk) (inst off : Nat) (v : Word) : (s.setReg b inst off v).resetPending = s.resetPending :=
    State.withRegs_resetPending s _
@[simp] theorem State.setReg_alert (s : State) (b : Blk) (inst off : Nat) (v : Word) : (s.setReg b inst off v).alert = s.alert :=
    State.withRegs_alert s _
@[simp] theorem State.setReg_dgen (s : State) (b : Blk) (inst off : Nat) (v : Word) : (s.setReg b inst off v).dgen = s.dgen :=
    State.withRegs_dgen s _
@[simp] theorem State.setReg_dgenBusy (s : State) (b : Blk) (inst off : Nat) (v : Word) : (s.setReg b inst off v).dgenBusy = s.dgenBusy :=
    State.withRegs_dgenBusy s _
@[simp] theorem State.setReg_tableArea (s : State) (b : Blk) (inst off : Nat) (v : Word) : (s.setReg b inst off v).tableArea = s.tableArea :=
    State.withRegs_tableArea s _
@[simp] theorem State.setReg_berths (s : State) (b : Blk) (inst off : Nat) (v : Word) : (s.setReg b inst off v).berths = s.berths :=
    State.withRegs_berths s _
@[simp] theorem State.setReg_cores (s : State) (b : Blk) (inst off : Nat) (v : Word) : (s.setReg b inst off v).cores = s.cores :=
    State.withRegs_cores s _
@[simp] theorem State.setReg_coresMode (s : State) (b : Blk) (inst off : Nat) (v : Word) : (s.setReg b inst off v).coresMode = s.coresMode :=
    State.withRegs_coresMode s _
@[simp] theorem State.setReg_boundsHeld (s : State) (b : Blk) (inst off : Nat) (v : Word) : (s.setReg b inst off v).boundsHeld = s.boundsHeld :=
    State.withRegs_boundsHeld s _
@[simp] theorem State.setReg_links (s : State) (b : Blk) (inst off : Nat) (v : Word) : (s.setReg b inst off v).links = s.links :=
    State.withRegs_links s _
@[simp] theorem State.setReg_ways (s : State) (b : Blk) (inst off : Nat) (v : Word) : (s.setReg b inst off v).ways = s.ways :=
    State.withRegs_ways s _
@[simp] theorem State.setReg_packets (s : State) (b : Blk) (inst off : Nat) (v : Word) : (s.setReg b inst off v).packets = s.packets :=
    State.withRegs_packets s _
@[simp] theorem State.setReg_packetNext (s : State) (b : Blk) (inst off : Nat) (v : Word) : (s.setReg b inst off v).packetNext = s.packetNext :=
    State.withRegs_packetNext s _
@[simp] theorem State.setReg_delivered (s : State) (b : Blk) (inst off : Nat) (v : Word) : (s.setReg b inst off v).delivered = s.delivered :=
    State.withRegs_delivered s _
@[simp] theorem State.setReg_passed (s : State) (b : Blk) (inst off : Nat) (v : Word) : (s.setReg b inst off v).passed = s.passed :=
    State.withRegs_passed s _
@[simp] theorem State.setReg_oneLeft (s : State) (b : Blk) (inst off : Nat) (v : Word) : (s.setReg b inst off v).oneLeft = s.oneLeft :=
    State.withRegs_oneLeft s _
@[simp] theorem State.setReg_treeMoved (s : State) (b : Blk) (inst off : Nat) (v : Word) : (s.setReg b inst off v).treeMoved = s.treeMoved :=
    State.withRegs_treeMoved s _
@[simp] theorem State.setReg_barrierTimer (s : State) (b : Blk) (inst off : Nat) (v : Word) : (s.setReg b inst off v).barrierTimer = s.barrierTimer :=
    State.withRegs_barrierTimer s _
@[simp] theorem State.setReg_lateSent (s : State) (b : Blk) (inst off : Nat) (v : Word) : (s.setReg b inst off v).lateSent = s.lateSent :=
    State.withRegs_lateSent s _
@[simp] theorem State.setReg_timeMsg (s : State) (b : Blk) (inst off : Nat) (v : Word) : (s.setReg b inst off v).timeMsg = s.timeMsg :=
    State.withRegs_timeMsg s _
@[simp] theorem State.setReg_nodeClocks (s : State) (b : Blk) (inst off : Nat) (v : Word) : (s.setReg b inst off v).nodeClocks = s.nodeClocks :=
    State.withRegs_nodeClocks s _
@[simp] theorem State.setReg_sliceIn (s : State) (b : Blk) (inst off : Nat) (v : Word) : (s.setReg b inst off v).sliceIn = s.sliceIn :=
    State.withRegs_sliceIn s _
@[simp] theorem State.setReg_tier (s : State) (b : Blk) (inst off : Nat) (v : Word) : (s.setReg b inst off v).tier = s.tier :=
    State.withRegs_tier s _
@[simp] theorem State.setReg_hbm (s : State) (b : Blk) (inst off : Nat) (v : Word) : (s.setReg b inst off v).hbm = s.hbm :=
    State.withRegs_hbm s _
@[simp] theorem State.setReg_streams (s : State) (b : Blk) (inst off : Nat) (v : Word) : (s.setReg b inst off v).streams = s.streams :=
    State.withRegs_streams s _
@[simp] theorem State.setReg_seq (s : State) (b : Blk) (inst off : Nat) (v : Word) : (s.setReg b inst off v).seq = s.seq :=
    State.withRegs_seq s _
@[simp] theorem State.setReg_images (s : State) (b : Blk) (inst off : Nat) (v : Word) : (s.setReg b inst off v).images = s.images :=
    State.withRegs_images s _
@[simp] theorem State.setReg_chans (s : State) (b : Blk) (inst off : Nat) (v : Word) : (s.setReg b inst off v).chans = s.chans :=
    State.withRegs_chans s _
@[simp] theorem State.setReg_frames (s : State) (b : Blk) (inst off : Nat) (v : Word) : (s.setReg b inst off v).frames = s.frames :=
    State.withRegs_frames s _
@[simp] theorem State.setReg_columns (s : State) (b : Blk) (inst off : Nat) (v : Word) : (s.setReg b inst off v).columns = s.columns :=
    State.withRegs_columns s _
@[simp] theorem State.setReg_nodes (s : State) (b : Blk) (inst off : Nat) (v : Word) : (s.setReg b inst off v).nodes = s.nodes :=
    State.withRegs_nodes s _
@[simp] theorem State.setReg_copies (s : State) (b : Blk) (inst off : Nat) (v : Word) : (s.setReg b inst off v).copies = s.copies :=
    State.withRegs_copies s _
@[simp] theorem State.setReg_backups (s : State) (b : Blk) (inst off : Nat) (v : Word) : (s.setReg b inst off v).backups = s.backups :=
    State.withRegs_backups s _
@[simp] theorem State.setReg_ringCopies (s : State) (b : Blk) (inst off : Nat) (v : Word) : (s.setReg b inst off v).ringCopies = s.ringCopies :=
    State.withRegs_ringCopies s _
@[simp] theorem State.setReg_grammarChecks (s : State) (b : Blk) (inst off : Nat) (v : Word) : (s.setReg b inst off v).grammarChecks = s.grammarChecks :=
    State.withRegs_grammarChecks s _
@[simp] theorem State.setReg_zports (s : State) (b : Blk) (inst off : Nat) (v : Word) : (s.setReg b inst off v).zports = s.zports :=
    State.withRegs_zports s _
@[simp] theorem State.setReg_uncabled (s : State) (b : Blk) (inst off : Nat) (v : Word) : (s.setReg b inst off v).uncabled = s.uncabled :=
    State.withRegs_uncabled s _
@[simp] theorem State.setReg_sliceFailed (s : State) (b : Blk) (inst off : Nat) (v : Word) : (s.setReg b inst off v).sliceFailed = s.sliceFailed :=
    State.withRegs_sliceFailed s _
@[simp] theorem State.setReg_portOut (s : State) (b : Blk) (inst off : Nat) (v : Word) : (s.setReg b inst off v).portOut = s.portOut :=
    State.withRegs_portOut s _
@[simp] theorem State.setReg_gen (s : State) (b : Blk) (inst off : Nat) (v : Word) : (s.setReg b inst off v).gen = s.gen :=
    State.withRegs_gen s _
@[simp] theorem State.setReg_forwarding (s : State) (b : Blk) (inst off : Nat) (v : Word) : (s.setReg b inst off v).forwarding = s.forwarding :=
    State.withRegs_forwarding s _
@[simp] theorem State.setReg_portA (s : State) (b : Blk) (inst off : Nat) (v : Word) : (s.setReg b inst off v).portA = s.portA :=
    State.withRegs_portA s _
@[simp] theorem State.setReg_portB (s : State) (b : Blk) (inst off : Nat) (v : Word) : (s.setReg b inst off v).portB = s.portB :=
    State.withRegs_portB s _
@[simp] theorem State.setReg_msix (s : State) (b : Blk) (inst off : Nat) (v : Word) : (s.setReg b inst off v).msix = s.msix :=
    State.withRegs_msix s _
@[simp] theorem State.setReg_hostMem (s : State) (b : Blk) (inst off : Nat) (v : Word) : (s.setReg b inst off v).hostMem = s.hostMem :=
    State.withRegs_hostMem s _
@[simp] theorem State.setReg_basins (s : State) (b : Blk) (inst off : Nat) (v : Word) : (s.setReg b inst off v).basins = s.basins :=
    State.withRegs_basins s _
@[simp] theorem State.setReg_west (s : State) (b : Blk) (inst off : Nat) (v : Word) : (s.setReg b inst off v).west = s.west :=
    State.withRegs_west s _
@[simp] theorem State.setReg_east (s : State) (b : Blk) (inst off : Nat) (v : Word) : (s.setReg b inst off v).east = s.east :=
    State.withRegs_east s _
@[simp] theorem State.setReg_powerSteps (s : State) (b : Blk) (inst off : Nat) (v : Word) : (s.setReg b inst off v).powerSteps = s.powerSteps :=
    State.withRegs_powerSteps s _
@[simp] theorem State.setReg_cool (s : State) (b : Blk) (inst off : Nat) (v : Word) : (s.setReg b inst off v).cool = s.cool :=
    State.withRegs_cool s _
@[simp] theorem State.setReg_sites (s : State) (b : Blk) (inst off : Nat) (v : Word) : (s.setReg b inst off v).sites = s.sites :=
    State.withRegs_sites s _
@[simp] theorem State.setReg_heartbeats (s : State) (b : Blk) (inst off : Nat) (v : Word) : (s.setReg b inst off v).heartbeats = s.heartbeats :=
    State.withRegs_heartbeats s _
@[simp] theorem State.setReg_unav (s : State) (b : Blk) (inst off : Nat) (v : Word) : (s.setReg b inst off v).unav = s.unav :=
    State.withRegs_unav s _
@[simp] theorem State.setReg_flt (s : State) (b : Blk) (inst off : Nat) (v : Word) : (s.setReg b inst off v).flt = s.flt :=
    State.withRegs_flt s _
@[simp] theorem State.setReg_secu (s : State) (b : Blk) (inst off : Nat) (v : Word) : (s.setReg b inst off v).secu = s.secu :=
    State.withRegs_secu s _

@[simp] theorem State.setRegI_pending (s : State) (b : Blk) (inst off i : Nat) (v : Word) : (s.setRegI b inst off i v).pending = s.pending :=
    State.withRegs_pending s _
@[simp] theorem State.setRegI_stamp (s : State) (b : Blk) (inst off i : Nat) (v : Word) : (s.setRegI b inst off i v).stamp = s.stamp :=
    State.withRegs_stamp s _
@[simp] theorem State.setRegI_draws (s : State) (b : Blk) (inst off i : Nat) (v : Word) : (s.setRegI b inst off i v).draws = s.draws :=
    State.withRegs_draws s _
@[simp] theorem State.setRegI_countFrom (s : State) (b : Blk) (inst off i : Nat) (v : Word) : (s.setRegI b inst off i v).countFrom = s.countFrom :=
    State.withRegs_countFrom s _
@[simp] theorem State.setRegI_fuses (s : State) (b : Blk) (inst off i : Nat) (v : Word) : (s.setRegI b inst off i v).fuses = s.fuses :=
    State.withRegs_fuses s _
@[simp] theorem State.setRegI_flash (s : State) (b : Blk) (inst off i : Nat) (v : Word) : (s.setRegI b inst off i v).flash = s.flash :=
    State.withRegs_flash s _
@[simp] theorem State.setRegI_straps (s : State) (b : Blk) (inst off i : Nat) (v : Word) : (s.setRegI b inst off i v).straps = s.straps :=
    State.withRegs_straps s _
@[simp] theorem State.setRegI_mctpBusy (s : State) (b : Blk) (inst off i : Nat) (v : Word) : (s.setRegI b inst off i v).mctpBusy = s.mctpBusy :=
    State.withRegs_mctpBusy s _
@[simp] theorem State.setRegI_powered (s : State) (b : Blk) (inst off i : Nat) (v : Word) : (s.setRegI b inst off i v).powered = s.powered :=
    State.withRegs_powered s _
@[simp] theorem State.setRegI_stage (s : State) (b : Blk) (inst off i : Nat) (v : Word) : (s.setRegI b inst off i v).stage = s.stage :=
    State.withRegs_stage s _
@[simp] theorem State.setRegI_tms (s : State) (b : Blk) (inst off i : Nat) (v : Word) : (s.setRegI b inst off i v).tms = s.tms :=
    State.withRegs_tms s _
@[simp] theorem State.setRegI_fwStarted (s : State) (b : Blk) (inst off i : Nat) (v : Word) : (s.setRegI b inst off i v).fwStarted = s.fwStarted :=
    State.withRegs_fwStarted s _
@[simp] theorem State.setRegI_refLost (s : State) (b : Blk) (inst off i : Nat) (v : Word) : (s.setRegI b inst off i v).refLost = s.refLost :=
    State.withRegs_refLost s _
@[simp] theorem State.setRegI_plateLost (s : State) (b : Blk) (inst off i : Nat) (v : Word) : (s.setRegI b inst off i v).plateLost = s.plateLost :=
    State.withRegs_plateLost s _
@[simp] theorem State.setRegI_resetPending (s : State) (b : Blk) (inst off i : Nat) (v : Word) : (s.setRegI b inst off i v).resetPending = s.resetPending :=
    State.withRegs_resetPending s _
@[simp] theorem State.setRegI_alert (s : State) (b : Blk) (inst off i : Nat) (v : Word) : (s.setRegI b inst off i v).alert = s.alert :=
    State.withRegs_alert s _
@[simp] theorem State.setRegI_dgen (s : State) (b : Blk) (inst off i : Nat) (v : Word) : (s.setRegI b inst off i v).dgen = s.dgen :=
    State.withRegs_dgen s _
@[simp] theorem State.setRegI_dgenBusy (s : State) (b : Blk) (inst off i : Nat) (v : Word) : (s.setRegI b inst off i v).dgenBusy = s.dgenBusy :=
    State.withRegs_dgenBusy s _
@[simp] theorem State.setRegI_tableArea (s : State) (b : Blk) (inst off i : Nat) (v : Word) : (s.setRegI b inst off i v).tableArea = s.tableArea :=
    State.withRegs_tableArea s _
@[simp] theorem State.setRegI_berths (s : State) (b : Blk) (inst off i : Nat) (v : Word) : (s.setRegI b inst off i v).berths = s.berths :=
    State.withRegs_berths s _
@[simp] theorem State.setRegI_cores (s : State) (b : Blk) (inst off i : Nat) (v : Word) : (s.setRegI b inst off i v).cores = s.cores :=
    State.withRegs_cores s _
@[simp] theorem State.setRegI_coresMode (s : State) (b : Blk) (inst off i : Nat) (v : Word) : (s.setRegI b inst off i v).coresMode = s.coresMode :=
    State.withRegs_coresMode s _
@[simp] theorem State.setRegI_boundsHeld (s : State) (b : Blk) (inst off i : Nat) (v : Word) : (s.setRegI b inst off i v).boundsHeld = s.boundsHeld :=
    State.withRegs_boundsHeld s _
@[simp] theorem State.setRegI_links (s : State) (b : Blk) (inst off i : Nat) (v : Word) : (s.setRegI b inst off i v).links = s.links :=
    State.withRegs_links s _
@[simp] theorem State.setRegI_ways (s : State) (b : Blk) (inst off i : Nat) (v : Word) : (s.setRegI b inst off i v).ways = s.ways :=
    State.withRegs_ways s _
@[simp] theorem State.setRegI_packets (s : State) (b : Blk) (inst off i : Nat) (v : Word) : (s.setRegI b inst off i v).packets = s.packets :=
    State.withRegs_packets s _
@[simp] theorem State.setRegI_packetNext (s : State) (b : Blk) (inst off i : Nat) (v : Word) : (s.setRegI b inst off i v).packetNext = s.packetNext :=
    State.withRegs_packetNext s _
@[simp] theorem State.setRegI_delivered (s : State) (b : Blk) (inst off i : Nat) (v : Word) : (s.setRegI b inst off i v).delivered = s.delivered :=
    State.withRegs_delivered s _
@[simp] theorem State.setRegI_passed (s : State) (b : Blk) (inst off i : Nat) (v : Word) : (s.setRegI b inst off i v).passed = s.passed :=
    State.withRegs_passed s _
@[simp] theorem State.setRegI_oneLeft (s : State) (b : Blk) (inst off i : Nat) (v : Word) : (s.setRegI b inst off i v).oneLeft = s.oneLeft :=
    State.withRegs_oneLeft s _
@[simp] theorem State.setRegI_treeMoved (s : State) (b : Blk) (inst off i : Nat) (v : Word) : (s.setRegI b inst off i v).treeMoved = s.treeMoved :=
    State.withRegs_treeMoved s _
@[simp] theorem State.setRegI_barrierTimer (s : State) (b : Blk) (inst off i : Nat) (v : Word) : (s.setRegI b inst off i v).barrierTimer = s.barrierTimer :=
    State.withRegs_barrierTimer s _
@[simp] theorem State.setRegI_lateSent (s : State) (b : Blk) (inst off i : Nat) (v : Word) : (s.setRegI b inst off i v).lateSent = s.lateSent :=
    State.withRegs_lateSent s _
@[simp] theorem State.setRegI_timeMsg (s : State) (b : Blk) (inst off i : Nat) (v : Word) : (s.setRegI b inst off i v).timeMsg = s.timeMsg :=
    State.withRegs_timeMsg s _
@[simp] theorem State.setRegI_nodeClocks (s : State) (b : Blk) (inst off i : Nat) (v : Word) : (s.setRegI b inst off i v).nodeClocks = s.nodeClocks :=
    State.withRegs_nodeClocks s _
@[simp] theorem State.setRegI_sliceIn (s : State) (b : Blk) (inst off i : Nat) (v : Word) : (s.setRegI b inst off i v).sliceIn = s.sliceIn :=
    State.withRegs_sliceIn s _
@[simp] theorem State.setRegI_tier (s : State) (b : Blk) (inst off i : Nat) (v : Word) : (s.setRegI b inst off i v).tier = s.tier :=
    State.withRegs_tier s _
@[simp] theorem State.setRegI_hbm (s : State) (b : Blk) (inst off i : Nat) (v : Word) : (s.setRegI b inst off i v).hbm = s.hbm :=
    State.withRegs_hbm s _
@[simp] theorem State.setRegI_streams (s : State) (b : Blk) (inst off i : Nat) (v : Word) : (s.setRegI b inst off i v).streams = s.streams :=
    State.withRegs_streams s _
@[simp] theorem State.setRegI_seq (s : State) (b : Blk) (inst off i : Nat) (v : Word) : (s.setRegI b inst off i v).seq = s.seq :=
    State.withRegs_seq s _
@[simp] theorem State.setRegI_images (s : State) (b : Blk) (inst off i : Nat) (v : Word) : (s.setRegI b inst off i v).images = s.images :=
    State.withRegs_images s _
@[simp] theorem State.setRegI_chans (s : State) (b : Blk) (inst off i : Nat) (v : Word) : (s.setRegI b inst off i v).chans = s.chans :=
    State.withRegs_chans s _
@[simp] theorem State.setRegI_frames (s : State) (b : Blk) (inst off i : Nat) (v : Word) : (s.setRegI b inst off i v).frames = s.frames :=
    State.withRegs_frames s _
@[simp] theorem State.setRegI_columns (s : State) (b : Blk) (inst off i : Nat) (v : Word) : (s.setRegI b inst off i v).columns = s.columns :=
    State.withRegs_columns s _
@[simp] theorem State.setRegI_nodes (s : State) (b : Blk) (inst off i : Nat) (v : Word) : (s.setRegI b inst off i v).nodes = s.nodes :=
    State.withRegs_nodes s _
@[simp] theorem State.setRegI_copies (s : State) (b : Blk) (inst off i : Nat) (v : Word) : (s.setRegI b inst off i v).copies = s.copies :=
    State.withRegs_copies s _
@[simp] theorem State.setRegI_backups (s : State) (b : Blk) (inst off i : Nat) (v : Word) : (s.setRegI b inst off i v).backups = s.backups :=
    State.withRegs_backups s _
@[simp] theorem State.setRegI_ringCopies (s : State) (b : Blk) (inst off i : Nat) (v : Word) : (s.setRegI b inst off i v).ringCopies = s.ringCopies :=
    State.withRegs_ringCopies s _
@[simp] theorem State.setRegI_grammarChecks (s : State) (b : Blk) (inst off i : Nat) (v : Word) : (s.setRegI b inst off i v).grammarChecks = s.grammarChecks :=
    State.withRegs_grammarChecks s _
@[simp] theorem State.setRegI_zports (s : State) (b : Blk) (inst off i : Nat) (v : Word) : (s.setRegI b inst off i v).zports = s.zports :=
    State.withRegs_zports s _
@[simp] theorem State.setRegI_uncabled (s : State) (b : Blk) (inst off i : Nat) (v : Word) : (s.setRegI b inst off i v).uncabled = s.uncabled :=
    State.withRegs_uncabled s _
@[simp] theorem State.setRegI_sliceFailed (s : State) (b : Blk) (inst off i : Nat) (v : Word) : (s.setRegI b inst off i v).sliceFailed = s.sliceFailed :=
    State.withRegs_sliceFailed s _
@[simp] theorem State.setRegI_portOut (s : State) (b : Blk) (inst off i : Nat) (v : Word) : (s.setRegI b inst off i v).portOut = s.portOut :=
    State.withRegs_portOut s _
@[simp] theorem State.setRegI_gen (s : State) (b : Blk) (inst off i : Nat) (v : Word) : (s.setRegI b inst off i v).gen = s.gen :=
    State.withRegs_gen s _
@[simp] theorem State.setRegI_forwarding (s : State) (b : Blk) (inst off i : Nat) (v : Word) : (s.setRegI b inst off i v).forwarding = s.forwarding :=
    State.withRegs_forwarding s _
@[simp] theorem State.setRegI_portA (s : State) (b : Blk) (inst off i : Nat) (v : Word) : (s.setRegI b inst off i v).portA = s.portA :=
    State.withRegs_portA s _
@[simp] theorem State.setRegI_portB (s : State) (b : Blk) (inst off i : Nat) (v : Word) : (s.setRegI b inst off i v).portB = s.portB :=
    State.withRegs_portB s _
@[simp] theorem State.setRegI_msix (s : State) (b : Blk) (inst off i : Nat) (v : Word) : (s.setRegI b inst off i v).msix = s.msix :=
    State.withRegs_msix s _
@[simp] theorem State.setRegI_hostMem (s : State) (b : Blk) (inst off i : Nat) (v : Word) : (s.setRegI b inst off i v).hostMem = s.hostMem :=
    State.withRegs_hostMem s _
@[simp] theorem State.setRegI_basins (s : State) (b : Blk) (inst off i : Nat) (v : Word) : (s.setRegI b inst off i v).basins = s.basins :=
    State.withRegs_basins s _
@[simp] theorem State.setRegI_west (s : State) (b : Blk) (inst off i : Nat) (v : Word) : (s.setRegI b inst off i v).west = s.west :=
    State.withRegs_west s _
@[simp] theorem State.setRegI_east (s : State) (b : Blk) (inst off i : Nat) (v : Word) : (s.setRegI b inst off i v).east = s.east :=
    State.withRegs_east s _
@[simp] theorem State.setRegI_powerSteps (s : State) (b : Blk) (inst off i : Nat) (v : Word) : (s.setRegI b inst off i v).powerSteps = s.powerSteps :=
    State.withRegs_powerSteps s _
@[simp] theorem State.setRegI_cool (s : State) (b : Blk) (inst off i : Nat) (v : Word) : (s.setRegI b inst off i v).cool = s.cool :=
    State.withRegs_cool s _
@[simp] theorem State.setRegI_sites (s : State) (b : Blk) (inst off i : Nat) (v : Word) : (s.setRegI b inst off i v).sites = s.sites :=
    State.withRegs_sites s _
@[simp] theorem State.setRegI_heartbeats (s : State) (b : Blk) (inst off i : Nat) (v : Word) : (s.setRegI b inst off i v).heartbeats = s.heartbeats :=
    State.withRegs_heartbeats s _
@[simp] theorem State.setRegI_unav (s : State) (b : Blk) (inst off i : Nat) (v : Word) : (s.setRegI b inst off i v).unav = s.unav :=
    State.withRegs_unav s _
@[simp] theorem State.setRegI_flt (s : State) (b : Blk) (inst off i : Nat) (v : Word) : (s.setRegI b inst off i v).flt = s.flt :=
    State.withRegs_flt s _
@[simp] theorem State.setRegI_secu (s : State) (b : Blk) (inst off i : Nat) (v : Word) : (s.setRegI b inst off i v).secu = s.secu :=
    State.withRegs_secu s _

@[simp] theorem State.drawn_pending (s : State) : s.drawn.pending = s.pending := rfl
@[simp] theorem State.drawn_stamp (s : State) : s.drawn.stamp = s.stamp := rfl
@[simp] theorem State.drawn_countFrom (s : State) : s.drawn.countFrom = s.countFrom := rfl
@[simp] theorem State.drawn_fuses (s : State) : s.drawn.fuses = s.fuses := rfl
@[simp] theorem State.drawn_flash (s : State) : s.drawn.flash = s.flash := rfl
@[simp] theorem State.drawn_straps (s : State) : s.drawn.straps = s.straps := rfl
@[simp] theorem State.drawn_mctpBusy (s : State) : s.drawn.mctpBusy = s.mctpBusy := rfl
@[simp] theorem State.drawn_powered (s : State) : s.drawn.powered = s.powered := rfl
@[simp] theorem State.drawn_stage (s : State) : s.drawn.stage = s.stage := rfl
@[simp] theorem State.drawn_tms (s : State) : s.drawn.tms = s.tms := rfl
@[simp] theorem State.drawn_fwStarted (s : State) : s.drawn.fwStarted = s.fwStarted := rfl
@[simp] theorem State.drawn_refLost (s : State) : s.drawn.refLost = s.refLost := rfl
@[simp] theorem State.drawn_plateLost (s : State) : s.drawn.plateLost = s.plateLost := rfl
@[simp] theorem State.drawn_resetPending (s : State) : s.drawn.resetPending = s.resetPending := rfl
@[simp] theorem State.drawn_alert (s : State) : s.drawn.alert = s.alert := rfl
@[simp] theorem State.drawn_dgen (s : State) : s.drawn.dgen = s.dgen := rfl
@[simp] theorem State.drawn_dgenBusy (s : State) : s.drawn.dgenBusy = s.dgenBusy := rfl
@[simp] theorem State.drawn_tableArea (s : State) : s.drawn.tableArea = s.tableArea := rfl
@[simp] theorem State.drawn_regs (s : State) : s.drawn.regs = s.regs := rfl
@[simp] theorem State.drawn_berths (s : State) : s.drawn.berths = s.berths := rfl
@[simp] theorem State.drawn_cores (s : State) : s.drawn.cores = s.cores := rfl
@[simp] theorem State.drawn_coresMode (s : State) : s.drawn.coresMode = s.coresMode := rfl
@[simp] theorem State.drawn_boundsHeld (s : State) : s.drawn.boundsHeld = s.boundsHeld := rfl
@[simp] theorem State.drawn_links (s : State) : s.drawn.links = s.links := rfl
@[simp] theorem State.drawn_ways (s : State) : s.drawn.ways = s.ways := rfl
@[simp] theorem State.drawn_packets (s : State) : s.drawn.packets = s.packets := rfl
@[simp] theorem State.drawn_packetNext (s : State) : s.drawn.packetNext = s.packetNext := rfl
@[simp] theorem State.drawn_delivered (s : State) : s.drawn.delivered = s.delivered := rfl
@[simp] theorem State.drawn_passed (s : State) : s.drawn.passed = s.passed := rfl
@[simp] theorem State.drawn_oneLeft (s : State) : s.drawn.oneLeft = s.oneLeft := rfl
@[simp] theorem State.drawn_treeMoved (s : State) : s.drawn.treeMoved = s.treeMoved := rfl
@[simp] theorem State.drawn_barrierTimer (s : State) : s.drawn.barrierTimer = s.barrierTimer := rfl
@[simp] theorem State.drawn_lateSent (s : State) : s.drawn.lateSent = s.lateSent := rfl
@[simp] theorem State.drawn_timeMsg (s : State) : s.drawn.timeMsg = s.timeMsg := rfl
@[simp] theorem State.drawn_nodeClocks (s : State) : s.drawn.nodeClocks = s.nodeClocks := rfl
@[simp] theorem State.drawn_sliceIn (s : State) : s.drawn.sliceIn = s.sliceIn := rfl
@[simp] theorem State.drawn_tier (s : State) : s.drawn.tier = s.tier := rfl
@[simp] theorem State.drawn_hbm (s : State) : s.drawn.hbm = s.hbm := rfl
@[simp] theorem State.drawn_streams (s : State) : s.drawn.streams = s.streams := rfl
@[simp] theorem State.drawn_seq (s : State) : s.drawn.seq = s.seq := rfl
@[simp] theorem State.drawn_images (s : State) : s.drawn.images = s.images := rfl
@[simp] theorem State.drawn_chans (s : State) : s.drawn.chans = s.chans := rfl
@[simp] theorem State.drawn_frames (s : State) : s.drawn.frames = s.frames := rfl
@[simp] theorem State.drawn_columns (s : State) : s.drawn.columns = s.columns := rfl
@[simp] theorem State.drawn_nodes (s : State) : s.drawn.nodes = s.nodes := rfl
@[simp] theorem State.drawn_copies (s : State) : s.drawn.copies = s.copies := rfl
@[simp] theorem State.drawn_backups (s : State) : s.drawn.backups = s.backups := rfl
@[simp] theorem State.drawn_ringCopies (s : State) : s.drawn.ringCopies = s.ringCopies := rfl
@[simp] theorem State.drawn_grammarChecks (s : State) : s.drawn.grammarChecks = s.grammarChecks := rfl
@[simp] theorem State.drawn_zports (s : State) : s.drawn.zports = s.zports := rfl
@[simp] theorem State.drawn_uncabled (s : State) : s.drawn.uncabled = s.uncabled := rfl
@[simp] theorem State.drawn_sliceFailed (s : State) : s.drawn.sliceFailed = s.sliceFailed := rfl
@[simp] theorem State.drawn_portOut (s : State) : s.drawn.portOut = s.portOut := rfl
@[simp] theorem State.drawn_gen (s : State) : s.drawn.gen = s.gen := rfl
@[simp] theorem State.drawn_forwarding (s : State) : s.drawn.forwarding = s.forwarding := rfl
@[simp] theorem State.drawn_portA (s : State) : s.drawn.portA = s.portA := rfl
@[simp] theorem State.drawn_portB (s : State) : s.drawn.portB = s.portB := rfl
@[simp] theorem State.drawn_msix (s : State) : s.drawn.msix = s.msix := rfl
@[simp] theorem State.drawn_hostMem (s : State) : s.drawn.hostMem = s.hostMem := rfl
@[simp] theorem State.drawn_basins (s : State) : s.drawn.basins = s.basins := rfl
@[simp] theorem State.drawn_west (s : State) : s.drawn.west = s.west := rfl
@[simp] theorem State.drawn_east (s : State) : s.drawn.east = s.east := rfl
@[simp] theorem State.drawn_powerSteps (s : State) : s.drawn.powerSteps = s.powerSteps := rfl
@[simp] theorem State.drawn_cool (s : State) : s.drawn.cool = s.cool := rfl
@[simp] theorem State.drawn_sites (s : State) : s.drawn.sites = s.sites := rfl
@[simp] theorem State.drawn_heartbeats (s : State) : s.drawn.heartbeats = s.heartbeats := rfl
@[simp] theorem State.drawn_unav (s : State) : s.drawn.unav = s.unav := rfl
@[simp] theorem State.drawn_flt (s : State) : s.drawn.flt = s.flt := rfl
@[simp] theorem State.drawn_secu (s : State) : s.drawn.secu = s.secu := rfl
@[simp] theorem State.drawn_berth_at (s : State) (j : Nat) : s.drawn.berth j = s.berth j := rfl
@[simp] theorem State.drawn_core_at (s : State) (j : Nat) : s.drawn.core j = s.core j := rfl
@[simp] theorem State.drawn_link_at (s : State) (j : Nat) : s.drawn.link j = s.link j := rfl
@[simp] theorem State.drawn_way_at (s : State) (j : Nat) : s.drawn.way j = s.way j := rfl
@[simp] theorem State.drawn_stack_at (s : State) (j : Nat) : s.drawn.stack j = s.stack j := rfl
@[simp] theorem State.drawn_stream_at (s : State) (j : Nat) : s.drawn.stream j = s.stream j := rfl
@[simp] theorem State.drawn_image_at (s : State) (j : Nat) : s.drawn.image j = s.image j := rfl
@[simp] theorem State.drawn_chan_at (s : State) (j : Nat) : s.drawn.chan j = s.chan j := rfl
@[simp] theorem State.drawn_zport_at (s : State) (j : Nat) : s.drawn.zport j = s.zport j := rfl
@[simp] theorem State.drawn_basin_at (s : State) (j : Nat) : s.drawn.basin j = s.basin j := rfl
@[simp] theorem State.drawn_site_at (s : State) (j : Nat) : s.drawn.site j = s.site j := rfl
@[simp] theorem State.drawn_port_at (s : State) (q : HostPort) : s.drawn.port q = s.port q := rfl
@[simp] theorem State.drawn_half_at (s : State) (w : Half) : s.drawn.half w = s.half w := rfl
@[simp] theorem State.drawn_reg_at (s : State) (b' : Blk) (inst' off' : Nat) : s.drawn.reg b' inst' off' = s.reg b' inst' off' := rfl
@[simp] theorem State.drawn_regI_at (s : State) (b' : Blk) (inst' off' i' : Nat) : s.drawn.regI b' inst' off' i' = s.regI b' inst' off' i' :=
    rfl

@[simp] theorem State.setPort_pending (s : State) (p : HostPort) (x : Port) : (s.setPort p x).pending = s.pending := by cases p <;> rfl
@[simp] theorem State.setPort_stamp (s : State) (p : HostPort) (x : Port) : (s.setPort p x).stamp = s.stamp := by cases p <;> rfl
@[simp] theorem State.setPort_draws (s : State) (p : HostPort) (x : Port) : (s.setPort p x).draws = s.draws := by cases p <;> rfl
@[simp] theorem State.setPort_countFrom (s : State) (p : HostPort) (x : Port) : (s.setPort p x).countFrom = s.countFrom :=
    by cases p <;> rfl
@[simp] theorem State.setPort_fuses (s : State) (p : HostPort) (x : Port) : (s.setPort p x).fuses = s.fuses := by cases p <;> rfl
@[simp] theorem State.setPort_flash (s : State) (p : HostPort) (x : Port) : (s.setPort p x).flash = s.flash := by cases p <;> rfl
@[simp] theorem State.setPort_straps (s : State) (p : HostPort) (x : Port) : (s.setPort p x).straps = s.straps := by cases p <;> rfl
@[simp] theorem State.setPort_mctpBusy (s : State) (p : HostPort) (x : Port) : (s.setPort p x).mctpBusy = s.mctpBusy := by cases p <;> rfl
@[simp] theorem State.setPort_powered (s : State) (p : HostPort) (x : Port) : (s.setPort p x).powered = s.powered := by cases p <;> rfl
@[simp] theorem State.setPort_stage (s : State) (p : HostPort) (x : Port) : (s.setPort p x).stage = s.stage := by cases p <;> rfl
@[simp] theorem State.setPort_tms (s : State) (p : HostPort) (x : Port) : (s.setPort p x).tms = s.tms := by cases p <;> rfl
@[simp] theorem State.setPort_fwStarted (s : State) (p : HostPort) (x : Port) : (s.setPort p x).fwStarted = s.fwStarted :=
    by cases p <;> rfl
@[simp] theorem State.setPort_refLost (s : State) (p : HostPort) (x : Port) : (s.setPort p x).refLost = s.refLost := by cases p <;> rfl
@[simp] theorem State.setPort_plateLost (s : State) (p : HostPort) (x : Port) : (s.setPort p x).plateLost = s.plateLost :=
    by cases p <;> rfl
@[simp] theorem State.setPort_resetPending (s : State) (p : HostPort) (x : Port) : (s.setPort p x).resetPending = s.resetPending :=
    by cases p <;> rfl
@[simp] theorem State.setPort_alert (s : State) (p : HostPort) (x : Port) : (s.setPort p x).alert = s.alert := by cases p <;> rfl
@[simp] theorem State.setPort_dgen (s : State) (p : HostPort) (x : Port) : (s.setPort p x).dgen = s.dgen := by cases p <;> rfl
@[simp] theorem State.setPort_dgenBusy (s : State) (p : HostPort) (x : Port) : (s.setPort p x).dgenBusy = s.dgenBusy := by cases p <;> rfl
@[simp] theorem State.setPort_tableArea (s : State) (p : HostPort) (x : Port) : (s.setPort p x).tableArea = s.tableArea :=
    by cases p <;> rfl
@[simp] theorem State.setPort_regs (s : State) (p : HostPort) (x : Port) : (s.setPort p x).regs = s.regs := by cases p <;> rfl
@[simp] theorem State.setPort_berths (s : State) (p : HostPort) (x : Port) : (s.setPort p x).berths = s.berths := by cases p <;> rfl
@[simp] theorem State.setPort_cores (s : State) (p : HostPort) (x : Port) : (s.setPort p x).cores = s.cores := by cases p <;> rfl
@[simp] theorem State.setPort_coresMode (s : State) (p : HostPort) (x : Port) : (s.setPort p x).coresMode = s.coresMode :=
    by cases p <;> rfl
@[simp] theorem State.setPort_boundsHeld (s : State) (p : HostPort) (x : Port) : (s.setPort p x).boundsHeld = s.boundsHeld :=
    by cases p <;> rfl
@[simp] theorem State.setPort_links (s : State) (p : HostPort) (x : Port) : (s.setPort p x).links = s.links := by cases p <;> rfl
@[simp] theorem State.setPort_ways (s : State) (p : HostPort) (x : Port) : (s.setPort p x).ways = s.ways := by cases p <;> rfl
@[simp] theorem State.setPort_packets (s : State) (p : HostPort) (x : Port) : (s.setPort p x).packets = s.packets := by cases p <;> rfl
@[simp] theorem State.setPort_packetNext (s : State) (p : HostPort) (x : Port) : (s.setPort p x).packetNext = s.packetNext :=
    by cases p <;> rfl
@[simp] theorem State.setPort_delivered (s : State) (p : HostPort) (x : Port) : (s.setPort p x).delivered = s.delivered :=
    by cases p <;> rfl
@[simp] theorem State.setPort_passed (s : State) (p : HostPort) (x : Port) : (s.setPort p x).passed = s.passed := by cases p <;> rfl
@[simp] theorem State.setPort_oneLeft (s : State) (p : HostPort) (x : Port) : (s.setPort p x).oneLeft = s.oneLeft := by cases p <;> rfl
@[simp] theorem State.setPort_treeMoved (s : State) (p : HostPort) (x : Port) : (s.setPort p x).treeMoved = s.treeMoved :=
    by cases p <;> rfl
@[simp] theorem State.setPort_barrierTimer (s : State) (p : HostPort) (x : Port) : (s.setPort p x).barrierTimer = s.barrierTimer :=
    by cases p <;> rfl
@[simp] theorem State.setPort_lateSent (s : State) (p : HostPort) (x : Port) : (s.setPort p x).lateSent = s.lateSent := by cases p <;> rfl
@[simp] theorem State.setPort_timeMsg (s : State) (p : HostPort) (x : Port) : (s.setPort p x).timeMsg = s.timeMsg := by cases p <;> rfl
@[simp] theorem State.setPort_nodeClocks (s : State) (p : HostPort) (x : Port) : (s.setPort p x).nodeClocks = s.nodeClocks :=
    by cases p <;> rfl
@[simp] theorem State.setPort_sliceIn (s : State) (p : HostPort) (x : Port) : (s.setPort p x).sliceIn = s.sliceIn := by cases p <;> rfl
@[simp] theorem State.setPort_tier (s : State) (p : HostPort) (x : Port) : (s.setPort p x).tier = s.tier := by cases p <;> rfl
@[simp] theorem State.setPort_hbm (s : State) (p : HostPort) (x : Port) : (s.setPort p x).hbm = s.hbm := by cases p <;> rfl
@[simp] theorem State.setPort_streams (s : State) (p : HostPort) (x : Port) : (s.setPort p x).streams = s.streams := by cases p <;> rfl
@[simp] theorem State.setPort_seq (s : State) (p : HostPort) (x : Port) : (s.setPort p x).seq = s.seq := by cases p <;> rfl
@[simp] theorem State.setPort_images (s : State) (p : HostPort) (x : Port) : (s.setPort p x).images = s.images := by cases p <;> rfl
@[simp] theorem State.setPort_chans (s : State) (p : HostPort) (x : Port) : (s.setPort p x).chans = s.chans := by cases p <;> rfl
@[simp] theorem State.setPort_frames (s : State) (p : HostPort) (x : Port) : (s.setPort p x).frames = s.frames := by cases p <;> rfl
@[simp] theorem State.setPort_columns (s : State) (p : HostPort) (x : Port) : (s.setPort p x).columns = s.columns := by cases p <;> rfl
@[simp] theorem State.setPort_nodes (s : State) (p : HostPort) (x : Port) : (s.setPort p x).nodes = s.nodes := by cases p <;> rfl
@[simp] theorem State.setPort_copies (s : State) (p : HostPort) (x : Port) : (s.setPort p x).copies = s.copies := by cases p <;> rfl
@[simp] theorem State.setPort_backups (s : State) (p : HostPort) (x : Port) : (s.setPort p x).backups = s.backups := by cases p <;> rfl
@[simp] theorem State.setPort_ringCopies (s : State) (p : HostPort) (x : Port) : (s.setPort p x).ringCopies = s.ringCopies :=
    by cases p <;> rfl
@[simp] theorem State.setPort_grammarChecks (s : State) (p : HostPort) (x : Port) : (s.setPort p x).grammarChecks = s.grammarChecks :=
    by cases p <;> rfl
@[simp] theorem State.setPort_zports (s : State) (p : HostPort) (x : Port) : (s.setPort p x).zports = s.zports := by cases p <;> rfl
@[simp] theorem State.setPort_uncabled (s : State) (p : HostPort) (x : Port) : (s.setPort p x).uncabled = s.uncabled := by cases p <;> rfl
@[simp] theorem State.setPort_sliceFailed (s : State) (p : HostPort) (x : Port) : (s.setPort p x).sliceFailed = s.sliceFailed :=
    by cases p <;> rfl
@[simp] theorem State.setPort_portOut (s : State) (p : HostPort) (x : Port) : (s.setPort p x).portOut = s.portOut := by cases p <;> rfl
@[simp] theorem State.setPort_gen (s : State) (p : HostPort) (x : Port) : (s.setPort p x).gen = s.gen := by cases p <;> rfl
@[simp] theorem State.setPort_forwarding (s : State) (p : HostPort) (x : Port) : (s.setPort p x).forwarding = s.forwarding :=
    by cases p <;> rfl
@[simp] theorem State.setPort_msix (s : State) (p : HostPort) (x : Port) : (s.setPort p x).msix = s.msix := by cases p <;> rfl
@[simp] theorem State.setPort_hostMem (s : State) (p : HostPort) (x : Port) : (s.setPort p x).hostMem = s.hostMem := by cases p <;> rfl
@[simp] theorem State.setPort_basins (s : State) (p : HostPort) (x : Port) : (s.setPort p x).basins = s.basins := by cases p <;> rfl
@[simp] theorem State.setPort_west (s : State) (p : HostPort) (x : Port) : (s.setPort p x).west = s.west := by cases p <;> rfl
@[simp] theorem State.setPort_east (s : State) (p : HostPort) (x : Port) : (s.setPort p x).east = s.east := by cases p <;> rfl
@[simp] theorem State.setPort_powerSteps (s : State) (p : HostPort) (x : Port) : (s.setPort p x).powerSteps = s.powerSteps :=
    by cases p <;> rfl
@[simp] theorem State.setPort_cool (s : State) (p : HostPort) (x : Port) : (s.setPort p x).cool = s.cool := by cases p <;> rfl
@[simp] theorem State.setPort_sites (s : State) (p : HostPort) (x : Port) : (s.setPort p x).sites = s.sites := by cases p <;> rfl
@[simp] theorem State.setPort_heartbeats (s : State) (p : HostPort) (x : Port) : (s.setPort p x).heartbeats = s.heartbeats :=
    by cases p <;> rfl
@[simp] theorem State.setPort_unav (s : State) (p : HostPort) (x : Port) : (s.setPort p x).unav = s.unav := by cases p <;> rfl
@[simp] theorem State.setPort_flt (s : State) (p : HostPort) (x : Port) : (s.setPort p x).flt = s.flt := by cases p <;> rfl
@[simp] theorem State.setPort_secu (s : State) (p : HostPort) (x : Port) : (s.setPort p x).secu = s.secu := by cases p <;> rfl
@[simp] theorem State.setPort_berth_at (s : State) (p : HostPort) (x : Port) (j : Nat) : (s.setPort p x).berth j = s.berth j :=
    by cases p <;> rfl
@[simp] theorem State.setPort_core_at (s : State) (p : HostPort) (x : Port) (j : Nat) : (s.setPort p x).core j = s.core j :=
    by cases p <;> rfl
@[simp] theorem State.setPort_link_at (s : State) (p : HostPort) (x : Port) (j : Nat) : (s.setPort p x).link j = s.link j :=
    by cases p <;> rfl
@[simp] theorem State.setPort_way_at (s : State) (p : HostPort) (x : Port) (j : Nat) : (s.setPort p x).way j = s.way j := by cases p <;> rfl
@[simp] theorem State.setPort_stack_at (s : State) (p : HostPort) (x : Port) (j : Nat) : (s.setPort p x).stack j = s.stack j :=
    by cases p <;> rfl
@[simp] theorem State.setPort_stream_at (s : State) (p : HostPort) (x : Port) (j : Nat) : (s.setPort p x).stream j = s.stream j :=
    by cases p <;> rfl
@[simp] theorem State.setPort_image_at (s : State) (p : HostPort) (x : Port) (j : Nat) : (s.setPort p x).image j = s.image j :=
    by cases p <;> rfl
@[simp] theorem State.setPort_chan_at (s : State) (p : HostPort) (x : Port) (j : Nat) : (s.setPort p x).chan j = s.chan j :=
    by cases p <;> rfl
@[simp] theorem State.setPort_zport_at (s : State) (p : HostPort) (x : Port) (j : Nat) : (s.setPort p x).zport j = s.zport j :=
    by cases p <;> rfl
@[simp] theorem State.setPort_basin_at (s : State) (p : HostPort) (x : Port) (j : Nat) : (s.setPort p x).basin j = s.basin j :=
    by cases p <;> rfl
@[simp] theorem State.setPort_site_at (s : State) (p : HostPort) (x : Port) (j : Nat) : (s.setPort p x).site j = s.site j :=
    by cases p <;> rfl
@[simp] theorem State.setPort_half_at (s : State) (p : HostPort) (x : Port) (w : Half) : (s.setPort p x).half w = s.half w :=
    by cases p <;> rfl
@[simp] theorem State.setPort_reg_at (s : State) (p : HostPort) (x : Port) (b' : Blk) (inst' off' : Nat) : (s.setPort p x).reg b' inst' off' = s.reg b' inst' off' :=
    by cases p <;> rfl
@[simp] theorem State.setPort_regI_at (s : State) (p : HostPort) (x : Port) (b' : Blk) (inst' off' i' : Nat) : (s.setPort p x).regI b' inst' off' i' = s.regI b' inst' off' i' :=
    by cases p <;> rfl

@[simp] theorem State.setHalf_pending (s : State) (h : Half) (x : HalfSt) : (s.setHalf h x).pending = s.pending := by cases h <;> rfl
@[simp] theorem State.setHalf_stamp (s : State) (h : Half) (x : HalfSt) : (s.setHalf h x).stamp = s.stamp := by cases h <;> rfl
@[simp] theorem State.setHalf_draws (s : State) (h : Half) (x : HalfSt) : (s.setHalf h x).draws = s.draws := by cases h <;> rfl
@[simp] theorem State.setHalf_countFrom (s : State) (h : Half) (x : HalfSt) : (s.setHalf h x).countFrom = s.countFrom := by cases h <;> rfl
@[simp] theorem State.setHalf_fuses (s : State) (h : Half) (x : HalfSt) : (s.setHalf h x).fuses = s.fuses := by cases h <;> rfl
@[simp] theorem State.setHalf_flash (s : State) (h : Half) (x : HalfSt) : (s.setHalf h x).flash = s.flash := by cases h <;> rfl
@[simp] theorem State.setHalf_straps (s : State) (h : Half) (x : HalfSt) : (s.setHalf h x).straps = s.straps := by cases h <;> rfl
@[simp] theorem State.setHalf_mctpBusy (s : State) (h : Half) (x : HalfSt) : (s.setHalf h x).mctpBusy = s.mctpBusy := by cases h <;> rfl
@[simp] theorem State.setHalf_powered (s : State) (h : Half) (x : HalfSt) : (s.setHalf h x).powered = s.powered := by cases h <;> rfl
@[simp] theorem State.setHalf_stage (s : State) (h : Half) (x : HalfSt) : (s.setHalf h x).stage = s.stage := by cases h <;> rfl
@[simp] theorem State.setHalf_tms (s : State) (h : Half) (x : HalfSt) : (s.setHalf h x).tms = s.tms := by cases h <;> rfl
@[simp] theorem State.setHalf_fwStarted (s : State) (h : Half) (x : HalfSt) : (s.setHalf h x).fwStarted = s.fwStarted := by cases h <;> rfl
@[simp] theorem State.setHalf_refLost (s : State) (h : Half) (x : HalfSt) : (s.setHalf h x).refLost = s.refLost := by cases h <;> rfl
@[simp] theorem State.setHalf_plateLost (s : State) (h : Half) (x : HalfSt) : (s.setHalf h x).plateLost = s.plateLost := by cases h <;> rfl
@[simp] theorem State.setHalf_resetPending (s : State) (h : Half) (x : HalfSt) : (s.setHalf h x).resetPending = s.resetPending :=
    by cases h <;> rfl
@[simp] theorem State.setHalf_alert (s : State) (h : Half) (x : HalfSt) : (s.setHalf h x).alert = s.alert := by cases h <;> rfl
@[simp] theorem State.setHalf_dgen (s : State) (h : Half) (x : HalfSt) : (s.setHalf h x).dgen = s.dgen := by cases h <;> rfl
@[simp] theorem State.setHalf_dgenBusy (s : State) (h : Half) (x : HalfSt) : (s.setHalf h x).dgenBusy = s.dgenBusy := by cases h <;> rfl
@[simp] theorem State.setHalf_tableArea (s : State) (h : Half) (x : HalfSt) : (s.setHalf h x).tableArea = s.tableArea := by cases h <;> rfl
@[simp] theorem State.setHalf_regs (s : State) (h : Half) (x : HalfSt) : (s.setHalf h x).regs = s.regs := by cases h <;> rfl
@[simp] theorem State.setHalf_berths (s : State) (h : Half) (x : HalfSt) : (s.setHalf h x).berths = s.berths := by cases h <;> rfl
@[simp] theorem State.setHalf_cores (s : State) (h : Half) (x : HalfSt) : (s.setHalf h x).cores = s.cores := by cases h <;> rfl
@[simp] theorem State.setHalf_coresMode (s : State) (h : Half) (x : HalfSt) : (s.setHalf h x).coresMode = s.coresMode := by cases h <;> rfl
@[simp] theorem State.setHalf_boundsHeld (s : State) (h : Half) (x : HalfSt) : (s.setHalf h x).boundsHeld = s.boundsHeld :=
    by cases h <;> rfl
@[simp] theorem State.setHalf_links (s : State) (h : Half) (x : HalfSt) : (s.setHalf h x).links = s.links := by cases h <;> rfl
@[simp] theorem State.setHalf_ways (s : State) (h : Half) (x : HalfSt) : (s.setHalf h x).ways = s.ways := by cases h <;> rfl
@[simp] theorem State.setHalf_packets (s : State) (h : Half) (x : HalfSt) : (s.setHalf h x).packets = s.packets := by cases h <;> rfl
@[simp] theorem State.setHalf_packetNext (s : State) (h : Half) (x : HalfSt) : (s.setHalf h x).packetNext = s.packetNext :=
    by cases h <;> rfl
@[simp] theorem State.setHalf_delivered (s : State) (h : Half) (x : HalfSt) : (s.setHalf h x).delivered = s.delivered := by cases h <;> rfl
@[simp] theorem State.setHalf_passed (s : State) (h : Half) (x : HalfSt) : (s.setHalf h x).passed = s.passed := by cases h <;> rfl
@[simp] theorem State.setHalf_oneLeft (s : State) (h : Half) (x : HalfSt) : (s.setHalf h x).oneLeft = s.oneLeft := by cases h <;> rfl
@[simp] theorem State.setHalf_treeMoved (s : State) (h : Half) (x : HalfSt) : (s.setHalf h x).treeMoved = s.treeMoved := by cases h <;> rfl
@[simp] theorem State.setHalf_barrierTimer (s : State) (h : Half) (x : HalfSt) : (s.setHalf h x).barrierTimer = s.barrierTimer :=
    by cases h <;> rfl
@[simp] theorem State.setHalf_lateSent (s : State) (h : Half) (x : HalfSt) : (s.setHalf h x).lateSent = s.lateSent := by cases h <;> rfl
@[simp] theorem State.setHalf_timeMsg (s : State) (h : Half) (x : HalfSt) : (s.setHalf h x).timeMsg = s.timeMsg := by cases h <;> rfl
@[simp] theorem State.setHalf_nodeClocks (s : State) (h : Half) (x : HalfSt) : (s.setHalf h x).nodeClocks = s.nodeClocks :=
    by cases h <;> rfl
@[simp] theorem State.setHalf_sliceIn (s : State) (h : Half) (x : HalfSt) : (s.setHalf h x).sliceIn = s.sliceIn := by cases h <;> rfl
@[simp] theorem State.setHalf_tier (s : State) (h : Half) (x : HalfSt) : (s.setHalf h x).tier = s.tier := by cases h <;> rfl
@[simp] theorem State.setHalf_hbm (s : State) (h : Half) (x : HalfSt) : (s.setHalf h x).hbm = s.hbm := by cases h <;> rfl
@[simp] theorem State.setHalf_streams (s : State) (h : Half) (x : HalfSt) : (s.setHalf h x).streams = s.streams := by cases h <;> rfl
@[simp] theorem State.setHalf_seq (s : State) (h : Half) (x : HalfSt) : (s.setHalf h x).seq = s.seq := by cases h <;> rfl
@[simp] theorem State.setHalf_images (s : State) (h : Half) (x : HalfSt) : (s.setHalf h x).images = s.images := by cases h <;> rfl
@[simp] theorem State.setHalf_chans (s : State) (h : Half) (x : HalfSt) : (s.setHalf h x).chans = s.chans := by cases h <;> rfl
@[simp] theorem State.setHalf_frames (s : State) (h : Half) (x : HalfSt) : (s.setHalf h x).frames = s.frames := by cases h <;> rfl
@[simp] theorem State.setHalf_columns (s : State) (h : Half) (x : HalfSt) : (s.setHalf h x).columns = s.columns := by cases h <;> rfl
@[simp] theorem State.setHalf_nodes (s : State) (h : Half) (x : HalfSt) : (s.setHalf h x).nodes = s.nodes := by cases h <;> rfl
@[simp] theorem State.setHalf_copies (s : State) (h : Half) (x : HalfSt) : (s.setHalf h x).copies = s.copies := by cases h <;> rfl
@[simp] theorem State.setHalf_backups (s : State) (h : Half) (x : HalfSt) : (s.setHalf h x).backups = s.backups := by cases h <;> rfl
@[simp] theorem State.setHalf_ringCopies (s : State) (h : Half) (x : HalfSt) : (s.setHalf h x).ringCopies = s.ringCopies :=
    by cases h <;> rfl
@[simp] theorem State.setHalf_grammarChecks (s : State) (h : Half) (x : HalfSt) : (s.setHalf h x).grammarChecks = s.grammarChecks :=
    by cases h <;> rfl
@[simp] theorem State.setHalf_zports (s : State) (h : Half) (x : HalfSt) : (s.setHalf h x).zports = s.zports := by cases h <;> rfl
@[simp] theorem State.setHalf_uncabled (s : State) (h : Half) (x : HalfSt) : (s.setHalf h x).uncabled = s.uncabled := by cases h <;> rfl
@[simp] theorem State.setHalf_sliceFailed (s : State) (h : Half) (x : HalfSt) : (s.setHalf h x).sliceFailed = s.sliceFailed :=
    by cases h <;> rfl
@[simp] theorem State.setHalf_portOut (s : State) (h : Half) (x : HalfSt) : (s.setHalf h x).portOut = s.portOut := by cases h <;> rfl
@[simp] theorem State.setHalf_gen (s : State) (h : Half) (x : HalfSt) : (s.setHalf h x).gen = s.gen := by cases h <;> rfl
@[simp] theorem State.setHalf_forwarding (s : State) (h : Half) (x : HalfSt) : (s.setHalf h x).forwarding = s.forwarding :=
    by cases h <;> rfl
@[simp] theorem State.setHalf_portA (s : State) (h : Half) (x : HalfSt) : (s.setHalf h x).portA = s.portA := by cases h <;> rfl
@[simp] theorem State.setHalf_portB (s : State) (h : Half) (x : HalfSt) : (s.setHalf h x).portB = s.portB := by cases h <;> rfl
@[simp] theorem State.setHalf_msix (s : State) (h : Half) (x : HalfSt) : (s.setHalf h x).msix = s.msix := by cases h <;> rfl
@[simp] theorem State.setHalf_hostMem (s : State) (h : Half) (x : HalfSt) : (s.setHalf h x).hostMem = s.hostMem := by cases h <;> rfl
@[simp] theorem State.setHalf_basins (s : State) (h : Half) (x : HalfSt) : (s.setHalf h x).basins = s.basins := by cases h <;> rfl
@[simp] theorem State.setHalf_powerSteps (s : State) (h : Half) (x : HalfSt) : (s.setHalf h x).powerSteps = s.powerSteps :=
    by cases h <;> rfl
@[simp] theorem State.setHalf_cool (s : State) (h : Half) (x : HalfSt) : (s.setHalf h x).cool = s.cool := by cases h <;> rfl
@[simp] theorem State.setHalf_sites (s : State) (h : Half) (x : HalfSt) : (s.setHalf h x).sites = s.sites := by cases h <;> rfl
@[simp] theorem State.setHalf_heartbeats (s : State) (h : Half) (x : HalfSt) : (s.setHalf h x).heartbeats = s.heartbeats :=
    by cases h <;> rfl
@[simp] theorem State.setHalf_unav (s : State) (h : Half) (x : HalfSt) : (s.setHalf h x).unav = s.unav := by cases h <;> rfl
@[simp] theorem State.setHalf_flt (s : State) (h : Half) (x : HalfSt) : (s.setHalf h x).flt = s.flt := by cases h <;> rfl
@[simp] theorem State.setHalf_secu (s : State) (h : Half) (x : HalfSt) : (s.setHalf h x).secu = s.secu := by cases h <;> rfl
@[simp] theorem State.setHalf_berth_at (s : State) (h : Half) (x : HalfSt) (j : Nat) : (s.setHalf h x).berth j = s.berth j :=
    by cases h <;> rfl
@[simp] theorem State.setHalf_core_at (s : State) (h : Half) (x : HalfSt) (j : Nat) : (s.setHalf h x).core j = s.core j :=
    by cases h <;> rfl
@[simp] theorem State.setHalf_link_at (s : State) (h : Half) (x : HalfSt) (j : Nat) : (s.setHalf h x).link j = s.link j :=
    by cases h <;> rfl
@[simp] theorem State.setHalf_way_at (s : State) (h : Half) (x : HalfSt) (j : Nat) : (s.setHalf h x).way j = s.way j := by cases h <;> rfl
@[simp] theorem State.setHalf_stack_at (s : State) (h : Half) (x : HalfSt) (j : Nat) : (s.setHalf h x).stack j = s.stack j :=
    by cases h <;> rfl
@[simp] theorem State.setHalf_stream_at (s : State) (h : Half) (x : HalfSt) (j : Nat) : (s.setHalf h x).stream j = s.stream j :=
    by cases h <;> rfl
@[simp] theorem State.setHalf_image_at (s : State) (h : Half) (x : HalfSt) (j : Nat) : (s.setHalf h x).image j = s.image j :=
    by cases h <;> rfl
@[simp] theorem State.setHalf_chan_at (s : State) (h : Half) (x : HalfSt) (j : Nat) : (s.setHalf h x).chan j = s.chan j :=
    by cases h <;> rfl
@[simp] theorem State.setHalf_zport_at (s : State) (h : Half) (x : HalfSt) (j : Nat) : (s.setHalf h x).zport j = s.zport j :=
    by cases h <;> rfl
@[simp] theorem State.setHalf_basin_at (s : State) (h : Half) (x : HalfSt) (j : Nat) : (s.setHalf h x).basin j = s.basin j :=
    by cases h <;> rfl
@[simp] theorem State.setHalf_site_at (s : State) (h : Half) (x : HalfSt) (j : Nat) : (s.setHalf h x).site j = s.site j :=
    by cases h <;> rfl
@[simp] theorem State.setHalf_port_at (s : State) (h : Half) (x : HalfSt) (q : HostPort) : (s.setHalf h x).port q = s.port q :=
    by cases h <;> rfl
@[simp] theorem State.setHalf_reg_at (s : State) (h : Half) (x : HalfSt) (b' : Blk) (inst' off' : Nat) : (s.setHalf h x).reg b' inst' off' = s.reg b' inst' off' :=
    by cases h <;> rfl
@[simp] theorem State.setHalf_regI_at (s : State) (h : Half) (x : HalfSt) (b' : Blk) (inst' off' i' : Nat) : (s.setHalf h x).regI b' inst' off' i' = s.regI b' inst' off' i' :=
    by cases h <;> rfl

@[simp] theorem State.port_setPort (s : State) (p : HostPort) (x : Port) : (s.setPort p x).port p = x := by cases p <;> rfl
@[simp] theorem State.port_setPort_other (s : State) (p : HostPort) (x : Port) : (s.setPort p x).port (otherPort p) = s.port (otherPort p) :=
    by
  cases p <;> rfl
@[simp] theorem State.half_setHalf (s : State) (h : Half) (x : HalfSt) : (s.setHalf h x).half h = x := by cases h <;> rfl

/-- A read of the part that was written gives what was written. -/
theorem State.berth_setBerth {s : State} {b : Nat} {x : BerthSt} (h : Sparse.wf (fun _ => ({} : BerthSt)) s.berths = true) : (s.setBerth b x).berth b = x :=
  Sparse.get_set_same x h
@[simp] theorem State.berth_setBerth_other {s : State} {b j : Nat} {x : BerthSt} (h : j ≠ b) : (s.setBerth b x).berth j = s.berth j :=
  Sparse.get_set_other x _ h
/-- The later of two writes of one berth stands. -/
theorem State.setBerth_setBerth {s : State} {b : Nat} {x y : BerthSt} (h : Sparse.wf (fun _ => ({} : BerthSt)) s.berths = true) :
    (s.setBerth b x).setBerth b y = s.setBerth b y := by
  unfold State.setBerth
  exact congrArg (fun l => { s with berths := l }) (Sparse.set_set h b x y)
/-- The later of two writes of one core stands. -/
theorem State.setCore_setCore {s : State} {c : Nat} {x y : Core} (h : Sparse.wf (fun _ => ({} : Core)) s.cores = true) :
    (s.setCore c x).setCore c y = s.setCore c y := by
  unfold State.setCore
  exact congrArg (fun l => { s with cores := l }) (Sparse.set_set h c x y)
/-- A read of the part that was written gives what was written. -/
theorem State.core_setCore {s : State} {c : Nat} {x : Core} (h : Sparse.wf (fun _ => ({} : Core)) s.cores = true) : (s.setCore c x).core c = x :=
  Sparse.get_set_same x h
@[simp] theorem State.core_setCore_other {s : State} {c j : Nat} {x : Core} (h : j ≠ c) : (s.setCore c x).core j = s.core j :=
  Sparse.get_set_other x _ h
/-- A read of the part that was written gives what was written. -/
theorem State.link_setLink {s : State} {l : Nat} {x : Link} (h : Sparse.wf (fun _ => ({} : Link)) s.links = true) : (s.setLink l x).link l = x :=
  Sparse.get_set_same x h
@[simp] theorem State.link_setLink_other {s : State} {l j : Nat} {x : Link} (h : j ≠ l) : (s.setLink l x).link j = s.link j :=
  Sparse.get_set_other x _ h
/-- A read of the part that was written gives what was written. -/
theorem State.way_setWay {s : State} {y : Nat} {x : Way} (h : Sparse.wf (fun _ => ({} : Way)) s.ways = true) : (s.setWay y x).way y = x :=
  Sparse.get_set_same x h
@[simp] theorem State.way_setWay_other {s : State} {y j : Nat} {x : Way} (h : j ≠ y) : (s.setWay y x).way j = s.way j :=
  Sparse.get_set_other x _ h
/-- A read of the part that was written gives what was written. -/
theorem State.stack_setStack {s : State} {k : Nat} {x : StackSt} (h : Sparse.wf (fun _ => ({} : StackSt)) s.tier = true) : (s.setStack k x).stack k = x :=
  Sparse.get_set_same x h
@[simp] theorem State.stack_setStack_other {s : State} {k j : Nat} {x : StackSt} (h : j ≠ k) : (s.setStack k x).stack j = s.stack j :=
  Sparse.get_set_other x _ h
/-- A read of the part that was written gives what was written. -/
theorem State.stream_setStream {s : State} {i : Nat} {x : Stream} (h : Sparse.wf (fun _ => ({} : Stream)) s.streams = true) : (s.setStream i x).stream i = x :=
  Sparse.get_set_same x h
@[simp] theorem State.stream_setStream_other {s : State} {i j : Nat} {x : Stream} (h : j ≠ i) : (s.setStream i x).stream j = s.stream j :=
  Sparse.get_set_other x _ h
/-- A read of the part that was written gives what was written. -/
theorem State.image_setImage {s : State} {i : Nat} {x : ImageSt} (h : Sparse.wf (fun _ => ({} : ImageSt)) s.images = true) : (s.setImage i x).image i = x :=
  Sparse.get_set_same x h
@[simp] theorem State.image_setImage_other {s : State} {i j : Nat} {x : ImageSt} (h : j ≠ i) : (s.setImage i x).image j = s.image j :=
  Sparse.get_set_other x _ h
/-- A read of the part that was written gives what was written. -/
theorem State.chan_setChan {s : State} {i : Nat} {x : ChannelSt} (h : Sparse.wf (fun _ => ({} : ChannelSt)) s.chans = true) : (s.setChan i x).chan i = x :=
  Sparse.get_set_same x h
@[simp] theorem State.chan_setChan_other {s : State} {i j : Nat} {x : ChannelSt} (h : j ≠ i) : (s.setChan i x).chan j = s.chan j :=
  Sparse.get_set_other x _ h
/-- A read of the part that was written gives what was written. -/
theorem State.zport_setZport {s : State} {z : Nat} {x : ZPort} (h : Sparse.wf zportReset s.zports = true) : (s.setZport z x).zport z = x :=
  Sparse.get_set_same x h
@[simp] theorem State.zport_setZport_other {s : State} {z j : Nat} {x : ZPort} (h : j ≠ z) : (s.setZport z x).zport j = s.zport j :=
  Sparse.get_set_other x _ h
/-- A read of the part that was written gives what was written. -/
theorem State.basin_setBasin {s : State} {n : Nat} {x : BasinSt} (h : Sparse.wf (fun _ => ({} : BasinSt)) s.basins = true) : (s.setBasin n x).basin n = x :=
  Sparse.get_set_same x h
@[simp] theorem State.basin_setBasin_other {s : State} {n j : Nat} {x : BasinSt} (h : j ≠ n) : (s.setBasin n x).basin j = s.basin j :=
  Sparse.get_set_other x _ h
/-- A read of the part that was written gives what was written. -/
theorem State.site_setSite {s : State} {i : Nat} {x : SiteSt} (h : Sparse.wf (fun _ => ({} : SiteSt)) s.sites = true) : (s.setSite i x).site i = x :=
  Sparse.get_set_same x h
@[simp] theorem State.site_setSite_other {s : State} {i j : Nat} {x : SiteSt} (h : j ≠ i) : (s.setSite i x).site j = s.site j :=
  Sparse.get_set_other x _ h

theorem State.reg_setReg {s : State} {b : Blk} {inst off : Nat} {v : Word} (h : Sparse.wf regReset s.regs = true) :
    (s.setReg b inst off v).reg b inst off = v :=
  Sparse.get_set_same v h
theorem State.reg_setReg_other {s : State} {b c : Blk} {i j o q : Nat} {v : Word} (h : regKey c j q ≠ regKey b i o) :
    (s.setReg b i o v).reg c j q = s.reg c j q :=
  Sparse.get_set_other v _ h

end Sys2Proof.Machine
end

