-- ==== Sys2Proof/Laws/Ops.lean ====
section
/-! SUPPORT. What the shared operations do, said once: which parts of the state each may change and what it leaves in them. -/

set_option linter.unusedVariables false
set_option linter.unusedSimpArgs false

namespace Sys2Proof.Machine

/-- R72, R100: an operation of a unit whose slot is open runs, and takes the slot. -/
theorem onCore_opens {s : State} {c : CoreId} {u : CoreUnit} {f : Core → State} (h : s.opens c u) :
    s.onCore c u f = f (slotTaken (s.core c.val) u) := by
  obtain ⟨⟨h1, h2, h3⟩, h4⟩ := h
  simp [State.onCore, State.issuing, slotTaken, h1, h2, h3, h4]
/-- R100: a bundle's end, where the block has another bundle. -/
theorem endBundle_inside {s : State} {c : CoreId} {k : Core} (h : k.pc + 1 < (s.block c.val).nbundle) :
    s.endBundle c k = s.setCore c.val { k with pc := k.pc + 1, issued := k.issued + 1, slot := 0, stalled := false } := by
  unfold State.endBundle State.endBundleAt
  dsimp only
  rw [if_pos ⟨by omega, by exact_mod_cast h⟩]
  have : (k.pc + 1 : Int).toNat = k.pc + 1 := by omega
  rw [this]
theorem endBundle_goesOn {s : State} {c : CoreId} {k : Core} (h : s.goesOn c) (hp : k.pc = (s.core c.val).pc) :
    s.endBundle c k = s.setCore c.val { k with pc := (s.core c.val).pc + 1, issued := k.issued + 1, slot := 0, stalled := false } := by
  rw [endBundle_inside (by rw [hp]; exact h.2), hp]
theorem setG_pc (k : Core) (r : GReg) (v : Word) : (setG k r v).pc = k.pc := by unfold setG; split <;> rfl
theorem setG_issued (k : Core) (r : GReg) (v : Word) : (setG k r v).issued = k.issued := by unfold setG; split <;> rfl
theorem endBundle_setG {s : State} {c : CoreId} {gd : GReg} {v : Word} (h : s.goesOn c) :
    s.endBundle c (setG (slotTaken (s.core c.val) .scalar) gd v) = s.wrote c gd v := by
  rw [endBundle_inside (k := setG (slotTaken (s.core c.val) .scalar) gd v) (by rw [setG_pc]; exact h.2)]
  unfold State.wrote State.nextBundle setG
  split <;> rfl
/-- R100, R107: an arithmetic instruction writes its result and goes on. -/
theorem alu_goesOn {s : State} {c : CoreId} {gd : GReg} (f : Core → Word) (h : s.goesOn c)
    (hf : f (slotTaken (s.core c.val) .scalar) = f (s.core c.val) := by rfl) : alu s c gd f = s.wrote c gd (f (s.core c.val)) := by
  rw [alu, onCore_opens h.1, endBundle_setG h, hf]
/-- R72, R77, R79: an access that nothing holds, refuses or spoils is done. -/
theorem checked_may {s : State} {c : CoreId} {v : CoreUnit} {u : Nat} {acc a n} {p d : State → State} (h : s.mayAccess c acc a n) :
    s.checked c v (slotTaken (s.core c.val) v) u acc a n p d = d s := by
  obtain ⟨h1, h2, h3⟩ := h
  have e1 : interlocked (slotTaken (s.core c.val) v) a n (acc != .read) = false := h1
  have e2 : refused (slotTaken (s.core c.val) v) (s.block c.val) acc a n = none := h2
  have e3 : acc = .read → damagedIn (slotTaken (s.core c.val) v) a n = [] := h3
  unfold State.checked
  rw [e1, e2]
  cases acc
  · simp [State.noteRead, unreadable, e3 rfl]
  all_goals rfl
/-- R79, R81: a refused access passes, its fault recorded. -/
theorem checked_refused {s : State} {c : CoreId} {v : CoreUnit} {u : Nat} {acc a n q x} {p d : State → State}
    (h : interlocked (s.core c.val) a n (acc != .read) = false) (h2 : refused (s.core c.val) (s.block c.val) acc a n = some (q, x)) :
    s.checked c v (slotTaken (s.core c.val) v) u acc a n p d = p (s.boundsFault c.val u q x) := by
  have e1 : interlocked (slotTaken (s.core c.val) v) a n (acc != .read) = false := h
  have e2 : refused (slotTaken (s.core c.val) v) (s.block c.val) acc a n = some (q, x) := h2
  unfold State.checked
  rw [e1, e2]
  rfl
theorem eta_regs_flt {s t : State} (h : ∃ m f, t = { s with regs := m, flt := f }) : t.cores = s.cores ∧ t = { s with regs := t.regs, flt := t.flt } := by
  obtain ⟨m, f, rfl⟩ := h; exact ⟨rfl, rfl⟩
theorem raiseAs_only (s : State) (b : Blk) (i n : Nat) (c : ErrClass) : ∃ m f, s.raiseAs b i n c = { s with regs := m, flt := f } := by
  unfold State.raiseAs
  have e : ∀ r, ∃ m, s.setErrRegs b i r = { s with regs := m } := fun r => ⟨_, rfl⟩
  generalize (s.errRegs b i).record n (b == .hbmc && n == 0) s.stamp = r
  obtain ⟨m, hm⟩ := e r
  dsimp only
  rw [hm]
  cases c
  · dsimp only; split
    · exact ⟨m, s.flt, rfl⟩
    · unfold State.count State.setReg; exact ⟨_, s.flt, rfl⟩
  all_goals exact ⟨m, _, rfl⟩
theorem raise_only (s : State) (b : Blk) (i n : Nat) : ∃ m f, s.raise b i n = { s with regs := m, flt := f } := by
  unfold State.raise
  cases errClass b i n with
  | none => exact ⟨s.regs, s.flt, rfl⟩
  | some c => exact raiseAs_only ..
theorem raise_cores (s : State) (b : Blk) (i n : Nat) : (s.raise b i n).cores = s.cores := (eta_regs_flt (raise_only ..)).1
theorem fetchFault_core {s : State} {c : Nat} (hi : Inv s) : ((s.fetchFault c).core c) = { s.core c with st := .blocked } := by
  have h1 : (s.setCore c { s.core c with st := .blocked }).core c = { s.core c with st := .blocked } := State.core_setCore hi.cores
  unfold State.fetchFault
  dsimp only
  generalize s.setCore c { s.core c with st := .blocked } = u at *
  split
  · exact h1
  · unfold State.core at *; rw [raise_cores]; exact h1
theorem word_setWord {m : List (Nat × Byte)} {a : Nat} {w : Word} (h : Memory.wf m = true) : Memory.word (Memory.setWord m a w) a = w := by
  have e : ∀ i, i < 4 → Memory.byte (Memory.setWord m a w) (a + i) = (leBytes w.toNat 4).getD i 0 := fun i hi => by
    have := Memory.byte_write_same (leBytes w.toNat 4) (m := m) (a := a) (i := i) h (by simpa [leBytes] using hi)
    unfold Memory.setWord
    rw [this, List.getD_eq_getElem _ _ (by simpa [leBytes] using hi)]
  unfold Memory.word
  simp only [Memory.read]
  have e0 := e 0 (by omega); have e1 := e 1 (by omega); have e2 := e 2 (by omega); have e3 := e 3 (by omega)
  simp only [leBytes, List.getD_cons_zero, List.getD_cons_succ, Nat.add_zero] at e0 e1 e2 e3
  simp only [e0, e1, e2, e3, Nat.add_assoc, leNat, Nat.reduceAdd]
  apply BitVec.eq_of_toNat_eq
  simp
  have := w.isLt
  omega

theorem inv_core {s : State} {c : Nat} (h : Inv s) : CoreOk (s.core c) := Sparse.get_of_all h.core ⟨rfl, rfl, rfl⟩
theorem get_setErrRegs_other {s : State} {b : Blk} {i j : Nat} {e : ErrRegs} (h1 : j ≠ pageBase b i + 0x10) (h2 : j ≠ pageBase b i + 0x18)
    (h3 : j ≠ pageBase b i + 0x1C) (h4 : j ≠ pageBase b i + 0x20) (h5 : j ≠ pageBase b i + 0x24) :
    Sparse.get regReset (s.setErrRegs b i e).regs j = Sparse.get regReset s.regs j := by
  unfold State.setErrRegs
  dsimp only
  rw [Sparse.get_set_other _ _ h5, Sparse.get_set_other _ _ h4, Sparse.get_set_other _ _ h3, Sparse.get_set_other _ _ h2,
    Sparse.get_set_other _ _ h1]
theorem errRegs_setErrRegs {s : State} {b : Blk} {i : Nat} {e : ErrRegs} (h : Sparse.wf regReset s.regs = true) :
    (s.setErrRegs b i e).errRegs b i = e := by
  unfold State.errRegs State.setErrRegs
  dsimp only
  generalize pageBase b i = k
  have w1 := Sparse.wf_set (k := k + 16) e.sts h
  have w2 := Sparse.wf_set (k := k + 24) e.first w1
  have w3 := Sparse.wf_set (k := k + 28) e.next w2
  have w4 := Sparse.wf_set (k := k + 32) (BitVec.ofNat 32 e.stamp.toNat) w3
  have n : ∀ a b : Nat, a ≠ b → k + a ≠ k + b := fun a b hab => by omega
  obtain ⟨sts, first, next, stamp⟩ := e
  dsimp only at *
  congr 1
  · rw [Sparse.get_set_other _ _ (n _ _ (by decide)), Sparse.get_set_other _ _ (n _ _ (by decide)), Sparse.get_set_other _ _ (n _ _ (by decide)),
      Sparse.get_set_other _ _ (n _ _ (by decide)), Sparse.get_set_same _ h]
  · rw [Sparse.get_set_other _ _ (n _ _ (by decide)), Sparse.get_set_other _ _ (n _ _ (by decide)), Sparse.get_set_other _ _ (n _ _ (by decide)),
      Sparse.get_set_same _ w1]
  · rw [Sparse.get_set_other _ _ (n _ _ (by decide)), Sparse.get_set_other _ _ (n _ _ (by decide)), Sparse.get_set_same _ w2]
  · rw [Sparse.get_set_same _ w4, Sparse.get_set_other _ _ (n _ _ (by decide)), Sparse.get_set_same _ w3]
    apply BitVec.eq_of_toNat_eq
    simp
    have := stamp.isLt
    omega
theorem getLsbD_field (n : Nat) (h : n < 32) : (field 1 n).getLsbD n = true := by
  unfold field
  rw [BitVec.getLsbD_ofNat, Nat.one_mul, Nat.testBit_two_pow_self]; simp [h]
theorem record_sts (r : ErrRegs) (n : Nat) (x : Bool) (now : Dword) (h : n < 32) : (r.record n x now).sts.getLsbD n = true := by
  unfold ErrRegs.record
  split
  · exact getLsbD_field n h
  · simp [getLsbD_field n h]
theorem errSet_raiseAs {s : State} {b : Blk} {i n : Nat} {c : ErrClass} (h : Sparse.wf regReset s.regs = true) (hn : n < 32)
    (hc : c ≠ .corrected) : (s.raiseAs b i n c).errSet b i n = true := by
  have e : ∀ u : State, (s.raiseAs b i n c).regs = u.regs → (s.raiseAs b i n c).errSet b i n = u.errSet b i n := by
    intro u hu; unfold State.errSet State.errRegs; rw [hu]
  rw [e (s.setErrRegs b i ((s.errRegs b i).record n (b == .hbmc && n == 0) s.stamp)) (by unfold State.raiseAs; cases c <;> first | rfl | exact absurd rfl hc)]
  unfold State.errSet
  rw [errRegs_setErrRegs h]
  exact record_sts _ _ _ _ hn
theorem reg_raiseAs {s : State} {b : Blk} {i n j : Nat} {c : ErrClass} (hc : c ≠ .corrected) (h1 : j ≠ pageBase b i + 0x10) (h2 : j ≠ pageBase b i + 0x18)
    (h3 : j ≠ pageBase b i + 0x1C) (h4 : j ≠ pageBase b i + 0x20) (h5 : j ≠ pageBase b i + 0x24) :
    Sparse.get regReset (s.raiseAs b i n c).regs j = Sparse.get regReset s.regs j := by
  have : (s.raiseAs b i n c).regs = (s.setErrRegs b i ((s.errRegs b i).record n (b == .hbmc && n == 0) s.stamp)).regs := by
    unfold State.raiseAs; cases c <;> first | rfl | exact absurd rfl hc
  rw [this]; exact get_setErrRegs_other h1 h2 h3 h4 h5
theorem regKey_core (i o : Nat) (h : o = 0x050) : regKey .core i o = pageBase .core i + o := by
  subst h; rfl
/-- R81: a bounds fault changes error registers and the fault handler's record of errors alone. -/
theorem boundsFault_only (s : State) (c u n x : Nat) : ∃ m f l, s.boundsFault c u n x = { s with regs := m, flt := f, boundsHeld := l } := by
  unfold State.boundsFault
  cases s.coreInst c with
  | none => exact ⟨s.regs, s.flt, s.boundsHeld, rfl⟩
  | some i =>
    dsimp only
    split
    · obtain ⟨m', f', h⟩ := raise_only s .core i (if n = 6 then 3 else 2)
      exact ⟨m', f', s.boundsHeld, h⟩
    · obtain ⟨m, hm⟩ : ∃ m, s.setReg .core i 0x050 (field u 25 ||| field n 22 ||| field (x % 2 ^ 22) 0) = { s with regs := m } := by
        unfold State.setReg; exact ⟨_, rfl⟩
      rw [hm]
      obtain ⟨m', f', h⟩ := raise_only { s with regs := m, boundsHeld := s.boundsHeld ++ [i] } .core i (if n = 6 then 3 else 2)
      exact ⟨m', f', _, h⟩
theorem boundsFault_rest (s : State) (c u n x : Nat) : (s.boundsFault c u n x).cores = s.cores ∧
    s.boundsFault c u n x = { s with regs := (s.boundsFault c u n x).regs, flt := (s.boundsFault c u n x).flt, boundsHeld := (s.boundsFault c u n x).boundsHeld } := by
  obtain ⟨m, f, l, h⟩ := boundsFault_only s c u n x
  rw [h]; exact ⟨rfl, rfl⟩
/-- An error recorded does not depend on what a core holds. -/
theorem raiseAs_setCore (t : State) (d : Nat) (k : Core) (b : Blk) (i n : Nat) (z : ErrClass) : (t.setCore d k).raiseAs b i n z = (t.raiseAs b i n z).setCore d k := by
  have hm : ∀ e : ErrRegs, (t.setCore d k).setErrRegs b i e = (t.setErrRegs b i e).setCore d k := fun _ => rfl
  have he : (t.setCore d k).errRegs b i = t.errRegs b i := rfl
  have hk : (t.setCore d k).stamp = t.stamp := rfl
  unfold State.raiseAs
  rw [he, hk, hm]
  generalize t.setErrRegs b i _ = u
  have h2 : (u.setCore d k).errMask b i = u.errMask b i := rfl
  have h3 : (u.setCore d k).count .flt 0 0x054 1 = (u.count .flt 0 0x054 1).setCore d k := by
    unfold State.count State.setReg State.reg
    generalize regKey .flt 0 0x054 = z
    rfl
  have h4 : (u.setCore d k).flt = u.flt := rfl
  have hs : (u.setCore d k).spansModules = u.spansModules := rfl
  have hr : (u.setCore d k).repairEn = u.repairEn := by
    unfold State.repairEn State.reg
    generalize regKey .flt 0 0x050 = z
    rfl
  dsimp only
  rw [h2, h3, h4, hs, hr]
  cases z
  · dsimp only; split <;> rfl
  all_goals rfl
theorem raise_setCore (t : State) (d : Nat) (k : Core) (b : Blk) (i n : Nat) : (t.setCore d k).raise b i n = (t.raise b i n).setCore d k := by
  unfold State.raise
  cases errClass b i n with
  | none => rfl
  | some z => exact raiseAs_setCore t d k b i n z
theorem setReg_setCore (t : State) (d : Nat) (k : Core) (b : Blk) (i o : Nat) (v : Word) : (t.setCore d k).setReg b i o v = (t.setReg b i o v).setCore d k := rfl
/-- A bounds fault does not depend on what the core holds. -/
theorem boundsFault_setCore (s : State) (c d : Nat) (k : Core) (u n x : Nat) :
    (s.setCore d k).boundsFault c u n x = (s.boundsFault c u n x).setCore d k := by
  unfold State.boundsFault
  rw [show (s.setCore d k).coreInst c = s.coreInst c from rfl]
  cases s.coreInst c with
  | none => rfl
  | some i =>
    dsimp only
    rw [show (s.setCore d k).boundsHeld = s.boundsHeld from rfl, setReg_setCore]
    generalize s.setReg .core i 0x050 _ = v
    split
    · exact raise_setCore s d k .core i _
    · exact raise_setCore { v with boundsHeld := s.boundsHeld ++ [i] } d k .core i _
/-- R81, R95: the first bounds fault since BOUNDS was cleared sets BOUNDS and is captured. -/
theorem boundsFault_spec {s : State} {c i u n x : Nat} (hi : Inv s) (hc : s.coreInst c = some i) (e2 : i ∉ s.boundsHeld) (hn : n < 6) :
    (s.boundsFault c u n x).cores = s.cores ∧ (s.boundsFault c u n x).errSet .core i 2 = true ∧
    (s.boundsFault c u n x).reg .core i 0x050 = field u 25 ||| field n 22 ||| field (x % 2 ^ 22) 0 ∧
    (s.boundsFault c u n x).boundsHeld = s.boundsHeld ++ [i] ∧
    s.boundsFault c u n x = { s with regs := (s.boundsFault c u n x).regs, flt := (s.boundsFault c u n x).flt, boundsHeld := s.boundsHeld ++ [i] } := by
  have h6 : (if n = 6 then 3 else 2) = 2 := if_neg (by omega)
  obtain ⟨t, ht⟩ : ∃ t : State, t = { s.setReg .core i 0x050 (field u 25 ||| field n 22 ||| field (x % 2 ^ 22) 0) with boundsHeld := s.boundsHeld ++ [i] } := ⟨_, rfl⟩
  have e : s.boundsFault c u n x = t.raiseAs .core i 2 .contained := by
    unfold State.boundsFault State.raise
    simp [hc, e2, errClass, h6, ht]
  have hb : (t.raiseAs .core i 2 .contained).boundsHeld = s.boundsHeld ++ [i] := by rw [ht]; rfl
  have hw : Sparse.wf regReset t.regs = true := by rw [ht]; exact Sparse.wf_set _ hi.regs
  have hr := boundsFault_rest s c u n x
  rw [e] at hr ⊢
  rw [hb] at hr
  refine ⟨hr.1, errSet_raiseAs hw (by decide) (by decide), ?_, hb, hr.2⟩
  have k := regKey_core i 0x050 rfl
  have l : ∀ m, m ≠ 0x50 → pageBase .core i + 0x50 ≠ pageBase .core i + m := fun m hm => by omega
  unfold State.reg
  rw [k, reg_raiseAs (by decide) (l _ (by decide)) (l _ (by decide)) (l _ (by decide)) (l _ (by decide)) (l _ (by decide)), ht]
  unfold State.setReg
  dsimp only
  rw [k, Sparse.get_set_same _ hi.regs]
theorem endBundle_boundsFault {s : State} {c : CoreId} {u n x : Nat} (h : s.goesOn c) :
    (s.boundsFault c.val u n x).endBundle c (slotTaken (s.core c.val) .scalar) = (s.boundsFault c.val u n x).nextBundle c (s.core c.val) := by
  obtain ⟨m, f, l, hm⟩ := boundsFault_only s c.val u n x
  rw [hm, endBundle_inside]
  · rfl
  · exact h.2

theorem ofNat_srl (a : Word) (n : Nat) : BitVec.ofNat 32 (a.toNat / 2 ^ n) = a >>> n := by
  apply BitVec.eq_of_toNat_eq
  simp only [BitVec.toNat_ushiftRight, Nat.shiftRight_eq_div_pow, BitVec.toNat_ofNat]
  exact Nat.mod_eq_of_lt (Nat.lt_of_le_of_lt (Nat.div_le_self _ _) (BitVec.isLt _))
theorem ofInt_sra (a : Word) (n : Nat) : BitVec.ofInt 32 (a.toInt / 2 ^ n) = a.sshiftRight n := by
  have := Int.shiftRight_eq_div_pow a.toInt n
  unfold BitVec.sshiftRight
  rw [this]; norm_cast
theorem zext16_eq (m : BitVec 16) : zext16 m = BitVec.ofNat 32 m.toNat := by
  apply BitVec.eq_of_toNat_eq
  have := m.isLt
  simp only [zext16, BitVec.truncate_eq_setWidth, BitVec.toNat_setWidth, BitVec.toNat_ofNat]
theorem lui_eq (m : BitVec 16) : zext16 m <<< 16 = BitVec.ofNat 32 (m.toNat * 2 ^ 16) := by
  rw [zext16_eq]
  apply BitVec.eq_of_toNat_eq
  simp only [BitVec.toNat_shiftLeft, Nat.shiftLeft_eq, BitVec.toNat_ofNat]; omega
theorem endBundle_next {s : State} {c : CoreId} {k : Core} (h : s.goesOn c) (hp : k.pc = (s.core c.val).pc) (hq : k.issued = (s.core c.val).issued) :
    s.endBundle c k = s.nextBundle c k := by
  rw [endBundle_goesOn h hp, hq]; rfl
/-- R77: an attempt that reads no word with bad check bits records nothing. -/
theorem noteTile_clean {s : State} {c : Nat} {k : Core} {l : List (Nat × Nat)} (h : ∀ r ∈ l, damagedIn k r.1 r.2 = []) :
    s.noteTile c k l = s ∧ tileUnreadable k l = false := by
  constructor
  · unfold State.noteTile
    induction l with
    | nil => rfl
    | cons r l ih =>
      rw [List.foldl_cons, show s.noteRead c k r.1 r.2 = s by unfold State.noteRead; rw [h r (by simp)]]
      exact ih (fun r hr => h r (by simp [hr]))
  · unfold tileUnreadable
    simp only [List.any_eq_false]
    intro r hr
    simp [unreadable, h r hr]
theorem attemptTrouble_eq {s : State} {c : CoreId} {k : Core} {t : Tile} {g : TileCfg} {kinds : List Trouble} (hr : s.coresMode = .run)
    (hk : s.core c.val = k) (ht : k.tile = some t) (hp : parseTile t.shape t.fmt t.bound = some g) (hT : tileAttempt k t g = .trouble kinds)
    (hd : ∀ r ∈ tileReads (s.block c.val) t g, damagedIn k r.1 r.2 = []) :
    execAttemptTrouble c s = .next (
      let blk := s.block c.val
      let nx := nextFmt t.attempt t.af
      let s := s.recordTrouble c.val (troubleCode (recordedTrouble s.fuses k t g kinds)) t.af nx
      if blk.rsize < g.reserveBytes nx then (s.setCore c.val { k with tile := none }).boundsFault c.val 3 6 (blk.rbase + blk.rsize)
      else
        let s := if t.attempt = 1 then s.countCore c.val 0x064 31 16 else s
        s.setCore c.val { k.put blk.rbase (g.reserveOperand (operand k t.act) nx) with
          tile := some { t with attempt := t.attempt + 1, af := nx } }) := by
  unfold execAttemptTrouble
  rw [hk]
  dsimp only
  rw [if_neg (by simp [hr]), ht]
  dsimp only
  rw [hp]
  dsimp only
  rw [(noteTile_clean (s := s) (c := c.val) hd).1, (noteTile_clean (s := s) (c := c.val) hd).2, if_neg (by simp), hT]
theorem tileComplete_eq {s : State} {c : CoreId} {k : Core} {t : Tile} {g : TileCfg} {bytes : List Byte} {alarm : Bool} (hr : s.coresMode = .run)
    (hk : s.core c.val = k) (ht : k.tile = some t) (hp : parseTile t.shape t.fmt t.bound = some g) (hT : tileAttempt k t g = .result bytes alarm)
    (hd : ∀ r ∈ tileReads (s.block c.val) t g, damagedIn k r.1 r.2 = []) :
    execTileComplete c s = .next (
      let s := if alarm then s.countCore c.val 0x068 31 24 else s
      let s := if t.attempt = 1 then s.countCore c.val 0x064 15 0 else s
      let sums := g.sums (operand k t.act) (operand k t.wgt) t.attempt t.af
      s.setCore c.val { k.put t.out bytes with tile := none, acc := sums ++ k.acc.drop sums.length }) := by
  unfold execTileComplete
  rw [hk]
  dsimp only
  rw [if_neg (by simp [hr]), ht]
  dsimp only
  rw [hp]
  dsimp only
  rw [(noteTile_clean (s := s) (c := c.val) hd).1, (noteTile_clean (s := s) (c := c.val) hd).2, if_neg (by simp), hT]

theorem setReg_only (s : State) (b : Blk) (i o : Nat) (v : Word) : ∃ m, s.setReg b i o v = { s with regs := m } := ⟨_, rfl⟩
theorem setRegI_only (s : State) (b : Blk) (i o j : Nat) (v : Word) : ∃ m, s.setRegI b i o j v = { s with regs := m } := ⟨_, rfl⟩
theorem setErrRegs_only (s : State) (b : Blk) (i : Nat) (e : ErrRegs) : ∃ m, s.setErrRegs b i e = { s with regs := m } := ⟨_, rfl⟩
theorem only_regs_trans {s t u : State} (h : ∃ m, t = { s with regs := m }) (h' : ∃ m, u = { t with regs := m }) : ∃ m, u = { s with regs := m } := by
  obtain ⟨m, rfl⟩ := h; obtain ⟨n, rfl⟩ := h'; exact ⟨n, rfl⟩
theorem count_only (s : State) (b : Blk) (i o n : Nat) : ∃ m, s.count b i o n = { s with regs := m } := setReg_only ..
theorem countSat_only (s : State) (b : Blk) (i o hi lo : Nat) : ∃ m, s.countSat b i o hi lo = { s with regs := m } := setReg_only ..
theorem recordTrouble_only (u : State) (a b d e : Nat) : ∃ m, u.recordTrouble a b d e = { u with regs := m } := by
  unfold State.recordTrouble
  cases u.coreInst a with
  | none => exact ⟨u.regs, rfl⟩
  | some i => exact only_regs_trans (countSat_only ..) (setReg_only ..)
theorem countCore_only (u : State) (a b d e : Nat) : ∃ m, u.countCore a b d e = { u with regs := m } := by
  unfold State.countCore
  cases u.coreInst a with
  | none => exact ⟨u.regs, rfl⟩
  | some i => exact countSat_only ..
theorem length_read (m : List (Nat × Byte)) (a n : Nat) : (Memory.read m a n).length = n := by
  induction n generalizing a with
  | zero => rfl
  | succ n ih => simp [Memory.read, ih]
theorem getD_read (m : List (Nat × Byte)) (n : Nat) : ∀ a i, i < n → (Memory.read m a n).getD i 0 = Memory.byte m (a + i) := by
  induction n with
  | zero => intro a i h; omega
  | succ n ih =>
    intro a i h
    cases i with
    | zero => rfl
    | succ i =>
      have := ih (a + 1) i (by omega)
      rw [show a + (i + 1) = a + 1 + i by omega, ← this]; rfl
/-- R112: a core that does not wait at END for its requests stays as it is. -/
theorem resumeEnd_other {s : State} {c : Nat} {x : Core} (h : Sparse.wf (fun _ => ({} : Core)) s.cores = true) (hk : x.st ≠ .ending) :
    (s.setCore c x).resumeEnd c = s.setCore c x := by
  unfold State.resumeEnd
  rw [State.core_setCore h]
  exact if_neg (fun h => hk h.1)
theorem trackPeak_only (s : State) (c : Nat) : ∃ m, s.trackPeak c = { s with regs := m } := by
  unfold State.trackPeak
  cases s.coreInst c with
  | none => exact ⟨s.regs, rfl⟩
  | some i => exact setReg_only ..
theorem failRequest_some (s : State) (p : Packet) {c : Nat} (h : p.core = some c) : ∃ q, s.failRequest p = { s with delivered := s.delivered ++ [q] } ∧
    q.core = some c ∧ q.h.tag = p.h.tag ∧ q.payload = [] := by
  unfold State.failRequest
  rw [h]
  dsimp only
  split
  · exact ⟨_, rfl, rfl, rfl, rfl⟩
  · exact ⟨_, rfl, rfl, rfl, rfl⟩
theorem inject_spec (s : State) (b : Nat) (h : PacketHeader) (data : List Byte) (o : PacketFrom) (c : Nat) :
    (∃ p, s.inject b h data o (some c) = { s with packets := s.packets ++ [p], packetNext := s.packetNext + 1 } ∧ p.core = some c ∧ p.h = h ∧ p.payload = data) ∨
    (∃ m f q, s.inject b h data o (some c) = { s with regs := m, flt := f, delivered := s.delivered ++ [q] } ∧ q.core = some c ∧ q.h.tag = h.tag ∧ q.payload = []) := by
  have fail : ∀ (b' : Blk) (i n : Nat) (p : Packet), p.core = some c → p.h = h → ∃ m f q, ((s.raise b' i n).failRequest p) = { s with regs := m, flt := f, delivered := s.delivered ++ [q] } ∧ q.core = some c ∧ q.h.tag = h.tag ∧ q.payload = [] := by
    intro b' i n p hc hh
    obtain ⟨m, f, e⟩ := raise_only s b' i n
    rw [e]
    obtain ⟨q, e2, h1, h2, h3⟩ := failRequest_some { s with regs := m, flt := f } p hc
    exact ⟨m, f, q, e2, h1, by rw [h2, hh], h3⟩
  unfold State.inject
  dsimp only
  cases targetOf s b h with
  | none =>
    dsimp only
    split
    · exact .inr (fail _ _ _ _ rfl rfl)
    · exact .inr (fail _ _ _ _ rfl rfl)
  | some t =>
    dsimp only
    split
    · exact .inl ⟨_, rfl, rfl, rfl, rfl⟩
    · exact .inr (fail _ _ _ _ rfl rfl)
theorem sendRequest_spec {s : State} {c a b : Nat} {d : DreqDesc} (k : Core) (hi : Inv s) (hb : s.physOf (c / 144) = some b) (hl : liveModule s d.module ≠ none) :
    let t := s.sendRequest c k a d
    t.core c = { k with dyn := k.dyn ++ [{ tag := d.tag, write := d.write, dst := a, len := d.len }], requests := k.requests + 1 } ∧
    t.berths = s.berths ∧ t.hbm = s.hbm ∧
    ((∃ p, t.packets = s.packets ++ [p] ∧ t.delivered = s.delivered ∧ p.core = some c ∧ p.h.tag = BitVec.ofNat 4 d.tag ∧ p.h.len = BitVec.ofNat 14 d.len ∧
        p.h.addr = BitVec.ofNat 48 d.addr ∧ p.payload = if d.write then Memory.read k.scratch a d.len else []) ∨
      (∃ p, t.packets = s.packets ∧ t.delivered = s.delivered ++ [p] ∧ p.core = some c ∧ p.h.tag = BitVec.ofNat 4 d.tag ∧ p.payload = [])) := by
  intro t
  obtain ⟨k2, hk2⟩ : ∃ k2 : Core, k2 = { k with dyn := k.dyn ++ [{ tag := d.tag, write := d.write, dst := a, len := d.len }], requests := k.requests + 1 } := ⟨_, rfl⟩
  have hsc : k2.scratch = k.scratch := by rw [hk2]
  obtain ⟨m, hm⟩ := trackPeak_only (s.setCore c k2) c
  have hcore : ∀ (m : List (Nat × Word)) (u : State), u.cores = (s.setCore c k2).cores → u.core c = k2 := by
    intro m u hu
    have := State.core_setCore (s := s) (c := c) (x := k2) hi.cores
    unfold State.core at *; rw [hu]; exact this
  obtain ⟨s1, hs1⟩ : ∃ s1, s1 = ({ s.setCore c k2 with regs := m } : State) := ⟨_, rfl⟩
  have ht : t = (match liveModule s d.module with
      | none => (s1.raise .mesh b 3).setCore c { k with requests := k.requests + 1 }
      | some dmod => s1.inject b (requestHeader s b (physCore (s.berth b).removed (c % 144)) d dmod) (if d.write then Memory.read k.scratch a d.len else []) (.core (c % 144)) (some c)) := by
    change State.sendRequest s c k a d = _
    unfold State.sendRequest
    dsimp only
    rw [show ({ k with dyn := k.dyn ++ [{ tag := d.tag, write := d.write, dst := a, len := d.len }], requests := k.requests + 1 } : Core) = k2 from hk2.symm, hm]
    rw [hb, ← hs1]
    all_goals cases liveModule s d.module <;> rfl
  rw [ht, ← hk2]
  cases hlm : liveModule s d.module with
  | none => exact absurd hlm hl
  | some dmod =>
    dsimp only
    have hq : ∀ x, (requestHeader s b x d dmod).tag = BitVec.ofNat 4 d.tag ∧ (requestHeader s b x d dmod).len = BitVec.ofNat 14 d.len ∧ (requestHeader s b x d dmod).addr = BitVec.ofNat 48 d.addr := fun x => ⟨rfl, rfl, rfl⟩
    obtain ⟨q1, q2, q3⟩ := hq (physCore (s.berth b).removed (c % 144))
    generalize requestHeader s b (physCore (s.berth b).removed (c % 144)) d dmod = hdr at *
    rcases inject_spec s1 b hdr (if d.write then Memory.read k.scratch a d.len else []) (.core (c % 144)) c with ⟨p, e, h1, h2, h3⟩ | ⟨m', f', q, e, h1, h2, h3⟩
    · rw [e]
      refine ⟨hcore m _ (by rw [hs1]), by rw [hs1]; rfl, by rw [hs1]; rfl, .inl ⟨p, by rw [hs1]; rfl, by rw [hs1]; rfl, h1, by rw [h2, q1], by rw [h2, q2], by rw [h2, q3], h3⟩⟩
    · rw [e]
      refine ⟨hcore m _ (by rw [hs1]), by rw [hs1]; rfl, by rw [hs1]; rfl, .inr ⟨q, by rw [hs1]; rfl, by rw [hs1]; rfl, h1, by rw [h2, q1], h3⟩⟩
theorem foldl_only_regs {α : Type} {f : State → α → State} (hf : ∀ s a, ∃ m, f s a = { s with regs := m }) (l : List α) (s : State) :
    ∃ m, l.foldl f s = { s with regs := m } := by
  induction l generalizing s with
  | nil => exact ⟨s.regs, rfl⟩
  | cons a l ih => exact only_regs_trans (hf s a) (ih (f s a))
theorem countPort_only (s : State) (b o p : Nat) (x : Bool) (n : Nat) : ∃ m, s.countPort b o p x n = { s with regs := m } := setRegI_only ..
theorem countWay_only (s : State) (w o : Nat) (x : Bool) (n : Nat) : ∃ m, s.countWay w o x n = { s with regs := m } :=
  foldl_only_regs (fun _ _ => countPort_only ..) _ _
theorem trackSeam_only (s : State) (w : Nat) : ∃ m, s.trackSeam w = { s with regs := m } := by
  unfold State.trackSeam
  split
  · exact setReg_only ..
  · exact ⟨s.regs, rfl⟩
theorem trackStaging_only (s : State) (l w : Nat) : ∃ m, s.trackStaging l w = { s with regs := m } :=
  foldl_only_regs (fun _ _ => setRegI_only ..) _ _
theorem trackDyn_only (s : State) (w : Nat) : ∃ m, s.trackDyn w = { s with regs := m } :=
  foldl_only_regs (fun _ _ => setRegI_only ..) _ _
theorem countRetry_only (s : State) (w : Nat) : ∃ m, s.countRetry w = { s with regs := m } :=
  foldl_only_regs (fun _ _ => setRegI_only ..) _ _
theorem countPacket_only (s : State) (w : Nat) (p : Packet) : ∃ m, s.countPacket w p = { s with regs := m } := by
  unfold State.countPacket
  split
  · exact only_regs_trans (countWay_only ..) (countWay_only ..)
  · exact ⟨s.regs, rfl⟩
theorem useWindow_only (s : State) (w : Nat) : ∃ z, s.useWindow w = { s with zports := z } := by
  unfold State.useWindow
  split
  · exact ⟨_, rfl⟩
  · exact ⟨s.zports, rfl⟩

/-- Registers, berths, divisor control and the count of free values may differ. -/
def RB (s t : State) : Prop := ∃ m b w e n, t = { s with regs := m, berths := b, west := w, east := e, draws := n }
theorem RB.refl (s : State) : RB s s := ⟨_, _, _, _, _, rfl⟩
theorem RB.trans {s t u : State} (h : RB s t) (h' : RB t u) : RB s u := by
  obtain ⟨m, b, w, e, n, rfl⟩ := h; obtain ⟨m', b', w', e', n', rfl⟩ := h'; exact ⟨_, _, _, _, _, rfl⟩
theorem RB.foldl {α : Type} {f : State → α → State} (hf : ∀ s a, RB s (f s a)) (l : List α) (s : State) : RB s (l.foldl f s) := by
  induction l generalizing s with
  | nil => exact RB.refl s
  | cons a l ih => exact (hf s a).trans (ih _)
theorem RB.regs {s t : State} (h : ∃ m, t = { s with regs := m }) : RB s t := by obtain ⟨m, rfl⟩ := h; exact ⟨m, _, _, _, _, rfl⟩
theorem RB.setBerth (s : State) (b : Nat) (x : BerthSt) : RB s (s.setBerth b x) := ⟨_, _, _, _, _, rfl⟩
theorem RB.setHalf (s : State) (h : Half) (x : HalfSt) : RB s (s.setHalf h x) := by cases h <;> exact ⟨_, _, _, _, _, rfl⟩
theorem RB.drawn (s : State) : RB s s.drawn := ⟨_, _, _, _, _, rfl⟩
theorem RB.ite {s t u : State} {p : Prop} [Decidable p] (h : RB s t) (h' : RB s u) : RB s (if p then t else u) := by split <;> assumption
theorem seeRail_only (s : State) (n mv : Nat) : ∃ m, s.seeRail n mv = { s with regs := m } := by
  unfold State.seeRail
  split
  · exact only_regs_trans (only_regs_trans (setReg_only ..) (setReg_only ..)) (setReg_only ..)
  · exact ⟨s.regs, rfl⟩
theorem setLdiv_RB (s : State) (b d : Nat) : RB s (s.setLdiv b d) := (RB.setBerth ..).trans (RB.regs (seeRail_only ..))
theorem setDivisor_RB (s : State) (h : Half) (d : Nat) : RB s (s.setDivisor h d) := by
  unfold State.setDivisor
  refine ((RB.setHalf ..).trans (RB.regs (count_only ..))).trans (RB.foldl (fun s b => ?_) _ _)
  dsimp only
  split
  · exact RB.ite (setLdiv_RB ..) (RB.refl _)
  · exact RB.ite (RB.refl _) (setLdiv_RB ..)
theorem stepDivisor_RB (s : State) (h : Half) (x : Bool) : RB s (s.stepDivisor h x) := by
  unfold State.stepDivisor
  exact RB.ite (RB.refl _) (setDivisor_RB ..)
theorem retarget_only (s : State) : ∃ m, s.retarget = { s with regs := m } := foldl_only_regs (fun _ _ => setReg_only ..) _ _
theorem applyDivisors_RB (s : State) (a b : Bool) : RB s (s.applyDivisors a b) :=
  ((((RB.regs (retarget_only s)).trans (stepDivisor_RB ..)).trans (stepDivisor_RB ..)).trans (stepDivisor_RB ..)).trans (stepDivisor_RB ..)
theorem recordSlots_only (s : State) : ∃ m, s.recordSlots = { s with regs := m } := by
  unfold State.recordSlots
  exact only_regs_trans ⟨_, rfl⟩ (foldl_only_regs (fun _ _ => foldl_only_regs (fun _ _ => setRegI_only ..) _ _) _ _)
theorem compareHint_only (s : State) (n : Nat) : ∃ m, s.compareHint n = { s with regs := m } := by
  unfold State.compareHint
  cases s.curProg with
  | none => exact ⟨s.regs, rfl⟩
  | some p => dsimp only; split
              · exact count_only ..
              · exact ⟨s.regs, rfl⟩
theorem countSecond_RB (s : State) : RB s s.countSecond := by
  unfold State.countSecond
  exact RB.ite ((RB.drawn s).trans (RB.regs (count_only ..))) (RB.refl _)
theorem countBarrier_only (s : State) (n : List Nat) : ∃ m, s.countBarrier n = { s with regs := m } :=
  foldl_only_regs (fun _ _ => only_regs_trans (setReg_only ..) (setReg_only ..)) _ _
theorem release_RB (s : State) (m : ReleaseMeasure) :
    RB s (((((s.recordSlots.compareHint m.cycles).countBarrier m.relNclk).countSecond).applyDivisors m.settledW m.settledE)) :=
  ((((RB.regs (recordSlots_only s)).trans (RB.regs (compareHint_only ..))).trans (RB.regs (countBarrier_only ..))).trans
    (countSecond_RB _)).trans (applyDivisors_RB ..)
theorem raise_regs_flt (s : State) (b : Blk) (i n : Nat) : ∃ m f, s.raise b i n = { s with regs := m, flt := f } := raise_only ..
/-- An error of a class that is not Corrected has set its bit. -/
theorem raise_set {s : State} {b : Blk} {i n : Nat} {c : ErrClass} (h : Sparse.wf regReset s.regs = true) (hc : errClass b i n = some c) (hn : n < 32)
    (hne : c ≠ .corrected) : ∃ m f, s.raise b i n = { s with regs := m, flt := f } ∧ ({ s with regs := m } : State).errSet b i n = true := by
  obtain ⟨m, f, e⟩ := raise_only s b i n
  refine ⟨m, f, e, ?_⟩
  have := errSet_raiseAs (b := b) (i := i) (n := n) h hn hne
  unfold State.raise at e
  rw [hc] at e
  dsimp only at e
  rw [e] at this
  exact this
theorem reg_setReg_same {s : State} {b : Blk} {i o : Nat} {v : Word} (h : Sparse.wf regReset s.regs = true) : (s.setReg b i o v).reg b i o = v :=
  Sparse.get_set_same _ h
theorem joinEntry_split {l : Nat} {r : StoreReader} {e : MergeEntry} {post : List MergeEntry} (pre : List MergeEntry)
    (h : ∀ m ∈ pre, ¬(m.line = l ∧ m.opened = true)) (he : e.line = l ∧ e.opened = true) :
    joinEntry l r (pre ++ e :: post) = pre ++ { e with readers := e.readers ++ [r] } :: post := by
  induction pre with
  | nil => simp [joinEntry, he]
  | cons m pre ih =>
    have h1 := h m (by simp)
    simp only [List.cons_append, joinEntry]
    rw [if_neg h1, ih (fun m hm => h m (by simp [hm]))]
theorem closeEntry_split {l : Nat} {e : MergeEntry} {post : List MergeEntry} (pre : List MergeEntry)
    (h : ∀ m ∈ pre, ¬(m.line = l ∧ m.opened = true)) (he : e.line = l ∧ e.opened = true) :
    closeEntry l (pre ++ e :: post) = pre ++ { e with opened := false } :: post := by
  induction pre with
  | nil => simp [closeEntry, he]
  | cons m pre ih =>
    have h1 := h m (by simp)
    simp only [List.cons_append, closeEntry]
    rw [if_neg h1, ih (fun m hm => h m (by simp [hm]))]
theorem raiseAs_set {s : State} {b : Blk} {i n : Nat} {c : ErrClass} (h : Sparse.wf regReset s.regs = true) (hn : n < 32) (hne : c ≠ .corrected) :
    ∃ m f, s.raiseAs b i n c = { s with regs := m, flt := f } ∧ ({ s with regs := m } : State).errSet b i n = true := by
  obtain ⟨m, f, e⟩ := raiseAs_only s b i n c
  refine ⟨m, f, e, ?_⟩
  have := errSet_raiseAs (b := b) (i := i) (n := n) h hn hne
  rw [e] at this
  exact this
theorem respond_only (s : State) (p : Packet) (d : List Byte) : ∃ m f l q n, s.respond p d = { s with regs := m, flt := f, delivered := l, packets := q, packetNext := n } := by
  have fr : ∀ (u : State) (p : Packet), ∃ l, u.failRequest p = { u with delivered := l } := by
    intro u p; unfold State.failRequest
    cases p.core with
    | none => exact ⟨u.delivered, rfl⟩
    | some c => dsimp only; split <;> exact ⟨_, rfl⟩
  have inj : ∀ (u : State) (b : Nat) (h : PacketHeader) (o : PacketFrom) (c : Option Nat), ∃ m f l q n, u.inject b h d o c = { u with regs := m, flt := f, delivered := l, packets := q, packetNext := n } := by
    intro u b h o c
    have rf : ∀ (bb : Blk) (i j : Nat) (p : Packet), ∃ m f l q n, ((u.raise bb i j).failRequest p) = { u with regs := m, flt := f, delivered := l, packets := q, packetNext := n } := by
      intro bb i j p
      obtain ⟨m, f, e⟩ := raise_only u bb i j
      rw [e]
      obtain ⟨l, e2⟩ := fr { u with regs := m, flt := f } p
      exact ⟨m, f, l, u.packets, u.packetNext, e2⟩
    unfold State.inject
    dsimp only
    cases targetOf u b h with
    | none => dsimp only; split <;> exact rf _ _ _ _
    | some t => dsimp only; split
                · exact ⟨u.regs, u.flt, u.delivered, _, _, rfl⟩
                · exact rf _ _ _ _
  unfold State.respond
  dsimp only
  obtain ⟨m, f, l, q, n, e⟩ := inj (s.dropServed p.id) p.target _ _ p.core
  exact ⟨m, f, l, q, n, e⟩

theorem inv_store {s : State} {b : Nat} (h : Inv s) : Memory.wf (s.berth b).store = true :=
  Sparse.get_of_all (P := fun (y : BerthSt) => Memory.wf y.store = true) h.store rfl
theorem logTierError_only (u : State) (k o : Nat) : ∃ m, u.logTierError k o = { u with regs := m } := by
  unfold State.logTierError
  split
  · exact ⟨u.regs, rfl⟩
  · exact only_regs_trans (setReg_only ..) (setReg_only ..)
theorem correctUnit_only (u : State) (k : Nat) : ∃ m f, u.correctUnit k = { u with regs := m, flt := f } := by
  unfold State.correctUnit
  obtain ⟨m, h⟩ := countSat_only u .hbmc k 0x044 31 0
  rw [h]
  obtain ⟨m2, f2, h2⟩ := raise_only { u with regs := m } .hbmc k 0
  exact ⟨m2, f2, h2⟩
/-- Only registers, errors, packets and responses may differ. -/
def RP (s t : State) : Prop := ∃ m f l q n, t = { s with regs := m, flt := f, delivered := l, packets := q, packetNext := n }
theorem RP.refl (s : State) : RP s s := ⟨_, _, _, _, _, rfl⟩
theorem RP.trans {s t u : State} (h : RP s t) (h' : RP t u) : RP s u := by
  obtain ⟨m, b, w, e, n, rfl⟩ := h; obtain ⟨m', b', w', e', n', rfl⟩ := h'; exact ⟨_, _, _, _, _, rfl⟩
theorem RP.regs {s t : State} (h : ∃ m, t = { s with regs := m }) : RP s t := by obtain ⟨m, rfl⟩ := h; exact ⟨m, _, _, _, _, rfl⟩
theorem RP.regs_flt {s t : State} (h : ∃ m f, t = { s with regs := m, flt := f }) : RP s t := by obtain ⟨m, f, rfl⟩ := h; exact ⟨m, f, _, _, _, rfl⟩
theorem RP.raise (s : State) (b : Blk) (i n : Nat) : RP s (s.raise b i n) := RP.regs_flt (raise_only ..)
theorem RP.respond (s : State) (p : Packet) (d : List Byte) : RP s (s.respond p d) := respond_only ..
theorem RP.ite {s t u : State} {p : Prop} [Decidable p] (h : RP s t) (h' : RP s u) : RP s (if p then t else u) := by split <;> assumption
/-- Only registers, errors and ports may differ. -/
def RM (s t : State) : Prop := ∃ m f a b, t = { s with regs := m, flt := f, portA := a, portB := b }
theorem RM.refl (s : State) : RM s s := ⟨_, _, _, _, rfl⟩
theorem RM.trans {s t u : State} (h : RM s t) (h' : RM t u) : RM s u := by
  obtain ⟨m, b, w, e, rfl⟩ := h; obtain ⟨m', b', w', e', rfl⟩ := h'; exact ⟨_, _, _, _, rfl⟩
theorem RM.ite {s t u : State} {p : Prop} [Decidable p] (h : RM s t) (h' : RM s u) : RM s (if p then t else u) := by split <;> assumption
theorem RM.raise (s : State) (b : Blk) (i n : Nat) : RM s (s.raise b i n) := by obtain ⟨m, f, h⟩ := raise_only s b i n; exact ⟨m, f, _, _, h⟩
theorem RM.setPort (s : State) (p : HostPort) (x : Port) : RM s (s.setPort p x) := by cases p <;> exact ⟨_, _, _, _, rfl⟩
theorem RM.mediaAt (s : State) (a : Nat) : RM s (s.mediaAt a) := by
  unfold State.mediaAt
  cases ownerPort s a with
  | none => exact RM.refl s
  | some p => exact RM.setPort ..
theorem RM.unitLost {s t : State} {k o : Nat} (h : RM s t) : RM (s.unitLost k o) (t.unitLost k o) := by
  obtain ⟨m, f, a, b, rfl⟩ := h; exact ⟨_, _, _, _, rfl⟩
/-- R216: the state in which a page has been entered among the retired ones of its stack, in flash too, and its data is to be restored. -/
def State.pageEntered (s : State) (k p : Nat) : State :=
  ({ s.setStack k { s.stack k with retired := (s.stack k).retired ++ [p] } with flash := { s.flash with retired := s.flash.retired ++ [k * 2 ^ 25 + p] } } : State).unitLost
    k (p * 4096)
/-- R216: retiring a page enters it and reports it. -/
theorem retirePage_RM {s : State} {k p : Nat} (h : p ∉ (s.stack k).retired) : RM (s.pageEntered k p) (s.retirePage k p) := by
  unfold State.retirePage State.pageEntered
  dsimp only
  rw [if_neg (by simpa using h)]
  have h1 := ((RM.raise { s.setStack k { s.stack k with retired := (s.stack k).retired ++ [p] } with flash := { s.flash with retired := s.flash.retired ++ [k * 2 ^ 25 + p] } } .hbmc k 4).trans (RM.mediaAt _ (stackDpa k (p * 4096)))).unitLost (k := k) (o := p * 4096)
  exact RM.ite (h1.trans (RM.raise ..)) h1
theorem pageBase_mod (b : Blk) (i : Nat) : pageBase b i % 0x1000 = 0 := by
  cases b <;> simp only [pageBase, berthWindow] <;> (try split) <;> omega
/-- An error of any class sets its bit. -/
theorem errSet_raiseAs_any {s : State} {b : Blk} {i n : Nat} {c : ErrClass} (h : Sparse.wf regReset s.regs = true) (hn : n < 32) :
    (s.raiseAs b i n c).errSet b i n = true := by
  by_cases hc : c = .corrected
  · subst hc
    have e1 : (s.setErrRegs b i ((s.errRegs b i).record n (b == .hbmc && n == 0) s.stamp)).errSet b i n = true := by
      unfold State.errSet
      rw [errRegs_setErrRegs h]
      exact record_sts _ _ _ _ hn
    unfold State.raiseAs
    dsimp only
    split
    · exact e1
    · generalize s.setErrRegs b i ((s.errRegs b i).record n (b == .hbmc && n == 0) s.stamp) = u at *
      have hp := pageBase_mod b i
      have k : regKey .flt 0 0x054 = 0x5054 := rfl
      have : ∀ o, o < 0x1000 → o ≠ 0x54 → Sparse.get regReset (u.count .flt 0 0x054 1).regs (pageBase b i + o) = Sparse.get regReset u.regs (pageBase b i + o) := by
        intro o ho h5
        unfold State.count State.setReg
        rw [k]
        exact Sparse.get_set_other _ _ (by omega)
      unfold State.errSet State.errRegs at *
      dsimp only at *
      rw [this _ (by decide) (by decide)]
      exact e1
  · exact errSet_raiseAs h hn hc
theorem raise_sets {s : State} {b : Blk} {i n : Nat} (h : Sparse.wf regReset s.regs = true) (hc : (errClass b i n).isSome = true) (hn : n < 32) :
    ∃ m f, s.raise b i n = { s with regs := m, flt := f } ∧ ({ s with regs := m } : State).errSet b i n = true ∧ Sparse.wf regReset m = true := by
  obtain ⟨m, f, e⟩ := raise_only s b i n
  obtain ⟨c, hc⟩ := Option.isSome_iff_exists.1 hc
  have h1 := errSet_raiseAs_any (b := b) (i := i) (n := n) (c := c) h hn
  have h2 : Sparse.wf regReset (s.raise b i n).regs = true := by
    unfold State.raise
    rw [hc]
    dsimp only
    have w : Sparse.wf regReset (s.setErrRegs b i ((s.errRegs b i).record n (b == .hbmc && n == 0) s.stamp)).regs = true :=
      Sparse.wf_set _ (Sparse.wf_set _ (Sparse.wf_set _ (Sparse.wf_set _ (Sparse.wf_set _ h))))
    unfold State.raiseAs
    cases c
    · dsimp only; split
      · exact w
      · exact Sparse.wf_set _ w
    all_goals exact w
  have h3 := e
  unfold State.raise at h3
  rw [hc] at h3
  dsimp only at h3
  rw [h3] at h1
  rw [e] at h2
  exact ⟨m, f, e, h1, h2⟩
/-- An error changes no register but those of its page's header and FLT_CNT_CORR. -/
theorem raise_get {s : State} {b : Blk} {i n j : Nat} (h : j % 0x1000 ∉ [0x10, 0x18, 0x1C, 0x20, 0x24]) (h2 : j ≠ 0x5054) :
    Sparse.get regReset (s.raise b i n).regs j = Sparse.get regReset s.regs j := by
  have hp := pageBase_mod b i
  simp only [List.mem_cons, List.not_mem_nil, or_false, not_or] at h
  have e : ∀ r, Sparse.get regReset (s.setErrRegs b i r).regs j = Sparse.get regReset s.regs j := fun r =>
    get_setErrRegs_other (by omega) (by omega) (by omega) (by omega) (by omega)
  unfold State.raise
  cases errClass b i n with
  | none => rfl
  | some c =>
    unfold State.raiseAs
    cases c
    · dsimp only
      split
      · exact e _
      · unfold State.count State.setReg
        exact (Sparse.get_set_other _ _ (show j ≠ regKey .flt 0 0x054 from h2)).trans (e _)
    all_goals exact e _
theorem raise_regI {s : State} {b c : Blk} {i n k o x : Nat} (h : (regKey c k o) % 0x1000 ∉ [0x10, 0x18, 0x1C, 0x20, 0x24]) :
    (s.raise b i n).regI c k o x = s.regI c k o x := by
  unfold State.regI
  refine raise_get ?_ ?_ <;> unfold regKeyI
  · rwa [show (regKey c k o + (x + 1) * 2 ^ 28) % 0x1000 = regKey c k o % 0x1000 from by omega]
  · omega
theorem raise_reg {s : State} {b c : Blk} {i n k o : Nat} (h : (regKey c k o) % 0x1000 ∉ [0x10, 0x18, 0x1C, 0x20, 0x24]) (h2 : regKey c k o ≠ 0x5054) :
    (s.raise b i n).reg c k o = s.reg c k o := raise_get h h2
theorem errSet_regs {s t : State} {b : Blk} {i n : Nat} (h : s.regs = t.regs) : s.errSet b i n = t.errSet b i n := by
  unfold State.errSet State.errRegs; rw [h]
theorem msi_eq (u : State) (p v : Nat) : u.msi p v = { u with msix := (u.msi p v).msix } := rfl
theorem msi_msix {s u : State} (p v : Nat) (h : u.msix = s.msix) : (u.msi p v).msix = (s.msi p v).msix := by
  unfold State.msi; dsimp only; rw [h]
/-- A write of a register changes the register file alone and keeps its form. -/
theorem setReg_wf {s : State} (b : Blk) (i o : Nat) (v : Word) (h : Sparse.wf regReset s.regs = true) :
    ∃ m, s.setReg b i o v = { s with regs := m } ∧ Sparse.wf regReset m = true := ⟨_, rfl, Sparse.wf_set _ h⟩
theorem setRegI_wf {s : State} (b : Blk) (i o j : Nat) (v : Word) (h : Sparse.wf regReset s.regs = true) :
    ∃ m, s.setRegI b i o j v = { s with regs := m } ∧ Sparse.wf regReset m = true := ⟨_, rfl, Sparse.wf_set _ h⟩
theorem count_wf {s : State} (b : Blk) (i o n : Nat) (h : Sparse.wf regReset s.regs = true) :
    ∃ m, s.count b i o n = { s with regs := m } ∧ Sparse.wf regReset m = true := setReg_wf _ _ _ _ h
theorem raise_wf {s : State} (b : Blk) (i n : Nat) (h : Sparse.wf regReset s.regs = true) :
    ∃ m f, s.raise b i n = { s with regs := m, flt := f } ∧ Sparse.wf regReset m = true := by
  cases hc : errClass b i n with
  | none => exact ⟨s.regs, s.flt, by unfold State.raise; rw [hc], h⟩
  | some c =>
    by_cases hn : n < 32
    · obtain ⟨m, f, e, -, w⟩ := raise_sets (s := s) (b := b) (i := i) (n := n) h (by rw [hc]; rfl) hn
      exact ⟨m, f, e, w⟩
    · obtain ⟨m, f, e⟩ := raise_only s b i n
      have w : Sparse.wf regReset (s.raise b i n).regs = true := by
        unfold State.raise
        rw [hc]
        dsimp only
        have w : Sparse.wf regReset (s.setErrRegs b i ((s.errRegs b i).record n (b == .hbmc && n == 0) s.stamp)).regs = true :=
          Sparse.wf_set _ (Sparse.wf_set _ (Sparse.wf_set _ (Sparse.wf_set _ (Sparse.wf_set _ h))))
        unfold State.raiseAs
        cases c
        · dsimp only; split
          · exact w
          · exact Sparse.wf_set _ w
        all_goals exact w
      rw [e] at w
      exact ⟨m, f, e, w⟩
theorem errSet_of {s t : State} {b : Blk} {i n : Nat} (h : s.errSet b i n = true) (hr : s.regs = t.regs) : t.errSet b i n = true :=
  (errSet_regs hr) ▸ h
theorem bit_putBits31 (w : Word) : bit (putBits w 31 31 0) 31 = false := by
  unfold bit putBits field
  simp
theorem disableRings_spec {s : State} {p : HostPort} (h : Sparse.wf regReset s.regs = true) :
    ∃ m, s.disableRings p = { s with regs := m } ∧ Sparse.wf regReset m = true ∧
      bit (({ s with regs := m } : State).reg .cxlp (portIx p) 0x04C) 31 = false ∧ bit (({ s with regs := m } : State).reg .cxlp (portIx p) 0x054) 31 = false := by
  refine ⟨_, rfl, Sparse.wf_set _ (Sparse.wf_set _ h), ?_, ?_⟩
  · unfold State.reg State.setReg
    dsimp only
    rw [Sparse.get_set_other _ _ (by cases p <;> decide), Sparse.get_set_same _ h]
    exact bit_putBits31 _
  · unfold State.reg State.setReg
    dsimp only
    rw [Sparse.get_set_same _ (Sparse.wf_set _ h)]
    exact bit_putBits31 _
theorem get_ringRegs_raise {s : State} {p : HostPort} {n o : Nat} (ho : o = 0x04C ∨ o = 0x054) :
    (s.raise .cxlp (portIx p) n).reg .cxlp (portIx p) o = s.reg .cxlp (portIx p) o := by
  rcases ho with rfl | rfl <;> exact raise_reg (by cases p <;> decide) (by cases p <;> decide)
theorem setPort_comm (s : State) (p : HostPort) (x y : Port) : (s.setPort p x).setPort p y = s.setPort p y := by cases p <;> rfl
theorem port_setPort (s : State) (p : HostPort) (x : Port) : (s.setPort p x).port p = x := by cases p <;> rfl
theorem port_other (s : State) (p : HostPort) (x : Port) : (s.setPort p x).port (otherPort p) = s.port (otherPort p) := by cases p <;> rfl
/-- A write of a selector's copy of a register, with what it leaves there. -/
theorem setRegI_reads {s : State} (b : Blk) (i o j : Nat) (v : Word) (h : Sparse.wf regReset s.regs = true) :
    ∃ m, s.setRegI b i o j v = { s with regs := m } ∧ Sparse.wf regReset m = true ∧ ({ s with regs := m } : State).regI b i o j = v :=
  ⟨_, rfl, Sparse.wf_set _ h, Sparse.get_set_same _ h⟩
theorem setReg_reads {s : State} (b : Blk) (i o : Nat) (v : Word) (h : Sparse.wf regReset s.regs = true) :
    ∃ m, s.setReg b i o v = { s with regs := m } ∧ Sparse.wf regReset m = true ∧ ({ s with regs := m } : State).reg b i o = v :=
  ⟨_, rfl, Sparse.wf_set _ h, Sparse.get_set_same _ h⟩
theorem bit_field_lt {n : Nat} (h : n < 2 ^ 31) : bit (field n 0) 31 = false := by
  unfold bit field
  rw [BitVec.getLsbD_ofNat, Nat.testBit_lt_two_pow (by omega)]
  simp
theorem bits_lt (w : Word) (a b : Nat) : bits w a b < 2 ^ (a + 1 - b) := Nat.mod_lt _ (Nat.two_pow_pos _)

theorem activate_only (l : List Nat) (x : BerthSt) : l.foldl activate x = { x with activations := (l.foldl activate x).activations } := by
  induction l generalizing x with
  | nil => rfl
  | cons n l ih =>
    rw [List.foldl_cons, ih]; rfl
/-- R83, R198: what a write to a store die changes. -/
theorem storeWrite_spec {s : State} (hi : Inv s) (b off : Nat) (data : List Byte) :
    s.StoreBecomes b (Memory.write (s.berth b).store off data) (s.storeWrite b off data) := by
  have e : ∃ x, s.storeWrite b off data = (s.setBerth b x).storePut b off data ∧
      x = { s.berth b with entries := x.entries, activations := x.activations } := by
    refine ⟨_, rfl, ?_⟩
    rw [activate_only]; rfl
  obtain ⟨x, e, hx⟩ := e
  have h1 : (s.setBerth b x).berth b = x := State.berth_setBerth hi.berths
  have h2 : Sparse.wf (fun _ => ({} : BerthSt)) (s.setBerth b x).berths = true := Sparse.wf_set _ hi.berths
  have e2 : s.storeWrite b off data = (s.setBerth b x).setBerth b { x with store := Memory.write x.store off data } := by
    rw [e]; unfold State.storePut; rw [h1]
  have hs : x.store = (s.berth b).store := by rw [hx]
  have h3 := State.berth_setBerth (b := b) (x := { x with store := Memory.write x.store off data }) h2
  rw [e2]
  refine ⟨rfl, ?_, fun d hd => ?_⟩
  · rw [h3, hs, hx]
  · rw [State.berth_setBerth_other hd, State.berth_setBerth_other hd]
theorem Inv.storeWrite {s : State} (hi : Inv s) (b off : Nat) (data : List Byte) : Inv (s.storeWrite b off data) :=
  (good_storeWrite (s0 := s) ⟨⟨rfl, rfl, rfl, rfl, rfl, rfl, rfl, le_refl _⟩, hi⟩).inv
/-- R128: what writing lines of a store die changes, and where each line lies. -/
theorem writeLines_spec (b n : Nat) : ∀ {s : State} (line : Nat) (data : List Byte), Inv s → data.length = n * 128 →
    let t := s.writeLines b n line data
    s.StoreBecomes b (t.berth b).store t ∧
    (∀ y, (∀ i, i < n → y / 128 ≠ (line + i) % 2 ^ 26) → Memory.byte (t.berth b).store y = Memory.byte (s.berth b).store y) ∧
    (n ≤ 2 ^ 26 → ∀ i j, i < n → j < 128 → Memory.byte (t.berth b).store ((line + i) % 2 ^ 26 * 128 + j) = data.getD (i * 128 + j) 0) := by
  induction n with
  | zero => intro s line data hi hl; exact ⟨⟨rfl, rfl, fun _ _ => rfl⟩, fun _ _ => rfl, fun _ i _ h => absurd h (Nat.not_lt_zero _)⟩
  | succ n ih =>
    intro s line data hi hl t
    have hw := storeWrite_spec hi b (line % storeLines * 128) (data.take 128)
    have hi' := hi.storeWrite b (line % storeLines * 128) (data.take 128)
    obtain ⟨u, hu⟩ : ∃ u, s.storeWrite b (line % storeLines * 128) (data.take 128) = u := ⟨_, rfl⟩
    have ht : t = u.writeLines b n (line + 1) (data.drop 128) := by rw [← hu]; rfl
    rw [hu] at hw hi'
    obtain ⟨h1, h2, h3⟩ := ih (line + 1) (data.drop 128) hi' (by simp; omega)
    rw [← ht] at h1 h2 h3
    have hlen : (data.take 128).length = 128 := by simp; omega
    have hus : (u.berth b).store = Memory.write (s.berth b).store (line % 2 ^ 26 * 128) (data.take 128) := by rw [hw.berth]; rfl
    refine ⟨⟨?_, ?_, ?_⟩, ?_, ?_⟩
    · rw [h1.rest, hw.rest]
    · rw [h1.berth, hw.berth]
    · intro d hd; rw [h1.other d hd, hw.other d hd]
    · intro y hy
      rw [h2 y (fun i h => by have := hy (i + 1) (by omega); rwa [show line + 1 + i = line + (i + 1) by omega]), hus]
      have := hy 0 (by omega)
      rw [Nat.add_zero] at this
      exact Memory.byte_write_other _ (by rw [hlen]; omega)
    · intro hn i j hij hj
      cases i with
      | zero =>
        rw [h2 _ (fun i h => by
          have e1 : ((line + 0) % 2 ^ 26 * 128 + j) / 128 = line % 2 ^ 26 := by rw [Nat.add_zero]; omega
          rw [e1]; omega), hus, Nat.add_zero, Nat.zero_mul, Nat.zero_add,
          Memory.byte_write_same (data.take 128) (inv_store hi) (by rw [hlen]; exact hj)]
        simp [List.getD_eq_getElem?_getD, List.getElem?_eq_getElem (show j < data.length by omega)]
      | succ i =>
        have := h3 (by omega) i j (by omega) hj
        rw [show line + (i + 1) = line + 1 + i by omega, this]
        simp only [List.getD_eq_getElem?_getD, List.getElem?_drop]
        rw [show 128 + (i * 128 + j) = (i + 1) * 128 + j by omega]

/-- R130: a request to a module that is not live is refused with ROUTE at the core's berth and ends at once. -/
theorem sendRequest_dead {s : State} {c a b : Nat} {d : DreqDesc} (k : Core) (hi : Inv s) (hb : s.physOf (c / 144) = some b) (hl : liveModule s d.module = none) :
    let t := s.sendRequest c k a d
    t.errSet .mesh b 3 = true ∧ t.core c = { k with requests := k.requests + 1 } ∧ t.packets = s.packets ∧ t.delivered = s.delivered ∧
      t.berths = s.berths ∧ t.hbm = s.hbm := by
  intro t
  obtain ⟨k2, hk2⟩ : ∃ k2 : Core, k2 = { k with dyn := k.dyn ++ [{ tag := d.tag, write := d.write, dst := a, len := d.len }], requests := k.requests + 1 } := ⟨_, rfl⟩
  obtain ⟨m, hm⟩ := trackPeak_only (s.setCore c k2) c
  have hw : Sparse.wf regReset m = true := by
    have h : Sparse.wf regReset ((s.setCore c k2).trackPeak c).regs = true := by
      unfold State.trackPeak
      split
      · exact hi.regs
      · exact Sparse.wf_set _ hi.regs
    rw [hm] at h; exact h
  have ht : t = (({ s.setCore c k2 with regs := m } : State).raise .mesh b 3).setCore c { k with requests := k.requests + 1 } := by
    change State.sendRequest s c k a d = _
    unfold State.sendRequest
    dsimp only
    rw [← hk2, hm, hb, hl]
  obtain ⟨m', f', e, he⟩ := raise_set (s := ({ s.setCore c k2 with regs := m } : State)) (b := .mesh) (i := b) (n := 3) (c := .contained) hw rfl (by decide) (by decide)
  have hu : t = ({ s.setCore c k2 with regs := m', flt := f' } : State).setCore c { k with requests := k.requests + 1 } := by rw [ht, e]
  rw [hu]
  refine ⟨he, State.core_setCore (Sparse.wf_set _ hi.cores), rfl, rfl, rfl, rfl⟩
/-- R339, R342: a control message that leaves or waits changes ports and what has left by them alone. -/
theorem sendCtl_only (s : State) (z : Nat) (m : CtlMsg) : ∃ p o, s.sendCtl z m = { s with zports := p, portOut := o } := by
  unfold State.sendCtl
  dsimp only
  split
  · exact ⟨s.zports, s.portOut, rfl⟩
  · split
    · exact ⟨_, s.portOut, rfl⟩
    · exact ⟨_, _, rfl⟩
theorem received_only (s : State) (z n : Nat) : ∃ p o, s.received z n = { s with zports := p, portOut := o } := by
  unfold State.received
  obtain ⟨p, o, h⟩ := sendCtl_only (s.setZport z { s.zport z with rseq := ((s.zport z).rseq + n) % 4096, flitFails := 0 }) z (.ack ((((s.zport z).rseq + n) % 4096 + 4095) % 4096))
  exact ⟨p, o, h⟩
/-- R44, R47, R64: what a slot that issues onto link `w` changes. -/
theorem issueSlot_only (s : State) (w l hop : Nat) (u : SlotUnit) (tunnel own : Bool) : ∃ m p o, s.issueSlot w l hop u tunnel own =
    { s.setWay w { (s.way w).flight (s.madeRoom w ++ [.slot l hop u]) with
        sinceDyn := (s.way w).sinceDyn + 1, owned := (s.way w).owned + (if own then 1 else 0), lastTunnel := tunnel } with
      regs := m, zports := p, portOut := o } := by
  unfold State.issueSlot State.issueOn
  obtain ⟨m, h⟩ := only_regs_trans (countWay_only (s.setWay w { (s.way w).flight (s.madeRoom w ++ [.slot l hop u]) with
    sinceDyn := (s.way w).sinceDyn + 1, owned := (s.way w).owned + (if own then 1 else 0), lastTunnel := tunnel }) w 0x044 true (ceilDiv u.data.length 64)) (trackSeam_only _ w)
  rw [show ((s.setWay w ((fun x : Way => { x with sinceDyn := x.sinceDyn + 1, owned := x.owned + (if own = true then 1 else 0), lastTunnel := tunnel })
      ((s.way w).flight (s.madeRoom w ++ [LinkUnit.slot l hop u])))).countWay w 0x044 true (ceilDiv u.data.length 64)).trackSeam w = _ from h]
  obtain ⟨z, hz⟩ := useWindow_only ({ s.setWay w { (s.way w).flight (s.madeRoom w ++ [.slot l hop u]) with
    sinceDyn := (s.way w).sinceDyn + 1, owned := (s.way w).owned + (if own then 1 else 0), lastTunnel := tunnel } with regs := m }) w
  rw [hz]
  unfold State.ackSlot
  split
  · obtain ⟨p, o, h⟩ := received_only ({ s.setWay w { (s.way w).flight (s.madeRoom w ++ [.slot l hop u]) with
      sinceDyn := (s.way w).sinceDyn + 1, owned := (s.way w).owned + (if own then 1 else 0), lastTunnel := tunnel } with regs := m, zports := z }) (linkBerth w) 8
    exact ⟨m, p, o, h⟩
  · exact ⟨m, z, s.portOut, rfl⟩
/-- R44, R45, R188: what a dynamic unit that issues onto link `w` changes, packet and peaks apart. -/
theorem issueDyn_only (s : State) (w id n : Nat) (p : Packet) : ∃ m, ((s.issueOn w (.dyn id n) (ceilDiv (unitBytes p n) 64)
      (fun x => { x with sinceDyn := 0, dyn := x.dyn + 1 })).countWay w 0x044 false (ceilDiv (unitBytes p n) 64)).countPacket w p =
    { s.setWay w { (s.way w).flight (s.madeRoom w ++ [.dyn id n]) with sinceDyn := 0, dyn := (s.way w).dyn + 1 } with regs := m } := by
  unfold State.issueOn
  exact only_regs_trans (only_regs_trans (only_regs_trans (countWay_only (s.setWay w { (s.way w).flight (s.madeRoom w ++ [.dyn id n]) with sinceDyn := 0, dyn := (s.way w).dyn + 1 }) w 0x044 true
    (ceilDiv (unitBytes p n) 64)) (trackSeam_only _ w)) (countWay_only _ w 0x044 false _)) (countPacket_only _ w p)
theorem ports_trans {s t u : State} (h : ∃ p o, t = { s with zports := p, portOut := o }) (h' : ∃ p o, u = { t with zports := p, portOut := o }) :
    ∃ p o, u = { s with zports := p, portOut := o } := by
  obtain ⟨p, o, rfl⟩ := h; obtain ⟨p', o', rfl⟩ := h'; exact ⟨p', o', rfl⟩
theorem sendEdge_only (s : State) (m : CtlMsg) (r : Nat) : ∃ p o, s.sendEdge m r = { s with zports := p, portOut := o } := by
  unfold State.sendEdge
  split
  · exact sendCtl_only ..
  · exact ⟨s.zports, s.portOut, rfl⟩
theorem sendEdges_only (m : CtlMsg) (l : List Nat) (s : State) : ∃ p o, l.foldl (fun s r => s.sendEdge m r) s = { s with zports := p, portOut := o } := by
  induction l generalizing s with
  | nil => exact ⟨s.zports, s.portOut, rfl⟩
  | cons r l ih => exact ports_trans (sendEdge_only s m r) (ih _)
theorem sendUp_only (s : State) (m : SliceMsg) : ∃ p o, s.sendUp m = { s with zports := p, portOut := o } := by
  unfold State.sendUp
  split
  · exact sendEdge_only ..
  · exact ⟨s.zports, s.portOut, rfl⟩
theorem sendDown_only (s : State) (m : SliceMsg) : ∃ p o, s.sendDown m = { s with zports := p, portOut := o } := sendEdges_only ..
theorem sendTime_only (s : State) (t : Dword) (n : Nat) : ∃ p o, s.sendTime t n = { s with zports := p, portOut := o } := sendEdges_only ..
theorem passUp_only (s : State) : ∃ p o, s.passUp = { s with zports := p, portOut := o } := by
  unfold State.passUp
  split
  · exact sendUp_only ..
  · exact ⟨s.zports, s.portOut, rfl⟩
/-- R194: a resent flit changes error registers and the fault handler's record alone, and nothing where none was resent. -/
theorem resendFlit_only (s : State) (n : ChNode) (r : Bool) : ∃ m f, s.resendFlit n r = { s with regs := m, flt := f } ∧ (r = false → m = s.regs ∧ f = s.flt) := by
  unfold State.resendFlit
  cases r
  · exact ⟨s.regs, s.flt, rfl, fun _ => ⟨rfl, rfl⟩⟩
  · split
    · obtain ⟨m, f, h⟩ := raise_only s .chms (s.nodeBerth n) 0
      exact ⟨m, f, h, fun h => by cases h⟩
    · exact ⟨s.regs, s.flt, rfl, fun h => by cases h⟩
theorem endHandling_only (s : State) : ∃ m, s.endHandling = { s with regs := m, flt := { s.flt with phase := .idle, cur := none, next := none, ovf := 0, repairs := [], rowTest := [], sudden := false } } := by
  have e : ∀ u : State, (∃ m, u = { s with regs := m }) → ∃ m, ({ u.setReg .flt 0 0x048 (putBits (u.reg .flt 0 0x048) 15 0 (bits (u.reg .flt 0 0x048) 15 0 + 1)) with
      flt := { (u.setReg .flt 0 0x048 (putBits (u.reg .flt 0 0x048) 15 0 (bits (u.reg .flt 0 0x048) 15 0 + 1))).flt with phase := .idle, cur := none, next := none, ovf := 0, repairs := [], rowTest := [], sudden := false } } : State) =
      { s with regs := m, flt := { s.flt with phase := .idle, cur := none, next := none, ovf := 0, repairs := [], rowTest := [], sudden := false } } := by
    rintro u ⟨m, rfl⟩
    exact ⟨_, rfl⟩
  unfold State.endHandling
  refine e _ ?_
  split
  · exact ⟨s.regs, rfl⟩
  · dsimp only
    split
    · exact count_only ..
    · split
      · exact setReg_only ..
      · split
        · exact setReg_only ..
        · exact ⟨s.regs, rfl⟩
/-- R73, R227: a step's run begins with its cores cleared. -/
theorem startRun_only (s : State) (t : Step) : ∃ m b w e d, s.startRun t = { s with
    regs := m, berths := b, west := w, east := e, draws := d, links := [], ways := s.keepDynamic.ways
    coresMode := .run, cores := [], passed := [], oneLeft := [], barrierTimer := false, lateSent := none, sliceIn := []
    seq := { s.seq with cur := some t, running := true, finished := false, epoch := 0, stepId := t.id, lastImage := t.image
                        lastStreams := t.streams, lastPositions := t.positions, lastProg := t.prog } } := by
  unfold State.startRun
  obtain ⟨m, b, w, e, d, h⟩ := applyDivisors_RB s true true
  rw [h]
  exact ⟨m, b, w, e, d, rfl⟩
theorem wf_raiseAs {s : State} {b : Blk} {i n : Nat} {c : ErrClass} (h : Sparse.wf regReset s.regs = true) :
    Sparse.wf regReset (s.raiseAs b i n c).regs = true := by
  have e : ∀ r, Sparse.wf regReset (s.setErrRegs b i r).regs = true := fun r =>
    Sparse.wf_set _ (Sparse.wf_set _ (Sparse.wf_set _ (Sparse.wf_set _ (Sparse.wf_set _ h))))
  unfold State.raiseAs
  dsimp only
  cases c
  · dsimp only
    split
    · exact e _
    · exact Sparse.wf_set _ (e _)
  all_goals exact e _
theorem wf_raise {s : State} {b : Blk} {i n : Nat} (h : Sparse.wf regReset s.regs = true) : Sparse.wf regReset (s.raise b i n).regs = true := by
  unfold State.raise
  split
  · exact wf_raiseAs h
  · exact h
theorem correctClock_only (s : State) (m : List (Nat × Word)) (f : Flt) (b : Nat) (c v : Int) : ({ s with regs := m, flt := f } : State).correctClock b c v =
    { s with regs := m, flt := f, nodeClocks := Sparse.set (fun _ => {}) s.nodeClocks b (if c ≤ v then { skew := v - s.stamp.toNat, hold := 0 } else { skew := c - s.stamp.toNat, hold := (c - v).toNat }) } := rfl
/-- An error of a class, recorded: only error registers and the fault handler's record change, and its bit stands. -/
theorem raiseAs_any {s : State} {b : Blk} {i n : Nat} {c : ErrClass} (h : Sparse.wf regReset s.regs = true) (hn : n < 32) :
    ∃ m f, s.raiseAs b i n c = { s with regs := m, flt := f } ∧ ({ s with regs := m } : State).errSet b i n = true := by
  obtain ⟨m, f, e⟩ := raiseAs_only s b i n c
  have h1 := errSet_raiseAs_any (b := b) (i := i) (n := n) (c := c) h hn
  rw [e] at h1
  exact ⟨m, f, e, h1⟩
/-- An error of a listed class, recorded. -/
theorem raise_any {s : State} {b : Blk} {i n : Nat} {c : ErrClass} (h : Sparse.wf regReset s.regs = true) (hc : errClass b i n = some c) (hn : n < 32) :
    ∃ m f, s.raise b i n = { s with regs := m, flt := f } ∧ ({ s with regs := m } : State).errSet b i n = true := by
  unfold State.raise
  rw [hc]
  exact raiseAs_any h hn
/-- R206: the errors of a berth's rows of the last 24 hours, with one more. -/
def rowsWith (s : State) (x : BerthSt) (line : Nat) (lost : Bool) : List (Nat × Nat × Bool) :=
  x.rowErrors.filter (fun e => s.stamp.toNat < e.2.1 + dayPclk) ++ [(rowKey line, s.stamp.toNat, lost)]
/-- R206: an error of a row of a berth that has just been written, noted. -/
theorem noteRow_setBerth {s : State} (h : Sparse.wf (fun _ => ({} : BerthSt)) s.berths = true) (b l : Nat) (x : BerthSt) (lost : Bool) :
    (s.setBerth b x).noteRow b l lost = s.setBerth b { x with rowErrors := rowsWith s x l lost } := by
  unfold State.noteRow
  dsimp only
  rw [State.berth_setBerth h]
  exact State.setBerth_setBerth h
theorem logStoreError_only (s : State) (b l : Nat) : ∃ m, s.logStoreError b l = { s with regs := m } := by
  unfold State.logStoreError
  split
  · exact ⟨s.regs, rfl⟩
  · exact ⟨_, rfl⟩
theorem wf_logStoreError {s : State} (h : Sparse.wf regReset s.regs = true) (b l : Nat) : Sparse.wf regReset (s.logStoreError b l).regs = true := by
  unfold State.logStoreError
  split
  · exact h
  · obtain ⟨m, e, w⟩ := setReg_wf (s := s) .stor b 72 (flag true 31 ||| field (s.regionOf b l) 28 ||| field l 0) h
    rw [e]; exact w
/-- R205, R206, R219: a line that could not be corrected, of a berth that has just been written. -/
theorem lineLost_setBerth {s : State} (hi : Inv s) (b l : Nat) (x : BerthSt) :
    ∃ m, (s.setBerth b x).lineLost b l =
      { s.setBerth b { x with rowErrors := rowsWith s x l true, badLines := x.badLines.filter (· ≠ l) ++ [l] } with regs := m } ∧
      Sparse.wf regReset m = true := by
  obtain ⟨m, hm⟩ := logStoreError_only (s.setBerth b x) b l
  have hw := wf_logStoreError (s := s.setBerth b x) hi.regs b l
  rw [hm] at hw
  refine ⟨m, ?_, hw⟩
  unfold State.lineLost
  rw [hm]
  dsimp only
  have e : ({ s.setBerth b x with regs := m } : State) = ({ s with regs := m } : State).setBerth b x := rfl
  rw [e, noteRow_setBerth (s := { s with regs := m }) hi.berths]
  rw [State.berth_setBerth (s := { s with regs := m }) hi.berths]
  exact State.setBerth_setBerth (s := { s with regs := m }) hi.berths
theorem record_keeps (r : ErrRegs) (n m : Nat) (x : Bool) (now : Dword) (h : r.sts.getLsbD m = true) : (r.record n x now).sts.getLsbD m = true := by
  unfold ErrRegs.record
  split
  · next h0 => rw [h0] at h; simp at h
  · simp [h]
/-- A further error of a page leaves the bits that stand there. -/
theorem errSet_raiseAs_keep {s : State} {b : Blk} {i n m : Nat} {c : ErrClass} (h : Sparse.wf regReset s.regs = true) (hs : s.errSet b i m = true) :
    (s.raiseAs b i n c).errSet b i m = true := by
  have e1 : (s.setErrRegs b i ((s.errRegs b i).record n (b == .hbmc && n == 0) s.stamp)).errSet b i m = true := by
    unfold State.errSet
    rw [errRegs_setErrRegs h]
    exact record_keeps _ _ _ _ _ hs
  generalize hu : s.setErrRegs b i ((s.errRegs b i).record n (b == .hbmc && n == 0) s.stamp) = u at *
  have e2 : (s.raiseAs b i n c).regs = u.regs ∨ (s.raiseAs b i n c).regs = (u.count .flt 0 0x054 1).regs := by
    unfold State.raiseAs
    rw [hu]
    cases c
    · dsimp only; split
      · exact .inl rfl
      · exact .inr rfl
    all_goals exact .inl rfl
  rcases e2 with e2 | e2
  · rw [errSet_regs e2]; exact e1
  · rw [errSet_regs e2]
    have hp := pageBase_mod b i
    have k : regKey .flt 0 0x054 = 0x5054 := rfl
    have : ∀ o, o < 0x1000 → o ≠ 0x54 → Sparse.get regReset (u.count .flt 0 0x054 1).regs (pageBase b i + o) = Sparse.get regReset u.regs (pageBase b i + o) := by
      intro o ho h5
      unfold State.count State.setReg
      rw [k]
      exact Sparse.get_set_other _ _ (by omega)
    unfold State.errSet State.errRegs at *
    dsimp only at *
    rw [this _ (by decide) (by decide)]
    exact e1
theorem errSet_raise_keep {s : State} {b : Blk} {i n m : Nat} (h : Sparse.wf regReset s.regs = true) (hs : s.errSet b i m = true) :
    (s.raise b i n).errSet b i m = true := by
  unfold State.raise
  split
  · exact errSet_raiseAs_keep h hs
  · exact hs
/-- R216: retiring a page sets PAGE_RETIRED. -/
theorem retirePage_err {s : State} {k p : Nat} (hw : Sparse.wf regReset s.regs = true) (h : p ∉ (s.stack k).retired) :
    (s.retirePage k p).errSet .hbmc k 4 = true := by
  have key : ∀ (v : State) (c : Prop) [Decidable c], Sparse.wf regReset v.regs = true →
      (if c then (((v.raise .hbmc k 4).mediaAt (stackDpa k (p * 4096))).unitLost k (p * 4096)).raise .hbmc k 5
        else ((v.raise .hbmc k 4).mediaAt (stackDpa k (p * 4096))).unitLost k (p * 4096)).errSet .hbmc k 4 = true := by
    intro v c _ hr
    obtain ⟨m, f, e1, e2, e3⟩ := raise_sets (s := v) (b := .hbmc) (i := k) (n := 4) hr rfl (by decide)
    rw [e1]
    generalize hu : ({ v with regs := m, flt := f } : State) = u
    have hm : u.regs = m := by rw [← hu]
    have h4 : ((u.mediaAt (stackDpa k (p * 4096))).unitLost k (p * 4096)).regs = m := by
      rw [← hm]
      unfold State.unitLost State.mediaAt
      cases ownerPort u (stackDpa k (p * 4096)) with
      | none => rfl
      | some q => cases q <;> rfl
    have h5 : ((u.mediaAt (stackDpa k (p * 4096))).unitLost k (p * 4096)).errSet .hbmc k 4 = true := by
      rw [errSet_regs (t := { v with regs := m }) h4]; exact e2
    split
    · exact errSet_raise_keep (by rw [h4]; exact e3) h5
    · exact h5
  unfold State.retirePage
  dsimp only
  rw [if_neg (by simpa using h)]
  exact key _ _ hw
/-- Writing a register other than the page's ERR_STS leaves the page's errors. -/
theorem errSet_setReg {s : State} {b c : Blk} {i n k o : Nat} {v : Word} (h : regKey c k o ≠ pageBase b i + 0x10) :
    (s.setReg c k o v).errSet b i n = s.errSet b i n := by
  unfold State.errSet State.errRegs State.setReg
  dsimp only
  rw [Sparse.get_set_other _ _ (Ne.symm h)]
/-- Only the slower tier and host memory may differ. -/
def RT (s t : State) : Prop := ∃ d h g, t = { s with tier := d, hbm := h, hostMem := g }
theorem RT.trans {s t u : State} (h : RT s t) (h' : RT t u) : RT s u := by
  obtain ⟨a, b, c, rfl⟩ := h; obtain ⟨a', b', c', rfl⟩ := h'; exact ⟨_, _, _, rfl⟩
theorem RT.foldl {α : Type} {f : State → α → State} (hf : ∀ s a, RT s (f s a)) (l : List α) (s : State) : RT s (l.foldl f s) := by
  induction l generalizing s with
  | nil => exact ⟨_, _, _, rfl⟩
  | cons a l ih => exact (hf s a).trans (ih _)
/-- R321: emptying the Lighter buffers changes the slower tier and host memory only. -/
theorem flushBuffers_only (s : State) : ∃ d h g, s.flushBuffers = { s with tier := d, hbm := h, hostMem := g } := by
  have hw : ∀ (s : State) x, RT s (s.writeBuffer x) := by
    intro s x
    unfold State.writeBuffer
    cases x <;> exact ⟨_, _, _, rfl⟩
  exact RT.foldl (fun s k => RT.trans (t := s.setStack k { s.stack k with lighter := [] }) ⟨_, _, _, rfl⟩ (RT.foldl hw _ _)) _ _
/-- The image slots and the Lighter's channels are the same. -/
def KI (s t : State) : Prop := t.images = s.images ∧ t.chans = s.chans
theorem KI.refl (s : State) : KI s s := ⟨rfl, rfl⟩
theorem KI.trans {s t u : State} (h : KI s t) (h' : KI t u) : KI s u := ⟨h'.1.trans h.1, h'.2.trans h.2⟩
theorem KI.foldl {α : Type} {f : State → α → State} (hf : ∀ s a, KI s (f s a)) (l : List α) (s : State) : KI s (l.foldl f s) := by
  induction l generalizing s with
  | nil => exact KI.refl s
  | cons a l ih => exact (hf s a).trans (ih _)
theorem KI.ite {s t u : State} {p : Prop} [Decidable p] (h : KI s t) (h' : KI s u) : KI s (if p then t else u) := by split <;> assumption
theorem KI.raise (s : State) (b : Blk) (i n : Nat) : KI s (s.raise b i n) := by obtain ⟨m, f, h⟩ := raise_only s b i n; rw [h]; exact ⟨rfl, rfl⟩
theorem KI.liftRepaired (s : State) (i : Nat) : KI s (s.liftRepaired i) := by
  unfold State.liftRepaired State.liftAll
  exact KI.ite (KI.refl s) (KI.foldl (f := fun (s : State) i => s.lift i 2) (fun s i => by unfold State.lift State.putStream; exact KI.ite ⟨rfl, rfl⟩ ⟨rfl, rfl⟩) _ _)
theorem KI.lbWrite (s : State) (lb off : Nat) (d : List Byte) : KI s (s.lbWrite lb off d) := by
  unfold State.lbWrite State.pagerWrite
  cases s.physOf lb with
  | none => exact KI.refl s
  | some b => exact KI.ite ⟨rfl, rfl⟩ (KI.raise ..)
theorem KI.spoilShard (s : State) (d : ShardPlace) : KI s (s.spoilShard d) := by
  unfold State.spoilShard
  dsimp only
  exact KI.trans (KI.ite (KI.trans (t := s.drawn) ⟨rfl, rfl⟩ (KI.lbWrite ..)) (show KI s s.drawn from ⟨rfl, rfl⟩))
    (KI.foldl (f := fun s (e : Nat × Byte) => (s.shardDpas d e.1).foldl (fun s a => { s with hbm := Memory.setByte s.hbm a e.2 }) s)
      (fun s e => KI.foldl (f := fun (s : State) a => { s with hbm := Memory.setByte s.hbm a e.2 }) (fun s a => ⟨rfl, rfl⟩) _ _) _ _)
theorem KI.flush (s : State) : KI s s.flushBuffers := by
  obtain ⟨d, h, g, e⟩ := flushBuffers_only s
  rw [e]; exact ⟨rfl, rfl⟩
theorem KI.writeBack (s : State) (p : HostPort) (j : Job) : KI s (s.writeBack p j) := by
  have one : ∀ (t : State) a d, KI t (if j.inTier then (if t.dpaRetired a (List.length d) then t else { t with hbm := Memory.write t.hbm a d })
      else { t with hostMem := Memory.write t.hostMem (hostKey p a) d }) :=
    fun t a d => KI.ite (KI.ite (KI.refl t) ⟨rfl, rfl⟩) ⟨rfl, rfl⟩
  unfold State.writeBack
  dsimp only
  refine KI.trans (KI.trans (KI.ite (KI.ite (KI.refl s) (one s _ _)) (KI.refl s)) (one _ _ _)) (one _ _ _)
/-- R324: what a shard's arrival makes of its slot, and of the descriptor's code. -/
theorem shardArrived_spec {s : State} {j : Job} {d : ShardPlace} (hp : j.place = some d) (he : (s.image d.slot).st ≠ .empty) :
    let x := s.image d.slot
    let good := sha256 j.data = d.shard.digest
    let is := fun (l : List Nat) => l.filter (· ≠ d.index) ++ (if good then [d.index] else [])
    (s.shardArrived j).1.image d.slot = (if d.staging then { x with stagedPresent := is x.stagedPresent } else { x with present := is x.present }) ∧
      (s.shardArrived j).1.chans = s.chans := by
  intro x good is
  have set : ∀ (u : State) (y : ImageSt), y.st ≠ .empty → (u.setImage d.slot y).image d.slot = y := by
    intro u y hy
    refine Sparse.get_set_new _ (fun h => hy ?_)
    rw [h]
  have im : ∀ u v : State, KI u v → v.image d.slot = u.image d.slot := by
    intro u v h; unfold State.image; rw [h.1]
  unfold State.shardArrived
  rw [hp]
  dsimp only
  by_cases hg : sha256 j.data = d.shard.digest
  · rw [if_pos hg]
    have hi : is = fun (l : List Nat) => l.filter (· ≠ d.index) ++ [d.index] := by
      funext l
      change l.filter (· ≠ d.index) ++ (if sha256 j.data = d.shard.digest then [d.index] else []) = _
      rw [if_pos hg]
    rw [hi]
    cases d.staging with
    | true => exact ⟨set _ _ he, rfl⟩
    | false =>
      refine ⟨(im _ _ (KI.liftRepaired ..)).trans (set _ _ he), (KI.liftRepaired ..).2⟩
  · rw [if_neg hg]
    have hi : is = fun (l : List Nat) => l.filter (· ≠ d.index) := by
      funext l
      change l.filter (· ≠ d.index) ++ (if sha256 j.data = d.shard.digest then [d.index] else []) = _
      rw [if_neg hg, List.append_nil]
    rw [hi]
    have h1 : (s.spoilShard d).image d.slot = x := im _ _ (KI.spoilShard ..)
    have h2 : ((s.spoilShard d).unmark d).image d.slot = (if d.staging then { x with stagedPresent := x.stagedPresent.filter (· ≠ d.index) } else { x with present := x.present.filter (· ≠ d.index) }) ∧
        ((s.spoilShard d).unmark d).chans = s.chans := by
      unfold State.unmark
      dsimp only
      rw [h1]
      cases d.staging with
      | true => exact ⟨set _ _ he, (KI.spoilShard ..).2⟩
      | false => exact ⟨set _ _ he, (KI.spoilShard ..).2⟩
    have h3 := KI.raise ((s.spoilShard d).unmark d) .ltr 0 2
    exact ⟨(im _ _ h3).trans h2.1, h3.2.trans h2.2⟩
/-- No copy of LTR_CHCFG differs. -/
def KC (s t : State) : Prop := ∀ p i, t.regI .ltr p 0x04C i = s.regI .ltr p 0x04C i
theorem KC.refl (s : State) : KC s s := fun _ _ => rfl
theorem KC.trans {s t u : State} (h : KC s t) (h' : KC t u) : KC s u := fun p i => (h' p i).trans (h p i)
theorem KC.regs {s t : State} (h : t.regs = s.regs) : KC s t := fun p i => by unfold State.regI; rw [h]
theorem KC.ite {s t u : State} {p : Prop} [Decidable p] (h : KC s t) (h' : KC s u) : KC s (if p then t else u) := by split <;> assumption
theorem KC.foldl {α : Type} {f : State → α → State} (hf : ∀ s a, KC s (f s a)) (l : List α) (s : State) : KC s (l.foldl f s) := by
  induction l generalizing s with
  | nil => exact KC.refl s
  | cons a l ih => exact (hf s a).trans (ih _)
theorem KC.raise (s : State) (b : Blk) (i n : Nat) : KC s (s.raise b i n) := fun p j => raise_regI (by
  have h := pageBase_mod .ltr p
  have : regKey .ltr p 0x04C = pageBase .ltr p + 0x04C := rfl
  rw [this, Nat.add_mod, h]
  decide)
theorem KC.lbWrite (s : State) (lb off : Nat) (d : List Byte) : KC s (s.lbWrite lb off d) := by
  unfold State.lbWrite State.pagerWrite
  cases s.physOf lb with
  | none => exact KC.refl s
  | some b => exact KC.ite (KC.regs rfl) (KC.raise s .stor b 6)
theorem KC.shardArrived (s : State) (j : Job) : KC s (s.shardArrived j).1 := by
  have h1 : ∀ (s : State) i, KC s (s.liftRepaired i) := by
    intro s i
    unfold State.liftRepaired State.liftAll
    exact KC.ite (KC.refl s) (KC.foldl (f := fun (s : State) i => s.lift i 2)
      (fun s i => by unfold State.lift State.putStream; exact KC.ite (KC.regs rfl) (KC.regs rfl)) _ _)
  have h2 : ∀ (s : State) d, KC s (s.unmark d) := by
    intro s d; unfold State.unmark; exact KC.ite (KC.regs rfl) (KC.regs rfl)
  have h3 : ∀ (s : State) d, KC s (s.spoilShard d) := by
    intro s d
    unfold State.spoilShard
    dsimp only
    exact KC.trans (KC.ite (KC.trans (t := s.drawn) (KC.regs rfl) (KC.lbWrite s.drawn _ _ _)) (show KC s s.drawn from KC.regs rfl))
      (KC.foldl (f := fun s (e : Nat × Byte) => (s.shardDpas d e.1).foldl (fun s a => { s with hbm := Memory.setByte s.hbm a e.2 }) s)
        (fun s e => KC.foldl (f := fun (s : State) a => { s with hbm := Memory.setByte s.hbm a e.2 }) (fun s a => KC.regs rfl) _ _) _ _)
  unfold State.shardArrived
  cases j.place with
  | none => exact KC.refl s
  | some d =>
    dsimp only
    split
    · split
      · exact KC.regs rfl
      · exact KC.trans (t := State.setImage s _ _) (KC.regs rfl) (h1 _ _)
    · exact ((h3 _ _).trans (h2 _ _)).trans (KC.raise _ .ltr 0 2)
theorem schd_key (h : Half) (b : Blk) (i : Nat) : regKey .schd (halfInst h) 0x040 ≠ pageBase b i + 0x10 := by
  have hp := pageBase_mod b i
  have hq : regKey .schd (halfInst h) 0x040 % 0x1000 = 0x40 := by cases h <;> decide
  omega
/-- R414: what a change of the divisor requests does to the registers: no error comes or goes. -/
theorem retarget_keeps (s : State) : ∃ m, s.retarget = { s with regs := m } ∧ (∀ b i n, ({ s with regs := m } : State).errSet b i n = s.errSet b i n) ∧
    (Sparse.wf regReset s.regs = true → Sparse.wf regReset m = true) := by
  unfold State.retarget
  simp only [List.foldl_cons, List.foldl_nil]
  exact ⟨_, rfl, fun b i n => (errSet_setReg (schd_key .east b i)).trans (errSet_setReg (schd_key .west b i)), fun h => Sparse.wf_set _ (Sparse.wf_set _ h)⟩
/-- What changing every value and taking out what an unlisted key reads as leaves at each key. -/
theorem Sparse.get_map_filter {α β : Type} [DecidableEq α] [DecidableEq β] {d : Nat → α} (f : α → β) (b : β) (hd : ∀ k, f (d k) = b) {m : List (Nat × α)}
    (h : Sparse.wf d m = true) (k : Nat) :
    Sparse.get (fun _ => b) ((m.map (fun e => (e.1, f e.2))).filter (fun e => e.2 ≠ b)) k = f (Sparse.get d m k) := by
  induction m with
  | nil => exact (hd k).symm
  | cons a t ih =>
    obtain ⟨k', v⟩ := a
    simp only [Sparse.wf, Bool.and_eq_true] at h
    rw [List.map_cons, List.filter_cons]
    by_cases hk : k = k'
    · subst hk
      have h1 : Sparse.get d ((k, v) :: t) k = v := by simp [Sparse.get]
      have h2 : Sparse.get (fun _ => b) ((t.map (fun e => (e.1, f e.2))).filter (fun e => e.2 ≠ b)) k = b := by
        rw [ih h.2, Sparse.get_of_above h.1.1, hd]
      rw [h1]
      split_ifs with hb
      · simp [Sparse.get]
      · rw [h2]; simpa using Eq.symm (by simpa using hb)
    · have h1 : Sparse.get d ((k', v) :: t) k = Sparse.get d t k := by simp [Sparse.get, hk]
      rw [h1, ← ih h.2]
      split_ifs with hb
      · simp [Sparse.get, hk]
      · rfl
/-- R404, R409, R414: what gating and divisor changes leave: registers but no error, berths but neither store nor role, and the halves may differ. -/
structure Paced (s t : State) : Prop where
  out : Sparse.wf regReset s.regs = true → Sparse.wf (fun _ => ({} : BerthSt)) s.berths = true →
  ∃ m bs w e, t = { s with regs := m, berths := bs, west := w, east := e } ∧ Sparse.wf regReset m = true ∧ Sparse.wf (fun _ => ({} : BerthSt)) bs = true ∧
    (∀ b i n, t.errSet b i n = s.errSet b i n) ∧ ∀ b, (t.berth b).store = (s.berth b).store ∧ (t.berth b).role = (s.berth b).role
theorem Paced.refl (s : State) : Paced s s := ⟨fun h h' => ⟨_, _, _, _, rfl, h, h', fun _ _ _ => rfl, fun _ => ⟨rfl, rfl⟩⟩⟩
theorem Paced.trans {s t u : State} (h : Paced s t) (h' : Paced t u) : Paced s u := by
  refine ⟨fun a b => ?_⟩
  obtain ⟨m, bs, w, e, rfl, hm, hb, he, hs⟩ := h.out a b
  obtain ⟨m', bs', w', e', rfl, hm', hb', he', hs'⟩ := h'.out hm hb
  exact ⟨m', bs', w', e', rfl, hm', hb', fun b i n => (he' b i n).trans (he b i n), fun b => ⟨(hs' b).1.trans (hs b).1, (hs' b).2.trans (hs b).2⟩⟩
theorem Paced.foldl {α : Type} {f : State → α → State} (hf : ∀ s a, Paced s (f s a)) (l : List α) (s : State) : Paced s (l.foldl f s) := by
  induction l generalizing s with
  | nil => exact Paced.refl s
  | cons a l ih => exact (hf s a).trans (ih _)
theorem Paced.ite {s t u : State} {p : Prop} [Decidable p] (h : Paced s t) (h' : Paced s u) : Paced s (if p then t else u) := by split <;> assumption
theorem Paced.setReg (s : State) (b : Blk) (i o : Nat) (v : Word) (h : ∀ c j, regKey b i o ≠ pageBase c j + 0x10) : Paced s (s.setReg b i o v) :=
  ⟨fun hr hb => ⟨_, _, _, _, rfl, Sparse.wf_set _ hr, hb, fun c j n => errSet_setReg (h c j), fun _ => ⟨rfl, rfl⟩⟩⟩
theorem Paced.setHalf (s : State) (h : Half) (x : HalfSt) : Paced s (s.setHalf h x) :=
  ⟨fun hr hb => by cases h <;> exact ⟨_, _, _, _, rfl, hr, hb, fun _ _ _ => rfl, fun _ => ⟨rfl, rfl⟩⟩⟩
theorem Paced.setBerth (s : State) (b : Nat) (x : BerthSt) (h1 : x.store = (s.berth b).store) (h2 : x.role = (s.berth b).role) : Paced s (s.setBerth b x) := by
  refine ⟨fun hr hb => ⟨_, _, _, _, rfl, hr, Sparse.wf_set _ hb, fun _ _ _ => rfl, fun c => ?_⟩⟩
  by_cases h : c = b
  · subst h; rw [State.berth_setBerth hb]; exact ⟨h1, h2⟩
  · have : (s.setBerth b x).berth c = s.berth c := Sparse.get_set_other _ _ h
    rw [this]; exact ⟨rfl, rfl⟩
theorem bsn_key (n o : Nat) (h : o < 0x1000) (h' : o ≠ 0x10) (c : Blk) (j : Nat) : regKey .bsn n o ≠ pageBase c j + 0x10 := by
  have hp := pageBase_mod c j
  have hq : regKey .bsn n o = pageBase .bsn n + o := rfl
  have hb := pageBase_mod .bsn n
  omega
theorem Paced.seeRail (s : State) (n mv : Nat) : Paced s (s.seeRail n mv) := by
  unfold State.seeRail
  refine Paced.ite ?_ (Paced.refl s)
  exact ((Paced.setReg _ _ _ _ _ (bsn_key _ _ (by decide) (by decide))).trans (Paced.setReg _ _ _ _ _ (bsn_key _ _ (by decide) (by decide)))).trans
    (Paced.setReg _ _ _ _ _ (bsn_key _ _ (by decide) (by decide)))
theorem Paced.setLdiv (s : State) (b d : Nat) : Paced s (s.setLdiv b d) := by
  unfold State.setLdiv
  exact (Paced.setBerth s b { s.berth b with ldiv := d } rfl rfl).trans (Paced.seeRail ..)
theorem Paced.gateBerth (s : State) (b : Nat) : Paced s (s.gateBerth b) := by
  unfold State.gateBerth
  exact (Paced.setBerth s b { s.berth b with gated := true, waking := false, wakeWait := none, ldiv := 16 } rfl rfl).trans (Paced.seeRail ..)
theorem Paced.gateAll (s : State) : Paced s s.gateAll := Paced.foldl (fun _ _ => Paced.ite (Paced.refl _) (Paced.gateBerth ..)) _ _
theorem Paced.setDivisor (s : State) (h : Half) (d : Nat) : Paced s (s.setDivisor h d) := by
  unfold State.setDivisor
  refine ((Paced.setHalf ..).trans (Paced.setReg _ _ _ _ _ (fun c j => ?_))).trans (Paced.foldl (fun s b => ?_) _ _)
  · have hp := pageBase_mod c j
    have hq : regKey .schd (halfInst h) 0x044 % 0x1000 = 0x44 := by cases h <;> decide
    omega
  · dsimp only
    split
    · exact Paced.ite (Paced.setLdiv ..) (Paced.refl _)
    · exact Paced.ite (Paced.refl _) (Paced.setLdiv ..)
theorem Paced.retarget (s : State) : Paced s s.retarget := by
  refine ⟨fun hr hb => ?_⟩
  obtain ⟨m, e, k, w⟩ := retarget_keeps s
  exact ⟨m, _, _, _, e, w hr, hb, fun b i n => by rw [e]; exact k b i n, fun b => by rw [e]; exact ⟨rfl, rfl⟩⟩
/-- R409, R435: gating a list of berths leaves none of them awake, whatever was asleep before still so. -/
theorem gate_asleep (l : List Nat) : ∀ {s : State}, Sparse.wf regReset s.regs = true → Sparse.wf (fun _ => ({} : BerthSt)) s.berths = true → ∀ b,
    (b ∈ l ∧ s.dark b = false) ∨ s.awake b = false →
    (l.foldl (fun s b => if s.dark b || (s.berth b).gated && !(s.berth b).waking then s else s.gateBerth b) s).awake b = false := by
  induction l with
  | nil => intro s _ _ b h; exact h.elim (fun h => absurd h.1 List.not_mem_nil) id
  | cons a l ih =>
    intro s hr hb b h
    rw [List.foldl_cons]
    have hp : Paced s (if s.dark a || (s.berth a).gated && !(s.berth a).waking then s else s.gateBerth a) := Paced.ite (Paced.refl _) (Paced.gateBerth ..)
    obtain ⟨m, bs, w, e, hq, hm, hbs, _, hs⟩ := hp.out hr hb
    have hd : (if s.dark a || (s.berth a).gated && !(s.berth a).waking then s else s.gateBerth a).dark b = s.dark b :=
      congrArg (fun r : Role => r == .dark) (hs b).2
    have hgb : ∀ c, (s.gateBerth a).berth c = if c = a then { s.berth a with gated := true, waking := false, wakeWait := none, ldiv := 16 } else s.berth c := by
      intro c
      unfold State.gateBerth
      obtain ⟨m, e⟩ := seeRail_only (s.setBerth a { s.berth a with gated := true, waking := false, wakeWait := none, ldiv := 16 }) a 650
      dsimp only
      rw [e]
      split
      · rename_i h; subst h; exact State.berth_setBerth hb
      · rename_i h; exact Sparse.get_set_other _ _ h
    have hk : s.awake b = false → (if s.dark a || (s.berth a).gated && !(s.berth a).waking then s else s.gateBerth a).awake b = false := by
      intro hw
      split
      · exact hw
      · unfold State.awake at hw ⊢
        rw [hgb]
        split
        · rfl
        · exact hw
    refine ih (by rw [hq]; exact hm) (by rw [hq]; exact hbs) b ?_
    rcases h with ⟨hm, hd0⟩ | h
    · rcases List.mem_cons.1 hm with rfl | hm
      · right
        by_cases hc : (s.dark b || (s.berth b).gated && !(s.berth b).waking) = true
        · rw [if_pos hc]
          rw [hd0, Bool.false_or] at hc
          unfold State.awake
          simp only [Bool.and_eq_true, Bool.not_eq_true'] at hc
          simp [hc.1, hc.2]
        · rw [if_neg hc]
          unfold State.awake
          rw [hgb, if_pos rfl]; rfl
      · exact Or.inl ⟨hm, hd.trans hd0⟩
    · exact Or.inr (hk h)
theorem gateAll_asleep {s : State} (hr : Sparse.wf regReset s.regs = true) (hb : Sparse.wf (fun _ => ({} : BerthSt)) s.berths = true) {b : Nat} (h : b < 84)
    (hd : s.dark b = false) : s.gateAll.awake b = false := gate_asleep _ hr hb b (Or.inl ⟨List.mem_range.2 h, hd⟩)
/-- R62: a half's divisor after its change. -/
theorem setDivisor_half (s : State) (h : Half) (d : Nat) : (s.setDivisor h d).half h = { s.half h with now := d } ∧
    (s.setDivisor h d).half (otherHalf h) = s.half (otherHalf h) := by
  have key : ∀ (l : List Nat) (u : State), (l.foldl (fun s b =>
      let x := s.berth b
      if x.waking then (if x.ldiv < d then s.setLdiv b d else s) else if x.gated then s else s.setLdiv b d) u).west = u.west ∧
      (l.foldl (fun s b =>
      let x := s.berth b
      if x.waking then (if x.ldiv < d then s.setLdiv b d else s) else if x.gated then s else s.setLdiv b d) u).east = u.east := by
    intro l
    induction l with
    | nil => exact fun u => ⟨rfl, rfl⟩
    | cons a l ih =>
      intro u
      have hl : (u.setLdiv a d).west = u.west ∧ (u.setLdiv a d).east = u.east := by
        unfold State.setLdiv
        obtain ⟨m, e⟩ := seeRail_only (u.setBerth a { u.berth a with ldiv := d }) a ((u.setBerth a { u.berth a with ldiv := d }).setpoint a)
        dsimp only
        rw [e]; exact ⟨rfl, rfl⟩
      rw [List.foldl_cons]
      obtain ⟨h1, h2⟩ := ih (let x := u.berth a
        if x.waking then (if x.ldiv < d then u.setLdiv a d else u) else if x.gated then u else u.setLdiv a d)
      refine ⟨h1.trans ?_, h2.trans ?_⟩ <;> dsimp only <;> split_ifs <;> first | rfl | exact hl.1 | exact hl.2
  unfold State.setDivisor
  obtain ⟨h1, h2⟩ := key (halfBerths h) ((s.setHalf h { s.half h with now := d }).count .schd (halfInst h) 0x044 1)
  cases h
  · exact ⟨h1, h2⟩
  · exact ⟨h2, h1⟩
theorem putStream_only (s : State) (i : Nat) (x : Stream) : ∃ m, s.putStream i x = { s with streams := m } := by
  unfold State.putStream; split <;> exact ⟨_, rfl⟩
theorem foldl_only_streams {α : Type} {f : State → α → State} (hf : ∀ s a, ∃ m, f s a = { s with streams := m }) (l : List α) (s : State) :
    ∃ m, l.foldl f s = { s with streams := m } := by
  induction l generalizing s with
  | nil => exact ⟨s.streams, rfl⟩
  | cons a l ih =>
    obtain ⟨m, e⟩ := hf s a
    obtain ⟨n, e'⟩ := ih (f s a)
    exact ⟨n, by rw [List.foldl_cons, e', e]⟩
theorem hold_only (s : State) (i c : Nat) : ∃ m, s.hold i c = { s with streams := m } := by
  unfold State.hold
  dsimp only
  split
  · exact ⟨s.streams, rfl⟩
  · exact putStream_only ..
/-- R433, R435: holding streams changes them, and gives up a chosen step at most. -/
theorem holdNow_only (s : State) (l : List Nat) (c : Nat) : ∃ m n, s.holdNow l c = { s with streams := m, seq := { s.seq with next := n } } := by
  unfold State.holdNow State.holdAll
  obtain ⟨m, e⟩ := foldl_only_streams (fun s i => hold_only s i c) l s
  rw [e]
  unfold State.dropStale
  split
  · exact ⟨m, s.seq.next, rfl⟩
  · split
    · unfold State.discardNext
      split
      · exact ⟨m, s.seq.next, rfl⟩
      · dsimp only
        split
        · rename_i t _ _
          obtain ⟨m', e'⟩ := foldl_only_streams (f := State.restoreEntry) (fun s (e : BatchEntry) => by
            unfold State.restoreEntry
            dsimp only
            split
            · exact ⟨s.streams, rfl⟩
            · exact putStream_only ..) t.entries { s with streams := m, seq := { s.seq with next := none } }
          rw [e']
          exact ⟨m', none, rfl⟩
        · exact ⟨m, none, rfl⟩
    · exact ⟨m, s.seq.next, rfl⟩
theorem liftStop_only (s : State) : ∃ m, s.liftStop = { s with streams := m } := by
  unfold State.liftStop State.liftAll
  split
  · exact foldl_only_streams (fun s i => putStream_only ..) _ _
  · exact ⟨s.streams, rfl⟩
/-- R437, R446: what an abort of the run leaves of the berths' contents, the tier and the errors. -/
theorem abortRun_keeps {s : State} (hb : Sparse.wf (fun _ => ({} : BerthSt)) s.berths = true) (x : Bool) :
    (s.abortRun x).regs = s.regs ∧ (s.abortRun x).hbm = s.hbm ∧ (s.abortRun x).cool = s.cool ∧ Sparse.wf (fun _ => ({} : BerthSt)) (s.abortRun x).berths = true ∧
    (s.seq.cur ≠ none → (s.abortRun x).coresMode = .held) ∧
    (∀ h, (s.abortRun x).half h = s.half h) ∧ (∃ a, (s.abortRun x).flt = { s.flt with aborted := a }) ∧
    ∀ b, ∃ l, (s.abortRun x).berth b = { s.berth b with entries := l } := by
  unfold State.abortRun
  cases hc : s.seq.cur with
  | none => exact ⟨rfl, rfl, rfl, hb, fun h => absurd rfl h, fun _ => rfl, ⟨s.flt.aborted, rfl⟩, fun b => ⟨(s.berth b).entries, rfl⟩⟩
  | some t =>
    dsimp only
    split
    · rename_i h
      exact ⟨rfl, rfl, rfl, hb, fun _ => h, fun _ => rfl, ⟨s.flt.aborted, rfl⟩, fun b => ⟨(s.berth b).entries, rfl⟩⟩
    · refine ⟨rfl, rfl, rfl, ?_, fun _ => rfl, fun h => by cases h <;> rfl, ⟨_, rfl⟩, fun b => ⟨dropCoreReads (s.berth b).entries, ?_⟩⟩
      · exact Sparse.wf_map_filter (fun x : BerthSt => { x with entries := dropCoreReads x.entries }) {} hb
      · exact Sparse.get_map_filter (d := fun _ => ({} : BerthSt)) (fun x : BerthSt => { x with entries := dropCoreReads x.entries }) {} (fun _ => rfl) hb b
theorem gateBerth_halves (u : State) (a : Nat) : (u.gateBerth a).west = u.west ∧ (u.gateBerth a).east = u.east := by
  unfold State.gateBerth
  obtain ⟨m, e⟩ := seeRail_only (u.setBerth a { u.berth a with gated := true, waking := false, wakeWait := none, ldiv := 16 }) a 650
  dsimp only
  rw [e]; exact ⟨rfl, rfl⟩
theorem gateAll_halves (s : State) : s.gateAll.west = s.west ∧ s.gateAll.east = s.east := by
  have key : ∀ (l : List Nat) (u : State), (l.foldl (fun s b => if s.dark b || (s.berth b).gated && !(s.berth b).waking then s else s.gateBerth b) u).west = u.west ∧
      (l.foldl (fun s b => if s.dark b || (s.berth b).gated && !(s.berth b).waking then s else s.gateBerth b) u).east = u.east := by
    intro l
    induction l with
    | nil => exact fun u => ⟨rfl, rfl⟩
    | cons a l ih =>
      intro u
      rw [List.foldl_cons]
      obtain ⟨h1, h2⟩ := ih (if u.dark a || (u.berth a).gated && !(u.berth a).waking then u else u.gateBerth a)
      refine ⟨h1.trans ?_, h2.trans ?_⟩ <;> split_ifs <;> first | rfl | exact (gateBerth_halves u a).1 | exact (gateBerth_halves u a).2
  exact key _ s
theorem bits_testBit (w : Word) (hi lo i : Nat) : (bits w hi lo).testBit i = (decide (i < hi + 1 - lo) && w.getLsbD (lo + i)) := by
  unfold bits
  rw [Nat.testBit_mod_two_pow, Nat.testBit_div_two_pow]
  simp [BitVec.getLsbD, Nat.add_comm]
theorem field_getLsbD (v lo i : Nat) : (field v lo).getLsbD i = (decide (i < 32) && (decide (lo ≤ i) && v.testBit (i - lo))) := by
  unfold field
  rw [BitVec.getLsbD_ofNat, Nat.testBit_mul_two_pow]
/-- The bits of a field of a word that has just been written. -/
theorem bits_putBits (w : Word) {hi lo : Nat} (v : Nat) (h : hi < 32) : bits (putBits w hi lo v) hi lo = v % 2 ^ (hi + 1 - lo) := by
  apply Nat.eq_of_testBit_eq
  intro i
  rw [bits_testBit, Nat.testBit_mod_two_pow]
  unfold putBits
  dsimp only
  by_cases hi' : i < hi + 1 - lo
  · simp only [hi', decide_true, Bool.true_and, BitVec.getLsbD_or, BitVec.getLsbD_and, BitVec.getLsbD_not, field_getLsbD, Nat.testBit_two_pow_sub_one, Nat.testBit_mod_two_pow]
    have h1 : lo + i < 32 := by omega
    simp [h1, hi']
  · simp [hi']
/-- The bits of a word outside a field that has just been written. -/
theorem bits_putBits_other (w : Word) {hi lo h' l' : Nat} (v : Nat) (h : h' < lo ∨ hi < l') : bits (putBits w hi lo v) h' l' = bits w h' l' := by
  apply Nat.eq_of_testBit_eq
  intro i
  rw [bits_testBit, bits_testBit]
  unfold putBits
  dsimp only
  by_cases hi' : i < h' + 1 - l'
  · simp only [hi', decide_true, Bool.true_and, BitVec.getLsbD_or, BitVec.getLsbD_and, BitVec.getLsbD_not, field_getLsbD, Nat.testBit_two_pow_sub_one, Nat.testBit_mod_two_pow]
    rcases h with h | h
    · have : ¬ lo ≤ l' + i := by omega
      simp [this]; intro h; by_contra hc
      have := w.getLsbD_of_ge (l' + i) (by omega)
      rw [this] at h; exact absurd h (by decide)
    · have : ¬ l' + i - lo < hi + 1 - lo := by omega
      simp [this]; intro h; by_contra hc
      have := w.getLsbD_of_ge (l' + i) (by omega)
      rw [this] at h; exact absurd h (by decide)
  · simp [hi']
/-- R387: a module that stands at neither stage does not go on. -/
theorem goOn_still {s : State} (h1 : s.atStage .basins = false) (h2 : s.atStage .bist = false) : s.goOn = s := by
  unfold State.goOn
  simp only [h1, Bool.false_and, h2, Bool.false_eq_true, if_false]

end Sys2Proof.Machine
end

