-- ==== Sys2Proof/Tests/Slice0.lean ====
section
/-! SUPPORT. Tests: ill-formed commands are refused, slot words decode as written out, and states that meet the hypotheses of the statements. -/

set_option linter.unusedVariables false
set_option linter.unusedSimpArgs false

namespace Sys2Proof.Tests

open Sys2Proof Sys2Proof.Machine

-- the states that the witnesses use

/-- A program whose core 0 has four bundles, a readable window, a sending and a receiving flow, and a slot of link 0 for each. -/
def wProg : Program :=
  { capacity := 64
    epochs := [{ cores := [(0, { nbundle := 4, flows := [{ flow := 7, recv := false, cond := true, addr := 0x1000, len := 128 },
                                                        { flow := 9, recv := true, cond := true, addr := 0x2000, len := 128 }]
                                 windows := [{ base := 0, size := 0x800, rw := true }], rbase := 0x4000, rsize := 0x1000 })]
                 links := [(outLink 0 0 2, [{ first := 0, count := 1, cond := true, src := 0, flow := 7 }])] }] }

/-- The step that the witnesses run. -/
def wStep : Step := { id := 5, image := 0, prog := 0, copy := none, entries := [], prepared := true }

/-- Core 0 issues; logical berth 0 is bound to berth 3. -/
def wRun : State :=
  { State.reset with
    coresMode := .run, stage := .ready, powered := true
    images := [(0, { progs := [(0, wProg)] })]
    seq := { cur := some wStep, running := true }
    berths := [(3, { role := .inService, logical := 0, trained := true, gated := false })] }

/-- Core 0 of `wRun` as `k`. -/
def wCore (k : Core) : State := { wRun with cores := [(0, k)] }

/-- A response of tag 5 for core 0. -/
def wResponse : PacketHeader :=
  { type := 8, gen := false, fwd := false, dst := 3, dunit := 0, src := 3, sunit := 0xE0, tag := 5, len := 64, addr := 0, dmod := 0, smod := 0,
    dlb := 0, hops := 0 }

/-- A read request of core 0 for its own berth's store die. -/
def wRequest : PacketHeader :=
  { type := 0, gen := false, fwd := false, dst := 3, dunit := 0xE0, src := 3, sunit := 0, tag := 5, len := 64, addr := 0, dmod := 0, smod := 0,
    dlb := 0, hops := 0 }

/-- A descriptor of a kind, read and not yet started. -/
def wJob (kind len : Nat) : Job :=
  { words := [BitVec.ofNat 32 (kind + 2 ^ 31), BitVec.ofNat 32 len], short := false, kind := kind, started := false, moved := 0, len := len, code := 0,
    sum := [], data := [], finished := false }

/-- Channel 0 of port A is enabled and has a job. -/
def wChan (j : Option Job) : State :=
  { State.reset with regs := [(regKeyI .ltr 0 0x04C 0, 0x80000000)], chans := [(0, { job := j })], powered := true, stage := .ready }

/-- A manifest of one resident shard of 64 bytes in logical berth 0 and one program of 64 bytes. -/
def wManifest : Manifest :=
  { (default : Manifest) with shards := [{ layer := 0, berth := 0, streamed := false, module := 0, place := 5, len := 64, digest := [] }]
                              progs := [(64, 16, 0, [])], nprog := 1, layers := [0] }

/-- Slot 0 in a state with that manifest, logical berth 0 bound to berth 3 and a job on channel 0 of port A. -/
def wSlot (st : SlotSt) (m : Option Manifest) (j : Job) : State :=
  { wChan (some j) with
    images := [(0, { st := st, manifest := m })]
    berths := [(3, { role := .inService, logical := 0, trained := true, gated := false })] }

-- WellFormed refuses an ill-formed term for each of its checks

theorem test_wf_nop : (Instr.nop 0 .scalar 0x04221800#32).wellFormed = false := by decide
theorem test_wf_spar : (Instr.spar 0 1 5).wellFormed = false := by decide
theorem test_wf_mcfg : (Instr.mcfg 0 1 .reserved).wellFormed = false := by decide
theorem test_wf_vld : (Instr.vld 0 1 2 3 0).wellFormed = false := by decide
theorem test_wf_vst : (Instr.vst 0 1 2 3 0).wellFormed = false := by decide
theorem test_wf_vqnt : (Instr.vqnt 0 1 2 3 4 0).wellFormed = false ∧ (Instr.vqnt 0 1 2 3 4 9).wellFormed = false := by decide
theorem test_wf_slotIssue : (Instr.slotIssue 0 0 (List.replicate 513 0)).wellFormed = false := by
  change decide ((List.replicate 513 (0 : Byte)).length ≤ 512) = false
  rw [List.length_replicate]
  decide
theorem test_wf_hbmRefreshDeadline : (Instr.hbmRefreshDeadline 0 4096).wellFormed = false := by decide
theorem test_wf_hostMemRead : (Instr.hostMemRead .a 32 .clean false).wellFormed = false := by decide
theorem test_wf_hostMemWrite : (Instr.hostMemWrite .a 64 [0] false).wellFormed = false := by decide
theorem test_wf_flitReplay : (Instr.flitReplay 0 [] []).wellFormed = false := by decide
theorem test_wf_pageRetire : (Instr.pageRetire 0 17578125 false).wellFormed = false := by decide
theorem test_wf_heldLineRepaired : (Instr.heldLineRepaired 0 0 []).wellFormed = false := by decide
theorem test_wf_attestationRequest : (Instr.attestationRequest []).wellFormed = false := by decide
theorem test_wf_registerWrite : (Instr.registerWrite .a 0 3 true 0).wellFormed = false ∧
    (Instr.registerWrite .a 0x08000000 4 true 0).wellFormed = false := by decide
theorem test_wf_point : (Instr.point (.berth 0) 2 0 false).wellFormed = false := by decide
theorem test_wf_errStsClear : (Instr.errStsClear 0x14 0).wellFormed = false := by decide
theorem test_wf_inject : (Instr.inject 0x10 0).wellFormed = false := by decide
theorem test_wf_quiesceComplete : (Instr.quiesceComplete [3, 3] []).wellFormed = false := by decide

-- the table of commands gives no bits

theorem test_noTableWord : decodeTableWord 32 0x04221800 = none := rfl

-- slot words of R106, R107, R113, R120, R127 written out field by field

theorem test_decode_sub : decodeSlot 7 .scalar 0b000010_11111_00001_00010_00000000000#32 = some (.sub 7 31 1 2) := by decide
theorem test_decode_slli : decodeSlot 7 .scalar 0b010100_00001_00010_0000000000011111#32 = some (.slli 7 1 2 31) := by decide
theorem test_decode_gst : decodeSlot 7 .scalar 0b011001_00001_00010_0000000000000100#32 = some (.gst 7 1 2 4) := by decide
theorem test_decode_await : decodeSlot 7 .scalar 0b101010_00001_00000_0000000000000111#32 = some (.await 7 1 7) := by decide
theorem test_decode_vqntReserved : decodeSlot 7 .vector 0b010010_00001_00010_00011_00100_1001_00#32 = none := by decide
theorem test_decode_xwr : decodeSlot 7 .memory 0b000010_00001_00010_00011_00000000000#32 = some (.xwr 7 1 2 3) := by decide

-- StepTakesFront

theorem witness_emptyQueue : State.reset.pending = [] := rfl

-- StepKeepsInvariant

theorem witness_invariantStep : Inv State.reset ∧ step State.reset = .next (tick State.reset) :=
  ⟨⟨rfl, rfl, rfl, by decide, by decide, rfl, (fun _ h => nomatch h), rfl, (fun _ h => nomatch h)⟩, rfl⟩

-- CommandsKeepQueueAndFuses

theorem witness_keptStep : Inv State.reset ∧ exec .abort State.reset = execAbort State.reset ∧ (match execAbort State.reset with | .next _ => true | _ => false) = true :=
  ⟨witness_invariantStep.1, rfl, rfl⟩

-- SlotWordsRoundTrip

theorem witness_roundTrip : (Instr.add 0 1 2 3).wellFormed = true ∧ encodeSlot (.add 0 1 2 3) = some (.scalar, 0x04221800#32) := by decide
theorem witness_reservedWord : (Instr.nop 0 .matrix 0x0C000000#32).wellFormed = true ∧ encodeSlot (.nop 0 .matrix 0x0C000000#32) = some (.matrix, 0x0C000000#32) ∧
    decodeSlot 0 .matrix 0x0C000000#32 = none := by decide

-- ScalarRegisterResults

/-- Core 0 of `wRun` issues and has a bundle after its first: the witness of the statements about scalar instructions. -/
theorem witness_goesOn : wRun.goesOn 0 := by decide

-- WrittenRegister

theorem witness_inv : Inv wRun :=
  ⟨by decide, by decide, by decide, by decide, by decide, by decide, fun _ h => (List.not_mem_nil h).elim, by decide, by decide⟩

-- NopAndStepParameters

theorem test_spar_listed : sparListed 0x3F = true ∧ sparListed 0x40 = false ∧ sparListed 5 = false := by decide
/-- The slots of core 0 of `wRun` are open; and a core whose block holds a reserved encoding in its first bundle. -/
theorem witness_opens : (∀ u, wRun.opens 0 u) ∧ wRun.seq.cur = some wStep ∧ (wRun.curProg.isSome) ∧
    (let r : State := { wRun with images := [(0, { progs := [(0, { wProg with epochs := [{ cores := [(0, { nbundle := 4, flows := [], windows := [], rbase := 0, rsize := 0, reserved := [0] })], links := [] }] })] })] }
     r.coresMode = .run ∧ (r.core 0).st = .run ∧ slotOpen (r.core 0) .matrix = true ∧ (r.core 0).pc ∈ (r.block 0).reserved) := by
  refine ⟨fun u => ?_, rfl, by decide, by decide⟩
  cases u <;> decide

-- ScratchpadWords

theorem witness_mayAccess : wRun.mayAccess 0 .read 0x7FC 4 ∧ wRun.mayAccess 0 .write 0x7FC 4 ∧ wRun.mayAccess 0 .write 0 64 ∧
    scalarAddr (gReg (wRun.core 0) 0) 0x1FF = 0x7FC := by decide

-- RefusedScratchpadWords

theorem witness_refused : wRun.coreInst 0 = some 468 ∧ 468 ∉ wRun.boundsHeld ∧ 468 ∈ ({ wRun with boundsHeld := [468] } : State).boundsHeld ∧
    refused (wRun.core 0) (wRun.block 0) .read 0x800 4 = some (0, 0x800) ∧
    refused (wRun.core 0) (wRun.block 0) .write 0x2000 4 = some (4, 0x2000) ∧
    scalarAddr 0 0x200 = 0x800 ∧ interlocked (wRun.core 0) 0x800 4 false = false := by decide

-- Branches

/-- BEQ of equal registers, BNE of unequal ones and so on have states in which they branch inside, go on, and leave the block. -/
theorem witness_branches : wRun.opens 0 .scalar ∧ gReg (wRun.core 0) 1 = gReg (wRun.core 0) 2 ∧ (wRun.block 0).nbundle = 4 ∧
    (wRun.core 0).pc + 1 < 4 ∧ (0 ≤ ((wRun.core 0).pc : Int) + (3#16).toInt) ∧ ((wRun.core 0).pc : Int) + (3#16).toInt < 4 ∧
    ((wRun.core 0).pc : Int) + (0xFFFF#16).toInt < 0 ∧
    (wCore { g := [(1, 0xFFFFFFFF), (2, 1)] }).opens 0 .scalar ∧ (gReg ((wCore { g := [(1, 0xFFFFFFFF), (2, 1)] }).core 0) 1).toInt <
      (gReg ((wCore { g := [(1, 0xFFFFFFFF), (2, 1)] }).core 0) 2).toInt := by decide

-- FlowPoints

theorem witness_flows : flowRec (wRun.block 0) false 7 = some { flow := 7, recv := false, cond := true, addr := 0x1000, len := 128 } ∧
    flowRec (wRun.block 0) true 9 = some { flow := 9, recv := true, cond := true, addr := 0x2000, len := 128 } ∧ flowRec (wRun.block 0) true 7 = none ∧
    interlocked (wRun.core 0) 0x1000 128 false = false ∧ wRun.flowLanded 0 { flow := 9, recv := true, cond := true, addr := 0x2000, len := 128 } = false ∧
    interlocked ((wCore { reads := [{ line := 0, dst := 0x1000, queued := true }] }).core 0) 0x1000 128 false = true ∧
    (wCore { landed := [(9, 1)] }).flowLanded 0 { flow := 9, recv := true, cond := true, addr := 0x2000, len := 128 } = true ∧
    (wCore { st := .waitFlow 3 9, landed := [(9, 1)] }).core 0 = { st := .waitFlow 3 9, landed := [(9, 1)] } := by decide

-- CompletionWaits

/-- Core 0 of `wRun` with a request outstanding, at END with its flow sent, and at END with it unsent. -/
theorem witness_waits : (wRun.core 0).dyn = [] ∧ wRun.goesOn 0 ∧
    ((wCore { dyn := [{ tag := 3, write := false, dst := 0, len := 64 }] }).core 0).dyn ≠ [] ∧
    ((wCore { st := .waitDyn .all }).core 0).st = .waitDyn .all ∧ (wCore { sent := [7] }).opens 0 .scalar ∧
    (∀ r ∈ ((wCore { sent := [7] }).block 0).flows, r.recv = true ∨ r.flow ∈ ((wCore { sent := [7] }).core 0).sent) ∧
    ((wRun.block 0).flows.find? (fun f => !f.recv && !reached (wRun.core 0) f.flow)).isSome ∧
    (wCore { st := .ended, cancelled := [7], landed := [(9, 1)] }).mayArrive 0 = true := by decide

-- TileStart

/-- A narrow tile of one row, one block deep and one wide. -/
def wCfg : TileCfg := { m := 1, k := 32, n := 32, wt := false, outf := false, rangeEn := false, wide := false, run := 1, afmt := 1, wfmt := 1, bound := 0 }
/-- A core about to start that tile, its source at 0, its weights at 0x200 and its output at 0x600. -/
def wTile : State := wCore { tfmt := 0x11, g := [(1, 0x600), (3, 0x200)] }
theorem witness_tile_start : (let k := wTile.core 0; let b := wTile.block 0
    wTile.opens 0 .matrix ∧ k.tile = none ∧ parseTile k.tshape k.tfmt k.tbound = some wCfg ∧ (gReg k 1).toNat = 0x600 ∧ (gReg k 3).toNat = 0x200 ∧
    interlocked k 0 wCfg.actBytes false = false ∧ interlocked k 0x200 wCfg.weightBytes false = false ∧ interlocked k 0x600 wCfg.outBytes true = false ∧
    refused k b .read 0 wCfg.actBytes = none ∧ refused k b .read 0x200 wCfg.weightBytes = none ∧ refused k b .write 0x600 wCfg.outBytes = none) := by decide

-- TileAttempts

/-- Core 0 runs the first attempt of the tile of one row, over a scratchpad. -/
def wAttempt (m : List (Nat × Byte)) : State :=
  wCore { tile := some { shape := 0, fmt := 0x11, bound := 0, out := 0x600, act := 0, wgt := 0x200, attempt := 0, af := 1 }, scratch := m }
theorem witness_tile_parses : parseTile 0 0x11 0 = some wCfg ∧ (wAttempt []).coresMode = .run ∧
    wCfg.reserveBytes (nextFmt 0 1) ≤ ((wAttempt []).block 0).rsize ∧ (∀ r ∈ tileReads ((wAttempt []).block 0) { shape := 0, fmt := 0x11, bound := 0, out := 0x600, act := 0, wgt := 0x200, attempt := 0, af := 1 } wCfg, damagedIn ((wAttempt []).core 0) r.1 r.2 = []) := by decide
/-- Zeros give a result. -/
theorem witness_attempt_result : (match tileAttempt ((wAttempt []).core 0) { shape := 0, fmt := 0x11, bound := 0, out := 0x600, act := 0, wgt := 0x200, attempt := 0, af := 1 } wCfg with
    | .result _ _ => true
    | .trouble _ => false) = true := by decide
/-- An infinity among the activations is trouble. -/
theorem witness_attempt_trouble : (match tileAttempt ((wAttempt [(0, 0x80), (1, 0x7F)]).core 0) { shape := 0, fmt := 0x11, bound := 0, out := 0x600, act := 0, wgt := 0x200, attempt := 0, af := 1 } wCfg with
    | .result _ _ => false
    | .trouble _ => true) = true := by decide

-- VectorArithmetic

theorem test_vadd_one_plus_one : fadd 0x3F800000 0x3F800000 = 0x40000000 ∧ fsub 0x3F800000 0x3F800000 = 0 ∧ fmul 0x40000000 0xC0000000 = 0xC0800000 ∧
    ffma 0x40000000 0x40000000 0x3F800000 = 0x40A00000 ∧ fmax 0x80000000 0 = 0 ∧ fmin 0 0x80000000 = 0x80000000 := by decide

-- VectorFunctions

theorem test_vrcp_two : frcp 0x40000000 = 0x3F000000 ∧ frsq 0x40800000 = 0x3F000000 ∧ Fv.ofF32 0x7F800001 = .nan := by decide +kernel

-- WrittenVectorRegister

theorem witness_coreOk : CoreOk (wRun.core 0) ∧ (List.replicate 64 (1 : Word)).length = 64 := ⟨⟨by decide, by decide, by decide⟩, by decide⟩

-- FloatResults

theorem test_float_ends : fadd 0x7F800000 0xFF800000 = 0x7FC00000 ∧ fmul 0x00800000 0x3F000000 = 0 ∧ frcp 0 = 0x7F800000 := by decide

-- VectorMemory

theorem witness_vectorMemory : wRun.mayAccess 0 .read 0x700 256 ∧ wRun.mayAccess 0 .write 0x780 128 ∧ wRun.mayAccess 0 .write 0x7FE 2 ∧
    wRun.mayAccess 0 .write 0x7C0 (8 * 8) ∧ refused (wRun.core 0) (wRun.block 0) .write 0x7FF 2 = some (0, 0x800) ∧
    refused (wRun.core 0) (wRun.block 0) .read 0x7C0 256 = some (0, 0x800) ∧ elemBytes 2 = 1 ∧ elemBytes 3 = 0 ∧ wRun.opens 0 .vector ∧
    interlocked ((wCore { reads := [{ line := 0, dst := 0x700, queued := true }] }).core 0) 0x700 256 true = true := by decide

-- VrsumTree

theorem witness_vrsumTree : (wCore { st := .run }).opens 0 .vector := by decide

-- StoreDieTransfers

/-- One line at the window's last 128 bytes, the line count in g1. -/
def wLines : State := wCore { g := [(1, 1), (2, 0x7FF), (3, 0xFFFFFFFF)] }
theorem witness_lines : wLines.opens 0 .memory ∧ gReg (wLines.core 0) 1 = 1 ∧ wLines.mayAccess 0 .land 0x780 128 ∧ wLines.mayAccess 0 .read 0x780 128 ∧
    wLines.physOf 0 = some 3 ∧ (wLines.core 0).reads = [] ∧ refused (wLines.core 0) (wLines.block 0) .land 0x800 128 = some (0, 0x800) := by decide

-- DynamicRequests

/-- Core 0 with a descriptor of a store read of 64 bytes (tag 5) at 0, and one with a response to it waiting. -/
def wDreq : State := wCore { g := [(1, 0x40)], scratch := [(4, 0x40), (6, 5)] }
theorem witness_dreq : wDreq.opens 0 .memory ∧ wDreq.mayAccess 0 .read 0 16 ∧
    parseDesc (Memory.word (wDreq.core 0).scratch 0) (Memory.word (wDreq.core 0).scratch 4) (Memory.dword (wDreq.core 0).scratch 8).toNat =
      some { kind := 0, write := false, target := 0, module := 0, len := 64, tag := 5, addr := 0 } ∧ (wDreq.core 0).dyn = [] ∧
    wDreq.mayAccess 0 .land 0x40 64 ∧ wDreq.physOf 0 = some 3 ∧ liveModule wDreq 0 = some 0 ∧ liveModule wDreq 1 = none ∧ parseDesc 3 0x40 0 = none ∧
    refused (wDreq.core 0) (wDreq.block 0) .land 0x800 64 = some (0, 0x800) := by decide
theorem witness_dreq_inv : Inv wDreq :=
  ⟨by decide, by decide, by decide, by decide, by decide, by decide,
    fun e h => by rw [List.mem_singleton.1 h]; exact ⟨by decide, by decide, by decide⟩, by decide, by decide⟩
/-- Core 0 waiting for a response that has come. -/
def wDelivered : State :=
  { wCore { dyn := [{ tag := 5, write := false, dst := 0x40, len := 64 }] } with
    delivered := [{ id := 0, h := wResponse, payload := List.replicate 64 7, loc := .source 3, target := 3, core := some 0, origin := .core 0 }] }
theorem witness_response : wDelivered.coresMode = .run ∧ (wDelivered.core 0).st ≠ .ending ∧
    (wDelivered.delivered.find? (fun p => p.core = some 0 && p.h.tag.toNat = 5 && isResponse p.h)).isSome ∧
    ((wDelivered.core 0).dyn.find? (fun r => r.tag = 5)).isSome := by decide

-- ScheduledSlots

/-- The slot of flow 7 on core 0's link east, sent, cancelled, and in flight towards core 0. -/
def wLink : Word := BitVec.ofNat 32 (outLink 0 0 2)
/-- The physical link over which that link's slots travel. -/
def wWay : Nat := outLink 3 0 2
theorem witness_slot_ready : ((wCore { sent := [7] }).slotReady wLink.toNat []).isSome ∧ slotOrigin wLink.toNat 0 = .core 0 ∧
    (wCore { sent := [7] }).linkWays wLink.toNat = some [wWay] ∧ (wCore { sent := [7] }).slotHeld wWay false = false ∧ linkKind wLink.toNat = 0 := by decide +kernel
theorem witness_slot_cancelled : (wCore { cancelled := [7] }).cancelKnown 7 pathFuel wLink.toNat = true ∧
    (wCore { sent := [7] }).cancelKnown 7 pathFuel wLink.toNat = false ∧ (wRun.slotReady wLink.toNat []).isNone := by decide +kernel
/-- A slot of flow 9 in flight towards core 0, and one of flow 7 on its link east. -/
def wLanding : State := { wRun with
  links := [(outLink 0 0 2, { pos := 1 }), (ingestLink 0 0, { pos := 1 })]
  ways := [(wWay, { inflight := [.slot wLink.toNat 0 { flow := 7, k := 0, data := [1] }] }),
           (ingestLink 3 0, { inflight := [.slot (ingestLink 0 0) 0 { flow := 9, k := 0, data := [1] }] })] }
theorem witness_slot_landing : linkKind (ingestLink 0 0) = 1 ∧ linkBerth (ingestLink 0 0) * 144 + linkCore (ingestLink 0 0) = 0 ∧
    (flowRec (wLanding.block 0) true 9).isSome ∧ wLanding.linkWays (ingestLink 0 0) = some [ingestLink 3 0] ∧
    (readHeads (wLanding.way (ingestLink 3 0)).inflight).length = 1 ∧ (readHeads (wLanding.way wWay).inflight).length = 1 ∧
    wLanding.linkWays wLink.toNat = some [wWay] ∧ ingestLink 0 0 < 2 ^ 32 := by decide +kernel
/-- A bridge slot that crosses a tunnel: logical berth 1 is bound to berth 5, two hops from berth 3. -/
def wTunnel : State := { wRun with
  berths := [(3, { role := .inService, logical := 0, trained := true, gated := false }), (5, { role := .inService, logical := 1, trained := true, gated := false })]
  links := [(bridgeLink 0 1, { pos := 1, tunnel := [(1, { flow := 7, k := 0, data := [1] })] })]
  ways := [(ringWay 3 2, { inflight := [.slot (bridgeLink 0 1) 0 { flow := 7, k := 0, data := [1] }] })] }
theorem witness_tunnel : wTunnel.linkWays (bridgeLink 0 1) = some [ringWay 3 2, ringWay 4 2] ∧ wTunnel.slotHeld (ringWay 4 2) true = false ∧
    bridgeLink 0 1 < 2 ^ 32 ∧ (readHeads (wTunnel.way (ringWay 3 2)).inflight).length = 1 := by decide +kernel

-- DynamicUnits

/-- A packet of core 0 that waits to leave berth 3 for berth 5. -/
def wLeaving : Packet := { id := 4, h := wRequest, payload := [], loc := .source 3, target := 5, core := some 0, origin := .core 0 }
def wPacket : State := { wRun with packets := [wLeaving] }
theorem witness_dynamicUnit : wPacket.unitReady wWay wLeaving = true ∧ (wPacket.madeRoom wWay).length < wPacket.wayRoom wWay ∧
    wPacket.slotReady wLink.toNat [] = none ∧ wPacket.unitReady (ringWay 3 2) wLeaving = false ∧ wPacket.moveOf wLeaving = .ring 4 2 true ∧
    linkKind wWay = 0 ∧ wWay < 2 ^ 32 := by decide +kernel
theorem witness_unitRetry : retryWindow ({ inflight := [LinkUnit.dyn 4 0], fails := 8 } : Way).inflight = [.dyn 4 0] := by decide

-- PacketMoves

theorem witness_packet : wPacket.packet? 4 = some wLeaving ∧ ringLoad wPacket 4 0 false = 0 ∧ wPacket.pathDone wLeaving = false ∧
    wPacket.pathDone { wLeaving with crossed := [(ringWay 3 2, 1)] } = true ∧ wPacket.moveOf { wLeaving with target := 3 } = .arrived ∧
    wPacket.pathDone { wLeaving with target := 3, crossed := [(portWay 3 7 false, 1)] } = true ∧
    isResponse wRequest = false ∧ isResponse wResponse = true := by decide +kernel
/-- A delivery hop: berth 5, where the packet's row leg would end, is dark. -/
theorem witness_delivery : nextMove wPacket 4 5 true false = .delivery 5 := by decide +kernel

-- BarrierTree

/-- A step whose cores have arrived: the root of `wDone` has passed; in `wRun` all of berth 3's cores are missing. -/
def wDone : State := { wRun with passed := [.root], barrierTimer := true }
theorem witness_barrier : wDone.spansModules = false ∧ wDone.mayRelease = true ∧ wRun.mayRelease = false ∧ wDone.curProg = some wProg ∧
    wDone.nodeRuns (.row 3 0) = true ∧ wDone.nodeLive (.row 3 0) = true ∧ wDone.missingBelow (.row 3 0) = (12, false) ∧
    ({ wRun with passed := (List.finRange 12).map (fun r => .row 3 r) } : State).missingBelow (.berth 3) = (0, false) ∧
    ({ wRun with passed := ((List.finRange 12).map (fun r => ChNode.row 3 r)).drop 1, oneLeft := [.row 3 0] } : State).missingBelow (.berth 3) = (1, true) := by decide +kernel
/-- The same in a step of an image that spans two modules. -/
def wSpans : State := { wRun with images := [(0, { progs := [(0, wProg)], manifest := some { wManifest with modules := 2 } })], passed := [.half .west, .half .east] }
theorem witness_spans : wSpans.spansModules = true ∧ wSpans.missingBelow .root = (0, false) ∧ wSpans.nodeRuns .root = true ∧ wSpans.nodeLive .root = true := by decide +kernel

-- LateAndWatchdog

theorem witness_late : ({ wRun with lateSent := some 5 } : State).physOf (5 / 144) = some 3 ∧ ({ wRun with lateSent := some 5 } : State).rootBusy = false ∧
    wDone.rootBusy = true ∧ wRun.nodeLive .root = true ∧ (nodeDup .root).isSome = true ∧ wRun.spansModules = false ∧
    ({ wRun with berths := [(41, { role := .dark })] } : State).nodeLive .root = false := by decide +kernel

-- StepStartAndAbort

/-- A prepared step, a running step that a handling aborts, and a held one that a handling is about to replay. -/
def wPrepared : State := { State.reset with stage := .ready, powered := true, seq := { next := some wStep } }
def wHeld : State := { wRun with coresMode := .held, flt := { phase := .restore }, seq := { cur := some wStep } }
theorem witness_go : wPrepared.goClear = true ∧ wPrepared.swapTurn = true ∧ wRun.spansModules = false ∧ wRun.coresMode ≠ .held ∧
    wHeld.goClear = true ∧ wHeld.flt.msgs = [] := by decide +kernel

-- FaultMessages

/-- A FAULT message is on its way to a fault aggregator in a phase, with an error already under handling or none. -/
def wFault (p : FltPhase) (c n : Option FltErr) : State := { wRun with flt := { phase := p, cur := c, next := n, msgs := [fltErr 1 .core 5 2] } }
theorem witness_fault : (wFault .idle none none).flt.msgs = fltErr 1 .core 5 2 :: [] ∧ (wFault .idle none none).flt.cur = none ∧
    (wFault .abort (some (fltErr 2 .mesh 3 1)) none).flt.next = none ∧ (wFault .idle none none).faultWaits (fltErr 1 .core 5 2) = false ∧
    (wFault .quiesce (some (fltErr 2 .mesh 3 1)) (some (fltErr 1 .core 5 2))).flt.next ≠ none ∧
    ({ wRun with passed := (List.finRange 12).map (fun r => .row 3 r) } : State).faultWaits (fltErr 1 .mesh 3 2) = true := by decide +kernel

-- TimeAndPoint

theorem witness_point : pageAt 0x40 = some (.glb, 0, 0x40) ∧ 0 ∈ pageNodes .glb 0 ∧ (1 : Nat) ∉ pageNodes .glb 0 ∧ State.reset.nodeBerth (.berth 1) = 1 ∧
    State.reset.nodeLive (.berth 1) = true ∧ State.reset.sliceModules = none ∧ State.reset.dark 1 = false ∧ State.reset.rootBusy = false ∧ wDone.rootBusy = true := by decide +kernel

-- MergedReads

/-- Core 0 reads line 5 of berth 3: not yet queued, and queued in an entry of its own. -/
def wRead : State := wCore { reads := [{ line := 5, dst := 0x80, queued := false }] }
def wQueued : State :=
  { wCore { reads := [{ line := 5, dst := 0x80, queued := true }] } with
    berths := [(3, { role := .inService, logical := 0, trained := true, gated := false, entries := [{ line := 5, opened := true, readers := [.core 0] }]
                     refill := [(0, [1, 2])] })] }
theorem witness_reads : readDue wRead 3 5 (.core 0) = true ∧ (wRead.berth 3).entries = [] ∧ readDue wRead 3 6 (.core 0) = false ∧
    (wQueued.berth 3).entries = [{ line := 5, opened := true, readers := [.core 0] }] ∧
    ((wQueued.core 0).reads.find? (fun r => r.line = 5 && r.queued)).isSome ∧ wQueued.regionOf 3 5 ≠ 2 := by decide
theorem witness_samplers : readDue wQueued 3 5 .sampler = true ∧ readerJoins .sampler = false ∧ readerJoins (.core 0) = true := by decide
theorem witness_refill : (wQueued.berth 3).refill = [(0, [1, 2])] ∧ 0 + [1, 2].length ≤ 0x3E00000 * 128 ∧ ¬(0x3E00000 * 128 - 1 + [1, 2].length ≤ 0x3E00000 * 128) := by decide
theorem witness_reserve : wQueued.regionOf 3 0x3E00000 = 2 ∧ wQueued.regionOf 3 0x3DFFFFF ≠ 2 := by decide

-- RefreshAndScrub

/-- Berth 3 with a held line that a core reads, a row with an uncorrectable error and one activated too often; scrub is enabled. -/
def wScrub : State :=
  { State.reset with
    berths := [(3, { trained := true, held := [7], entries := [{ line := 7, opened := true, readers := [.core 0] }], spareRows := [(0, 63)]
                     rowErrors := [(5, 0, true)], activations := [(9, 16385)] })]
    regs := Sparse.set regReset [] (regKey .stor 3 0x044) 0x100 }
theorem witness_scrub : scrubOn wScrub 3 = true ∧ 7 ∈ (wScrub.berth 3).held ∧ (∃ m ∈ (wScrub.berth 3).entries, m.line = 7) ∧ sparesUsed (wScrub.berth 3) 0 = 63 ∧
    wScrub.coresMode ≠ .run ∧ postponed (wScrub.berth 3) 0 < postponeLimit wScrub 3 ∧
    (∃ e ∈ (wScrub.berth 3).rowErrors.filter (fun e => e.1 = 5 && wScrub.stamp.toNat < e.2.1 + 86400 * 212500000), e.2.2 = true) ∧
    16384 < Sparse.get (fun _ => 0) (wScrub.berth 3).activations 9 ∧ wScrub.regionOf 3 7 = 1 ∧ 0 ∉ (wScrub.berth 3).targeted := by decide +kernel
theorem witness_postponed : postponeLimit State.reset 3 ≤ postponed { debts := [(0, 16)] } 0 ∧ scrubOn { State.reset with regs := [(regKey .stor 3 0x044, 0)] } 3 = false := by decide +kernel

-- TierCommands

/-- A device write of 64 bytes waits at stack 2. -/
def wStackWrite : State := { wRun with coresMode := .idle, regs := [(regKey .hbmc 0 0x060, 1), (regKey .hbmc 0 0x064, 1)], tier := [(2, { reqs := [{ packet := 0, write := true, offset := 0x1000000000, len := 64, data := List.replicate 64 7 }] })] }
theorem witness_stack : wStackWrite.coresMode ≠ .run ∧ (wStackWrite.stack 2).retired = [] ∧ (wStackWrite.stack 2).softRepaired = [] ∧
    deviceCheck wStackWrite 2 0x1000000000 64 = none ∧ (wStackWrite.stack 2).reqs.map (fun r => r.write) = [true] := by decide
theorem witness_stack_refused : deviceCheck wStackWrite 2 0x2000000000 64 = some 3 := by decide +kernel

-- HostAccesses

/-- Port A's decoder is committed and its part has 256 MiB. -/
def wHost : State :=
  { State.reset with
    portA := { link := .l0, decoder := true, memActive := true }
    regs := [(regKey .hbmc 0 0x060, 1), (regKey .hbmc 0 0x064, 1)] }
theorem witness_host : wHost.presented .a = some .a ∧ (wHost.port .a).decoder = true ∧ wHost.partSize .a = 2 ^ 28 ∧ wHost.dpaRetired 0 64 = false ∧
    ({ wHost with tier := [(0, { retired := [0] })] } : State).dpaRetired 0 64 = true ∧ (State.reset.port .a).decoder = false := by decide
theorem witness_host_inv : Inv wHost := ⟨by decide, by decide, by decide, by decide, by decide, by decide, (fun _ h => nomatch h), by decide, (fun _ h => nomatch h)⟩

-- LighterCopies

/-- A long descriptor that the Lighter owns. -/
def wWords : List Word := 0x80000001 :: List.replicate 15 0
theorem witness_poll : bit ((wChan none).chReg .a 0 0x04C) 31 = true ∧ bit ((wChan none).chReg .a 0 0x04C) 30 = false ∧
    ((wChan none).chan 0).job = none ∧ wWords.length = 16 ∧ (List.replicate 16 (0 : Word)).length = 16 := by decide
theorem witness_copy : ((wChan (some (wJob 1 64))).chan 0).job = some (wJob 1 64) ∧ ((wChan (some (wJob 2 64))).chan 0).job = some (wJob 2 64) ∧
    descDst (wJob 1 64) < (wChan none).split + 1 ∧ (wJob 1 64).started = false := by decide
theorem witness_complete : ((wChan none).image 0).unloadAsked = false ∧ ((wChan none).image 0).abandonAsked = false ∧
    descImage (wJob 1 64) = 0 ∧ (wChan none).pageWrites .ltr 0 = true := by decide
theorem test_copyRefused : ({ wChan none with regs := [(regKey .hbmc 0 0x060, 1)] } : State).copyRefused 0 64 = some .refusedPart ∧
    (wChan none).copyRefused 0xFFFFFFFFFFC0 64 = some .badDesc ∧ (wChan none).copyRefused 0xC9200000000 64 ≠ some .refusedPart := by decide
theorem witness_buffers : ((wChan (some { wJob 1 64 with started := true })).stack 0).lighter.length < 8 ∧
    8 ≤ (({ wChan none with tier := [(0, { lighter := List.replicate 8 (.toTier 0 []) })] } : State).stack 0).lighter.length := by decide

-- PackageDescriptors

/-- Where shard 0 of that manifest goes. -/
def wPlace : ShardPlace := { slot := 0, staging := false, index := 0, shard := { layer := 0, berth := 0, streamed := false, module := 0, place := 5, len := 64, digest := [] } }
theorem witness_manifest : (wSlot .loading none (wJob 3 64)).dark 72 = false ∧ ((wSlot .loading none (wJob 3 64)).chan 0).job = some (wJob 3 64) ∧
    (wSlot .loading none (wJob 3 64)).acceptManifest 0 false [] = (.sigBad, none) := by decide
theorem witness_shard : (wSlot .loading (some wManifest) (wJob 4 64)).shardPlace (wJob 4 64) = .inr wPlace ∧
    (wSlot .loading (some wManifest) (wJob 4 64)).shardBusy 0 (wJob 4 64) = false ∧
    (wSlot .loading (some wManifest) (wJob 5 64)).shardPlace (wJob 5 64) = .inr wPlace ∧
    (wSlot .loading (some wManifest) (wJob 5 64)).shardWaits wPlace 0 false = false ∧
    (wSlot .loading (some wManifest) (wJob 4 64)).shardWaits wPlace 0 true = false ∧
    (wSlot .loading (some wManifest) (wJob 4 64)).shardRetired wPlace 0 64 = false ∧ shardBurst wPlace (wJob 4 64) = 64 ∧
    (wSlot .loading (some wManifest) (wJob 4 64)).jobDraining (wJob 4 64) = false := by decide
/-- The optical port of logical berth 0 carries packets, and a job pulls a shard from module 1. -/
def wPull : Job := { wJob 5 64 with words := [0x80000005, 64, 1] }
def wPeer : State :=
  { wSlot .loading (some wManifest) wPull with
    zports := [(canonicalPos 0, { st := .up, role := 0, partner := some default })]
    regs := [(regKey .zlnk 0 0x080, 0x80000000)] }
theorem witness_peer : (opticalPort wPeer (opticalLink 0 true)).isSome = true ∧ bits (wPull.words.getD 2 0) 15 0 ≠ wPeer.moduleIndex ∧
    wPeer.shardPlace wPull = .inr wPlace ∧ wPeer.shardBusy 0 wPull = false := by decide
theorem witness_program : wManifest.progs[descIndex (wJob 6 64)]? = some (64, 16, 0, []) ∧
    (wSlot .loading (some wManifest) (wJob 6 64)).flt.exec = true := by decide

-- SlotCommands

/-- Slot 0 with a package whose one shard and programs are present, in a state. -/
def wFull (st : SlotSt) : State :=
  { wSlot st none (wJob 1 64) with
    images := [(0, { st := st, manifest := some { wManifest with progs := [], nprog := 0 }, progs := [(0, wProg)], present := [0]
                     stagedManifest := some { wManifest with progs := [], nprog := 0 }, stagedProgs := [(0, wProg)], stagedPresent := [0] })]
    regs := [(regKeyI .ltr 0 0x074 0, 1), (regKey .hbmc 0 0x060, 0)] }
theorem witness_slot : (wFull .loading).pageWrites .ltr 0 = true ∧ ((wFull .loading).image 0).st = .loading ∧
    (wFull .loading).complete ((wFull .loading).image 0).manifest ((wFull .loading).image 0).progs [0] = true ∧
    (wFull .ready).streamsOf 0 = [] ∧ (wFull .staged).seq.cur = none ∧ ({ wFull .staged with seq := { cur := some wStep } } : State).seq.cur = some wStep ∧
    wStep.image = 0 := by decide
theorem witness_copyStep : ((wFull .swapping).image 0).stagedManifest.isSome = true ∧ (wFull .swapping).seq.next = none ∧
    (wFull .swapping).stage = .ready ∧ (wFull .swapping).flt.exec = true ∧ (wFull .swapping).flt.phase = .idle ∧ (wFull .swapping).cool.st = .normal := by decide
theorem witness_rehash : bits ((wFull .ready).regI .ltr 0 0x074 0) 15 0 ≠ 0 ∧ 0 ∈ ((wFull .ready).image 0).present ∧
    ((wFull .ready).shard? { wManifest with progs := [], nprog := 0 } 0).isSome = true ∧
    (wFull .ready).passOver ((wFull .ready).image 0) { wManifest with progs := [], nprog := 0 } (some 0) = [0] := by decide

-- PortResets

/-- Port A in L0, out of reset. -/
def wPort : State :=
  { State.reset with powered := true, stage := .ready, portA := { link := .l0, leftReset := true, cfgReady := true, pageReady := true, memActive := true, decoder := true }
                     regs := [(regKey .hbmc 0 0x060, 0), (regKey .hbmc 0 0x064, 0)] }
theorem witness_portReset : (wPort.port .a).leftReset = true ∧ (wPort.port .a).link = .l0 ∧
    (wPort.port .b).link = .reset ∧ wPort.portDead .b = false ∧ wPort.straps.getLsbD 0 = false ∧
    ({ wPort with portA := { link := .training, leftReset := true } } : State).portDead .a = false := by decide

-- Mailbox

theorem witness_mailbox : (wPort.port .a).cfgReady = true ∧ wPort.stage = .ready ∧ ({ wPort with stage := .optical } : State).stage ≠ .ready ∧
    (State.reset.port .b).cfgReady = false := by decide

-- RangesAndRings

theorem witness_decoder : wPort.rangeSize .a = 0 ∧ (wHost.port .a).memActive = true ∧ wHost.rangeSize .a = 2 ^ 28 := by decide
theorem witness_take : wPort.pageWrites .cxlp 0 = true ∧ wPort.partSize .a = 0 ∧ (wPort.port .b).link = .reset ∧ (wPort.port .b).takenFrom = false ∧
    (({ wPort with portA := { pageReady := true, taken := true } } : State).port .a).decoder = false := by decide
/-- Port A with both rings enabled at the start of its part, and a record waiting. -/
def wRing : State :=
  { wHost with
    portA := { link := .l0, decoder := true, memActive := true, pageReady := true, unsignalled := 1
               pend := [{ stream := 0, status := 0, last := false, position := 0, token := 0, accepted := 0, stamp := 0, step := 0 }] }
    regs := [(regKey .cxlp 0 0x04C, 0x80040000), (regKey .cxlp 0 0x054, 0x80040000), (regKey .hbmc 0 0x060, 1), (regKey .hbmc 0 0x064, 1)] }
theorem witness_ring : bit (wRing.reg .cxlp 0 0x04C) 31 = true ∧ bit (wRing.reg .cxlp 0 0x054) 31 = true ∧ wRing.dpaRetired 0 64 = false ∧
    wRing.ringDpa .a .request 0 = 0 ∧ bit (Memory.word wRing.hbm 0) 31 = false ∧
    bit (Memory.word ({ wRing with hbm := [(3, 0x80)] } : State).hbm 0) 31 = true ∧
    ({ wRing with tier := [(0, { retired := [0] })] } : State).dpaRetired 0 64 = true := by decide
theorem witness_ringEnable : wHost.ringFits .a .request 0x80040000 = true ∧ wPort.ringFits .a .request 0x80040000 = false ∧
    bit (wHost.reg .cxlp 0 0x04C) 31 = false := by decide

-- StreamRequests

/-- Port A has one record for stream 1, and stream 1 is as given. -/
def wReq (r : RequestRec) (x : Stream) : State :=
  { State.reset with portA := { requests := [r] }, streams := [(1, x)]
                     images := [(0, { st := .ready, manifest := some { wManifest with vocab := 100 } })] }
/-- A record of an operation for stream 1 with word 1 and the words after it. -/
def wRec (op : Nat) (w1 : Word) (l : List Word) : RequestRec := BitVec.ofNat 32 (op + 256) :: w1 :: l
theorem witness_request : (wReq (wRec 1 0 []) {}).pickRequest [] [wRec 1 0 []] = some (wRec 1 0 [], []) ∧ reqOp (wRec 1 0 []) = 1 ∧
    reqStream (wRec 1 0 []) = 1 ∧ (wReq (wRec 1 0 []) {}).serves 0 = true ∧ ({ wReq (wRec 1 0 []) {} with images := [] } : State).serves 0 = false ∧
    (wReq (wRec 1 0 []) {}).seq.cur = none := by decide
theorem witness_append : (wReq (wRec 2 1 [0, 0, 7]) { state := .active }).reqTokens .a (wRec 2 1 [0, 0, 7]) false = some [7] ∧
    (wReq (wRec 2 1 [0, 0, 700]) { state := .active }).reqTokens .a (wRec 2 1 [0, 0, 700]) false = some [700] ∧
    ({ wReq (wRec 2 0x81 [0, 0]) { state := .active } with regs := [(regKey .hbmc 0 0x060, 0)] } : State).reqTokens .a (wRec 2 0x81 [0, 0]) false = none ∧
    (wReq (wRec 2 1 [0, 0, 7]) { state := .active }).targetOf 1 = none := by decide
theorem witness_streams : ({ state := .held, holds := [0], kvlen := 5 } : Stream).kvlen = 5 ∧ reqLength (wRec 7 5 [0, 0]) = 5 ∧
    (wReq (wRec 5 0 [0, 0]) { state := .active }).stream 1 = { state := .active } := by decide
theorem witness_attach : ((wReq (wRec 5 0 [0, 0]) { state := .active }).kvShape 0).modules ≤ 8 ∧
    8 < (({ wReq (wRec 5 0 [0, 0]) { state := .active } with images := [(0, { manifest := some { wManifest with modules := 9 } })] } : State).kvShape 0).modules := by decide

-- Shipments

/-- Stream 1 ships 3 records, of which records 0 and 1 are outstanding. -/
def wOut : ShipOut := { dest := 0, dstream := 2, length := 5, total := 3, next := 2, unacked := [0, 1], left := 3, retries := 0 }
def wShip (x : Stream) : State := { State.reset with streams := [(1, x)] }
theorem witness_shipOut : ((wShip { state := .active, shipOut := some wOut }).stream 1).shipOut = some wOut ∧ 0 ∈ wOut.unacked ∧ 1 ∈ wOut.unacked ∧
    2 ∉ wOut.unacked ∧ ((wShip { state := .active }).stream 1).shipOut = none ∧ ((wShip { state := .shipping }).stream 1).state = .shipping := by decide
/-- A berth in service whose page table holds column 0 for the first page of head 0 of stream 0. -/
def wKvBerth : BerthSt :=
  { role := .inService, trained := true, gated := false, storeOk := true, store := [(ptOffset (KvShape.mk 2 1 1) 0 0 0 + 3, 0x80)] }
/-- Stream 0 receives a shipment of an image of two heads and one layer, whose column for the page is 40. -/
def wIn : State :=
  { State.reset with
    streams := [(0, { state := .shipping, shipIn := some { source := 0, length := 5, left := 2, total := 2, accepted := [] } })]
    berths := (List.range 84).map (fun b => (b, { wKvBerth with logical := b }))
    images := [(0, { st := .ready, manifest := some { wManifest with kvheads := 2, group := 1, modules := 1, layers := [0x101], kvlayout := List.replicate 32 0 } })] }
theorem witness_shipIn : wIn.physOf (shipBerth (wIn.kvShape 0) 0 0) ≠ none ∧ (wIn.kvShape 0).heads = 2 ∧ wIn.homeHere (wIn.kvShape 0) 0 0 ≠ none := by decide
/-- A record of page 0 of that shipment, without a body. -/
def wRecord : List Byte :=
  let h : List Byte := leBytes 0 12 ++ leBytes 2 4 ++ leBytes 0 44
  h ++ leBytes (crc32c h).toNat 4
set_option maxRecDepth 20000 in
theorem witness_record : crc32c (wRecord.take 60 ++ wRecord.drop 64) = recWord wRecord 15 ∧ bits (recWord wRecord 3) 25 0 = 2 ∧
    leNat ((wRecord.drop 16).take 8) = 0 ∧ (wRecord.drop 24).take 32 = List.replicate 32 0 := by decide
theorem witness_column : (wIn.homeHere (wIn.kvShape 0) 0 0).bind (fun lb => wIn.column (wIn.kvShape 0) lb 0 0 0) = some 0 := by decide

-- PagerCommands

/-- Stack 0 with lists of its pager; stream 1 has two full blocks, the first with a node at 0x10000000 that has 4,096 children. -/
def wPager (y : StackSt) : State :=
  { State.reset with
    tier := [(0, y)], streams := [(1, { state := .active, kvlen := 128, kvcfg := 0x08A00840, chain := some [0x10000000] })]
    hbm := [(0x10000021, 0x10)], nodes := [NodeSt.mk 0x20000000 0 0 1]
    regs := [(regKey .hbmc 0 0x060, 0), (regKey .hbmc 0 0x064, 0), (regKey .kvpg 0 0x040, 0xFFFF0000), (regKey .kvpg 0 0x048, 16), (regKey .kvpg 0 0x04C, 0)] }
set_option maxRecDepth 20000 in
theorem witness_insertWaits : ((wPager {}).insertBlock 1).2 = .waits := by decide
theorem witness_insertStops : (({ wPager {} with streams := [] } : State).insertBlock 1).2 = .stop := by decide
theorem witness_removal : (wPager {}).poolLow 0 = true ∧ (wPager {}).children 0x20000000 = 0 ∧
    ({ wPager {} with regs := [(regKey .kvpg 0 0x040, 0)] } : State).poolLow 0 = false := by decide
theorem witness_locChange : (wPager { demotions := [(5, 0)] }).dueSwitch 0 = some (5, 0) ∧ (wPager { demotions := [(5, 2)] }).dueSwitch 0 = some (5, 2) ∧
    (wPager { demotions := [(5, 4)] }).dueSwitch 0 = some (5, 4) ∧ bit ((wPager {}).loc 0 5) 29 = false ∧ (wPager {}).dueSwitch 0 = none ∧
    (wPager {}).seq.cur = none := by decide
theorem witness_copyDone : (wPager { demotions := [(5, 1)] }).stack 0 = { demotions := [(5, 1)] } := by decide
/-- A READ_PAGE for the page of that berth. -/
def wPageRead : Packet :=
  { id := 4, h := { wRequest with len := 64, addr := 1 }, payload := [], origin := .port 5, loc := .delivery 0 4, target := 0, core := none }
theorem witness_readPage : ({ wIn with delivered := [wPageRead] } : State).served? 4 = some wPageRead ∧ wPageRead.h.addr.toNat % 16 = 1 ∧
    (wIn.homeHere (wIn.kvShape 0) 0 0).map (fun lb => wIn.locTier lb 0) = some 0 := by decide
/-- That berth with the page in another tier. -/
def wTier (v : Byte) : State :=
  { wIn with berths := (List.range 84).map (fun b => (b, { wKvBerth with logical := b, store := Memory.setByte wKvBerth.store 0x47 v })) }
theorem witness_tiers : (wTier 4).locTier 0 0 = 1 ∧ (wTier 8).locTier 0 0 = 2 ∧ (wIn.homeHere (wIn.kvShape 0) 0 0) = some 0 ∧
    (wTier 4).column (wIn.kvShape 0) 0 0 0 0 = some 0 := by decide

/-- That berth in a module without a host part. -/
def wDevice : State := { wTier 4 with regs := [(regKey .hbmc 0 0x060, 0), (regKey .hbmc 0 0x064, 0)] }
theorem witness_pageReads : wDevice.hostLimit ≤ wDevice.copyDpa 0 0 ∧ wDevice.dpaRetired (wDevice.copyDpa 0 0) 64 = false ∧ wDevice.locTier 0 0 = 1 ∧
    (wIn.physOf 0).isSome = true ∧ ¬ (0 % 16 = 1) := by decide
theorem witness_copyBack : ({ wIn with tier := [(0, { demotions := [(5, 3)] })] } : State).stack 0 = { demotions := [(5, 3)] } ∧
    (({ wIn with tier := [(0, { demotions := [(5, 3)] })] } : State).physOf (5 / 2 ^ 26)).isSome = true := by decide

-- SamplerRegisters

/-- Berth 3's sampler page accepts writes; stream 1 is live in grammar slot 0, whose check runs. -/
def wSmpl : State :=
  { wRun with streams := [(1, { state := .active })], grammarChecks := [0], regs := [(regKey .hbmc 0 0x060, 0), (regKey .hbmc 0 0x064, 0)]
              hbm := [(0, 0x4E), (1, 0x5A), (2, 0x47), (3, 0x52), (4, 1), (6, 1), (8, 0), (0x10, 64), (0x18, 128), (0x20, 64)] }
theorem witness_smpl : wSmpl.pageWrites .smpl 3 = true ∧ ({ wSmpl with berths := [(4, { role := .dark })] } : State).pageWrites .smpl 4 = false ∧ 1 ∈ wSmpl.liveStreams ∧ (wSmpl.stream 1).state ≠ .free ∧
    wSmpl.dark 0 = false := by decide
set_option maxRecDepth 20000 in
theorem witness_gramOk : wSmpl.gramOk 0 = true := by decide
theorem witness_gram : ({ wSmpl with hbm := [] } : State).gramOk 0 = false ∧ 0 ∈ wSmpl.grammarChecks ∧ 1 ∉ wSmpl.grammarChecks := by decide

-- StepPhases

theorem witness_prepare : ∃ t, ({ State.reset with seq := { State.reset.seq with next := some wStep } } : State).seq.next = some t ∧
    ({ State.reset with seq := { State.reset.seq with next := some { wStep with prepared := false } } } : State).flt.phase = .idle := ⟨wStep, rfl, rfl⟩
theorem witness_commit : (let s := { wRun with seq := { wRun.seq with finished := true } }
    s.seq.cur = some wStep ∧ s.seq.finished = true ∧ s.flt.phase = .idle ∧ s.flt.msgs = [] ∧ s.cool.st ≠ .orderly ∧ wStep.copy = none) := by decide
theorem witness_choose : ({ State.reset with stage := .ready, flt := { State.reset.flt with exec := true } } : State).chooses = true := by decide

-- OpticalPorts

/-- An optical port of berth 30 in a state. -/
def wOptPort (st : ZState) : State := { wRun with zports := [(30, { st := st, role := 2, index := 0, credits := [(0, 3), (1, 3), (2, 3), (3, 3)] })], stage := .ready }

theorem witness_ports : ((wOptPort .listen).zport 30).st = .listen ∧ (wOptPort .listen).stage = .ready ∧ ((wOptPort .train).zport 30).st = .train ∧ (wOptPort .train).dark 30 = false ∧
    ((wOptPort .check).zport 30).st = .check ∧ ((wOptPort .miscabled).zport 30).st = .miscabled := by decide
theorem witness_lossOfSignal : ((wOptPort .up).zport 30).st = .up ∧ (wOptPort .up).packets = [] ∧ portLive (wOptPort .up) 30 = true ∧ (wOptPort .up).scheduledOver 30 = false := by decide
theorem witness_forwarding : (let s := { wRun with forwarding := true }; s.forwarding = true ∧ s.packets = []) := by decide

-- OpticalTraffic

/-- Port 30 in UP with its partner, of a module with an address; the port's role is that of a child or of the parent. -/
def wOpen (role mc ms : Nat) : State :=
  { wOptPort .up with
    zports := [(30, { st := .up, role := role, partner := some { (default : PartnerIdent) with tenant := 0 }, credits := [(0, 3)] })]
    regs := [(regKey .zlnk 0 0x080, BitVec.ofNat 32 (2 ^ 31 + mc)), (regKey .zlnk 0 0x088, BitVec.ofNat 32 ms)], gen := { gennum := 1, oldFree := false } }
theorem witness_open : portLive (wOpen 2 0 (2 ^ 31 + 2 ^ 16)) 30 = true ∧ (wOpen 2 0 (2 ^ 31 + 2 ^ 16)).fenced 30 = false := by decide
theorem witness_child : (let s := wOpen 2 0 (2 ^ 31 + 2 ^ 16); (s.zport 30).role ∈ s.childRoles ∧ s.parentRole = none ∧ s.arrivals < s.childRoles.length ∧
    s.gen.oldFree = false) := by decide
theorem witness_parent : (let s := wOpen 1 1 (2 ^ 31 + 2 ^ 16); portLive s 30 = true ∧ s.fenced 30 = false ∧ s.parentRole = some (s.zport 30).role ∧
    s.reservedSpare = false ∧ SliceMsg.release ∉ s.sliceIn) := by decide
theorem witness_window : ((wOpen 2 0 (2 ^ 31 + 2 ^ 16)).zport 30).unacked < 4094 ∧ ((wOpen 2 0 (2 ^ 31 + 2 ^ 16)).zport 30).waiting = [] ∧
    30 ∈ (wOpen 2 0 (2 ^ 31 + 2 ^ 16)).openPorts ∧ (wOpen 2 0 (2 ^ 31 + 2 ^ 16)).forwarding = false ∧ (wOptPort .up).fenced 30 = true ∧
    portLive (wOptPort .up) 30 = true := by decide
/-- A packet of the port's berth that has reached its port. -/
def wOutgoing : Packet :=
  { id := 4, h := { wRequest with dst := 0xFE#8 }, payload := [], origin := .core 0, loc := .source 30, target := 30, core := none, crossed := [(portWay 30 6 false, 1)] }
theorem witness_outgoing : (let s := { wOpen 2 0 (2 ^ 31 + 2 ^ 16) with packets := [wOutgoing] }
    s.packet? 4 = some wOutgoing ∧ s.moveOf wOutgoing = .arrived ∧ s.pathDone wOutgoing = true ∧ s.portOpen 30 = true ∧
    (lookup (s.zport 30).credits (creditKey (isResponse wOutgoing.h) wOutgoing.h.gen)).getD 0 ≠ 0 ∧ packetFlits wOutgoing ≤ 4095) := by decide
set_option maxRecDepth 20000 in
theorem witness_codeword : rsDecode (List.replicate 544 0) = some (List.replicate 544 0) ∧ rsDecode [] = none ∧
    frameGood (flitFrame (List.replicate 64 0) 1 5 0) = true ∧ frameGood [] = false ∧ frameClass [] = 0 := by decide +kernel

-- FirstSecond

theorem witness_stages : (∀ g : Stage, ({ State.reset with powered := true, stage := g } : State).atStage g = true) := by intro g; cases g <;> decide
theorem witness_hold : ({ State.reset with powered := true } : State).stackHold = false ∧ ({ State.reset with powered := true } : State).bistOver = false ∧
    (let s := { State.reset with zports := [(30, { role := 2 })] }; (s.zport 30).st = .down ∧ (s.zport 30).role ≠ 15) ∧ 30 ∈ waveBasins 6 ∧ 30 ∉ State.reset.uncabled ∧ (State.reset.basin 30).regulating = false ∧ (State.reset.basin 30).latched = false := by decide
theorem witness_warm : (let s := { State.reset with powered := true, resetPending := true }; s.resetPending = true ∧ s.rootFailed = false ∧ s.cool.alertPin = false) := by decide
theorem witness_ready : (let s := { State.reset with powered := true, stage := .optical, straps := 2, flt := { State.reset.flt with exec := true } }
    s.atStage .optical = true ∧ s.flt.exec = true ∧ s.straps.getLsbD 1 = true) := by decide

-- BasinsAndPlate

/-- A state in which a basin regulates and has lost some phases. -/
def wBasin (n : Nat) (lost : List Nat) : State := { wRun with basins := [(n, { regulating := true, phasesLost := lost })] }
theorem witness_phases : ((wBasin 3 []).basin 3).regulating = true ∧ ¬ (phaseCount 3 ≤ 7) ∧ ((wBasin 3 [1, 2]).basin 3).phasesLost.length = 2 ∧
    ((wBasin 90 [1]).basin 90).phasesLost.length = 1 := by decide

-- WakesAndPower

/-- Berth 30 asleep or waking, in a regulating basin. -/
def wAsleep (waking : Bool) (w : Option Nat) : State :=
  { wRun with berths := [(30, { role := .inService, logical := 5, trained := true, gated := !waking, waking := waking, wakeWait := w })], basins := [(30, { regulating := true })] }
theorem witness_wake : (wAsleep false none).mayWake 30 = true ∧ ((wAsleep false none).berth 30).gated = true ∧ ((wAsleep true (some 99)).berth 30).waking = true := by decide
theorem witness_power : (let s := { wRun with powerSteps := [{ half := .west, before := 4, div := 5, power := 2000, drop := some 100 }] }
    s.stage = .ready ∧ s.effCap = 2200 ∧ 9 ≤ (s.half .west).pace) := by decide

-- ClockRoots

theorem witness_lockLoss : (let s := wRun.setReg .clkg 0 0x040 1#32; bit (s.reg .clkg 0 0x040) 0 = true ∧ s.activeRoot = 0 ∧ s.seq.cur ≠ none) := by decide
theorem witness_standbyLoss : (let s := wRun.setReg .clkg 1 0x040 1#32; bit (s.reg .clkg 1 0x040) 0 = true ∧ s.activeRoot ≠ 1) := by decide

-- CoolantStops

theorem witness_polls : (let s := { wRun with fwStarted := true }; s.polls = true ∧ s.cool.st = .normal ∧ s.powered = true ∧ s.stage = .ready) := by decide
theorem witness_lostLink : (let s := { wRun with fwStarted := true, cool := { wRun.cool with invalid := 10 } }; s.polls = true ∧ s.cool.linkLost = false ∧ 10 ≤ s.cool.invalid) := by decide
theorem witness_orderly : (let s := { wRun with cool := { wRun.cool with below18 := 101 } }; s.cool.st = .normal ∧ s.powered = true ∧ stopCalled s.cool = true ∧ s.coresMode = .run) := by decide
theorem witness_resume : resumeReady { (default : Cool) with flowStop := true, flowBack := 1001 } = true := by decide

-- HotSpots

/-- A site of basin 3 with a reading in both sensors. -/
def wSite (v : BitVec 12) : State := { wRun with basins := [(3, { regulating := true })], sites := [(12, { diode := v, ro := v })] }
theorem witness_sites : ((wSite 920).basin 3).regulating = true ∧ ((wSite 920).basin 3).latched = false ∧ (920 : Int) ≤ (wSite 920).siteReading 3 0 ∧
    ¬ siteCount 3 ≤ 0 ∧ (wSite 920).cool.st = .normal := by decide

-- FaultRepair

/-- A handling in a phase, with repairs that are due. -/
def wHandling (p : FltPhase) (l : List FltErr) : State :=
  { wRun with flt := { phase := p, cur := some { scope := 3, type := 1, inst := 0, bit := 5 }, repairs := l } }
theorem witness_row : (let s := wHandling .quiesce [{ scope := 3, type := 0, inst := 3 * 156 + 155, bit := 0 }]; s.flt.phase = .quiesce ∧
    s.cores.all (fun e => e.2.dyn.isEmpty) = true ∧ s.flt.cur.any (fun e => e.scope < 5) = true ∧ (s.berth 3).role = .inService ∧
    Sparse.get (fun _ => 15) (s.berth 3).removed (155 / 13) = 15 ∧ 155 / 13 ∉ (s.berth 3).badBypass ∧ (∀ e ∈ s.berths, e.2.role ≠ .dark)) := by decide
/-- Berth 3 is due for its handling; every berth of the west half but one is retired. -/
def wAlone (one : Role) : State :=
  { wHandling .quiesce [{ scope := 4, type := 0, inst := 3, bit := 0 }] with
    berths := (List.range 84).map (fun b => (b, { role := if b = 3 then .inService else if b = 4 then one else .retired, logical := if b = 3 then 0 else 127, storeOk := true })) }
theorem witness_no_spare : (let s := wAlone .retired; s.sparesFor 3 = [] ∧ (s.berth 3).role = .inService ∧ (s.basin 3).latched = false ∧ (s.basin 3).phasesLost.length < 2) := by decide
theorem witness_spare : (let s := wAlone .spare; s.sparesFor 3 = [4] ∧ (s.berth 3).storeOk = true ∧ (s.basin 3).latched = false ∧
    (∀ e ∈ s.berths, e.2.role ≠ .dark)) := by decide
theorem witness_restore : (let s := { wHandling .repair [] with seq := { wRun.seq with replay := 4 } }; s.flt.phase = .repair ∧ s.flt.rowTest = [] ∧ s.flt.msgs = [] ∧
    s.seq.cur = some wStep ∧ 3 < s.seq.replay ∧ s.flt.exec = true ∧ wStep.copy = none) := by decide
theorem witness_fatal : (let s := { wRun with flt := { phase := .abort, cur := some { scope := 5, type := 1, inst := 0, bit := 1 } } }; s.powered = true ∧ s.flt.phase ≠ .reset) := by decide

-- RegisterWrites

theorem witness_registerWrite : pageAt 0x40060 = some (.kvpg, 0, 0x060) ∧ ∃ r, regRow .kvpg 0 0x060 = some r ∧ r.off = 0x060 ∧ r.wk = .plain ∧ r.fw = 0 ∧ r.rw ≠ 0 :=
  ⟨by decide, _, rfl, rfl, rfl, rfl, by decide⟩
theorem witness_sealedWrite : pageAt 0x30060 = some (.hbmc, 0, 0x060) ∧ ∃ r, regRow .hbmc 0 0x060 = some r ∧ r.off = 0x060 ∧ r.wk = .plain ∧ r.fw = 0 ∧ r.rws ≠ 0 ∧ r.rw = 0 :=
  ⟨by decide, _, rfl, rfl, rfl, rfl, by decide, by decide⟩

-- AttestationAndFirmware

theorem witness_attestation : (let s := { State.reset with stage := .ready, fwStarted := true, secu := { State.reset.secu with blockEnd := 64, bottom := 1 } }
    s.fwStarted = true ∧ s.stage = .ready ∧ s.secu.waiting = none ∧ s.secu.noSign = false ∧ s.rpmbGone = false ∧ s.secu.blockNext < s.secu.blockEnd) := by decide
theorem witness_reservation : (let s := { State.reset with secu := { State.reset.secu with reserving := true, waiting := some [] } }
    s.secu.reserving = true ∧ s.rpmbGone = false) := by decide

end Sys2Proof.Tests
end

section
/-! PROOF. What every command keeps (O5) and what takes the front of the queue (O1): each command's meaning keeps a run good, operation by
operation, by the lemmas of Laws/Good*.lean. -/

namespace Sys2Proof.Machine

/-- An outcome keeps a run good: every next state that it gives is good. -/
def GoodRes (s0 : State) (r : Res) : Prop := ∀ t, r = .next t → Good s0 t

section
variable {s0 s : State}

theorem goodRes_next : GoodRes s0 (.next s) ↔ Good s0 s :=
  ⟨fun h => h s rfl, fun h _ ht => by cases ht; exact h⟩

theorem goodRes_fault (e : Fault) : GoodRes s0 (.fault e) := fun _ ht => by cases ht

theorem good_ite {p : Prop} [Decidable p] {a b : State} (ha : Good s0 a) (hb : Good s0 b) : Good s0 (if p then a else b) := by
  split
  · exact ha
  · exact hb

theorem ok_ite {p : Prop} [Decidable p] {a b : Core} (ha : CoreOk a) (hb : CoreOk b) : CoreOk (if p then a else b) := by
  split
  · exact ha
  · exact hb

end

section
/-! The instructions of a core. -/

variable {s0 s : State} {c : CoreId}

theorem good_execNop {u : CoreUnit} {w : Word} (hg : Good s0 s) : GoodRes s0 (execNop c u w s) :=
  goodRes_next.2 (good_ite (good_reservedSlot hg)
    (good_onCore hg fun _ hk => good_ite (good_endBundle hg hk) (good_setCore hk hg)))

theorem good_execGld {gd ga : GReg} {imm : BitVec 16} (hg : Good s0 s) : GoodRes s0 (execGld c gd ga imm s) :=
  goodRes_next.2 (good_onCore hg fun _ hk =>
    good_checked hg hk (fun _ ht => good_endBundle ht hk) (fun _ ht => good_endBundle ht (ok_setG hk)))

theorem good_execGst {gd ga : GReg} {imm : BitVec 16} (hg : Good s0 s) : GoodRes s0 (execGst c gd ga imm s) :=
  goodRes_next.2 (good_onCore hg fun _ hk =>
    good_checked hg hk (fun _ ht => good_endBundle ht hk) (fun _ ht => good_endBundle ht (ok_put hk)))

theorem good_execSend {flow : BitVec 16} (hg : Good s0 s) : GoodRes s0 (execSend c flow s) := by
  refine goodRes_next.2 (good_onCore hg fun k hk => ?_)
  split
  · exact good_flowFault hg hk
  · exact good_ite (good_flowFault hg hk) (good_ite (good_stall hg hk) (good_endBundle hg (ok_mk.2 hk)))

theorem good_execCancel {flow : BitVec 16} (hg : Good s0 s) : GoodRes s0 (execCancel c flow s) := by
  refine goodRes_next.2 (good_onCore hg fun k hk => ?_)
  split
  · exact good_flowFault hg hk
  · exact good_ite (good_flowFault hg hk) (good_endBundle hg (ok_mk.2 hk))

theorem good_execAwait {gd : GReg} {flow : BitVec 16} (hg : Good s0 s) : GoodRes s0 (execAwait c gd flow s) := by
  refine goodRes_next.2 (good_onCore hg fun k hk => ?_)
  split
  · exact good_flowFault hg hk
  · split
    · exact good_awaitDone hg hk
    · exact good_setCore (ok_mk.2 hk) hg

theorem good_execAwaitReturn (hg : Good s0 s) : GoodRes s0 (execAwaitReturn c s) := by
  refine goodRes_next.2 (good_ite hg ?_)
  split
  · split
    · exact hg
    · split
      · exact good_awaitDone hg (core_ok hg)
      · exact hg
  · exact hg

theorem good_execDwait {sel : DwaitSel} (hg : Good s0 s) : GoodRes s0 (execDwait c sel s) :=
  goodRes_next.2 (good_onCore hg fun _ hk => good_ite (good_setCore (ok_mk.2 hk) hg) (good_endBundle hg hk))

theorem good_execDwaitReturn (hg : Good s0 s) : GoodRes s0 (execDwaitReturn c s) := by
  refine goodRes_next.2 (good_ite hg ?_)
  split
  · exact good_ite hg (good_endBundle hg (ok_mk.2 (core_ok hg)))
  · exact hg

theorem good_execSpar {gd : GReg} {index : BitVec 16} (hg : Good s0 s) : GoodRes s0 (execSpar c gd index s) :=
  goodRes_next.2 (good_ite (good_alu hg) (good_reservedSlot hg))

theorem good_execEndBlock (hg : Good s0 s) : GoodRes s0 (execEndBlock c s) :=
  goodRes_next.2 (good_onCore hg fun _ hk => good_ite (good_endChecked hg (ok_mk.2 hk)) (good_setCore (ok_mk.2 (ok_mk.2 hk)) hg))

theorem good_execBarrierArrival (hg : Good s0 s) : GoodRes s0 (execBarrierArrival c s) :=
  goodRes_next.2 (good_ite (good_setCore (ok_mk.2 (core_ok hg)) hg) hg)

theorem good_execMcfg {ga : GReg} {word : CfgWord} (hg : Good s0 s) : GoodRes s0 (execMcfg c ga word s) :=
  goodRes_next.2 (good_onCore hg fun _ hk => good_ite (good_fetchFault hg) (good_setCore (ok_setCfg hk) hg))

theorem good_execMtile {gd ga gb : GReg} (hg : Good s0 s) : GoodRes s0 (execMtile c gd ga gb s) := by
  refine goodRes_next.2 (good_onCore hg fun k hk => good_ite (good_stall hg hk) ?_)
  split
  · exact good_fetchFault hg
  · refine good_ite (good_stall hg hk) ?_
    split
    · exact good_boundsFault (good_setCore hk hg)
    · exact good_setCore (ok_mk.2 hk) hg

theorem good_execAttemptTrouble (hg : Good s0 s) : GoodRes s0 (execAttemptTrouble c s) := by
  have hk : CoreOk (s.core c.val) := core_ok hg
  refine goodRes_next.2 (good_ite hg ?_)
  split
  · exact hg
  split
  · exact hg
  extract_lets blk l t
  have ht : Good s0 t := good_noteTile hg hk
  refine good_ite ht ?_
  split
  · exact ht
  extract_lets u v
  have hu : Good s0 u := good_recordTrouble ht
  have hv : Good s0 v := good_ite (good_countCore hu) hu
  exact good_ite (good_boundsFault (good_setCore (ok_mk.2 hk) hu)) (good_setCore (ok_mk.2 (ok_put hk)) hv)

theorem good_execTileComplete (hg : Good s0 s) : GoodRes s0 (execTileComplete c s) := by
  have hk : CoreOk (s.core c.val) := core_ok hg
  refine goodRes_next.2 (good_ite hg ?_)
  split
  · exact hg
  split
  · exact hg
  extract_lets l t
  have ht : Good s0 t := good_noteTile hg hk
  refine good_ite ht ?_
  split
  · exact ht
  extract_lets u v
  have hu : Good s0 u := good_ite (good_countCore ht) ht
  have hv : Good s0 v := good_ite (good_countCore hu) hu
  exact good_setCore (ok_mk.2 (ok_put hk)) hv

theorem good_execVld {v : VReg} {ga : GReg} {efmt : BitVec 4} {off : BitVec 12} (hg : Good s0 s) : GoodRes s0 (execVld c v ga efmt off s) :=
  goodRes_next.2 (good_onCore hg fun _ hk => good_ite (good_fetchFault hg)
    (good_checked hg hk (fun _ ht => good_setCore hk ht) (fun _ ht => good_setCore (ok_setV hk) ht)))

theorem good_execVst {v : VReg} {ga : GReg} {efmt : BitVec 4} {off : BitVec 12} (hg : Good s0 s) : GoodRes s0 (execVst c v ga efmt off s) :=
  goodRes_next.2 (good_onCore hg fun _ hk => good_ite (good_fetchFault hg)
    (good_checked hg hk (fun _ ht => good_setCore hk ht) (fun _ ht => good_setCore (ok_put hk) ht)))

theorem good_execVqnt {va : VReg} {ga gb gi : GReg} {fmt : BitVec 4} (hg : Good s0 s) : GoodRes s0 (execVqnt c va ga gb gi fmt s) := by
  refine goodRes_next.2 (good_onCore hg fun k hk => good_ite (good_fetchFault hg) (good_ite (good_stall hg hk) ?_))
  split
  · exact good_boundsFault (good_setCore hk hg)
  · exact good_setCore (ok_put (ok_put hk)) hg

theorem good_execXrd {glocal gline gcount : GReg} (hg : Good s0 s) : GoodRes s0 (execXrd c glocal gline gcount s) :=
  goodRes_next.2 (good_onCore hg fun _ hk => good_ite (good_setCore hk hg)
    (good_checked hg hk (fun _ ht => good_setCore hk ht) (fun _ ht => good_setCore (ok_mk.2 hk) ht)))

theorem good_execXwr {glocal gline gcount : GReg} (hg : Good s0 s) : GoodRes s0 (execXwr c glocal gline gcount s) := by
  refine goodRes_next.2 (good_onCore hg fun k hk => good_ite (good_setCore hk hg) (good_ite (good_stall hg hk)
    (good_checked hg hk (fun _ ht => good_setCore hk ht) (fun t ht => ?_))))
  split
  · exact good_setCore hk ht
  · exact good_writeLines (good_setCore hk ht)

theorem good_execDreq {glocal gdesc : GReg} (hg : Good s0 s) : GoodRes s0 (execDreq c glocal gdesc s) := by
  refine goodRes_next.2 (good_onCore hg fun k hk =>
    good_checked hg hk (fun _ ht => good_setCore hk ht) (fun t ht => ?_))
  split
  · exact good_fetchFault ht
  · exact good_ite (good_stall ht hk)
      (good_checked ht hk (fun _ hu => good_setCore hk hu) (fun _ hu => good_sendRequest hu hk))

theorem good_execDynResponseDelivery {tag : Fin 16} (hg : Good s0 s) : GoodRes s0 (execDynResponseDelivery c tag s) := by
  refine goodRes_next.2 ?_
  split
  · exact hg
  extract_lets k t
  have hk : CoreOk k := core_ok hg
  have ht : Good s0 t := good_dropServed hg
  split
  · exact ht
  · exact good_resumeEnd (good_setCore (ok_mk.2 (ok_ite hk (ok_put hk))) ht)

end

section
/-! Slots, dynamic units and packets on the wafer's links, and the control tree. -/

variable {s0 s : State}

theorem good_execSlotIssue {link : Word} {hop : Nat} {external : List Byte} (hg : Good s0 s) :
    GoodRes s0 (execSlotIssue link hop external s) :=
  goodRes_next.2 (good_ite hg (good_ite (good_issueOwned hg) (good_issueTunnel hg)))

theorem good_execSlotLanding {link : Word} {hop : Nat} (hg : Good s0 s) : GoodRes s0 (execSlotLanding link hop s) := by
  refine goodRes_next.2 (good_ite hg ?_)
  split
  · exact hg
  split
  · exact hg
  split
  · refine good_ite hg ?_
    extract_lets t
    have ht : Good s0 t := good_countWay (good_setWay hg)
    exact good_ite (good_setLink ht) (good_slotEnds ht)
  · exact hg

theorem good_execDynamicUnitIssue {way : Word} {packet : Nat} (hg : Good s0 s) : GoodRes s0 (execDynamicUnitIssue way packet s) := by
  refine goodRes_next.2 ?_
  extract_lets w
  split
  · exact hg
  · exact good_ite hg (good_trackDyn (good_setPacket (good_countPacket (good_countWay (good_issueOn hg)))))

theorem good_execUnitRetry {way : Word} (hg : Good s0 s) : GoodRes s0 (execUnitRetry way s) := by
  refine goodRes_next.2 ?_
  extract_lets w
  split
  · exact good_ite hg (good_unitFails hg)
  · exact hg

theorem good_execRingHop {packet : Nat} (hg : Good s0 s) : GoodRes s0 (execRingHop packet s) := by
  refine goodRes_next.2 ?_
  split
  · exact hg
  split
  · exact good_ite (good_movePacket hg) hg
  · exact good_refusePacket hg
  · exact hg

theorem good_execDeliveryHop {packet : Nat} (hg : Good s0 s) : GoodRes s0 (execDeliveryHop packet s) := by
  refine goodRes_next.2 ?_
  split
  · exact hg
  split
  · exact good_ite (good_movePacket hg) hg
  · exact hg

theorem good_execPacketArrival {packet : Nat} {crcBad : Bool} (hg : Good s0 s) : GoodRes s0 (execPacketArrival packet crcBad s) := by
  refine goodRes_next.2 ?_
  split
  · exact hg
  refine good_ite hg (good_ite (good_raise (good_dropPacket hg)) (good_ite ?_ ?_))
  · exact good_ite (good_deliver hg) (good_ite (good_deliver hg) (good_dropPacket hg))
  · exact good_ite (good_ite (good_serveStore hg) (good_dropPacket hg)) (good_ite (good_serveStack hg) (good_serveHarbour hg))

theorem good_execSeamSync {b : Berth} (hg : Good s0 s) : GoodRes s0 (execSeamSync b s) :=
  goodRes_next.2 (good_ite (good_raise hg) hg)

theorem good_execTreeLinkFail {n : ChNode} (hg : Good s0 s) : GoodRes s0 (execTreeLinkFail n s) := by
  refine goodRes_next.2 ?_
  extract_lets t
  have ht : Good s0 t := good_ite (good_mk.2 hg) hg
  exact good_ite (good_raise ht) ht

theorem good_execArrive {n : ChNode} {resent : Bool} (hg : Good s0 s) : GoodRes s0 (execArrive n resent s) := by
  refine goodRes_next.2 (good_ite hg ?_)
  have ht : Good s0 (s.resendFlit n resent) := good_resendFlit hg
  split
  · exact good_ite (good_passUp (good_mk.2 ht)) (good_mk.2 ht)
  · exact good_mk.2 ht

theorem good_execBarrierTimerExpiry (hg : Good s0 s) : GoodRes s0 (execBarrierTimerExpiry s) :=
  goodRes_next.2 (good_ite (good_mk.2 hg) hg)

theorem good_execRelease {m : ReleaseMeasure} (hg : Good s0 s) : GoodRes s0 (execRelease m s) := by
  refine goodRes_next.2 (good_ite hg ?_)
  extract_lets t
  have ht : Good s0 t := good_ite (good_sendDown hg) hg
  exact good_nextEpoch (good_applyDivisors (good_countSecond (good_countBarrier (good_compareHint (good_recordSlots ht)))))

theorem good_execLate (hg : Good s0 s) : GoodRes s0 (execLate s) := by
  refine goodRes_next.2 ?_
  split
  · exact hg
  · exact good_ite hg (good_recordLate (good_mk.2 hg))

theorem good_execTimeBroadcast (hg : Good s0 s) : GoodRes s0 (execTimeBroadcast s) :=
  goodRes_next.2 (good_mk.2 (good_ite (good_sendTime hg) hg))

theorem good_execTime {b : Berth} {resent : Bool} (hg : Good s0 s) : GoodRes s0 (execTime b resent s) := by
  refine goodRes_next.2 ?_
  split
  · exact hg
  refine good_ite hg ?_
  extract_lets t v c u
  have hu : Good s0 u := good_correctClock (good_resendFlit hg)
  exact good_ite (good_raise hu) hu

end

section
/-! The sequencer: batches, commits and the barrier of a step. -/

variable {s0 s : State}

theorem good_execChoosePhase {tables : List (Stack × EccOutcome)} (hg : Good s0 s) : GoodRes s0 (execChoosePhase tables s) := by
  refine goodRes_next.2 (good_ite hg (good_ite (good_tableReads hg) ?_))
  extract_lets t live u v ready
  have ht : Good s0 t := good_tableReads hg
  have hu : Good s0 u := good_foldl _ ht fun _ _ => good_applyConfig
  have hv : Good s0 v := good_foldl _ hu fun _ _ => good_checkLink
  split
  · exact hv
  extract_lets progs cands
  split
  next w _ l he =>
  have hw : Good s0 w := by
    have := good_takeCandidates cands (a := (v.drawn, ((progs.getLast?).map (fun p => p.2.capacity)).getD 0, [])) (good_drawn hv)
    rwa [he] at this
  exact good_ite hw (good_mk.2 (good_count hw))

theorem good_execPreparePhase {batchBad recordBad tableBad tableCorrected : List (Fin 80)} (hg : Good s0 s) :
    GoodRes s0 (execPreparePhase batchBad recordBad tableBad tableCorrected s) := by
  refine goodRes_next.2 ?_
  split
  · exact hg
  extract_lets flag
  have hflag : ∀ t l n, Good s0 t → Good s0 (flag t l n) := fun t l n ht => good_foldl l ht fun u b hu => by
    split
    · exact good_raise hu
    · exact hu
  refine good_ite hg (good_ite (hflag _ _ _ (hflag _ _ _ (hflag _ _ _ (good_ite hg (good_raise hg))))) ?_)
  exact good_mk.2 (good_foldl _ (good_foldl _ (hflag _ _ _ hg) fun _ _ => good_takeInputs) fun _ _ => good_writeInputs)

theorem good_execStepCommit {logits : List (List (List Word))} {tables : List (Stack × EccOutcome)} (hg : Good s0 s) :
    GoodRes s0 (execStepCommit logits tables s) := by
  have ht : Good s0 (s.tableReads tables) := good_tableReads hg
  refine goodRes_next.2 ?_
  split
  · exact hg
  refine good_ite hg (good_ite ht ?_)
  split
  · exact good_settleStop (good_copyCommitted (good_stepOver (good_mk.2 ht)))
  refine good_settleStop (good_dueSwap (good_holdBad ?_))
  refine good_foldl _ (good_foldl _ (good_foldl _ (good_freshInterval ?_) ?_) fun _ _ => good_resync) fun _ _ => good_putStream
  · exact good_stepOver (good_mk.2 (good_foldl _ ht fun _ _ => good_settle))
  · exact fun _ _ hu => good_ite hu (good_kvCommit hu)

theorem good_execAbort (hg : Good s0 s) : GoodRes s0 (execAbort s) :=
  goodRes_next.2 (good_ite (good_mk.2 (good_abortRun (good_ite (good_sendDown (good_sendUp hg)) hg))) hg)

theorem good_execGo (hg : Good s0 s) : GoodRes s0 (execGo s) := by
  refine goodRes_next.2 (good_ite hg ?_)
  split
  · exact good_ite (good_startRun (good_endHandling hg)) hg
  split
  · exact hg
  refine good_ite hg ?_
  extract_lets t u
  have ht : Good s0 t := good_ite (good_takeTurn hg) hg
  exact good_startRun (good_markWritten (good_mk.2 ht))

theorem good_execEpochWatchdog (hg : Good s0 s) : GoodRes s0 (execEpochWatchdog s) := by
  refine goodRes_next.2 (good_ite hg ?_)
  split
  · exact good_recordLate (good_raise hg)
  · refine good_ite ?_ (good_raise hg)
    have ht : ∀ c, Good s0 (s.raiseAs .schd 0 0 c) := fun _ => good_raiseAs hg
    extract_lets t
    split
    · exact good_ite (ht _) (good_mk.2 (ht _))
    · exact ht _
  · exact good_raise hg

end

section
/-! Faults, their handling, coolant and heat. -/

variable {s0 s : State}

theorem good_execFault (hg : Good s0 s) : GoodRes s0 (execFault s) := by
  refine goodRes_next.2 ?_
  split
  · exact hg
  refine good_ite hg ?_
  extract_lets _ t due
  have ht : Good s0 t := good_mk.2 hg
  split
  · exact good_mk.2 ht
  · exact good_ite (good_repairAll (good_mk.2 ht)) (good_mk.2 ht)

theorem good_execQuiesceComplete {badSpares : List Berth} {lost : List (BitVec 15)} (hg : Good s0 s) :
    GoodRes s0 (execQuiesceComplete badSpares lost s) :=
  goodRes_next.2 (good_ite (good_foldl _ (good_repairAll hg) fun _ _ => good_replaceModule) hg)

theorem good_execQuiesce (hg : Good s0 s) : GoodRes s0 (execQuiesce s) := goodRes_next.2 (good_ite (good_raise hg) hg)

theorem good_execSpareSelftestDone {ok : Bool} (hg : Good s0 s) : GoodRes s0 (execSpareSelftestDone ok s) := by
  refine goodRes_next.2 ?_
  split
  · exact hg
  · exact good_ite (good_mk.2 hg) (good_repairBerth (good_widenBerth (good_mk.2 hg)))

theorem good_execStoreMigrationDone {b : Fin 80} (hg : Good s0 s) : GoodRes s0 (execStoreMigrationDone b s) :=
  goodRes_next.2 (good_ite (good_foldl _ (good_mk.2 hg) fun _ _ ht => good_liftRepaired (good_fromBackup ht)) hg)

theorem good_execRestore (hg : Good s0 s) : GoodRes s0 (execRestore s) := by
  refine goodRes_next.2 (good_ite hg ?_)
  extract_lets t u
  have ht : Good s0 t := good_rewriteTable (good_moveNodes (good_mendAll hg))
  have hu : Good s0 u := by
    unfold u
    split
    · exact ht
    · exact good_ite (good_escalateOrDrop ht) (good_restoreStep ht)
  exact good_ite (good_endHandling hu) (good_mk.2 hu)

theorem good_execModuleFatal (hg : Good s0 s) : GoodRes s0 (execModuleFatal s) := by
  refine goodRes_next.2 ?_
  split
  · exact hg
  · exact good_ite hg (good_startWarm (good_mk.2 (good_msiLive (good_alerted (good_setReg hg)))))

theorem good_execFlowAlertN {asserted : Bool} (hg : Good s0 s) : GoodRes s0 (execFlowAlertN asserted s) :=
  goodRes_next.2 (good_ite hg (good_ite (good_suddenStop (good_mk.2 hg)) (good_mk.2 hg)))

theorem good_execOrderlyStop (hg : Good s0 s) : GoodRes s0 (execOrderlyStop s) :=
  goodRes_next.2 (good_ite (good_settleStop (good_raise (good_mk.2 hg))) hg)

theorem good_execOrderlyResume (hg : Good s0 s) : GoodRes s0 (execOrderlyResume s) :=
  goodRes_next.2 (good_ite (good_liftStop (good_mk.2 hg)) hg)

theorem good_execCoolantRecovery (hg : Good s0 s) : GoodRes s0 (execCoolantRecovery s) :=
  goodRes_next.2 (good_ite (good_liftStop (good_restoreDivisors (good_mk.2 hg))) hg)

theorem good_execRailDrop (hg : Good s0 s) : GoodRes s0 (execRailDrop s) :=
  goodRes_next.2 (good_ite hg (good_ite (good_mk.2 hg) (good_setErrRegs (good_mk.2 (good_wiped hg)))))

theorem good_execTrayRead {r : TrayReading} (hg : Good s0 s) : GoodRes s0 (execTrayRead r s) := by
  refine goodRes_next.2 (good_ite hg ?_)
  exact good_settleStop (good_capNow (good_raiseLevels (good_ite (good_suddenStop (good_mk.2 hg)) (good_mk.2 hg))))

theorem good_execLinkLost (hg : Good s0 s) : GoodRes s0 (execLinkLost s) :=
  goodRes_next.2 (good_ite (good_capNow (good_raise (good_mk.2 hg))) hg)

theorem good_execForecast {p60 : Nat} {t60 : Int} (hg : Good s0 s) : GoodRes s0 (execForecast p60 t60 s) := by
  refine goodRes_next.2 (good_ite hg ?_)
  extract_lets _ t u
  have hu : Good s0 u := good_setReg (good_capNow (good_mk.2 hg))
  exact good_ite (good_raise hu) hu

theorem good_execThermalSiteSample {i : Fin 100} {site : Fin 4} {diode ro : BitVec 12} (hg : Good s0 s) :
    GoodRes s0 (execThermalSiteSample i site diode ro s) := by
  refine goodRes_next.2 (good_ite hg ?_)
  extract_lets k x hot y t u v
  have ht : Good s0 t := good_setSite hg
  have hu : Good s0 u := good_ite (good_raise ht) ht
  have hv : Good s0 v := good_ite (good_raise hu) hu
  exact good_limitHeat hv

theorem good_execPairFault {i : Fin 100} {site : Fin 4} (hg : Good s0 s) : GoodRes s0 (execPairFault i site s) :=
  goodRes_next.2 (good_ite hg (good_limitHeat (good_raise (good_setSite hg))))

theorem good_execThermalStepRequest {h : Half} (hg : Good s0 s) : GoodRes s0 (execThermalStepRequest h s) :=
  goodRes_next.2 (good_ite (good_askThermal hg) (good_ite (good_askThermal hg) hg))

theorem good_execThermalStepRelease {h : Half} (hg : Good s0 s) : GoodRes s0 (execThermalStepRelease h s) :=
  goodRes_next.2 (good_ite (good_askThermal hg) hg)

theorem good_execTrip {i : Fin 100} {site : Fin 4} (hg : Good s0 s) : GoodRes s0 (execTrip i site s) :=
  goodRes_next.2 (good_ite hg (good_raise (good_suddenStop hg)))

end

section
/-! The KV tier, its pagers, the sampler, the stacks and the store dies. -/

variable {s0 s : State}

theorem good_execDemotionCopyDone {k : Stack} {r : EccOutcome} (hg : Good s0 s) : GoodRes s0 (execDemotionCopyDone k r s) := by
  refine goodRes_next.2 ?_
  split
  · exact hg
  · exact good_ite (good_copyRead hg) (good_getD (fun _ he => good_copyDone he (good_copyRead hg)) (good_copyRead hg))

theorem good_execLocChange {k : Stack} {table : EccOutcome} (hg : Good s0 s) : GoodRes s0 (execLocChange k table s) := by
  refine goodRes_next.2 ?_
  split
  · exact good_ite (good_tableRead hg) (good_switchLoc (good_tableRead hg))
  · exact hg

theorem good_execPrefixInsertResume {k : Stack} {table : EccOutcome} (hg : Good s0 s) : GoodRes s0 (execPrefixInsertResume k table s) := by
  refine goodRes_next.2 ?_
  extract_lets x t
  split
  · exact hg
  next st rest _ =>
  have ht : Good s0 t := good_tableRead hg
  refine good_ite ht ?_
  have hu : Good s0 ((t.setStack k.val { x with inserts := [] }).insertBlock st).1 := good_insertBlock (good_setStack ht)
  split
  next => exact ht
  next he =>
    rw [he] at hu
    extract_lets _ v
    have hv : Good s0 v := good_setStack hu
    exact good_ite hv (good_ite (good_setStack hv) (good_insertBlocks hv))
  next he =>
    rw [he] at hu
    exact good_setStack hu

theorem good_execNodeRemoval {k : Stack} {table : EccOutcome} (hg : Good s0 s) : GoodRes s0 (execNodeRemoval k table s) := by
  refine goodRes_next.2 (good_ite ?_ hg)
  split
  · exact good_ite (good_tableRead hg) (good_removeNode (good_tableRead hg))
  · exact hg

theorem good_execReadPage {k : Stack} {table e : EccOutcome} {unit : Nat} (hg : Good s0 s) : GoodRes s0 (execReadPage k table e unit s) := by
  refine goodRes_next.2 ?_
  extract_lets x
  split
  · exact hg
  extract_lets t u
  have ht : Good s0 t := good_setStack hg
  split
  · exact ht
  have hu : Good s0 u := good_tableRead ht
  refine good_ite (good_respond hu) ?_
  extract_lets a st h l j off sh line gone
  have hgone : Good s0 gone := good_respond (good_raise hu)
  clear_value line
  split
  · exact hgone
  refine good_ite hgone (good_ite ?_ ?_)
  · split
    · exact good_respond (good_raise (good_lineLost hu))
    · exact good_respond (good_lineCorrected hu)
    · exact good_respond hu
  · refine good_ite (good_respond (good_raise hu)) (good_ite (good_respond (good_raise (good_logTierError hu))) ?_)
    split
    · exact good_respond (good_raise (good_tierLost hu))
    · exact good_respond (good_correctUnit hu)
    · exact good_respond hu

theorem good_execGrammarBind {b : Berth} {v : Word} (hg : Good s0 s) : GoodRes s0 (execGrammarBind b v s) :=
  goodRes_next.2 (good_ite (good_writeGbase hg) hg)

theorem good_execGrammarCheckDone {slot : Fin 16} {readBad : Bool} {corrected : List Berth} (hg : Good s0 s) :
    GoodRes s0 (execGrammarCheckDone slot readBad corrected s) :=
  goodRes_next.2 (good_ite (good_ite (good_restart (good_setRegI (good_mk.2 (good_readsCorrected hg))))
    (good_raiseSampler (good_mk.2 (good_readsCorrected hg)))) hg)

theorem good_execSgstateReset {b : Berth} {v : Word} (hg : Good s0 s) : GoodRes s0 (execSgstateReset b v s) :=
  goodRes_next.2 (good_ite (good_writeSgstate hg) hg)

theorem good_execSpcntClear {b : Berth} {v : Word} (hg : Good s0 s) : GoodRes s0 (execSpcntClear b v s) :=
  goodRes_next.2 (good_ite (good_writeSpcnt hg) hg)

theorem good_execPenEnWrite {b : Berth} {v : Word} (hg : Good s0 s) : GoodRes s0 (execPenEnWrite b v s) :=
  goodRes_next.2 (good_ite (good_writeScfg hg) hg)

theorem good_execHbmPatrolScrub {k : Stack} {offset : BitVec 37} {e : EccOutcome} (hg : Good s0 s) :
    GoodRes s0 (execHbmPatrolScrub k offset e s) := by
  cases e with
  | clean => exact goodRes_next.2 hg
  | corrected => exact goodRes_next.2 (good_correctUnit hg)
  | uncorrectable => exact goodRes_next.2 (good_retirePage hg)

theorem good_execDeviceStackRequest {k : Stack} {e : EccOutcome} {unit : Nat} (hg : Good s0 s) :
    GoodRes s0 (execDeviceStackRequest k e unit s) := by
  refine goodRes_next.2 ?_
  extract_lets x
  split
  · exact hg
  extract_lets failed t
  have ht : Good s0 t := good_setStack hg
  clear_value failed
  split
  · exact good_answer (good_raise (good_ite (good_logTierError ht) ht))
  refine good_ite (good_answer (good_stackWrite ht)) ?_
  split
  · exact good_answer ht
  · exact good_answer (good_correctUnit ht)
  · exact good_answer (good_raise (good_tierLost ht))

theorem good_execPageRetire {k : Stack} {page : Nat} {softRepaired : Bool} (hg : Good s0 s) :
    GoodRes s0 (execPageRetire k page softRepaired s) :=
  goodRes_next.2 (good_ite hg (good_ite (good_mk.2 (good_setStack hg)) (good_retirePage hg)))

theorem good_execStoreReadArrival {b : Berth} {line : BitVec 26} {r : StoreReader} {inRefresh : Bool} (hg : Good s0 s) :
    GoodRes s0 (execStoreReadArrival b line r inRefresh s) := by
  refine goodRes_next.2 (good_ite hg ?_)
  have ht : Good s0 (s.noteArrival line.toNat r) := good_noteArrival hg
  refine good_ite (good_issueRead ht) (good_ite (good_ite (good_countMerge ?_) (good_issueRead ht)) (good_issueRead ht))
  exact good_setBerth (store_ok hg) ht

theorem good_execMergeWindowEnd {b : Berth} {line : BitVec 26} (hg : Good s0 s) : GoodRes s0 (execMergeWindowEnd b line s) :=
  goodRes_next.2 (good_setBerth (store_ok hg) hg)

theorem good_execStoreLineReturn {b : Berth} {line : BitVec 26} {e : EccOutcome} {mirrorOk : Bool} (hg : Good s0 s) :
    GoodRes s0 (execStoreLineReturn b line e mirrorOk s) := by
  refine goodRes_next.2 ?_
  extract_lets l x t
  split
  · exact hg
  refine good_ite hg ?_
  have ht : Good s0 t := good_setBerth (store_ok hg) hg
  split
  · exact good_foldl _ ht fun _ _ => good_deliverLine
  · exact good_foldl _ (good_lineCorrected ht) fun _ _ => good_deliverLine
  · exact good_ite (good_foldl _ (good_raise (good_storePut (good_noteRow ht))) fun _ _ => good_deliverLine)
      (good_foldl _ (good_raiseAs (good_lineLost ht)) fun _ _ => good_failLine)

theorem good_execRefillWrite {b : Berth} (hg : Good s0 s) : GoodRes s0 (execRefillWrite b s) := by
  refine goodRes_next.2 ?_
  extract_lets x
  split
  · exact hg
  · have ht : ∀ l, Good s0 (s.setBerth b.val { x with refill := l }) := fun _ => good_setBerth (store_ok hg) hg
    exact good_ite (good_storeWrite (ht _)) (good_raise (ht _))

theorem good_execRefresh {b : Berth} {bank : Fin 2048} {waiting : Bool} (hg : Good s0 s) : GoodRes s0 (execRefresh b bank waiting s) :=
  goodRes_next.2 (good_ite hg (good_refreshDue (good_setBerth (store_ok hg) hg)))

theorem good_execRefreshDeadline {b : Berth} {bank : Fin 2048} (hg : Good s0 s) : GoodRes s0 (execRefreshDeadline b bank s) :=
  goodRes_next.2 (good_ite hg (good_refreshDue (good_setBerth (store_ok hg) hg)))

theorem good_execTargetedRefresh {b : Berth} {bank row : Fin 2048} {waiting : Bool} (hg : Good s0 s) :
    GoodRes s0 (execTargetedRefresh b bank row waiting s) :=
  goodRes_next.2 (good_ite hg (good_refreshDue (good_setBerth (store_ok hg) hg)))

theorem good_execPatrolScrubRead {b : Berth} {line : BitVec 26} {e : EccOutcome} (overwritten : Bool) (hg : Good s0 s) :
    GoodRes s0 (execPatrolScrubRead b line e overwritten s) := by
  refine goodRes_next.2 (good_ite hg ?_)
  extract_lets t x
  have ht : Good s0 t := good_countPass hg
  split
  · exact ht
  · exact good_lineCorrected ht
  · exact good_ite ht (good_ite (good_noteRow (good_setBerth (store_ok ht) ht)) (good_raiseAs ht))

theorem good_execScrubPreempt {b : Berth} (bank : Fin 2048) (hg : Good s0 s) : GoodRes s0 (execScrubPreempt b bank s) :=
  goodRes_next.2 (good_ite (good_count hg) hg)

theorem good_execHoldTimeout {b : Berth} {line : BitVec 26} (hg : Good s0 s) : GoodRes s0 (execHoldTimeout b line s) :=
  goodRes_next.2 (good_ite (good_raise hg) hg)

theorem good_execHeldLineRepaired {b : Berth} {line : BitVec 26} {data : List Byte} (hg : Good s0 s) :
    GoodRes s0 (execHeldLineRepaired b line data s) := by
  refine goodRes_next.2 (good_ite hg ?_)
  extract_lets rest t
  have ht : Good s0 t := good_setBerth (store_ok hg) hg
  split
  · exact good_storePut ht
  · exact good_mendKv ht
  · exact good_ite (good_mendWeights ht) (good_storePut ht)

theorem good_execRowSpared {b : Berth} {bank row : Fin 2048} (hg : Good s0 s) : GoodRes s0 (execRowSpared b bank row s) := by
  refine goodRes_next.2 (good_ite hg ?_)
  have ht : ∀ x, Memory.wf x.store = true → Good s0 ((s.setBerth b.val x).raise .stor b.val 2) := fun _ hx => good_raise (good_setBerth hx hg)
  exact good_ite (good_raise (ht _ (store_ok hg))) (ht _ (store_ok hg))

end

section
/-! The copy engines, shipments, requests and the host ports. -/

variable {s0 s : State} {p : HostPort}

theorem good_execDescriptorPoll {ch : Channel} {host : Option (List Word)} (hg : Good s0 s) : GoodRes s0 (execDescriptorPoll p ch host s) := by
  refine goodRes_next.2 (good_ite hg ?_)
  split
  · exact good_raise (good_setChan (good_ite (good_raise hg) hg))
  · exact good_ite (good_setChan hg) hg

theorem good_execCopyIn {ch : Channel} (hg : Good s0 s) : GoodRes s0 (execCopyIn p ch s) :=
  goodRes_next.2 (good_onJob hg fun _ => good_startCopy hg)

theorem good_execCopyOut {ch : Channel} (hg : Good s0 s) : GoodRes s0 (execCopyOut p ch s) :=
  goodRes_next.2 (good_onJob hg fun _ => good_startCopy hg)

theorem good_execShard {ch : Channel} (hg : Good s0 s) : GoodRes s0 (execShard p ch s) := by
  refine goodRes_next.2 (good_onJob hg fun j => good_ite hg ?_)
  split
  · exact good_setJob hg
  · exact good_setJob hg

theorem good_execLighterBurst {ch : Channel} {host : Option (List Byte)} {e : EccOutcome} {unit : Nat} (hg : Good s0 s) :
    GoodRes s0 (execLighterBurst p ch host e unit s) := by
  refine goodRes_next.2 ?_
  split
  · exact hg
  refine good_ite hg ?_
  split
  · exact good_burstIn hg
  · exact good_burstOut hg
  · exact good_burstShard hg
  · exact hg

theorem good_execPeerShard {ch : Channel} {reply : Option (List Byte)} (hg : Good s0 s) : GoodRes s0 (execPeerShard p ch reply s) := by
  refine goodRes_next.2 ?_
  split
  · exact hg
  refine good_ite hg ?_
  split
  · exact good_pullShard hg
  refine good_ite hg ?_
  split
  · exact good_setJob hg
  · exact good_pullShard hg

theorem good_execManifest {ch : Channel} {bytes : List Byte} (hg : Good s0 s) : GoodRes s0 (execManifest p ch bytes s) := by
  refine goodRes_next.2 (good_onJob hg fun j => ?_)
  refine good_ite (good_setJob hg) (good_ite (good_setJob hg) (good_ite (good_setJob hg) (good_ite (good_setJob hg) ?_)))
  split
  next code m _ =>
  extract_lets t u
  have ht : Good s0 t := good_ite (good_raise hg) hg
  have hu : Good s0 u := by
    unfold u
    split
    · exact ht
    · exact good_setImage ht
  exact good_setJob hu

theorem good_execProgram {ch : Channel} {bytes : List Byte} (hg : Good s0 s) : GoodRes s0 (execProgram p ch bytes s) := by
  have refuses : ∀ j, Good s0 (s.setJob p ch j) := fun _ => good_setJob hg
  refine goodRes_next.2 (good_onJob hg fun j => good_ite (refuses _) ?_)
  split
  · exact refuses _
  split
  · exact refuses _
  refine good_ite (refuses _) (good_ite (refuses _) (good_ite (refuses _) (good_ite (good_setJob (good_drawn hg)) ?_)))
  split
  · exact good_setJob (good_reportLoad (good_drawn hg))
  · exact good_setJob (good_ite (good_liftRepaired (good_setImage hg)) (good_setImage hg))

theorem good_execDescriptorComplete {ch : Channel} {readBackBad : Bool} (hg : Good s0 s) :
    GoodRes s0 (execDescriptorComplete p ch readBackBad s) := by
  refine goodRes_next.2 ?_
  split
  · exact hg
  refine good_ite hg ?_
  next j _ =>
  extract_lets t
  have ht : Good s0 t := good_ite hg (good_flushBuffers hg)
  have harrived : Good s0 (if (j.kind = 4 ∨ j.kind = 5) ∧ j.code = 0 then t.shardArrived j else (t, j.code)).1 := by
    split
    · exact good_shardArrived ht
    · exact ht
  split
  next u code he =>
  rw [he] at harrived
  extract_lets code j x w completed written freed counted reported signalled
  have hcounted : Good s0 counted := good_setRegI (good_setChan (good_writeBack harrived))
  have hreported : Good s0 reported := good_ite hcounted (good_raise hcounted)
  exact good_settleSlot (good_ite (good_msi hreported) hreported)

theorem good_execChannelEnable {v : Word} (hg : Good s0 s) : GoodRes s0 (execChannelEnable p v s) :=
  goodRes_next.2 (good_ite (good_writeChcfg hg) hg)

theorem good_execOpenStream (hg : Good s0 s) : GoodRes s0 (execOpenStream p s) :=
  goodRes_next.2 (good_onRequest hg fun _ _ ht => good_ite (good_setStream (good_resetConfig ht)) (good_badReq ht))

theorem good_execAppend {listBad : Bool} (hg : Good s0 s) : GoodRes s0 (execAppend p listBad s) := by
  refine goodRes_next.2 (good_onRequest hg fun t r ht => good_onOwnStream ht fun u hu => ?_)
  extract_lets i x vocab a
  split
  · exact good_badReq (good_ite (good_logRefused hu) hu)
  · exact good_ite (good_badReq hu) (good_ite (good_status hu) (good_putStream hu))

theorem good_execTruncate (hg : Good s0 s) : GoodRes s0 (execTruncate p s) :=
  goodRes_next.2 (good_onRequest hg fun _ _ ht => good_onOwnStream ht fun _ hu => good_resync (good_setStream (good_rollback hu)))

theorem good_execClose (hg : Good s0 s) : GoodRes s0 (execClose p s) :=
  goodRes_next.2 (good_onRequest hg fun _ _ ht => good_onOwnStream ht fun _ hu => good_freeStream (good_status hu))

theorem good_execAttachKv (hg : Good s0 s) : GoodRes s0 (execAttachKv p s) := by
  refine goodRes_next.2 (good_onRequest hg fun t r ht => good_onOwnStream ht fun u hu => ?_)
  extract_lets i n
  split
  · exact good_status hu
  next v he =>
  have hv : Good s0 v := good_reserve he hu
  exact good_ite (good_shipDone (good_setStream hv)) (good_setStream hv)

theorem good_execResume (hg : Good s0 s) : GoodRes s0 (execResume p s) :=
  goodRes_next.2 (good_onRequest hg fun _ _ ht => good_onOwnStream ht fun _ hu => good_lift hu)

theorem good_execShip (hg : Good s0 s) : GoodRes s0 (execShip p s) :=
  goodRes_next.2 (good_onRequest hg fun _ _ ht => good_onOwnStream ht fun _ hu => good_setStream hu)

theorem good_execOutputRecordWrite (hg : Good s0 s) : GoodRes s0 (execOutputRecordWrite p s) := by
  refine goodRes_next.2 ?_
  extract_lets x w
  split
  · exact hg
  refine good_ite hg (good_ite (good_ringFailed hg) (good_ite hg ?_))
  extract_lets t u
  have hu : Good s0 u := good_setPort (good_tierWrite hg)
  exact good_ite (good_msi hu) hu

theorem good_execOutputIrqTimer (hg : Good s0 s) : GoodRes s0 (execOutputIrqTimer p s) :=
  goodRes_next.2 (good_ite hg (good_msi (good_setPort hg)))

theorem good_execShipmentRecordSend {st : StreamId} (hg : Good s0 s) : GoodRes s0 (execShipmentRecordSend st s) := by
  refine goodRes_next.2 ?_
  extract_lets x
  split
  · exact hg
  · exact good_ite hg (good_setStream (good_sendShipped hg))

theorem good_execShipmentAcknowledgement {st : StreamId} {seqn : BitVec 24} {refused : Bool} (hg : Good s0 s) :
    GoodRes s0 (execShipmentAcknowledgement st seqn refused s) := by
  refine goodRes_next.2 ?_
  extract_lets x n
  split
  · exact hg
  · exact good_ite hg (good_ite (good_ite (good_setStream hg) (good_shipEnds hg))
      (good_ite (good_shipEnds (good_setStream hg)) (good_setStream hg)))

theorem good_execShipRetry {st : StreamId} (hg : Good s0 s) : GoodRes s0 (execShipRetry st s) := by
  refine goodRes_next.2 ?_
  extract_lets x
  split
  · exact hg
  · exact good_ite hg (good_ite (good_shipEnds hg) (good_setStream (good_sendShipped hg)))

theorem good_execShipAckTimeout {st : StreamId} (hg : Good s0 s) : GoodRes s0 (execShipAckTimeout st s) := by
  refine goodRes_next.2 ?_
  split
  · exact hg
  · exact good_ite hg (good_shipEnds hg)

theorem good_execKvShipmentRecord {record : List Byte} (hg : Good s0 s) : GoodRes s0 (execKvShipmentRecord record s) := by
  refine goodRes_next.2 ?_
  extract_lets w st src seqn l h j total body x k dlb home place
  clear_value place
  split
  · exact hg
  extract_lets refuse
  have hrefuse : ∀ t, Good s0 t → Good s0 (refuse t) := fun _ ht => good_ackShipment ht
  refine good_ite (good_sendPieces hg) ?_
  split
  · exact hrefuse _ hg
  refine good_ite (hrefuse _ hg) (good_ite (hrefuse _ (good_shipFails hg)) ?_)
  split
  · exact hrefuse _ (good_shipFails hg)
  refine good_ite (good_ackShipment hg) ?_
  extract_lets _ t u
  have hu : Good s0 u := good_ackShipment (good_setStream (good_landPage hg))
  exact good_ite (good_shipDone hu) hu

theorem good_execShipPageTimeout {st : StreamId} (hg : Good s0 s) : GoodRes s0 (execShipPageTimeout st s) :=
  goodRes_next.2 (good_ite (good_shipFails hg) hg)

theorem good_execHdmDecoderCommit {size ways gran : Nat} {lock : Bool} (hg : Good s0 s) :
    GoodRes s0 (execHdmDecoderCommit p size ways gran lock s) :=
  goodRes_next.2 (good_ite hg (good_ite (good_setPort hg) (good_setPort hg)))

theorem good_execHostMemRead {offset : BitVec 40} {e : EccOutcome} {linkErr : Bool} (hg : Good s0 s) :
    GoodRes s0 (execHostMemRead p offset e linkErr s) := by
  unfold execHostMemRead
  split
  · exact goodRes_fault _
  · have ht : Good s0 (s.linkErred p linkErr) := good_linkErred hg
    exact goodRes_next.2 (good_ite (good_refuseRead ht) (good_setPort (good_ite (good_correctUnit ht) ht)))

theorem good_execHostMemWrite {offset : BitVec 40} {data : List Byte} {linkErr : Bool} (hg : Good s0 s) :
    GoodRes s0 (execHostMemWrite p offset data linkErr s) := by
  unfold execHostMemWrite
  split
  · exact goodRes_fault _
  · exact goodRes_next.2 (good_ite (good_linkErred hg) (good_tierWrite (good_linkErred hg)))

theorem good_execTake {otherDownMs : Nat} (hg : Good s0 s) : GoodRes s0 (execTake p otherDownMs s) :=
  goodRes_next.2 (good_ite (good_takePart hg) hg)

theorem good_execReturnPart (hg : Good s0 s) : GoodRes s0 (execReturnPart p s) := goodRes_next.2 (good_ite (good_returnPart hg) hg)

theorem good_execRingEnable {k : RingKind} {v : Word} (hg : Good s0 s) : GoodRes s0 (execRingEnable p k v s) :=
  goodRes_next.2 (good_ite (good_writeRing hg) hg)

theorem good_execRequestRingPoll {readBad : Bool} (hg : Good s0 s) : GoodRes s0 (execRequestRingPoll p readBad s) := by
  refine goodRes_next.2 (good_ite hg (good_ite (good_ringFailed hg) (good_ite hg ?_)))
  have ht : ∀ a w y, Good s0 (State.setPort { s with hbm := Memory.setWord s.hbm a w } p y) :=
    fun _ w _ => good_setPort (good_mk_hbm hg (Memory.wf_setWord w hg.inv.hbm))
  exact good_ite (good_setPort (ht _ _ _)) (good_badReq (ht _ _ _))

theorem good_execConventionalReset {cause : PortResetCause} (hg : Good s0 s) : GoodRes s0 (execConventionalReset p cause s) := by
  refine goodRes_next.2 ?_
  extract_lets t u
  have ht : Good s0 t := good_disableRings (good_stopChannels hg)
  have hu : Good s0 u := by
    cases cause with
    | perst => exact good_linkTo ht
    | hotReset => exact good_ite (good_linkTo ht) ht
    | linkDown => exact good_ite (good_linkTo ht) ht
  exact good_setPort hu

theorem good_execFlr (hg : Good s0 s) : GoodRes s0 (execFlr p s) := goodRes_next.2 (good_setPort (good_disableRings (good_stopChannels hg)))

theorem good_execPortLeavesReset (hg : Good s0 s) : GoodRes s0 (execPortLeavesReset p s) := goodRes_next.2 (good_ite (good_setPort hg) hg)

theorem good_execLinkInL0 {width : BitVec 8} {speed : BitVec 4} (hg : Good s0 s) : GoodRes s0 (execLinkInL0 p width speed s) :=
  goodRes_next.2 (good_ite (good_setPort hg) hg)

theorem good_execCfgReady (hg : Good s0 s) : GoodRes s0 (execCfgReady p s) := goodRes_next.2 (good_ite (good_setPort hg) hg)

theorem good_execIdentifyMemoryDevice (hg : Good s0 s) : GoodRes s0 (execIdentifyMemoryDevice p s) :=
  goodRes_next.2 (good_ite hg (good_setPort (good_drawn hg)))

theorem good_execGetEventRecords (hg : Good s0 s) : GoodRes s0 (execGetEventRecords p s) :=
  goodRes_next.2 (good_mailbox hg fun _ ht => good_setPort ht)

theorem good_execClearEventRecords {handles : List Nat} (hg : Good s0 s) : GoodRes s0 (execClearEventRecords p handles s) :=
  goodRes_next.2 (good_mailbox hg fun _ ht => good_setPort ht)

theorem good_execGetHealthInfo (hg : Good s0 s) : GoodRes s0 (execGetHealthInfo p s) :=
  goodRes_next.2 (good_mailbox hg fun _ ht => good_setPort (good_drawn ht))

theorem good_execGetAlertConfiguration (hg : Good s0 s) : GoodRes s0 (execGetAlertConfiguration p s) :=
  goodRes_next.2 (good_mailbox hg fun _ ht => good_setPort ht)

theorem good_execSetAlertConfiguration {config : List Byte} (hg : Good s0 s) : GoodRes s0 (execSetAlertConfiguration p config s) :=
  goodRes_next.2 (good_mailbox hg fun _ ht => good_setPort ht)

end

section
/-! The links between modules, power, clocks, residency and the first second. -/

variable {s0 s : State} {z b : Berth}

theorem good_execAdmissionWave {w : Fin 14} (hg : Good s0 s) : GoodRes s0 (execAdmissionWave w s) :=
  goodRes_next.2 (good_ite hg (good_foldl _ hg fun _ _ ht => good_ite (good_setZport ht) ht))

theorem good_execLaneLock (hg : Good s0 s) : GoodRes s0 (execLaneLock z s) :=
  goodRes_next.2 (good_ite (good_sendIdent (good_setZport hg)) hg)

theorem good_execCheckRetry (hg : Good s0 s) : GoodRes s0 (execCheckRetry z s) :=
  goodRes_next.2 (good_ite (good_sendIdent (good_setZport hg)) hg)

theorem good_execIdent {partner : PartnerIdent} {delay : BitVec 16} (hg : Good s0 s) : GoodRes s0 (execIdent z partner delay s) :=
  goodRes_next.2 (good_ite hg (good_ite (good_setZport (good_setReg hg)) (good_raise (good_setZport (good_setReg hg)))))

theorem good_execLossOfSignal (hg : Good s0 s) : GoodRes s0 (execLossOfSignal z s) := goodRes_next.2 (good_leaveUp hg)

theorem good_execGoingDown (hg : Good s0 s) : GoodRes s0 (execGoingDown z s) := goodRes_next.2 (good_fromPort hg fun _ => good_leaveUp)

theorem good_execFlitReplay {received : List (BitVec 10)} {frame : List Byte} (hg : Good s0 s) :
    GoodRes s0 (execFlitReplay z received frame s) := by
  refine goodRes_next.2 (good_ite hg ?_)
  split
  · exact good_flitFailed (good_countSat hg)
  · extract_lets t
    have ht : Good s0 t := good_ite hg (good_raise (good_countSat hg))
    exact good_ite ht (good_flitFailed ht)

theorem good_execAck {seq : BitVec 12} (hg : Good s0 s) : GoodRes s0 (execAck z seq s) :=
  goodRes_next.2 (good_ite hg (good_ite (good_setZport hg)
    (good_sendWaiting (good_foldl _ (good_setZport hg) fun _ _ => good_dropPacket))))

theorem good_execCredit {response gen : Bool} {n : Nat} (hg : Good s0 s) : GoodRes s0 (execCredit z response gen n s) :=
  goodRes_next.2 (good_fromPort hg fun _ ht => good_setZport ht)

theorem good_execZhozaPacketForward {pkt : ZhozaPacket} (hg : Good s0 s) : GoodRes s0 (execZhozaPacketForward pkt s) := by
  cases pkt with
  | held id => exact goodRes_next.2 (good_sendOut hg)
  | received z h payload => exact goodRes_next.2 (good_fromPort hg fun _ => good_takeIn)

theorem good_execForwardWindowEnd (hg : Good s0 s) : GoodRes s0 (execForwardWindowEnd s) :=
  goodRes_next.2 (good_ite hg (good_foldl _ (good_mk.2 hg) fun _ _ ht => good_failRequest (good_dropPacket ht)))

theorem good_execGenFlipWrite {v : Word} (hg : Good s0 s) : GoodRes s0 (execGenFlipWrite b v s) := goodRes_next.2 (good_ite (good_writeGen hg) hg)

theorem good_execFlip {g : BitVec 8} (hg : Good s0 s) : GoodRes s0 (execFlip z g s) :=
  goodRes_next.2 (good_fromPort hg fun _ ht => good_ite (good_flipTo ht) ht)

theorem good_execDrain {g : BitVec 8} {count : Nat} {arrival : Bool} (hg : Good s0 s) : GoodRes s0 (execDrain z g count arrival s) :=
  goodRes_next.2 (good_fromPort hg fun _ ht => good_ite ht (good_ite (good_ite (good_roundDone ht) (good_askDrain ht))
    (good_ite (good_ite (good_roundDone (good_mk.2 ht)) (good_mk.2 ht)) ht)))

theorem good_execBankRelease {g : BitVec 8} (hg : Good s0 s) : GoodRes s0 (execBankRelease z g s) :=
  goodRes_next.2 (good_fromPort hg fun _ ht => good_ite (good_releaseBank ht) ht)

theorem good_execChamois {m : SliceMsg} (hg : Good s0 s) : GoodRes s0 (execChamois z m s) := by
  refine goodRes_next.2 (good_fromPort hg fun t ht => ?_)
  cases m with
  | arrive => exact good_ite (good_passUp (good_mk.2 ht)) ht
  | release => exact good_ite ht (good_ite (good_sendDown (good_mk.2 ht)) (good_ite ht (good_mk.2 ht)))
  | abort => exact good_sliceAbort ht
  | fault => exact good_ite (good_sendUp ht) (good_mk.2 ht)
  | time t ns => exact good_ite (good_sliceTime ht) ht
  | go => exact good_ite (good_sendDown ht) ht
  | point d p => exact good_ite (good_sendDown ht) ht
  | late c => exact good_ite (good_sendDown ht) ht

theorem good_execBerHigh (hg : Good s0 s) : GoodRes s0 (execBerHigh z s) := goodRes_next.2 (good_ite (good_raise hg) hg)

theorem good_execPlateHeartbeat (hg : Good s0 s) : GoodRes s0 (execPlateHeartbeat s) := goodRes_next.2 (good_ite (good_mk.2 hg) hg)

theorem good_execPlateLink (hg : Good s0 s) : GoodRes s0 (execPlateLink s) := goodRes_next.2 (good_ite (good_raise (good_mk.2 hg)) hg)

theorem good_execPhase2Timeout {n : Basin} (hg : Good s0 s) : GoodRes s0 (execPhase2Timeout n s) := goodRes_next.2 (good_ite (good_mk.2 hg) hg)

theorem good_execUnderv {n : Basin} {mv : BitVec 10} (hg : Good s0 s) : GoodRes s0 (execUnderv n mv s) :=
  goodRes_next.2 (good_ite hg (good_ite (good_raise (good_seeRail hg)) (good_seeRail hg)))

theorem good_execWake {sum : Nat} (hg : Good s0 s) : GoodRes s0 (execWake b sum s) :=
  goodRes_next.2 (good_ite hg (good_ite (good_setBerth (store_ok hg) hg) (good_beginRamp hg)))

theorem good_execWakeStep {sum : Nat} (hg : Good s0 s) : GoodRes s0 (execWakeStep b sum s) := by
  refine goodRes_next.2 (good_ite hg ?_)
  split
  · exact good_ite (good_beginRamp hg) (good_ite (good_beginRamp hg) (good_setBerth (store_ok hg) hg))
  · exact good_endWake (good_setLdiv hg)

theorem good_execIdleGating (hg : Good s0 s) : GoodRes s0 (execIdleGating s) :=
  goodRes_next.2 (good_ite hg (good_foldl _ hg fun _ _ ht => good_ite (good_gateBerth ht) ht))

theorem good_execSpareBist {ok : Bool} (hg : Good s0 s) : GoodRes s0 (execSpareBist b ok s) :=
  goodRes_next.2 (good_ite (good_gateBerth (good_setBerth rfl hg)) hg)

theorem good_execZoneOc {y : Fin 6} (hg : Good s0 s) : GoodRes s0 (execZoneOc y s) :=
  goodRes_next.2 (good_ite hg (good_foldl _ (good_retarget (good_setHalf hg)) fun _ _ => good_raise))

theorem good_execZoneOcRelease {y : Fin 6} (hg : Good s0 s) : GoodRes s0 (execZoneOcRelease y s) :=
  goodRes_next.2 (good_retarget (good_setHalf hg))

theorem good_execPowerControlSample {m : PowerSample} (hg : Good s0 s) : GoodRes s0 (execPowerControlSample m s) := by
  refine goodRes_next.2 (good_ite hg ?_)
  extract_lets r _ _ u t
  have ht : Good s0 t := good_recordDrops (good_mk.2 (good_setReg hg))
  refine good_ite (good_powerUp ht) ?_
  split
  · exact ht
  split
  · exact ht
  · exact good_ite (good_askPower (good_mk.2 ht)) ht

theorem good_execRefLoss (hg : Good s0 s) : GoodRes s0 (execRefLoss s) := goodRes_next.2 (good_ite (good_refGone hg) hg)

theorem good_execRefDev {ppm : BitVec 16} (hg : Good s0 s) : GoodRes s0 (execRefDev ppm s) := by
  refine goodRes_next.2 (good_ite hg ?_)
  extract_lets n r t
  have ht : Good s0 t := good_ite (good_raise (good_setReg hg)) (good_setReg hg)
  exact good_ite (good_refGone ht) (good_ite (good_lockClocks (good_mk.2 ht)) (good_mk.2 ht))

theorem good_execOpenLoad {p : HostPort} (hg : Good s0 s) : GoodRes s0 (execOpenLoad p s) := goodRes_next.2 (good_ite (good_openLoad hg) hg)

theorem good_execCommit {p : HostPort} (hg : Good s0 s) : GoodRes s0 (execCommit p s) := goodRes_next.2 (good_ite (good_commitSlot hg) hg)

theorem good_execUnload {p : HostPort} (hg : Good s0 s) : GoodRes s0 (execUnload p s) := goodRes_next.2 (good_ite (good_unload hg) hg)

theorem good_execOpenStage {p : HostPort} (hg : Good s0 s) : GoodRes s0 (execOpenStage p s) := goodRes_next.2 (good_ite (good_openStage hg) hg)

theorem good_execSwap {p : HostPort} (hg : Good s0 s) : GoodRes s0 (execSwap p s) := goodRes_next.2 (good_ite (good_swap hg) hg)

theorem good_execAbandon {p : HostPort} (hg : Good s0 s) : GoodRes s0 (execAbandon p s) := goodRes_next.2 (good_ite (good_abandon hg) hg)

theorem good_execCopyStep (hg : Good s0 s) : GoodRes s0 (execCopyStep s) := by
  refine goodRes_next.2 ?_
  split
  · exact hg
  extract_lets x running
  refine good_ite hg ?_
  split
  · exact hg
  · exact good_mk.2 (good_foldl _ hg fun _ _ => good_writeInputs)

theorem good_execRehashPass {o : Option (Fin 80)} {slot : ImageSlot} {badParts : List Nat} (hg : Good s0 s) :
    GoodRes s0 (execRehashPass o slot badParts s) := by
  refine goodRes_next.2 (good_ite hg ?_)
  split
  · exact hg
  · exact good_ite (good_setImage hg) (good_raise (good_setImage hg))

theorem good_execMctpReset (hg : Good s0 s) : GoodRes s0 (execMctpReset s) :=
  goodRes_next.2 (good_ite hg (good_ite (good_startWarm (good_mk.2 hg)) (good_mk.2 hg)))

theorem good_execBrownOut (n : Basin) (hg : Good s0 s) : GoodRes s0 (execBrownOut n s) := goodRes_next.2 (good_ite (good_wiped hg) hg)

theorem good_execColdPowerUp {straps : BitVec 4} {plate : Bool} (hg : Good s0 s) : GoodRes s0 (execColdPowerUp straps plate s) :=
  goodRes_next.2 (good_ite hg (good_harboursUp (good_setReg (good_onStage (good_mk.2 (good_wiped hg))))))

theorem good_execWarmT0 {straps : BitVec 4} (hg : Good s0 s) : GoodRes s0 (execWarmT0 straps s) := by
  refine goodRes_next.2 (good_ite hg ?_)
  extract_lets _ w
  have hw : Good s0 w := good_harboursUp (good_mk.2 (good_keptWarm hg))
  exact good_ite (good_suddenStop hw) hw

theorem good_execFirmwareBoot (hg : Good s0 s) : GoodRes s0 (execFirmwareBoot s) := by
  refine goodRes_next.2 (good_ite hg ?_)
  extract_lets b
  split
  next hb => exact good_runFirmware hb hg
  split
  next hb => exact good_raise (good_runFirmware hb hg)
  exact good_mk.2 hg

theorem good_execBasinWave {w : Fin 12} (hg : Good s0 s) : GoodRes s0 (execBasinWave w s) :=
  goodRes_next.2 (good_ite hg (good_goOn (good_foldl _ hg fun _ _ => good_basinUp)))

theorem good_execBistTrainingDone {x : TrainSubject} {ok : Bool} (hg : Good s0 s) : GoodRes s0 (execBistTrainingDone x ok s) := by
  refine goodRes_next.2 (good_ite hg ?_)
  cases x with
  | berth b => exact good_ite hg (good_goOn (good_setBerth rfl hg))
  | stack k => exact good_ite hg (good_goOn (good_setStack (good_ite hg (good_raise hg))))

theorem good_execMemActive (hg : Good s0 s) : GoodRes s0 (execMemActive s) :=
  goodRes_next.2 (good_ite hg (good_mk_hbm hg (Sparse.wf_filter _ hg.inv.hbm)))

theorem good_execModuleReady {ms : BitVec 16} (hg : Good s0 s) : GoodRes s0 (execModuleReady ms s) :=
  goodRes_next.2 (good_ite hg (good_ite (good_msiFault (good_raise (good_mk.2 hg))) (good_ite (good_standing (good_mk.2 hg)) (good_mk.2 hg))))

end

section
/-! The root of trust and register writes. -/

variable {s0 s : State}

theorem good_execAttestationRequest {nonce : List Byte} (hg : Good s0 s) : GoodRes s0 (execAttestationRequest nonce s) := by
  refine goodRes_next.2 (good_ite hg (good_ite (good_mk.2 hg) ?_))
  extract_lets t
  have ht : Good s0 t := good_mk.2 hg
  exact good_ite ht (good_ite (good_raise ht) (good_ite (good_signWaiting ((good_mk_svn (by rfl)).2 ht)) (good_reserveBlock ht)))

theorem good_execIndexReservationAck {ok : Bool} (hg : Good s0 s) : GoodRes s0 (execIndexReservationAck ok s) :=
  goodRes_next.2 (good_ite hg (good_ite (good_signWaiting ((good_mk_svn (by rfl)).2 hg)) (good_raise ((good_mk_svn (by rfl)).2 (good_drawn hg)))))

theorem good_execBottomTreeReady (hg : Good s0 s) : GoodRes s0 (execBottomTreeReady s) :=
  goodRes_next.2 (good_ite (good_signWaiting ((good_mk_svn (by rfl)).2 hg)) hg)

theorem good_execDebugToken {token : List Byte} (hg : Good s0 s) : GoodRes s0 (execDebugToken token s) :=
  goodRes_next.2 (good_ite hg (good_ite (good_drawn ((good_mk_svn (by rfl)).2 hg)) (good_raise hg)))

theorem good_execFirmwareUpdate {copy : List Byte} {complete : Bool} (hg : Good s0 s) : GoodRes s0 (execFirmwareUpdate copy complete s) :=
  goodRes_next.2 (good_ite hg (good_ite (good_mk.2 (good_writeCopy hg)) (good_writeCopy hg)))

theorem good_execKvBaseWrite {b : Berth} {v : Word} (hg : Good s0 s) : GoodRes s0 (execKvBaseWrite b v s) :=
  goodRes_next.2 (good_ite (good_writeKvBase hg) hg)

theorem good_execErrStsClear {addr : Nat} {v : Word} (hg : Good s0 s) : GoodRes s0 (execErrStsClear addr v s) := by
  refine goodRes_next.2 ?_
  split
  · exact good_ite (good_clearErrors hg) hg
  · exact hg

theorem good_execInject {addr : Nat} {v : Word} (hg : Good s0 s) : GoodRes s0 (execInject addr v s) := by
  refine goodRes_next.2 ?_
  split
  · exact good_ite (good_writeCtl hg) hg
  · exact hg

theorem good_execVminRestart {n : Basin} (v : Word) (hg : Good s0 s) : GoodRes s0 (execVminRestart n v s) :=
  goodRes_next.2 (good_ite (good_restartVmin hg) hg)

theorem good_execRegisterWrite {p : HostPort} {addr size : Nat} {enables : Bool} {data : Dword} (hg : Good s0 s) :
    GoodRes s0 (execRegisterWrite p addr size enables data s) :=
  goodRes_next.2 (good_whenOn hg fun _ ht => good_ite ht (good_ite (good_raise ht) (good_ite (good_raise ht) (good_writeWords ht))))

theorem good_execPoint {n : ChNode} {addr : Nat} {value : Word} {resent : Bool} (hg : Good s0 s) :
    GoodRes s0 (execPoint n addr value resent s) := by
  refine goodRes_next.2 (good_whenOn hg fun t ht => ?_)
  split
  · exact ht
  · exact good_ite ht (good_writeWord (good_resendFlit ht))

end

/-- Every command keeps a run good. -/
theorem good_exec {s0 s : State} (c : Instr) (hg : Good s0 s) : GoodRes s0 (exec c s) := match c with
  | .nop .. => good_execNop hg
  | .add .. => goodRes_next.2 (good_alu hg)
  | .sub .. => goodRes_next.2 (good_alu hg)
  | .and .. => goodRes_next.2 (good_alu hg)
  | .or .. => goodRes_next.2 (good_alu hg)
  | .xor .. => goodRes_next.2 (good_alu hg)
  | .sll .. => goodRes_next.2 (good_alu hg)
  | .srl .. => goodRes_next.2 (good_alu hg)
  | .sra .. => goodRes_next.2 (good_alu hg)
  | .slt .. => goodRes_next.2 (good_alu hg)
  | .sltu .. => goodRes_next.2 (good_alu hg)
  | .mul .. => goodRes_next.2 (good_alu hg)
  | .addi .. => goodRes_next.2 (good_alu hg)
  | .andi .. => goodRes_next.2 (good_alu hg)
  | .ori .. => goodRes_next.2 (good_alu hg)
  | .lui .. => goodRes_next.2 (good_alu hg)
  | .slli .. => goodRes_next.2 (good_alu hg)
  | .srli .. => goodRes_next.2 (good_alu hg)
  | .srai .. => goodRes_next.2 (good_alu hg)
  | .gld .. => good_execGld hg
  | .gst .. => good_execGst hg
  | .beq .. => goodRes_next.2 (good_branch hg)
  | .bne .. => goodRes_next.2 (good_branch hg)
  | .blt .. => goodRes_next.2 (good_branch hg)
  | .bge .. => goodRes_next.2 (good_branch hg)
  | .bltu .. => goodRes_next.2 (good_branch hg)
  | .send .. => good_execSend hg
  | .cancel .. => good_execCancel hg
  | .await .. => good_execAwait hg
  | .awaitReturn .. => good_execAwaitReturn hg
  | .dwait .. => good_execDwait hg
  | .dwaitReturn .. => good_execDwaitReturn hg
  | .spar .. => good_execSpar hg
  | .endBlock .. => good_execEndBlock hg
  | .barrierArrival .. => good_execBarrierArrival hg
  | .mcfg .. => good_execMcfg hg
  | .mtile .. => good_execMtile hg
  | .attemptTrouble .. => good_execAttemptTrouble hg
  | .tileComplete .. => good_execTileComplete hg
  | .vadd .. => goodRes_next.2 (good_vop hg)
  | .vsub .. => goodRes_next.2 (good_vop hg)
  | .vmul .. => goodRes_next.2 (good_vop hg)
  | .vfma .. => goodRes_next.2 (good_vop hg)
  | .vmax .. => goodRes_next.2 (good_vop hg)
  | .vmin .. => goodRes_next.2 (good_vop hg)
  | .vexp .. => goodRes_next.2 (good_vop hg)
  | .vrcp .. => goodRes_next.2 (good_vop hg)
  | .vrsq .. => goodRes_next.2 (good_vop hg)
  | .vrsum .. => goodRes_next.2 (good_vop hg)
  | .vrmax .. => goodRes_next.2 (good_vop hg)
  | .vsplat .. => goodRes_next.2 (good_vop hg)
  | .vld .. => good_execVld hg
  | .vst .. => good_execVst hg
  | .vqnt .. => good_execVqnt hg
  | .xrd .. => good_execXrd hg
  | .xwr .. => good_execXwr hg
  | .dreq .. => good_execDreq hg
  | .dynResponseDelivery .. => good_execDynResponseDelivery hg
  | .slotIssue .. => good_execSlotIssue hg
  | .slotLanding .. => good_execSlotLanding hg
  | .dynamicUnitIssue .. => good_execDynamicUnitIssue hg
  | .unitRetry .. => good_execUnitRetry hg
  | .ringHop .. => good_execRingHop hg
  | .deliveryHop .. => good_execDeliveryHop hg
  | .packetArrival .. => good_execPacketArrival hg
  | .arrive .. => good_execArrive hg
  | .release .. => good_execRelease hg
  | .abort => good_execAbort hg
  | .go => good_execGo hg
  | .fault => good_execFault hg
  | .timeBroadcast => good_execTimeBroadcast hg
  | .time .. => good_execTime hg
  | .point .. => good_execPoint hg
  | .barrierTimerExpiry => good_execBarrierTimerExpiry hg
  | .late => good_execLate hg
  | .treeLinkFail .. => good_execTreeLinkFail hg
  | .epochWatchdog => good_execEpochWatchdog hg
  | .storeReadArrival .. => good_execStoreReadArrival hg
  | .mergeWindowEnd .. => good_execMergeWindowEnd hg
  | .storeLineReturn .. => good_execStoreLineReturn hg
  | .refillWrite .. => good_execRefillWrite hg
  | .refresh .. => good_execRefresh hg
  | .refreshDeadline .. => good_execRefreshDeadline hg
  | .targetedRefresh .. => good_execTargetedRefresh hg
  | .patrolScrubRead _ _ _ overwritten => good_execPatrolScrubRead overwritten hg
  | .scrubPreempt _ bank => good_execScrubPreempt bank hg
  | .holdTimeout .. => good_execHoldTimeout hg
  | .rowSpared .. => good_execRowSpared hg
  | .hbmRefreshDeadline .. => goodRes_next.2 hg
  | .zqCalibration .. => goodRes_next.2 hg
  | .hbmPatrolScrub .. => good_execHbmPatrolScrub hg
  | .deviceStackRequest .. => good_execDeviceStackRequest hg
  | .pageRetire .. => good_execPageRetire hg
  | .hostMemRead .. => good_execHostMemRead hg
  | .hostMemWrite .. => good_execHostMemWrite hg
  | .choosePhase .. => good_execChoosePhase hg
  | .preparePhase .. => good_execPreparePhase hg
  | .stepCommit .. => good_execStepCommit hg
  | .prefixInsertResume .. => good_execPrefixInsertResume hg
  | .nodeRemoval .. => good_execNodeRemoval hg
  | .locChange .. => good_execLocChange hg
  | .demotionCopyDone .. => good_execDemotionCopyDone hg
  | .readPage .. => good_execReadPage hg
  | .openStream .. => good_execOpenStream hg
  | .append .. => good_execAppend hg
  | .truncate .. => good_execTruncate hg
  | .close .. => good_execClose hg
  | .attachKv .. => good_execAttachKv hg
  | .resume .. => good_execResume hg
  | .ship .. => good_execShip hg
  | .outputRecordWrite .. => good_execOutputRecordWrite hg
  | .outputIrqTimer .. => good_execOutputIrqTimer hg
  | .shipmentRecordSend .. => good_execShipmentRecordSend hg
  | .kvShipmentRecord .. => good_execKvShipmentRecord hg
  | .shipmentAcknowledgement .. => good_execShipmentAcknowledgement hg
  | .shipRetry .. => good_execShipRetry hg
  | .shipAckTimeout .. => good_execShipAckTimeout hg
  | .shipPageTimeout .. => good_execShipPageTimeout hg
  | .grammarBind .. => good_execGrammarBind hg
  | .grammarCheckDone .. => good_execGrammarCheckDone hg
  | .sgstateReset .. => good_execSgstateReset hg
  | .spcntClear .. => good_execSpcntClear hg
  | .penEnWrite .. => good_execPenEnWrite hg
  | .descriptorPoll .. => good_execDescriptorPoll hg
  | .copyIn .. => good_execCopyIn hg
  | .copyOut .. => good_execCopyOut hg
  | .manifest .. => good_execManifest hg
  | .shard .. => good_execShard hg
  | .peerShard .. => good_execPeerShard hg
  | .program .. => good_execProgram hg
  | .lighterBurst .. => good_execLighterBurst hg
  | .descriptorComplete .. => good_execDescriptorComplete hg
  | .openLoad .. => good_execOpenLoad hg
  | .commit .. => good_execCommit hg
  | .unload .. => good_execUnload hg
  | .openStage .. => good_execOpenStage hg
  | .swap .. => good_execSwap hg
  | .abandon .. => good_execAbandon hg
  | .copyStep => good_execCopyStep hg
  | .rehashPass .. => good_execRehashPass hg
  | .trainingBurst .. => goodRes_next.2 hg
  | .admissionWave .. => good_execAdmissionWave hg
  | .ident .. => good_execIdent hg
  | .checkRetry .. => good_execCheckRetry hg
  | .flitReplay .. => good_execFlitReplay hg
  | .lossOfSignal .. => good_execLossOfSignal hg
  | .chamois .. => good_execChamois hg
  | .ack .. => good_execAck hg
  | .credit .. => good_execCredit hg
  | .goingDown .. => good_execGoingDown hg
  | .forwardWindowEnd => good_execForwardWindowEnd hg
  | .genFlipWrite .. => good_execGenFlipWrite hg
  | .flip .. => good_execFlip hg
  | .drain .. => good_execDrain hg
  | .bankRelease .. => good_execBankRelease hg
  | .zhozaPacketForward .. => good_execZhozaPacketForward hg
  | .laneRecalibration .. => goodRes_next.2 hg
  | .linkRecalibration .. => goodRes_next.2 hg
  | .telemetrySample => goodRes_next.2 hg
  | .hdmDecoderCommit .. => good_execHdmDecoderCommit hg
  | .take .. => good_execTake hg
  | .returnPart .. => good_execReturnPart hg
  | .ringEnable .. => good_execRingEnable hg
  | .channelEnable .. => good_execChannelEnable hg
  | .requestRingPoll .. => good_execRequestRingPoll hg
  | .conventionalReset .. => good_execConventionalReset hg
  | .flr .. => good_execFlr hg
  | .portLeavesReset .. => good_execPortLeavesReset hg
  | .identifyMemoryDevice .. => good_execIdentifyMemoryDevice hg
  | .getEventRecords .. => good_execGetEventRecords hg
  | .clearEventRecords .. => good_execClearEventRecords hg
  | .getHealthInfo .. => good_execGetHealthInfo hg
  | .getAlertConfiguration .. => good_execGetAlertConfiguration hg
  | .setAlertConfiguration .. => good_execSetAlertConfiguration hg
  | .mctpReset => good_execMctpReset hg
  | .modResetN => goodRes_next.2 (good_startWarm hg)
  | .warmT0 .. => good_execWarmT0 hg
  | .coldPowerUp .. => good_execColdPowerUp hg
  | .brownOut n => good_execBrownOut n hg
  | .firmwareBoot => good_execFirmwareBoot hg
  | .basinWave .. => good_execBasinWave hg
  | .bistTrainingDone .. => good_execBistTrainingDone hg
  | .memActive => good_execMemActive hg
  | .moduleReady .. => good_execModuleReady hg
  | .plateHeartbeat => good_execPlateHeartbeat hg
  | .plateLink => good_execPlateLink hg
  | .phase1 .. => goodRes_next.2 (good_losePhase hg)
  | .phase2 .. => goodRes_next.2 (good_losePhase hg)
  | .short .. => goodRes_next.2 (good_latchOff hg)
  | .underv .. => good_execUnderv hg
  | .wake .. => good_execWake hg
  | .wakeStep .. => good_execWakeStep hg
  | .zoneOc .. => good_execZoneOc hg
  | .zoneOcRelease .. => good_execZoneOcRelease hg
  | .powerControlSample .. => good_execPowerControlSample hg
  | .idleGating => good_execIdleGating hg
  | .spareBist .. => good_execSpareBist hg
  | .lockLoss .. => goodRes_next.2 (good_loseLock hg)
  | .refLoss => good_execRefLoss hg
  | .trayRead .. => good_execTrayRead hg
  | .linkLost => good_execLinkLost hg
  | .forecast .. => good_execForecast hg
  | .thermalSiteSample .. => good_execThermalSiteSample hg
  | .pairFault .. => good_execPairFault hg
  | .thermalStepRequest .. => good_execThermalStepRequest hg
  | .thermalStepRelease .. => good_execThermalStepRelease hg
  | .trip .. => good_execTrip hg
  | .orderlyStop => good_execOrderlyStop hg
  | .orderlyResume => good_execOrderlyResume hg
  | .flowAlertN .. => good_execFlowAlertN hg
  | .coolantRecovery => good_execCoolantRecovery hg
  | .railDrop => good_execRailDrop hg
  | .quiesceComplete .. => good_execQuiesceComplete hg
  | .quiesce => good_execQuiesce hg
  | .spareSelftestDone .. => good_execSpareSelftestDone hg
  | .storeMigrationDone .. => good_execStoreMigrationDone hg
  | .restore => good_execRestore hg
  | .moduleFatal => good_execModuleFatal hg
  | .attestationRequest .. => good_execAttestationRequest hg
  | .indexReservationAck .. => good_execIndexReservationAck hg
  | .bottomTreeReady => good_execBottomTreeReady hg
  | .debugToken .. => good_execDebugToken hg
  | .seal .. => goodRes_next.2 (good_writeSeal hg)
  | .svnCommit .. => goodRes_next.2 (good_writeSvn hg)
  | .firmwareUpdate .. => good_execFirmwareUpdate hg
  | .kvBaseWrite .. => good_execKvBaseWrite hg
  | .errStsClear .. => good_execErrStsClear hg
  | .inject .. => good_execInject hg
  | .vminRestart _ v => good_execVminRestart v hg
  | .registerWrite .. => good_execRegisterWrite hg
  | .laneLock .. => good_execLaneLock hg
  | .seamSync .. => good_execSeamSync hg
  | .refDev .. => good_execRefDev hg
  | .phase2Timeout .. => good_execPhase2Timeout hg
  | .heldLineRepaired .. => good_execHeldLineRepaired hg
  | .linkInL0 .. => good_execLinkInL0 hg
  | .cfgReady .. => good_execCfgReady hg
  | .berHigh .. => good_execBerHigh hg

/-- A state that meets the invariant begins a good run. -/
theorem good_self {s : State} (h : Inv s) : Good s s := ⟨⟨rfl, rfl, rfl, rfl, rfl, rfl, rfl, Nat.le_refl _⟩, h⟩

/-- Settles O5: a state that meets the invariant begins a good run, and every command keeps a run good. -/
theorem commandsKeepQueueAndFuses : Obligations.CommandsKeepQueueAndFuses :=
  fun c _ t hs ht => (good_exec c (good_self hs) t ht).kept

/-- Settles O1: both clauses are the two branches of `step`. -/
theorem stepTakesFront : Obligations.StepTakesFront :=
  ⟨fun _ _ => rfl, fun s hs => by simp only [step, hs]⟩

end Sys2Proof.Machine
end

section
/-! PROOF. What the host's register writes do (O59): the laws of the operations behind them, and the statement from these. -/

namespace Sys2Proof.Machine

section
/-! Registers: which reads a write leaves, and what the operations behind the host's writes leave in the register file. -/

variable {s : State}

/-- The offsets of the error registers that an error or a W1C write may change. -/
def errOffsets : List Nat := [0x10, 0x18, 0x1C, 0x20, 0x24]

theorem regKey_mod {b : Blk} {i o : Nat} (ho : o < 0x1000) : regKey b i o % 0x1000 = o := by
  unfold regKey
  have := pageBase_mod b (homeInst b i o)
  omega

theorem errRegs_setReg {b c : Blk} {i k o : Nat} {v : Word} (ho : o < 0x1000) (h : o ∉ errOffsets) :
    (s.setReg c k o v).errRegs b i = s.errRegs b i := by
  have hk := regKey_mod (b := c) (i := k) ho
  have hp := pageBase_mod b i
  have reads : ∀ x ∈ errOffsets, Sparse.get regReset (s.setReg c k o v).regs (pageBase b i + x) = Sparse.get regReset s.regs (pageBase b i + x) := by
    intro x hx
    refine Sparse.get_set_other v _ fun e => h ?_
    have : x < 0x1000 := (show ∀ y ∈ errOffsets, y < 0x1000 by decide) x hx
    have : x = o := by omega
    exact this ▸ hx
  unfold State.errRegs
  simp only [reads _ (show 0x10 ∈ errOffsets by decide), reads _ (show 0x18 ∈ errOffsets by decide), reads _ (show 0x1C ∈ errOffsets by decide),
    reads _ (show 0x20 ∈ errOffsets by decide), reads _ (show 0x24 ∈ errOffsets by decide)]

/-- R492: an error changes no register of a page beside its error registers, save FLT_CNT_CORR. -/
theorem raise_reg_at {b c : Blk} {i k n o : Nat} (ho : o < 0x1000) (h : o ∉ errOffsets) (hf : regKey c k o ≠ 0x5054) :
    (s.raise b i n).reg c k o = s.reg c k o :=
  raise_reg (by rwa [regKey_mod ho]) hf

/-- R220: a misplaced KV_BASE reports its error and stays. -/
theorem writeKvBase_misfit {b : Nat} {v : Word} (hr : Sparse.wf regReset s.regs = true) (h : s.kvBaseFits b v ≠ true) :
    ∃ m f, s.writeKvBase b v = { s with regs := m, flt := f } ∧ ({ s with regs := m } : State).errSet .stor b 7 = true ∧
      ({ s with regs := m } : State).reg .stor b 0x050 = s.reg .stor b 0x050 := by
  have hkey : regKey .stor b 0x050 ≠ 0x5054 := by
    show 0x01000000 + b * 0x00100000 + 0x2000 + 0x050 ≠ 0x5054
    omega
  obtain ⟨m, f, e, herr, -⟩ := raise_sets (b := .stor) (i := b) (n := 7) hr rfl (by decide)
  have hkept : (s.raise .stor b 7).reg .stor b 0x050 = s.reg .stor b 0x050 := raise_reg_at (by decide) (by decide) hkey
  rw [e] at hkept
  exact ⟨m, f, by rw [State.writeKvBase, if_neg h, e], herr, hkept⟩

/-- R81, R195, R219, R222, R395: clearing a page's captures changes registers other than its error registers, and at a core whose BOUNDS bit
is written frees the captured address. -/
theorem clearCaptures_spec (b : Blk) (i : Nat) (v : Word) :
    ∃ m, s.clearCaptures b i v =
        { s with regs := m, boundsHeld := if b = .core ∧ bit v 2 = true then s.boundsHeld.filter (· ≠ i) else s.boundsHeld } ∧
      ({ s with regs := m } : State).errRegs b i = s.errRegs b i := by
  have unchanged : ∃ m, s = { s with regs := m } ∧ ({ s with regs := m } : State).errRegs b i = s.errRegs b i := ⟨s.regs, rfl, rfl⟩
  have one : ∀ (q : Bool) (c : Blk) (o : Nat), o < 0x1000 → o ∉ errOffsets →
      ∃ m, (if q then s.setReg c i o 0 else s) = { s with regs := m } ∧ ({ s with regs := m } : State).errRegs b i = s.errRegs b i := by
    intro q c o ho h
    split
    · exact ⟨_, rfl, errRegs_setReg ho h⟩
    · exact unchanged
  have two : ∀ (q : Bool) (c : Blk) (o o' : Nat), o < 0x1000 → o ∉ errOffsets → o' < 0x1000 → o' ∉ errOffsets →
      ∃ m, (if q then (s.setReg c i o 0).setReg c i o' 0 else s) = { s with regs := m } ∧
        ({ s with regs := m } : State).errRegs b i = s.errRegs b i := by
    intro q c o o' ho h ho' h'
    split
    · exact ⟨_, rfl, (errRegs_setReg ho' h').trans (errRegs_setReg ho h)⟩
    · exact unchanged
  unfold State.clearCaptures
  cases b
  all_goals simp only [reduceCtorEq, false_and, true_and, if_false]
  case core => split <;> exact ⟨s.regs, rfl, rfl⟩
  case chms => exact one _ .chms 0x044 (by decide) (by decide)
  case stor => exact one _ .stor 0x048 (by decide) (by decide)
  case hbmc => exact two _ .hbmc 0x048 0x04C (by decide) (by decide) (by decide) (by decide)
  case cxlp => exact two _ .cxlp 0x060 0x064 (by decide) (by decide) (by decide) (by decide)
  all_goals exact unchanged

/-- R491, R492: a W1C write of ERR_STS. -/
theorem clearErrors_spec (b : Blk) (i : Nat) (v : Word) (hr : Sparse.wf regReset s.regs = true) :
    ∃ m, s.clearErrors b i v =
        { s with regs := m, boundsHeld := if b = .core ∧ bit v 2 = true then s.boundsHeld.filter (· ≠ i) else s.boundsHeld } ∧
      ({ s with regs := m } : State).errRegs b i = (s.errRegs b i).clear v := by
  obtain ⟨m, e, hm⟩ := clearCaptures_spec (s := s.setErrRegs b i ((s.errRegs b i).clear v)) b i v
  exact ⟨m, e, hm.trans (errRegs_setErrRegs hr)⟩

/-- R491: a write of CTL stores INJ_BIT; at debug level 2 INJECT raises that bit. -/
theorem writeCtl_spec (b : Blk) (i : Nat) (v : Word) (hr : Sparse.wf regReset s.regs = true) :
    ∃ m f, s.writeCtl b i v = { s with regs := m, flt := f } ∧
      ({ s with regs := m } : State).reg b i 0x008 = field (bits v 12 8) 8 ∧
      (bit v 0 = true → s.secu.debug = 2 → (errClass b i (bits v 12 8)).isSome = true → ({ s with regs := m } : State).errSet b i (bits v 12 8) = true) ∧
      (bit v 0 = false ∨ s.secu.debug ≠ 2 → f = s.flt ∧ ({ s with regs := m } : State).errRegs b i = s.errRegs b i) := by
  have hn : bits v 12 8 < 32 := bits_lt v 12 8
  obtain ⟨m, e, hm, hreg⟩ := setReg_reads (s := s) b i 0x008 (field (bits v 12 8) 8) hr
  have herr : ({ s with regs := m } : State).errRegs b i = s.errRegs b i := e ▸ errRegs_setReg (by decide) (by decide)
  by_cases hinj : (bit v 0 && s.secu.debug == 2) = true
  · have hw : s.writeCtl b i v = ({ s with regs := m } : State).raise b i (bits v 12 8) := by
      unfold State.writeCtl
      rw [e]
      exact if_pos hinj
    simp only [Bool.and_eq_true, beq_iff_eq] at hinj
    obtain ⟨m', f', e'⟩ := raise_only { s with regs := m } b i (bits v 12 8)
    have hkept : (({ s with regs := m } : State).raise b i (bits v 12 8)).reg b i 0x008 = ({ s with regs := m } : State).reg b i 0x008 :=
      raise_reg_at (by decide) (by decide) (fun h => by have := regKey_mod (b := b) (i := i) (o := 0x008) (by decide); omega)
    rw [e'] at hkept
    refine ⟨m', f', hw.trans e', hkept.trans hreg, fun _ _ hc => ?_, fun h => ?_⟩
    · obtain ⟨m'', f'', e'', hset, -⟩ := raise_sets (s := { s with regs := m }) hm hc hn
      have hmm : m' = m'' := by simpa using congrArg State.regs (e'.symm.trans e'')
      exact hmm ▸ hset
    · rcases h with h | h
      · exact absurd hinj.1 (by simp [h])
      · exact absurd hinj.2 h
  · refine ⟨m, s.flt, ?_, hreg, fun h0 h2 _ => absurd (by simp [h0, h2]) hinj, fun _ => ⟨rfl, herr⟩⟩
    unfold State.writeCtl
    rw [e]
    exact if_neg hinj

/-- R405: a rail sample replaces VMIN when it lies below. -/
theorem reg_seeRail (n mv : Nat) (hr : Sparse.wf regReset s.regs = true) :
    (s.seeRail n mv).reg .bsn n 0x050 = if mv < bits (s.reg .bsn n 0x050) 9 0 then field mv 0 else s.reg .bsn n 0x050 := by
  have key : ∀ o, regKey .bsn n o = pageBase .bsn n + o := fun _ => rfl
  unfold State.seeRail
  split
  · rw [State.reg_setReg_other (by rw [key, key]; omega), State.reg_setReg_other (by rw [key, key]; omega), State.reg_setReg hr]
  · rfl

/-- R422: VMIN starts over from the present setpoint. -/
theorem restartVmin_spec (n : Nat) (hr : Sparse.wf regReset s.regs = true) :
    ∃ m, s.restartVmin n = { s with regs := m } ∧ ({ s with regs := m } : State).reg .bsn n 0x050 = field (min (s.setpoint n) 1023) 0 := by
  have top : bits 0x3FF#32 9 0 = 1023 := by decide
  have full : (0x3FF#32 : Word) = field 1023 0 := by decide
  obtain ⟨m, e⟩ : ∃ m, s.restartVmin n = { s with regs := m } := only_regs_trans (setReg_only ..) (seeRail_only ..)
  refine ⟨m, e, ?_⟩
  rw [← e, State.restartVmin, reg_seeRail _ _ (Sparse.wf_set _ hr), State.reg_setReg hr, top]
  split
  next h => rw [Nat.min_eq_left (by omega)]
  next h => rw [Nat.min_eq_right (by omega), full]

end

section
/-! A host's 4-byte write of BAR0. -/

variable {s : State} {b : Blk} {i o : Nat} {v : Word} {r : RegRow}

theorem pageAt_offset {addr : Nat} : pageAt addr = some (b, i, o) → o = addr % 0x1000 := by
  have here : ∀ c k, some (c, k, addr % 0x1000) = some (b, i, o) → o = addr % 0x1000 := by
    rintro _ _ ⟨⟩
    rfl
  have nowhere : (none : Option (Blk × Nat × Nat)) = some (b, i, o) → o = addr % 0x1000 := nofun
  have either : ∀ {p : Prop} [Decidable p] {x y : Option (Blk × Nat × Nat)}, (x = some (b, i, o) → o = addr % 0x1000) →
      (y = some (b, i, o) → o = addr % 0x1000) → (if p then x else y) = some (b, i, o) → o = addr % 0x1000 := by
    intro p _ x y hx hy
    split
    · exact hx
    · exact hy
  unfold pageAt
  refine either (either nowhere ?_) ?_
  · split
    case h_8 => exact either (here _ _) nowhere
    all_goals exact here _ _
  · iterate 14 refine either (here _ _) ?_
    exact nowhere

/-- R187, R285, R304, R307, R334, R335, R369, R484: whether a selector shows a register depends on its page and offset alone. -/
theorem copyOf_isNone (t : State) : (s.copyOf b i o).isNone = (t.copyOf b i o).isNone := by
  unfold State.copyOf
  cases b <;> dsimp only <;> split_ifs <;> rfl

/-- Whether a register's write acts in a way of its own depends on its page and offset alone. -/
theorem writeSpecial_isNone {w : RegWriter} (t : State) :
    (s.writeSpecial w b i o v).isNone = (t.writeSpecial w b i o v).isNone := by
  unfold State.writeSpecial
  cases b <;> dsimp only <;> split_ifs <;> simp only [Option.isNone_some, Option.isNone_none]

/-- R6: a write of a register that no selector shows. -/
theorem writeRow_plain {w : RegWriter} (hcopy : s.copyOf b i r.off = none) (hk : r.wk = .plain) :
    s.writeRow w b i r v = s.setReg b i r.off ((s.reg b i r.off &&& ~~~s.writable w r) ||| (v &&& s.writable w r)) := by
  unfold State.writeRow State.regAt State.setRegAt
  rw [hk]
  simp only [hcopy]

theorem writeBlock_row {w : RegWriter} (hrow : regRow b i o = some r) (hs : b ≠ .schd)
    (hspecial : (s.reportWrite w b i r v).writeSpecial w b i o v = none) :
    s.writeBlock w b i o v = (s.reportWrite w b i r v).writeRow w b i r v := by
  unfold State.writeBlock
  rw [hrow]
  simp only [hspecial, hs, false_and, if_false]

/-- R482, R490: a write of a register without firmware-only fields reports a sealed field alone. -/
theorem reportWrite_host {p : HostPort} (hfw : r.fw = 0) :
    s.reportWrite (.host p) b i r v = if s.secu.sealed && b != .secu && r.rws != 0 then s.raise .secu 0 4 else s := by
  unfold State.reportWrite
  simp [hfw]

/-- R492: a write at an ERR_STS register. -/
theorem errStsClear_at {addr : Nat} (hpage : pageAt addr = some (b, i, 0x010)) :
    execErrStsClear addr v s = .next (if s.powered = true ∧ s.pageDark b i = false then s.clearErrors b i v else s) := by
  unfold execErrStsClear
  simp [hpage]

/-- R491: a write at a CTL register. -/
theorem inject_at {addr : Nat} (hpage : pageAt addr = some (b, i, 0x008)) :
    execInject addr v s = .next (if s.powered = true ∧ s.pageDark b i = false then s.writeCtl b i v else s) := by
  unfold execInject
  simp [hpage]

/-- R373, R485: nothing happens without power or past BAR0. -/
theorem registerWrite_ignored {p : HostPort} {addr size : Nat} {en : Bool} {data : Dword} (h : s.powered = false ∨ 2 ^ 27 < addr + size) :
    execRegisterWrite p addr size en data s = .next s := by
  unfold execRegisterWrite State.whenOn
  rcases h with h | h
  · rw [if_neg (by simp [h])]
  · simp only [h, if_true, ite_self]

/-- R488: a write of another size or alignment or with byte enables missing reports BADWR. -/
theorem registerWrite_malformed {p : HostPort} {addr size : Nat} {en : Bool} {data : Dword} (hp : s.powered = true) (ha : addr + size ≤ 2 ^ 27)
    (h : en = false ∨ (size ≠ 4 ∧ size ≠ 8) ∨ addr % size ≠ 0) : execRegisterWrite p addr size en data s = .next (s.raise .glb 0 0) := by
  unfold execRegisterWrite State.whenOn
  dsimp only
  rw [if_pos hp, if_neg (Nat.not_lt.2 ha), if_pos]
  rcases h with h | ⟨h4, h8⟩ | h
  · simp [h]
  · simp [h4, h8]
  · simp [h]

/-- R488: a write that reaches no page reports UNMAPPED. -/
theorem registerWrite_unmapped {p : HostPort} {addr size : Nat} {data : Dword} (hp : s.powered = true) (ha : addr + size ≤ 2 ^ 27)
    (hsize : size = 4 ∨ size = 8) (hal : addr % size = 0) (hpage : pageAt addr = none) :
    execRegisterWrite p addr size true data s = .next (s.raise .glb 0 1) := by
  unfold execRegisterWrite State.whenOn
  dsimp only
  rw [if_pos hp, if_neg (Nat.not_lt.2 ha), if_neg (by rcases hsize with h | h <;> simp [h] <;> simpa [h] using hal), if_pos (by simp [hpage])]

/-- R485: a 4-byte write that reaches a page writes one word. -/
theorem registerWrite_word {p : HostPort} {addr : Nat} {data : Dword} (hp : s.powered = true) (ha : addr + 4 ≤ 2 ^ 27) (h4 : addr % 4 = 0)
    (hpage : pageAt addr = some (b, i, o)) :
    execRegisterWrite p addr 4 true data s = .next (s.writeWord (.host p) addr (BitVec.ofNat 32 data.toNat)) := by
  unfold execRegisterWrite State.whenOn State.writeWords
  dsimp only
  rw [if_pos hp, if_neg (Nat.not_lt.2 ha), if_neg (by simp [h4]), if_neg (by simp [hpage]), if_neg (by decide)]

/-- R488, R489, R524: a write at a DARK berth, before READY or at an undefined offset does nothing. -/
theorem writeWord_ignored {w : RegWriter} {addr : Nat} (hpage : pageAt addr = some (b, i, o))
    (h : s.pageDark b i = true ∨ (0x030 ≤ o ∧ (s.blockReady b i = false ∨ regRow b i o = none))) : s.writeWord w addr v = s := by
  unfold State.writeWord
  simp only [hpage]
  rcases h with h | ⟨ho, h | h⟩
  · rw [if_pos h]
  · simp [Nat.not_lt.2 ho, h]
  · have hblock : s.writeBlock w b i o v = s := by
      unfold State.writeBlock
      rw [h]
    simp [Nat.not_lt.2 ho, hblock]

theorem writeWord_block {w : RegWriter} {addr : Nat} (hpage : pageAt addr = some (b, i, o)) (hd : s.pageDark b i = false) (ho : 0x030 ≤ o)
    (hready : s.blockReady b i = true) : s.writeWord w addr v = s.writeBlock w b i o v := by
  unfold State.writeWord
  simp [hpage, hd, Nat.not_lt.2 ho, hready]

/-- R491: the offsets from 0x030 on hold no error register. -/
theorem not_mem_errOffsets (ho : 0x030 ≤ o) : o ∉ errOffsets := by
  simp only [errOffsets, List.mem_cons, List.not_mem_nil, or_false]
  omega

/-- R495, R496: FLT_CNT_CORR lies in the page of FLT; SCHD instances past the last would share its address. -/
theorem regKey_ne_cntCorr (ho : o < 0x1000) (hf : b ≠ .flt) (hs : b ≠ .schd) : regKey b i o ≠ 0x5054 := by
  unfold regKey
  cases b <;> simp only [pageBase, berthWindow, ne_eq, not_true_eq_false, reduceCtorEq] at hf hs ⊢
  case bsn => split <;> omega
  case thrm => split <;> omega
  all_goals omega

theorem and_not_zero (x : Word) : x &&& ~~~(0 : Word) = x := by
  rw [show ~~~(0 : Word) = BitVec.allOnes 32 from rfl, BitVec.and_allOnes]

theorem merge_none (old v : Word) : (old &&& ~~~(0 : Word)) ||| (v &&& 0) = old := by
  rw [and_not_zero, show v &&& (0 : Word) = 0#32 from BitVec.and_zero, BitVec.or_zero]

/-- R6, R489: a host's write of a plain register without firmware-only fields, of which nothing is sealed at present. -/
theorem writeBlock_plain {p : HostPort} (hr : Sparse.wf regReset s.regs = true) (hrow : regRow b i o = some r) (hoff : r.off = o) (hk : r.wk = .plain)
    (hfw : r.fw = 0) (hs : b ≠ .schd) (hspecial : s.writeSpecial (.host p) b i o v = none) (hcopy : s.copyOf b i o = none)
    (hopen : s.secu.sealed = false ∨ r.rws = 0) :
    ∃ m, s.writeBlock (.host p) b i o v = { s with regs := m } ∧
      ({ s with regs := m } : State).reg b i o = (s.reg b i o &&& ~~~(r.rw ||| r.rws)) ||| (v &&& (r.rw ||| r.rws)) ∧
      ∀ k, k ≠ regKey b i o → Sparse.get regReset m k = Sparse.get regReset s.regs k := by
  subst hoff
  have hreport : s.reportWrite (.host p) b i r v = s := by
    rw [reportWrite_host hfw]
    rcases hopen with h | h <;> simp [h]
  have hmask : s.writable (.host p) r = r.rw ||| r.rws := by
    unfold State.writable
    dsimp only
    rw [hfw, and_not_zero]
    rcases hopen with h | h <;> simp [h]
  have e : s.writeBlock (.host p) b i r.off v = s.setReg b i r.off ((s.reg b i r.off &&& ~~~(r.rw ||| r.rws)) ||| (v &&& (r.rw ||| r.rws))) := by
    rw [writeBlock_row hrow hs (by rwa [hreport]), hreport, writeRow_plain hcopy hk, hmask]
  exact ⟨_, e, State.reg_setReg hr, fun k hne => Sparse.get_set_other _ _ hne⟩

/-- R482: under the seal a host's write of a sealed register reports SEALED_WR and leaves it. -/
theorem writeBlock_sealed {p : HostPort} (hr : Sparse.wf regReset s.regs = true) (hrow : regRow b i o = some r) (hoff : r.off = o) (hk : r.wk = .plain)
    (hfw : r.fw = 0) (hs : b ≠ .schd) (hspecial : s.writeSpecial (.host p) b i o v = none) (hcopy : s.copyOf b i o = none)
    (ho : 0x030 ≤ o) (ho' : o < 0x1000) (hsealed : s.secu.sealed = true) (hrws : r.rws ≠ 0) (hrw : r.rw = 0) (hsecu : b ≠ .secu) (hflt : b ≠ .flt) :
    ∃ m f, s.writeBlock (.host p) b i o v = { s with regs := m, flt := f } ∧ ({ s with regs := m } : State).errSet .secu 0 4 = true ∧
      ({ s with regs := m } : State).reg b i o = s.reg b i o := by
  subst hoff
  have hreport : s.reportWrite (.host p) b i r v = s.raise .secu 0 4 := by
    rw [reportWrite_host hfw, if_pos]
    simp only [Bool.and_eq_true, bne_iff_ne]
    exact ⟨⟨hsealed, hsecu⟩, hrws⟩
  have hkept : (s.raise .secu 0 4).reg b i r.off = s.reg b i r.off :=
    raise_reg_at ho' (not_mem_errOffsets ho) (regKey_ne_cntCorr ho' hflt hs)
  obtain ⟨m, f, e, herr, hm⟩ := raise_sets (s := s) (b := .secu) (i := 0) (n := 4) hr rfl (by decide)
  have hseal : (s.raise .secu 0 4).secu.sealed = true := by rw [e]; exact hsealed
  have hw : s.writeBlock (.host p) b i r.off v = (s.raise .secu 0 4).setReg b i r.off (s.reg b i r.off) := by
    have hspecial' : (s.raise .secu 0 4).writeSpecial (.host p) b i r.off v = none := by
      rw [← Option.isNone_iff_eq_none, writeSpecial_isNone s, hspecial, Option.isNone_none]
    have hcopy' : (s.raise .secu 0 4).copyOf b i r.off = none := by
      rw [← Option.isNone_iff_eq_none, copyOf_isNone s, hcopy, Option.isNone_none]
    have hmask : (s.raise .secu 0 4).writable (.host p) r = 0 := by
      unfold State.writable
      simp [hseal, hrw]
    rw [writeBlock_row hrow hs (by rwa [hreport]), hreport, writeRow_plain hcopy' hk, hmask, hkept, merge_none]
  refine ⟨_, f, by rw [hw, e]; rfl, ?_, State.reg_setReg (s := { s with regs := m }) hm⟩
  have hkey : regKey b i r.off ≠ pageBase .secu 0 + 0x10 := fun h => by
    have := regKey_mod (b := b) (i := i) ho'
    have := pageBase_mod .secu 0
    omega
  exact (errSet_setReg (s := { s with regs := m }) hkey).trans herr

end

/-- Settles O59: what `writeKvBase`, `clearErrors`, `writeCtl`, `restartVmin` and `writeBlock` leave, at each command. -/
theorem registerWrites : Obligations.RegisterWrites := by
  intro s hs
  have hr : Sparse.wf regReset s.regs = true := hs.regs
  refine ⟨fun b v => ?_, fun addr v b i hpage => ?_, fun addr v b i hpage => ?_, fun n v => ?_, fun p addr size en data => ?_⟩
  · split
    next hw => exact congrArg _ (if_neg (by simp [hw]))
    next hw =>
      have e : exec (.kvBaseWrite b v) s = .next (s.writeKvBase b.val v) := congrArg _ (if_pos (by simpa using hw))
      rw [e]
      split
      next hfits => exact ⟨_, by rw [State.writeKvBase, if_pos hfits]; rfl, State.reg_setReg hr⟩
      next hmiss =>
        obtain ⟨m, f, e, hspec⟩ := writeKvBase_misfit hr hmiss
        exact ⟨m, f, congrArg _ e, hspec⟩
  · rw [show exec (.errStsClear addr v) s = _ from errStsClear_at hpage]
    split
    next =>
      obtain ⟨m, e, herr⟩ := clearErrors_spec (s := s) b i v hr
      exact ⟨m, _, congrArg _ e, rfl, herr⟩
    next => rfl
  · rw [show exec (.inject addr v) s = _ from inject_at hpage]
    split
    next =>
      obtain ⟨m, f, e, hspec⟩ := writeCtl_spec (s := s) b i v hr
      exact ⟨m, f, congrArg _ e, hspec⟩
    next => rfl
  · split
    next hw => exact congrArg _ (if_neg (by simp [hw]))
    next hw =>
      have e : exec (.vminRestart n v) s = .next (s.restartVmin n.val) := congrArg _ (if_pos (by simpa using hw))
      obtain ⟨m, er, hreg⟩ := restartVmin_spec (s := s) n.val hr
      exact ⟨m, e.trans (congrArg _ er), hreg⟩
  · refine ⟨fun h => registerWrite_ignored h, fun hp ha => ⟨fun h => ?_, fun hen hsize hal hpage => ?_, fun hen hsize hal b i o hpage => ?_⟩⟩
    · obtain ⟨m, f, e, herr, -⟩ := raise_sets (s := s) (b := .glb) (i := 0) (n := 0) hr rfl (by decide)
      exact ⟨m, f, (registerWrite_malformed hp ha h).trans (congrArg _ e), herr⟩
    · subst hen
      obtain ⟨m, f, e, herr, -⟩ := raise_sets (s := s) (b := .glb) (i := 0) (n := 1) hr rfl (by decide)
      exact ⟨m, f, (registerWrite_unmapped hp ha hsize hal hpage).trans (congrArg _ e), herr⟩
    · subst hen hsize
      have hword := registerWrite_word (p := p) (data := data) hp ha hal hpage
      refine ⟨fun h => hword.trans (congrArg _ (writeWord_ignored hpage h)), fun hd ho hready hs hspecial hcopy r hrow hoff hk hfw => ?_⟩
      have hblock := hword.trans (congrArg _ (writeWord_block hpage hd ho hready))
      refine ⟨fun hopen => ?_, fun hsealed hrws hrw hsecu hflt => ?_⟩
      · obtain ⟨m, e, hreg⟩ := writeBlock_plain hr hrow hoff hk hfw hs hspecial hcopy hopen
        exact ⟨m, hblock.trans (congrArg _ e), hreg⟩
      · have ho' : o < 0x1000 := pageAt_offset hpage ▸ Nat.mod_lt _ (by decide)
        obtain ⟨m, f, e, hreg⟩ := writeBlock_sealed hr hrow hoff hk hfw hs hspecial hcopy ho ho' hsealed hrws hrw hsecu hflt
        exact ⟨m, f, hblock.trans (congrArg _ e), hreg⟩

end Sys2Proof.Machine
end

section
/-! PROOF. Laws for the first second, the basins and the plate: folds over the state, errors beside errors, the end of BIST, and what a region that
goes dark takes with it. And the state right after reset (O2). -/

namespace Sys2Proof.Machine

section
/-! Folds over the state, and errors beside other errors. -/

variable {s : State}

/-- What every step of a fold does, the fold does, when it holds of no step and of one after another. -/
theorem foldl_rel {α : Type} {R : State → State → Prop} (refl : ∀ s, R s s) (trans : ∀ {s t u}, R s t → R t u → R s u) {f : State → α → State}
    (hf : ∀ s a, R s (f s a)) (l : List α) (s : State) : R s (l.foldl f s) := by
  induction l generalizing s with
  | nil => exact refl s
  | cons a l ih => exact trans (hf s a) (ih _)

/-- What no step of a fold changes, the fold leaves. -/
theorem foldl_same {α β : Type} (π : State → β) {f : State → α → State} (hf : ∀ s a, π (f s a) = π s) (l : List α) (s : State) :
    π (l.foldl f s) = π s :=
  foldl_rel (R := fun s t => π t = π s) (fun _ => rfl) (fun h h' => h'.trans h) hf l s

/-- Writing berths one after another leaves every berth that none of them names. -/
theorem foldl_setBerth {α : Type} (k : α → Nat) (x : State → α → BerthSt) (l : List α) (s : State) :
    ∃ bs, l.foldl (fun s e => s.setBerth (k e) (x s e)) s = { s with berths := bs } ∧
      ∀ b, (∀ e ∈ l, k e ≠ b) → ({ s with berths := bs } : State).berth b = s.berth b := by
  induction l generalizing s with
  | nil => exact ⟨s.berths, rfl, fun _ _ => rfl⟩
  | cons e l ih =>
    obtain ⟨bs, h, hb⟩ := ih (s.setBerth (k e) (x s e))
    refine ⟨bs, h, fun b hne => (hb b fun e' he' => hne e' (List.mem_cons_of_mem _ he')).trans ?_⟩
    exact State.berth_setBerth_other (Ne.symm (hne e List.mem_cons_self))

/-- An error of any page leaves the errors that stand in any page. -/
theorem errSet_raiseAs_mono {b c : Blk} {i j n m : Nat} {k : ErrClass} (h : Sparse.wf regReset s.regs = true) (hs : s.errSet c j m = true) :
    (s.raiseAs b i n k).errSet c j m = true := by
  by_cases hp : pageBase c j = pageBase b i
  · have same : ∀ u : State, u.errSet c j m = u.errSet b i m := fun u => by unfold State.errSet State.errRegs; rw [hp]
    rw [same] at hs ⊢
    exact errSet_raiseAs_keep h hs
  · have h1 := pageBase_mod c j
    have h2 := pageBase_mod b i
    have e1 : ∀ r, Sparse.get regReset (s.setErrRegs b i r).regs (pageBase c j + 0x10) = Sparse.get regReset s.regs (pageBase c j + 0x10) :=
      fun r => get_setErrRegs_other (by omega) (by omega) (by omega) (by omega) (by omega)
    have e2 : Sparse.get regReset (s.raiseAs b i n k).regs (pageBase c j + 0x10) = Sparse.get regReset s.regs (pageBase c j + 0x10) := by
      unfold State.raiseAs
      cases k
      · dsimp only
        split
        · exact e1 _
        · refine (Sparse.get_set_other _ _ ?_).trans (e1 _)
          show pageBase c j + 0x10 ≠ 0x5054
          omega
      all_goals exact e1 _
    unfold State.errSet State.errRegs at hs ⊢
    dsimp only at hs ⊢
    rwa [e2]

theorem errSet_raise_mono {b c : Blk} {i j n m : Nat} (h : Sparse.wf regReset s.regs = true) (hs : s.errSet c j m = true) :
    (s.raise b i n).errSet c j m = true := by
  unfold State.raise
  split
  · exact errSet_raiseAs_mono h hs
  · exact hs

end

section
/-! The end of BIST and training, and how the timeline goes on (R13–R15, R387). -/

variable {s : State}

/-- R13, R14: binding a half puts spare berths into service and changes no other berth. -/
theorem bindHalf_spec (s : State) (h : Half) (l : Nat) : ∃ bs, s.bindHalf h l = { s with berths := bs } ∧
    ∀ b, (s.berth b).role ≠ .spare → ({ s with berths := bs } : State).berth b = s.berth b := by
  unfold State.bindHalf
  dsimp only
  obtain ⟨bs, e, hb⟩ := foldl_setBerth Prod.snd (fun (s : State) (e : Nat × Nat) =>
    { s.berth e.2 with role := .inService, logical := l + e.1, gated := false, waking := false, ldiv := (s.half h).now })
    ((List.range ((halfBerths h).filter (fun b => (s.berth b).role == .spare && !(s.keptSpares h).contains b)).length).zip
      ((halfBerths h).filter (fun b => (s.berth b).role == .spare && !(s.keptSpares h).contains b))) s
  refine ⟨bs, e, fun b hr => hb b fun e he hk => hr ?_⟩
  have hm := (List.mem_filter.1 (List.of_mem_zip he).2).2
  simp only [Bool.and_eq_true, beq_iff_eq] at hm
  exact hk ▸ hm.1

theorem rewriteTable_only (s : State) : ∃ l d g, s.rewriteTable = { s with tableArea := l, dgen := d, dgenBusy := g } := by
  unfold State.rewriteTable
  dsimp only
  split
  · exact ⟨s.tableArea, s.dgen, s.dgenBusy, rfl⟩
  · exact ⟨_, _, _, rfl⟩

/-- R25: raising STACK_FAIL for some stacks sets the bit of each. -/
theorem raiseStacks_spec (l : List Nat) {s : State} (h : Sparse.wf regReset s.regs = true) :
    ∃ m f, l.foldl (fun s k => s.raiseOnce .hbmc k 5) s = { s with regs := m, flt := f } ∧
      (∀ k, s.errSet .hbmc k 5 = true → ({ s with regs := m } : State).errSet .hbmc k 5 = true) ∧
      ∀ k ∈ l, ({ s with regs := m } : State).errSet .hbmc k 5 = true := by
  induction l generalizing s with
  | nil => exact ⟨s.regs, s.flt, rfl, fun _ h => h, fun k hk => absurd hk List.not_mem_nil⟩
  | cons a l ih =>
    have one : ∃ m f, s.raiseOnce .hbmc a 5 = { s with regs := m, flt := f } ∧ Sparse.wf regReset m = true ∧
        (∀ k, s.errSet .hbmc k 5 = true → ({ s with regs := m } : State).errSet .hbmc k 5 = true) ∧
        ({ s with regs := m } : State).errSet .hbmc a 5 = true := by
      unfold State.raiseOnce
      split
      next hs => exact ⟨s.regs, s.flt, rfl, h, fun _ h => h, hs⟩
      next =>
        obtain ⟨m, f, e, hset, hw⟩ := raise_sets (s := s) (b := .hbmc) (i := a) (n := 5) h rfl (by decide)
        refine ⟨m, f, e, hw, fun k hk => ?_, hset⟩
        have := errSet_raise_mono (b := .hbmc) (i := a) (n := 5) h hk
        rwa [e] at this
    obtain ⟨m, f, e, hw, hold, hset⟩ := one
    obtain ⟨m', f', e', hold', hset'⟩ := ih (s := { s with regs := m, flt := f }) hw
    refine ⟨m', f', by rw [List.foldl_cons, e, e'], fun k hk => hold' k (hold k hk), fun k hk => ?_⟩
    rcases List.mem_cons.1 hk with rfl | hk
    · exact hold' k hset
    · exact hset' k hk

theorem endBist_waits (h : s.bistOver = false) : s.endBist = s := by
  unfold State.endBist
  simp [h]

/-- R25: the module holds for a failed stack. -/
theorem endBist_lost (hr : Sparse.wf regReset s.regs = true) (h : s.bistOver = true) (hl : (List.range 12).any s.stackLost = true) :
    ∃ m f, s.endBist = { s with alert := true, regs := m, flt := f } ∧
      ∀ k, k < 12 → s.stackLost k = true → ({ s with regs := m } : State).errSet .hbmc k 5 = true := by
  obtain ⟨m, f, e, -, hset⟩ := raiseStacks_spec ((List.range 12).filter s.stackLost) hr
  refine ⟨m, f, ?_, fun k hk hk' => hset k (List.mem_filter.2 ⟨List.mem_range.2 hk, hk'⟩)⟩
  unfold State.endBist
  rw [if_neg (by simp [h]), if_pos hl, e]
  rfl

/-- R14, R15: the berths are bound, and program execution follows from their number. -/
theorem endBist_binds (h : s.bistOver = true) (hl : (List.range 12).any s.stackLost = false) :
    ∃ bs l d g f, s.endBist = { s with berths := bs, tableArea := l, dgen := d, dgenBusy := g, stage := .clearing, flt := f } ∧
      f.exec = (({ s with berths := bs } : State).inServiceOf .west == 40 && ({ s with berths := bs } : State).inServiceOf .east == 40) ∧
      ∀ b, (s.berth b).role ≠ .spare → ({ s with berths := bs } : State).berth b = s.berth b := by
  obtain ⟨bs, e, hb⟩ := bindHalf_spec s .west 0
  obtain ⟨bs', e', hb'⟩ := bindHalf_spec { s with berths := bs } .east 40
  obtain ⟨l, d, g, et⟩ := rewriteTable_only { s with berths := bs' }
  refine ⟨bs', l, d, g, { s.flt with exec := ({ s with berths := bs' } : State).inServiceOf .west == 40 && ({ s with berths := bs' } : State).inServiceOf .east == 40 },
    ?_, rfl, fun b hr => ?_⟩
  · unfold State.endBist
    rw [if_neg (by simp [h]), if_neg (by simp [hl]), e, e']
    dsimp only
    rw [et]
  · have h1 := hb b hr
    exact (hb' b (h1.symm ▸ hr)).trans h1

/-- R387: what the timeline changes when it goes on from its basins stage or from BIST and training: a berth that is not spare stays. -/
theorem goOn_spec (hr : Sparse.wf regReset s.regs = true) :
    ∃ g a bs m f l d y, s.goOn = { s with stage := g, alert := a, berths := bs, regs := m, flt := f, tableArea := l, dgen := d, dgenBusy := y } ∧
      ∀ b, (s.berth b).role ≠ .spare → ({ s with berths := bs } : State).berth b = s.berth b := by
  have first : ∀ t : State, (∃ g, t = { s with stage := g }) →
      ∃ g a bs m f l d y, (if t.atStage .bist then t.endBist else t) =
        { s with stage := g, alert := a, berths := bs, regs := m, flt := f, tableArea := l, dgen := d, dgenBusy := y } ∧
        ∀ b, (s.berth b).role ≠ .spare → ({ s with berths := bs } : State).berth b = s.berth b := by
    rintro t ⟨g, rfl⟩
    split
    · cases hover : ({ s with stage := g } : State).bistOver with
      | false => exact ⟨_, _, _, _, _, _, _, _, endBist_waits hover, fun _ _ => rfl⟩
      | true =>
        cases hlost : (List.range 12).any ({ s with stage := g } : State).stackLost with
        | true =>
          obtain ⟨m, f, e, -⟩ := endBist_lost (s := { s with stage := g }) hr hover hlost
          exact ⟨_, _, _, _, _, _, _, _, e, fun _ _ => rfl⟩
        | false =>
          obtain ⟨bs, l, d, y, f, e, -, hb⟩ := endBist_binds hover hlost
          exact ⟨_, _, _, _, _, _, _, _, e, hb⟩
    · exact ⟨_, _, _, _, _, _, _, _, rfl, fun _ _ => rfl⟩
  unfold State.goOn
  dsimp only
  split
  · exact first _ ⟨_, rfl⟩
  · exact first _ ⟨s.stage, rfl⟩

end

section
/-! What a region that goes dark takes with it (R10, R25, R407, R459). -/

variable {s : State}

/-- The berths and the basins are the same. -/
structure SameRegions (s t : State) : Prop where
  berths : t.berths = s.berths
  basins : t.basins = s.basins

theorem SameRegions.refl (s : State) : SameRegions s s := ⟨rfl, rfl⟩

theorem SameRegions.trans {s t u : State} (h : SameRegions s t) (h' : SameRegions t u) : SameRegions s u :=
  ⟨h'.berths.trans h.berths, h'.basins.trans h.basins⟩

theorem SameRegions.ite {s t u : State} {p : Prop} [Decidable p] (h : SameRegions s t) (h' : SameRegions s u) : SameRegions s (if p then t else u) := by
  split
  · exact h
  · exact h'

theorem SameRegions.foldl {α : Type} {f : State → α → State} (hf : ∀ s a, SameRegions s (f s a)) (l : List α) (s : State) : SameRegions s (l.foldl f s) :=
  foldl_rel SameRegions.refl SameRegions.trans hf l s

theorem SameRegions.raise (s : State) (b : Blk) (i n : Nat) : SameRegions s (s.raise b i n) := by
  obtain ⟨m, f, e⟩ := raise_only s b i n
  exact e ▸ ⟨rfl, rfl⟩

theorem SameRegions.setZport (s : State) (z : Nat) (x : ZPort) : SameRegions s (s.setZport z x) := ⟨rfl, rfl⟩

theorem SameRegions.sliceFailed (s : State) (x : Bool) : SameRegions s { s with sliceFailed := x } := ⟨rfl, rfl⟩

theorem SameRegions.setReg (s : State) (b : Blk) (i o : Nat) (v : Word) : SameRegions s (s.setReg b i o v) := ⟨rfl, rfl⟩

theorem SameRegions.setHalf (s : State) (h : Half) (x : HalfSt) : SameRegions s (s.setHalf h x) := by cases h <;> exact ⟨rfl, rfl⟩

theorem SameRegions.retarget (s : State) : SameRegions s s.retarget := by
  obtain ⟨m, e⟩ := retarget_only s
  exact e ▸ ⟨rfl, rfl⟩

theorem SameRegions.dropPacket (s : State) (i : Nat) : SameRegions s (s.dropPacket i) := ⟨rfl, rfl⟩

theorem SameRegions.failRequest (s : State) (p : Packet) : SameRegions s (s.failRequest p) := by
  unfold State.failRequest
  split
  · exact .refl s
  · exact .ite ⟨rfl, rfl⟩ ⟨rfl, rfl⟩

theorem SameRegions.reroute (s : State) (p : Packet) : SameRegions s (s.reroute p) := by
  unfold State.reroute
  split
  · exact ⟨rfl, rfl⟩
  · exact ((SameRegions.dropPacket ..).trans (.raise ..)).trans (.failRequest ..)

theorem SameRegions.sendUp (s : State) (m : SliceMsg) : SameRegions s (s.sendUp m) := by
  obtain ⟨p, o, e⟩ := sendUp_only s m
  exact e ▸ ⟨rfl, rfl⟩

theorem SameRegions.leaveUp (s : State) (z : Nat) : SameRegions s (s.leaveUp z) := by
  unfold State.leaveUp
  extract_lets x t u lost y old v
  have ht : SameRegions s t := (SameRegions.setZport ..).trans (.raise ..)
  have hv : SameRegions s v := (ht.trans (.foldl .reroute ..)).trans (.setZport ..)
  exact .ite (.refl s) (.ite ((hv.trans (.sliceFailed ..)).trans ((SameRegions.raise ..).trans (.sendUp ..))) hv)

theorem settleSlot_only (s : State) (i : Nat) : ∃ x, s.settleSlot i = { s with images := x } := by
  unfold State.settleSlot State.abandonNow
  dsimp only
  split
  · exact ⟨s.images, rfl⟩
  · split
    · exact ⟨_, rfl⟩
    · split
      · exact ⟨_, rfl⟩
      · exact ⟨s.images, rfl⟩

/-- R323, R385: stopping a port's channels changes channels and image slots alone. -/
theorem stopChannels_only (s : State) (p : HostPort) : ∃ c x, s.stopChannels p = { s with chans := c, images := x } := by
  have fold : ∀ {α : Type} (f : State → α → State), (∀ s a, ∃ c x, f s a = { s with chans := c, images := x }) → ∀ (l : List α) (s : State),
      ∃ c x, l.foldl f s = { s with chans := c, images := x } := fun f hf =>
    foldl_rel (R := fun s t => ∃ c x, t = { s with chans := c, images := x }) (fun s => ⟨s.chans, s.images, rfl⟩)
      (by rintro s _ _ ⟨c, x, rfl⟩ ⟨c', x', rfl⟩; exact ⟨c', x', rfl⟩) hf
  unfold State.stopChannels
  obtain ⟨c, x, e⟩ := fold (fun (s : State) (c : Nat) =>
    let x := s.chan c
    if bit (s.regI .ltr (portIx p) 0x04C (c % 16)) 31 || x.job.isSome then s.setChan c { x with stopped := true, job := none } else s) (fun s a => by
      dsimp only
      split
      · exact ⟨_, s.images, rfl⟩
      · exact ⟨s.chans, s.images, rfl⟩) ((List.range 16).map (fun c => portIx p * 16 + c)) s
  dsimp only at e ⊢
  rw [e]
  obtain ⟨c', x', e'⟩ := fold State.settleSlot (fun s i => ⟨s.chans, settleSlot_only s i⟩) (((List.range 16).map (fun c => portIx p * 16 + c)).filterMap
    (fun c => (s.chan c).job.map descImage)) { s with chans := c, images := x }
  exact ⟨c', x', e'⟩

/-- R385, R392: a port's link goes to a state; beside the port only its page and the fault handler's record may change. -/
theorem linkTo_spec (s : State) (p : HostPort) (l : LinkState) : ∃ m f w v d,
    s.linkTo p l = ({ s with regs := m, flt := f } : State).setPort p { s.port p with link := l, width := w, speed := v, downSince := d } := by
  unfold State.linkTo
  dsimp only
  split
  · obtain ⟨m, f, e⟩ := raise_only s .cxlp (portIx p) 3
    rw [e]
    exact ⟨m, f, 0, 0, s.stamp, by cases p <;> rfl⟩
  · exact ⟨s.regs, s.flt, 0, 0, (s.port p).downSince, rfl⟩

/-- R323, R407, R459: a port that has left reset and is lost has its link down; no berth and no basin changes. -/
theorem losePort_spec (s : State) (p : HostPort) : SameRegions s (s.losePort p) ∧ ((s.port p).link ≠ .reset → ((s.losePort p).port p).link = .down) := by
  obtain ⟨c, x, e⟩ := stopChannels_only s p
  unfold State.losePort
  dsimp only
  rw [e]
  have hport : ({ s with chans := c, images := x } : State).port p = s.port p := by cases p <;> rfl
  rw [hport]
  split
  next h => exact ⟨⟨rfl, rfl⟩, fun hn => absurd h hn⟩
  next =>
    obtain ⟨m, f, w, v, d, e'⟩ := linkTo_spec { s with chans := c, images := x } p .down
    rw [e', State.port_setPort]
    exact ⟨by cases p <;> exact ⟨rfl, rfl⟩, fun _ => rfl⟩

theorem SameRegions.isolateHarbour (s : State) (b : Nat) : SameRegions s (s.isolateHarbour b) := by
  unfold State.isolateHarbour
  dsimp only
  refine .ite (SameRegions.trans (.raise s .flt 0 3) (.ite ?_ (.ite ?_ (.refl _)))) (.refl s)
  · exact (losePort_spec ..).1
  · exact (losePort_spec ..).1

theorem SameRegions.failIsolated (s : State) (b : Nat) : SameRegions s (s.failIsolated b) := by
  unfold State.failIsolated
  split
  · exact .refl s
  · exact .ite (.raise ..) (.refl s)

theorem SameRegions.skipAround (s : State) (b : Nat) : SameRegions s (s.skipAround b) := by
  refine .foldl (fun s d => ?_) _ s
  dsimp only
  exact .ite (.refl s) ((SameRegions.setReg ..).trans (.raise ..))

theorem SameRegions.loseShards (s : State) (l : Nat) : SameRegions s (s.loseShards l) := by
  refine .foldl (fun s i => ?_) _ s
  dsimp only
  split
  · exact .refl s
  · exact ⟨rfl, rfl⟩

theorem SameRegions.cutJobs (s : State) (l : Nat) : SameRegions s (s.cutJobs l) := by
  refine .foldl (fun s c => ?_) _ s
  dsimp only
  split
  · exact .refl s
  · split
    · exact .refl s
    · exact .ite ⟨rfl, rfl⟩ (.refl s)

/-- R10, R407: a compute berth that goes dark is DARK and gated, and no basin changes. -/
theorem goDark_spec {b : Nat} (hb : Sparse.wf (fun _ => ({} : BerthSt)) s.berths = true) :
    ((s.goDark b).berth b).role = .dark ∧ ((s.goDark b).berth b).gated = true ∧ (s.goDark b).basins = s.basins := by
  have before : ∀ u v : State, SameRegions s u → (∃ x, v = u.setBerth b x ∧ x.role = .dark ∧ x.gated = true) →
      (v.berth b).role = .dark ∧ (v.berth b).gated = true ∧ v.basins = s.basins := by
    rintro u _ hu ⟨x, rfl, hr, hg⟩
    rw [State.berth_setBerth (hu.berths ▸ hb)]
    exact ⟨hr, hg, hu.basins⟩
  have after : ∀ v w : State, SameRegions v w → (v.berth b).role = .dark ∧ (v.berth b).gated = true ∧ v.basins = s.basins →
      (w.berth b).role = .dark ∧ (w.berth b).gated = true ∧ w.basins = s.basins := by
    intro v w h hv
    unfold State.berth at hv ⊢
    rwa [h.berths, h.basins]
  have tail : ∀ v : State, SameRegions v (((v.skipAround b).isolateHarbour b).failIsolated b) := fun v =>
    ((SameRegions.skipAround v b).trans (.isolateHarbour ..)).trans (.failIsolated ..)
  have dropHeld : ∀ v : State, SameRegions v (((v.packets.filter (heldAt b)).foldl (fun s p => (s.dropPacket p.id).failRequest p) v).dropWays b) := fun v =>
    (SameRegions.foldl (f := fun s (p : Packet) => (s.dropPacket p.id).failRequest p) (fun s p => (SameRegions.dropPacket s p.id).trans (.failRequest ..)) _ v).trans
      ⟨rfl, rfl⟩
  unfold State.goDark
  extract_lets left z down h uncapped x dark emptied carried moved
  have huncapped : SameRegions s uncapped :=
    ((SameRegions.leaveUp s b).trans (.setZport ..)).trans ((SameRegions.setHalf ..).trans (.retarget _))
  have hdark := before uncapped dark huncapped ⟨_, rfl, rfl, rfl⟩
  have hemptied := after dark emptied (.ite (.refl _) ((SameRegions.loseShards ..).trans (.cutJobs ..))) hdark
  have hcarried := after emptied carried (dropHeld _) hemptied
  have hmoved := after carried moved (.ite (.refl _) ⟨rfl, rfl⟩) hcarried
  exact after moved _ (tail _) hmoved

end

/-- Settles O2: the reset state lists nothing, so every part reads as an unlisted one. -/
theorem resetState : Obligations.ResetState := by
  refine ⟨rfl, fun _ _ _ => rfl, fun _ _ => rfl, fun _ => ⟨rfl, rfl⟩, fun _ => ⟨rfl, rfl⟩, fun _ => rfl, rfl, rfl, rfl, fun p => ?_, rfl, rfl⟩
  cases p <;> exact ⟨rfl, rfl, rfl, rfl⟩

end Sys2Proof.Machine
end

section
/-! PROOF. Basins and the plate (O53): a short, a lost phase, a rail sample. -/

namespace Sys2Proof.Machine

section
/-! A short (R407), a lost phase (R406) and a rail sample (R405). -/

variable {s : State} {n : Nat}

/-- A basin that is written reads as written when that is not how an unlisted basin reads. -/
theorem basin_setBasin_new {x : BasinSt} (h : x ≠ {}) : (s.setBasin n x).basin n = x := Sparse.get_set_new s.basins h

/-- R407: the basin of a short as it latches off. -/
def State.shorted (s : State) (n : Nat) : State := s.setBasin n { s.basin n with latched := true, regulating := false }

/-- R407: what the region of a basin loses with it. -/
def State.regionLost (s : State) (n : Nat) : State :=
  if n < 84 then (s.raise .bsn n 2).goDark n
  else if n < 96 then (s.raise .bsn n 2).raise .hbmc (n - 84) 5
  else if n = 96 then (s.raise .bsn n 2).losePort .a
  else if n = 97 then (s.raise .bsn n 2).losePort .b
  else if n = 98 then s.raise .bsn n 2
  else (s.raise .bsn n 2).loseLock true

/-- R407: a basin that does not regulate does not latch off again. -/
theorem latchOff_off (h : (s.basin n).latched = true ∨ (s.basin n).regulating = false) : s.latchOff n = s := by
  refine if_pos ?_
  rcases h with h | h <;> simp [h]

theorem latchOff_regulating (hl : (s.basin n).latched = false) (hr : (s.basin n).regulating = true) :
    s.latchOff n = ((s.shorted n).regionLost n).goOn :=
  if_neg (by simp [hl, hr])

theorem good_regionLost {s0 : State} (hg : Good s0 s) : Good s0 (s.regionLost n) := by
  have hr : Good s0 (s.raise .bsn n 2) := good_raise hg
  unfold State.regionLost
  exact good_ite (good_goDark hr) (good_ite (good_raise hr) (good_ite (good_losePort hr) (good_ite (good_losePort hr) (good_ite hr (good_loseLock hr)))))

theorem bit_putBits_zero (w : Word) : bit (putBits w 0 0 0) 0 = false := by
  unfold bit putBits field
  simp

/-- A field above a bit leaves the bit. -/
theorem bit_putBits_above {w : Word} {i hi lo : Nat} (v : Nat) (h0 : i < 32) (h : i < lo) : bit (putBits w hi lo v) i = bit w i := by
  unfold bit putBits
  simp only [BitVec.getLsbD_or, BitVec.getLsbD_and, BitVec.getLsbD_not, field_getLsbD]
  simp [h0, Nat.not_le.2 h]

theorem clkg_key (b : Blk) (i : Nat) : regKey .clkg 1 0x040 ≠ pageBase b i + 0x10 := by
  have := pageBase_mod b i
  have : regKey .clkg 1 0x040 = 0x11040 := rfl
  omega

/-- R492: an error of any class changes no register beside its page's error registers, save FLT_CNT_CORR. -/
theorem raiseAs_reg {b c : Blk} {i j m o : Nat} {k : ErrClass} (ho : o < 0x1000) (h : o ∉ errOffsets) (hf : regKey c j o ≠ 0x5054) :
    (s.raiseAs b i m k).reg c j o = s.reg c j o := by
  have hk := regKey_mod (b := c) (i := j) ho
  have hp := pageBase_mod b i
  simp only [errOffsets, List.mem_cons, List.not_mem_nil, or_false, not_or] at h
  have e : ∀ r, (s.setErrRegs b i r).reg c j o = s.reg c j o := fun r =>
    get_setErrRegs_other (by omega) (by omega) (by omega) (by omega) (by omega)
  unfold State.raiseAs
  cases k
  · dsimp only
    split
    · exact e _
    · exact (State.reg_setReg_other hf).trans (e _)
  all_goals exact e _

/-- R417, R423: a root that loses its lock while the other drives the clocks changes registers and the fault handler's record alone. -/
theorem loseLock_standby (hr : Sparse.wf regReset s.regs = true) (ha : s.activeRoot = 0) :
    ∃ m f, s.loseLock true = { s with regs := m, flt := f } ∧ bit (({ s with regs := m } : State).reg .clkg 1 0x040) 0 = false ∧
      ∀ b i k, s.errSet b i k = true → ({ s with regs := m } : State).errSet b i k = true := by
  cases hb : bit (s.reg .clkg 1 0x040) 0 with
  | false => exact ⟨s.regs, s.flt, if_pos (by simp [hb]), hb, fun _ _ _ h => h⟩
  | true =>
    obtain ⟨u, hu⟩ : ∃ u, u = (s.setReg .clkg 1 0x040 (putBits (s.reg .clkg 1 0x040) 0 0 0)).countSat .clkg 1 0x040 15 8 := ⟨_, rfl⟩
    have hw : Sparse.wf regReset u.regs = true := hu ▸ Sparse.wf_set _ (Sparse.wf_set _ hr)
    have hactive : u.activeRoot = 0 := by
      rw [← ha, hu]
      unfold State.activeRoot State.countSat
      rw [State.reg_setReg_other (by decide), State.reg_setReg_other (by decide)]
    have hlock : bit (u.reg .clkg 1 0x040) 0 = false := by
      rw [hu]
      unfold State.countSat
      dsimp only
      rw [State.reg_setReg (Sparse.wf_set _ hr), State.reg_setReg hr]
      exact (bit_putBits_above _ (by decide) (by decide)).trans (bit_putBits_zero _)
    have herr : ∀ b i k, u.errSet b i k = s.errSet b i k := fun b i k => by
      rw [hu]
      exact (errSet_setReg (clkg_key b i)).trans (errSet_setReg (clkg_key b i))
    have e : s.loseLock true = u.raiseAs .clkg 1 0 .corrected := by
      unfold State.loseLock
      simp only [hb, Bool.not_true, Bool.false_eq_true, if_true, if_false, ← hu, hactive]
      exact if_neg (by decide)
    obtain ⟨m, f, er⟩ := raiseAs_only u .clkg 1 0 .corrected
    refine ⟨m, f, by rw [e, er, hu]; rfl, ?_, fun b i k h => ?_⟩
    · have := raiseAs_reg (s := u) (b := .clkg) (i := 1) (m := 0) (k := .corrected) (c := .clkg) (j := 1) (o := 0x040) (by decide) (by decide) (by decide)
      rw [er] at this
      rw [show ({ s with regs := m } : State).reg .clkg 1 0x040 = u.reg .clkg 1 0x040 from this]
      exact hlock
    · have := errSet_raiseAs_mono (b := .clkg) (i := 1) (n := 0) (k := .corrected) hw ((herr b i k).trans h)
      rwa [er] at this

theorem gateBerth_basins (s : State) (b : Nat) : (s.gateBerth b).basins = s.basins := by
  unfold State.gateBerth
  extract_lets old t
  obtain ⟨m, e⟩ := seeRail_only t b 650
  rw [e]
  rfl

theorem gateClocks_basins (s : State) : s.gateClocks.basins = s.basins := by
  have habort : (s.abortRun false).basins = s.basins := by
    unfold State.abortRun
    split
    · rfl
    · split <;> rfl
  refine (foldl_same State.basins (fun s b => ?_) _ _).trans habort
  split
  · rfl
  · exact gateBerth_basins s b

theorem loseLock_basins (s : State) (x : Bool) : (s.loseLock x).basins = s.basins := by
  have raised : ∀ (t : State) (b : Blk) (i k : Nat) (c : ErrClass), (t.raiseAs b i k c).basins = t.basins := fun t b i k c => by
    obtain ⟨m, f, e⟩ := raiseAs_only t b i k c
    rw [e]
  unfold State.loseLock
  extract_lets i w u v
  have hv : v.basins = s.basins := by
    have hu : u.basins = s.basins := rfl
    unfold v
    split
    · exact hu
    · exact hu
  split
  · rfl
  · split
    · exact (raised ..).trans ((gateClocks_basins v).trans hv)
    · exact (raised ..).trans hv

/-- R407: what the region of a basin loses leaves every basin; a compute berth is DARK and gated, a harbour die's port is down. -/
theorem regionLost_spec (n : Nat) (hb : Sparse.wf (fun _ => ({} : BerthSt)) s.berths = true) :
    (s.regionLost n).basins = s.basins ∧
      (n < 84 → ((s.regionLost n).berth n).role = .dark ∧ ((s.regionLost n).berth n).gated = true) ∧
      (n = 96 → (s.port .a).link ≠ .reset → ((s.regionLost n).port .a).link = .down) ∧
      (n = 97 → (s.port .b).link ≠ .reset → ((s.regionLost n).port .b).link = .down) := by
  have hraise : ∀ (t : State) (b : Blk) (i k : Nat), (t.raise b i k).basins = t.basins := fun t b i k => (SameRegions.raise t b i k).basins
  obtain ⟨m, f, e⟩ := raise_only s .bsn n 2
  have hport : ∀ p, (s.raise .bsn n 2).port p = s.port p := fun p => by rw [e]; cases p <;> rfl
  have hberths : (s.raise .bsn n 2).berths = s.berths := (SameRegions.raise ..).berths
  unfold State.regionLost
  split
  next h =>
    obtain ⟨hrole, hgated, hbasins⟩ := goDark_spec (s := s.raise .bsn n 2) (b := n) (hberths ▸ hb)
    exact ⟨hbasins.trans (hraise ..), fun _ => ⟨hrole, hgated⟩, by omega, by omega⟩
  next h84 =>
  refine ⟨?_, fun h => absurd h h84, ?_, ?_⟩
  · split
    · exact (hraise ..).trans (hraise ..)
    · split
      · exact (losePort_spec ..).1.basins.trans (hraise ..)
      · split
        · exact (losePort_spec ..).1.basins.trans (hraise ..)
        · split
          · exact hraise ..
          · exact (loseLock_basins ..).trans (hraise ..)
  · rintro rfl h
    exact (losePort_spec _ .a).2 (hport .a ▸ h)
  · rintro rfl h
    exact (losePort_spec _ .b).2 (hport .b ▸ h)

/-- R407: a short latches its basin off and no other; a compute berth becomes DARK, a harbour die loses its port. -/
theorem latchOff_spec (hs : Inv s) (hl : (s.basin n).latched = false) (hr : (s.basin n).regulating = true) :
    ((s.latchOff n).basin n).latched = true ∧ ((s.latchOff n).basin n).regulating = false ∧ (∀ k, k ≠ n → (s.latchOff n).basin k = s.basin k) ∧
      (n < 84 → ((s.latchOff n).berth n).role = .dark ∧ ((s.latchOff n).berth n).gated = true ∧ portLive (s.latchOff n) n = false) ∧
      (n = 96 → (s.port .a).link ≠ .reset → ((s.latchOff n).port .a).link = .down) ∧
      (n = 97 → (s.port .b).link ≠ .reset → ((s.latchOff n).port .b).link = .down) := by
  have hg : Good s ((s.shorted n).regionLost n) := good_regionLost (good_setBasin (good_self hs))
  have hbasin : ((s.shorted n).basin n).latched = true ∧ ((s.shorted n).basin n).regulating = false := by
    unfold State.shorted
    rw [basin_setBasin_new fun h => by simpa using congrArg BasinSt.latched h]
    exact ⟨rfl, rfl⟩
  obtain ⟨hbasins, hberth, ha, hb⟩ := regionLost_spec (s := s.shorted n) n hs.berths
  obtain ⟨g, a, bs, m, f, l, d, y, e, hkept⟩ := goOn_spec hg.inv.regs
  have same : ∀ k, ((s.latchOff n).basin k) = (s.shorted n).basin k := fun k => by
    rw [latchOff_regulating hl hr, e]
    exact congrArg (fun b => Sparse.get (fun _ => {}) b k) hbasins
  refine ⟨by rw [same]; exact hbasin.1, by rw [same]; exact hbasin.2, fun k hk => by rw [same]; exact State.basin_setBasin_other hk, ?_, ?_, ?_⟩
  all_goals rw [latchOff_regulating hl hr, e]
  · intro hn
    obtain ⟨hrole, hgated⟩ := hberth hn
    have hsame := hkept n (by rw [hrole]; decide)
    have hdark : (({ (s.shorted n).regionLost n with berths := bs } : State).berth n).role = .dark := hsame ▸ hrole
    refine ⟨hdark, hsame ▸ hgated, ?_⟩
    have : ({ (s.shorted n).regionLost n with berths := bs } : State).dark n = true := by
      unfold State.dark
      rw [hdark]
      rfl
    unfold portLive
    exact Bool.and_eq_false_imp.2 fun h => absurd (this.symm.trans (Bool.not_eq_true' _ ▸ h)) (by decide)
  · exact ha
  · exact hb

/-- R387: neither an error nor what a basin does moves the timeline's place. -/
theorem goOn_regionLost_still {t : State} (h : ∃ m f, t = { s.shorted n with regs := m, flt := f }) (h1 : s.atStage .basins = false)
    (h2 : s.atStage .bist = false) : t.goOn = t := by
  obtain ⟨m, f, rfl⟩ := h
  exact goOn_still h1 h2

/-- R25, R407: a short of a memory basin fails its stack. -/
theorem latchOff_memory (hs : Inv s) (hl : (s.basin n).latched = false) (hr : (s.basin n).regulating = true) (h1 : s.atStage .basins = false)
    (h2 : s.atStage .bist = false) (h84 : 84 ≤ n) (h96 : n < 96) :
    ∃ m f, s.latchOff n = { s.shorted n with regs := m, flt := f } ∧ ({ s with regs := m } : State).errSet .bsn n 2 = true ∧
      ({ s with regs := m } : State).errSet .hbmc (n - 84) 5 = true := by
  obtain ⟨m, f, e, hshort, hm⟩ := raise_sets (s := s.shorted n) (b := .bsn) (i := n) (n := 2) hs.regs rfl (by decide)
  obtain ⟨m', f', e', hstack, -⟩ := raise_sets (s := { s.shorted n with regs := m, flt := f }) (b := .hbmc) (i := n - 84) (n := 5) hm rfl (by decide)
  have hboth := errSet_raise_mono (s := { s.shorted n with regs := m, flt := f }) (b := .hbmc) (i := n - 84) (n := 5) hm hshort
  have hlost : (s.shorted n).regionLost n = { s.shorted n with regs := m', flt := f' } := by
    unfold State.regionLost
    rw [if_neg (by omega), if_pos h96, e, e']
  rw [e'] at hboth
  exact ⟨m', f', by rw [latchOff_regulating hl hr, hlost, goOn_regionLost_still ⟨m', f', rfl⟩ h1 h2], hboth, hstack⟩

/-- R407, R417: a short of a control die's basin is reported, and takes the lock of the standby root with that root's basin. -/
theorem latchOff_control (hs : Inv s) (hl : (s.basin n).latched = false) (hr : (s.basin n).regulating = true) (h1 : s.atStage .basins = false)
    (h2 : s.atStage .bist = false) (h98 : 98 ≤ n) (h99 : n ≤ 99) (ha : n = 99 → s.activeRoot = 0) :
    ∃ m f, s.latchOff n = { s.shorted n with regs := m, flt := f } ∧ ({ s with regs := m } : State).errSet .bsn n 2 = true ∧
      (n = 99 → bit (({ s with regs := m } : State).reg .clkg 1 0x040) 0 = false) := by
  obtain ⟨m, f, e, hshort, hm⟩ := raise_sets (s := s.shorted n) (b := .bsn) (i := n) (n := 2) hs.regs rfl (by decide)
  rcases (show n = 98 ∨ n = 99 by omega) with rfl | rfl
  · have hlost : (s.shorted 98).regionLost 98 = { s.shorted 98 with regs := m, flt := f } := e
    exact ⟨m, f, by rw [latchOff_regulating hl hr, hlost, goOn_regionLost_still ⟨m, f, rfl⟩ h1 h2], hshort, by omega⟩
  · have hactive : ({ s.shorted 99 with regs := m, flt := f } : State).activeRoot = 0 := by
      have hkept : ((s.shorted 99).raise .bsn 99 2).reg .clkg 2 0x040 = s.reg .clkg 2 0x040 := raise_reg_at (by decide) (by decide) (by decide)
      rw [e] at hkept
      rw [← ha rfl]
      unfold State.activeRoot
      rw [hkept]
    obtain ⟨m', f', e', hlock, hmono⟩ := loseLock_standby (s := { s.shorted 99 with regs := m, flt := f }) hm hactive
    have hlost : (s.shorted 99).regionLost 99 = { s.shorted 99 with regs := m', flt := f' } := by
      rw [← e']
      exact congrArg (State.loseLock · true) e
    exact ⟨m', f', by rw [latchOff_regulating hl hr, hlost, goOn_regionLost_still ⟨m', f', rfl⟩ h1 h2], hmono _ _ _ hshort, fun _ => hlock⟩

/-- R406: when the failure of a phase is no news: the basin lacks the phase, has lost it, or does not regulate. -/
def State.phaseGone (s : State) (n i : Nat) : Prop :=
  phaseCount n ≤ i ∨ i ∈ (s.basin n).phasesLost ∨ (s.basin n).latched = true ∨ (s.basin n).regulating = false

/-- R406: the basin with one more phase lost. -/
def State.phaseLost (s : State) (n i : Nat) : State := s.setBasin n { s.basin n with phasesLost := (s.basin n).phasesLost ++ [i] }

theorem phaseGone_iff {i : Nat} :
    (decide (phaseCount n ≤ i) || (s.basin n).phasesLost.contains i || (s.basin n).latched || !(s.basin n).regulating) = true ↔ s.phaseGone n i := by
  simp only [Bool.or_eq_true, decide_eq_true_eq, List.contains_iff_mem, Bool.not_eq_true', or_assoc]
  rfl

theorem losePhase_gone {i : Nat} (h : s.phaseGone n i) : s.losePhase n i = s := if_pos (phaseGone_iff.2 h)

/-- R406: the first lost phase of a basin is reported. -/
theorem losePhase_first {i : Nat} (hr : Sparse.wf regReset s.regs = true) (h : ¬ s.phaseGone n i) (h0 : (s.basin n).phasesLost = []) :
    ∃ m f, s.losePhase n i = { s.phaseLost n i with regs := m, flt := f } ∧ ({ s with regs := m } : State).errSet .bsn n 0 = true := by
  obtain ⟨m, f, e, herr, -⟩ := raise_sets (s := s.phaseLost n i) (b := .bsn) (i := n) (n := 0) hr rfl (by decide)
  refine ⟨m, f, ?_, herr⟩
  unfold State.losePhase
  rw [if_neg (mt phaseGone_iff.1 h), ← e, h0]
  unfold State.phaseLost
  rw [h0]
  rfl

/-- R406: the second lost phase of a basin is reported; it caps the half of a compute berth in service or spare, and halves a stack's rate. -/
theorem losePhase_second {i : Nat} (hr : Sparse.wf regReset s.regs = true) (h : ¬ s.phaseGone n i) (h1 : (s.basin n).phasesLost.length = 1) :
    ∃ m f, ({ s with regs := m } : State).errSet .bsn n 1 = true ∧
      if n < 84 ∧ ((s.berth n).role = .inService ∨ (s.berth n).role = .spare) then
        s.losePhase n i = ({ s.phaseLost n i with regs := m, flt := f } : State).setHalf (halfOf n)
          { s.half (halfOf n) with phaseCap := (s.half (halfOf n)).phaseCap ++ [n] }
      else if 84 ≤ n ∧ n < 96 then
        s.losePhase n i = ({ s.phaseLost n i with regs := m, flt := f } : State).setStack (n - 84) { s.stack (n - 84) with halfRate := true }
      else s.losePhase n i = { s.phaseLost n i with regs := m, flt := f } := by
  have raised : ∀ u : State, Sparse.wf regReset u.regs = true →
      ∃ m f, u.raise .bsn n 1 = { u with regs := m, flt := f } ∧ ({ s with regs := m } : State).errSet .bsn n 1 = true := fun u hu => by
    obtain ⟨m, f, e, herr, -⟩ := raise_sets (s := u) (b := .bsn) (i := n) (n := 1) hu rfl (by decide)
    exact ⟨m, f, e, herr⟩
  obtain ⟨u, hu⟩ : ∃ u, u = s.phaseLost n i := ⟨_, rfl⟩
  have hw : Sparse.wf regReset u.regs = true := hu ▸ hr
  have hhalf : u.half (halfOf n) = s.half (halfOf n) := by rw [hu]; cases halfOf n <;> rfl
  have hstack : u.stack (n - 84) = s.stack (n - 84) := hu ▸ rfl
  have hrole : (u.berth n).role = (s.berth n).role := hu ▸ rfl
  have hlost : s.setBasin n { s.basin n with phasesLost := (s.basin n).phasesLost ++ [i] } = u := hu.symm
  unfold State.losePhase
  rw [if_neg (mt phaseGone_iff.1 h), h1, hlost]
  dsimp only
  rw [hhalf, hstack, hrole, ← hu]
  by_cases h84 : n < 84
  · by_cases hserves : (s.berth n).role = .inService ∨ (s.berth n).role = .spare
    · simp only [h84, hserves, and_self, if_true]
      obtain ⟨c, hc⟩ : ∃ c, c = u.setHalf (halfOf n) { s.half (halfOf n) with phaseCap := (s.half (halfOf n)).phaseCap ++ [n] } := ⟨_, rfl⟩
      obtain ⟨m, e, -, hm⟩ := retarget_keeps c
      have hcapped : Sparse.wf regReset m = true := hm (by rw [hc]; cases halfOf n <;> exact hw)
      obtain ⟨m', f', e', herr⟩ := raised { c with regs := m } hcapped
      refine ⟨m', f', herr, ?_⟩
      rw [← hc, e, e', hc]
      cases halfOf n <;> rfl
    · simp only [h84, hserves, show ¬ 84 ≤ n by omega, false_and, and_false, if_true, if_false]
      obtain ⟨m, f, e, herr⟩ := raised u hw
      exact ⟨m, f, herr, e⟩
  · simp only [h84, false_and, if_false]
    by_cases h96 : n < 96
    · simp only [h96, show 84 ≤ n by omega, and_self, if_true]
      obtain ⟨m, f, e, herr⟩ := raised (u.setStack (n - 84) { s.stack (n - 84) with halfRate := true }) hw
      exact ⟨m, f, herr, e⟩
    · simp only [h96, and_false, if_false]
      obtain ⟨m, f, e, herr⟩ := raised u hw
      exact ⟨m, f, herr, e⟩

/-- R406, R407: a further lost phase of a basin is a short. -/
theorem losePhase_further {i : Nat} (h : ¬ s.phaseGone n i) (h2 : 2 ≤ (s.basin n).phasesLost.length) :
    s.losePhase n i = (s.phaseLost n i).latchOff n := by
  unfold State.losePhase
  rw [if_neg (mt phaseGone_iff.1 h)]
  dsimp only
  split
  · omega
  · omega
  · rfl

theorem bits_field_rail {v : Nat} (h : v < 1024) : bits (field v 0) 9 0 = v := by
  unfold bits field
  simp only [BitVec.toNat_ofNat]
  omega

/-- R405: a rail sample is kept when it is the lowest, and is an error more than 60 mV below the setpoint. -/
theorem underv_spec (hs : Inv s) (n : Basin) (mv : BitVec 10) (hl : (s.basin n.val).latched = false)
    (hreg : (s.basin n.val).regulating = true) :
    ∃ m f, execUnderv n mv s = .next { s with regs := m, flt := f } ∧
      bits (({ s with regs := m } : State).reg .bsn n.val 0x050) 9 0 = min mv.toNat (bits (s.reg .bsn n.val 0x050) 9 0) ∧
      (mv.toNat + 60 < s.setpoint n.val → ({ s with regs := m } : State).errSet .bsn n.val 3 = true) ∧
      (s.setpoint n.val ≤ mv.toNat + 60 → f = s.flt) := by
  obtain ⟨m, e⟩ := seeRail_only s n.val mv.toNat
  have hm : Sparse.wf regReset m = true := by
    have h := (good_seeRail (n := n.val) (mv := mv.toNat) (good_self hs)).inv.regs
    rwa [e] at h
  have hmin : bits (({ s with regs := m } : State).reg .bsn n.val 0x050) 9 0 = min mv.toNat (bits (s.reg .bsn n.val 0x050) 9 0) := by
    rw [← e, reg_seeRail _ _ hs.regs]
    split
    next h => rw [bits_field_rail mv.isLt, Nat.min_eq_left (Nat.le_of_lt h)]
    next h => rw [Nat.min_eq_right (Nat.not_lt.1 h)]
  have hexec : execUnderv n mv s = .next (if mv.toNat + 60 < s.setpoint n.val then ({ s with regs := m } : State).raise .bsn n.val 3 else { s with regs := m }) := by
    unfold execUnderv
    rw [if_neg (by simp [hl, hreg]), e]
  by_cases hlow : mv.toNat + 60 < s.setpoint n.val
  · obtain ⟨m', f', e', herr, -⟩ := raise_sets (s := { s with regs := m }) (b := .bsn) (i := n.val) (n := 3) hm rfl (by decide)
    have hkept : (({ s with regs := m } : State).raise .bsn n.val 3).reg .bsn n.val 0x050 = ({ s with regs := m } : State).reg .bsn n.val 0x050 :=
      raise_reg_at (by decide) (by decide) (fun h => by have := regKey_mod (b := .bsn) (i := n.val) (o := 0x050) (by decide); omega)
    rw [e'] at hkept
    refine ⟨m', f', by rw [hexec, if_pos hlow, e'], ?_, fun _ => herr, fun h => absurd hlow (by omega)⟩
    exact (congrArg (fun w => bits w 9 0) hkept).trans hmin
  · exact ⟨m, s.flt, by rw [hexec, if_neg hlow], hmin, fun h => absurd h hlow, fun _ => rfl⟩

end

/-- Settles O53: what the laws of a lost phase, a short and a rail sample give for each command. -/
theorem basinsAndPlate : Obligations.BasinsAndPlate := by
  intro s n hs
  have hr : Sparse.wf regReset s.regs = true := hs.regs
  refine ⟨?_, ?_, ?_, ?_, ?_, ?_, ?_⟩
  · exact (apply_ite Host.Outcome.next ..).trans rfl
  · split
    next h =>
      obtain ⟨m, f, e, herr, -⟩ := raise_sets (s := { s with plateLost := true }) (b := .bsn) (i := 98) (n := 6) hr rfl (by decide)
      exact ⟨m, f, congrArg _ ((if_pos (by simp [h.1, h.2])).trans e), herr⟩
    next h => exact congrArg _ (if_neg fun hc => h (by simpa using hc))
  · intro i
    refine ⟨rfl, fun h => congrArg _ (losePhase_gone h), fun h h0 => ?_, fun h h1 => ?_, fun h h2 => ?_⟩
    · obtain ⟨m, f, e, herr⟩ := losePhase_first hr h h0
      exact ⟨m, f, congrArg _ e, herr⟩
    · obtain ⟨m, f, herr, e⟩ := losePhase_second hr h h1
      refine ⟨m, f, herr, ?_⟩
      split
      next hc => rw [if_pos hc] at e; exact congrArg _ e
      next hc =>
        rw [if_neg hc] at e
        split
        next hc => rw [if_pos hc] at e; exact congrArg _ e
        next hc => rw [if_neg hc] at e; exact congrArg _ e
    · exact congrArg _ (losePhase_further h h2)
  · exact fun h => congrArg _ (latchOff_off h)
  · intro hl hreg
    refine ⟨⟨_, rfl, latchOff_spec hs hl hreg⟩, fun h84 h96 ⟨h1, h2⟩ => ?_, fun h98 ⟨h1, h2⟩ ha => ?_⟩
    · obtain ⟨m, f, e, herr⟩ := latchOff_memory hs hl hreg h1 h2 h84 h96
      exact ⟨m, f, congrArg _ e, herr⟩
    · obtain ⟨m, f, e, herr⟩ := latchOff_control hs hl hreg h1 h2 h98 (Nat.le_of_lt_succ n.isLt) ha
      exact ⟨m, f, congrArg _ e, herr⟩
  · intro mv
    refine ⟨fun h => congrArg _ (if_pos ?_), fun hl hreg => underv_spec hs n mv hl hreg⟩
    rcases h with h | h <;> simp [h]
  · show execPhase2Timeout n s = _
    unfold execPhase2Timeout
    simp only [List.contains_iff_mem]
    exact apply_ite Host.Outcome.next ..

end Sys2Proof.Machine
end

section
/-! PROOF. Resets and the first second (O52): basins, BIST, firmware, ready, the start of a warm reset and T0. -/

namespace Sys2Proof.Machine

section
/-! The stages of the first second: basins, BIST and training (R387, R418). -/

variable {s : State} {n : Nat}

theorem goOn_bist (h : s.atStage .bist = true) : s.goOn = s.endBist := by
  have hstage : s.atStage .basins = false := by
    simp only [State.atStage, Bool.and_eq_true, beq_iff_eq] at h ⊢
    simp [h.1.1.2]
  unfold State.goOn
  simp [hstage, h]

/-- R387: while a berth or a stack has yet to end its training, only the stage goes on, once every basin is up or latched off. -/
theorem goOn_basins (h : s.atStage .basins = true) (ht : s.bistOver = false) : s.goOn.stage = if s.basinsOver then .bist else .basins := by
  have hstage : s.stage = .basins := by
    simp only [State.atStage, Bool.and_eq_true, beq_iff_eq] at h
    exact h.1.1.2
  have hbist : s.atStage .bist = false := by simp [State.atStage, hstage]
  unfold State.goOn
  simp only [h, Bool.true_and]
  split
  next => rw [endBist_waits (show ({ s with stage := .bist } : State).bistOver = false from ht), ite_self]
  next => rw [hbist, if_neg (by decide), hstage]

/-- R418: whether a basin is up or latched off. -/
def State.basinSettled (s : State) (n : Nat) : Prop := (s.basin n).regulating = true ∨ (s.basin n).latched = true

theorem basinUp_settled (h : s.basinSettled n) : s.basinUp n = s := by
  refine if_pos ?_
  rcases h with h | h <;> simp [h]

/-- R418: a basin that starts. -/
def State.basinStarted (s : State) (n : Nat) : State := s.setBasin n { s.basin n with regulating := true }

/-- R344, R418: whether the port of a basin's berth listens once the basin is up. -/
def State.listens (s : State) (n : Nat) : Prop := n < 84 ∧ (s.zport n).st = .down ∧ (s.zport n).role ≠ 15 ∧ n ∉ s.uncabled

/-- R344, R418: what a basin that starts changes: the basin, its rail's registers and its port. -/
theorem basinUp_new (h : ¬ s.basinSettled n) : ∃ m, (s.listens n ∧ s.basinUp n = ({ s.basinStarted n with regs := m } : State).setZport n { s.zport n with st := .listen }) ∨
    (¬ s.listens n ∧ s.basinUp n = { s.basinStarted n with regs := m }) := by
  obtain ⟨m, e⟩ := seeRail_only (s.basinStarted n) n 650
  have hnew : ((s.basin n).regulating || (s.basin n).latched) = false := by
    simpa only [State.basinSettled, not_or, Bool.not_eq_true, Bool.or_eq_false_iff] using h
  have hcond : (n < 84 ∧ (s.zport n).st = .down ∧ (s.zport n).role ≠ 15 ∧ s.uncabled.contains n = false) ↔ s.listens n := by simp [State.listens]
  refine ⟨m, (em (s.listens n)).imp (fun hl => ⟨hl, ?_⟩) (fun hl => ⟨hl, ?_⟩)⟩
  all_goals
    unfold State.basinUp
    simp only [hnew, Bool.false_eq_true, if_false]
    rw [show s.setBasin n { s.basin n with regulating := true } = s.basinStarted n from rfl, e]
  · exact if_pos (hcond.2 hl)
  · exact if_neg (mt hcond.1 hl)

theorem basinUp_only (s : State) (n : Nat) : ∃ bs m zs, s.basinUp n = { s with basins := bs, regs := m, zports := zs } := by
  by_cases h : s.basinSettled n
  · exact ⟨s.basins, s.regs, s.zports, basinUp_settled h⟩
  · obtain ⟨m, ⟨-, e⟩ | ⟨-, e⟩⟩ := basinUp_new h
    · exact ⟨_, m, _, e⟩
    · exact ⟨_, m, s.zports, e⟩

theorem basin_basinUp_other {k : Nat} (hk : k ≠ n) : (s.basinUp n).basin k = s.basin k := by
  by_cases h : s.basinSettled n
  · rw [basinUp_settled h]
  · have started : (s.basinStarted n).basin k = s.basin k := State.basin_setBasin_other hk
    obtain ⟨m, ⟨-, e⟩ | ⟨-, e⟩⟩ := basinUp_new h <;> rw [e] <;> exact started

theorem zport_basinUp_other {k : Nat} (hk : k ≠ n) : (s.basinUp n).zport k = s.zport k := by
  by_cases h : s.basinSettled n
  · rw [basinUp_settled h]
  · obtain ⟨m, ⟨-, e⟩ | ⟨-, e⟩⟩ := basinUp_new h <;> rw [e]
    · exact State.zport_setZport_other hk
    · rfl

theorem basinSettled_basinUp (s : State) (n : Nat) : (s.basinUp n).basinSettled n := by
  by_cases h : s.basinSettled n
  · rwa [basinUp_settled h]
  · have started : (s.basinStarted n).basinSettled n := by
      unfold State.basinSettled State.basinStarted
      rw [basin_setBasin_new fun h => by simpa using congrArg BasinSt.regulating h]
      exact Or.inl rfl
    obtain ⟨m, ⟨-, e⟩ | ⟨-, e⟩⟩ := basinUp_new h <;> rw [e] <;> exact started

theorem basinSettled_basinUp_mono {k : Nat} (h : s.basinSettled k) : (s.basinUp n).basinSettled k := by
  by_cases hk : k = n
  · exact hk ▸ basinSettled_basinUp s n
  · unfold State.basinSettled
    rwa [basin_basinUp_other hk]

/-- A port that is written reads as written when that is not how reset leaves it. -/
theorem zport_setZport_new {x : ZPort} (h : x ≠ zportReset n) : (s.setZport n x).zport n = x := Sparse.get_set_new s.zports h

/-- R344, R418: a port that a basin's start lets listen. -/
theorem basinUp_listens (h : ¬ s.basinSettled n) (hl : s.listens n) : ((s.basinUp n).zport n).st = .listen := by
  obtain ⟨m, ⟨-, e⟩ | ⟨hn, -⟩⟩ := basinUp_new h
  · rw [e, zport_setZport_new fun h => by simpa [zportReset] using congrArg ZPort.st h]
  · exact absurd hl hn

/-- R418: a list of basins comes up: each of them settles, no other changes, and the ports of the new ones listen. -/
theorem basinsUp_spec (l : List Nat) (s : State) :
    (∃ bs m zs, l.foldl State.basinUp s = { s with basins := bs, regs := m, zports := zs }) ∧
      (∀ n, s.basinSettled n ∨ n ∈ l → (l.foldl State.basinUp s).basinSettled n) ∧
      (∀ n, n ∉ l → (l.foldl State.basinUp s).basin n = s.basin n) ∧
      (∀ n, s.basinSettled n → (s.zport n).st = .listen → ((l.foldl State.basinUp s).zport n).st = .listen) ∧
      ∀ n ∈ l, ¬ s.basinSettled n → s.listens n → ((l.foldl State.basinUp s).zport n).st = .listen := by
  induction l generalizing s with
  | nil => exact ⟨⟨s.basins, s.regs, s.zports, rfl⟩, fun n h => h.resolve_right List.not_mem_nil, fun _ _ => rfl, fun _ _ h => h, fun n h => absurd h List.not_mem_nil⟩
  | cons k l ih =>
    obtain ⟨hold, hsettled, hbasin, hlistens, hnew⟩ := ih (s.basinUp k)
    obtain ⟨bs, m, zs, e⟩ := basinUp_only s k
    have kept : ∀ n, s.basinSettled n → (s.basinUp k).zport n = s.zport n := fun n h => by
      by_cases hn : n = k
      · rw [basinUp_settled (hn ▸ h)]
      · exact zport_basinUp_other hn
    refine ⟨?_, fun n h => hsettled n ?_, fun n h => ?_, fun n h hz => hlistens n (basinSettled_basinUp_mono h) (kept n h ▸ hz), fun n h hs hl => ?_⟩
    · obtain ⟨bs', m', zs', e'⟩ := hold
      exact ⟨bs', m', zs', by rw [List.foldl_cons, e', e]⟩
    · rcases h with h | h
      · exact Or.inl (basinSettled_basinUp_mono h)
      · rcases List.mem_cons.1 h with rfl | h
        · exact Or.inl (basinSettled_basinUp s n)
        · exact Or.inr h
    · rw [List.mem_cons, not_or] at h
      exact (hbasin n h.2).trans (basin_basinUp_other h.1)
    · by_cases hn : n = k
      · subst hn
        exact hlistens n (basinSettled_basinUp s n) (basinUp_listens hs hl)
      · have hz := zport_basinUp_other (s := s) hn
        have hs' : ¬ (s.basinUp k).basinSettled n := by
          unfold State.basinSettled
          rwa [basin_basinUp_other hn]
        refine hnew n ((List.mem_cons.1 h).resolve_left hn) hs' ?_
        unfold State.listens
        rw [hz, e]
        exact hl

/-- R387, R418: a wave brings up its basins and lets their ports listen; the timeline goes on to BIST with the last basin. -/
theorem basinWave_spec (hs : Inv s) (w : Fin 12) (h : s.atStage .basins = true) :
    ∃ t, execBasinWave w s = .next t ∧ (∀ n ∈ waveBasins w.val, t.basinSettled n) ∧ (∀ n, n ∉ waveBasins w.val → t.basin n = s.basin n) ∧
      (∀ n ∈ waveBasins w.val, ¬ s.basinSettled n → s.listens n → (t.zport n).st = .listen) ∧
      (s.bistOver = false → t.stage = if t.basinsOver then .bist else .basins) := by
  obtain ⟨u, hu⟩ : ∃ u, u = (waveBasins w.val).foldl State.basinUp s := ⟨_, rfl⟩
  obtain ⟨⟨bs, m, zs, e⟩, hsettled, hbasin, -, hlistens⟩ := basinsUp_spec (waveBasins w.val) s
  have hgood : Good s u := hu ▸ good_foldl _ (good_self hs) fun _ _ => good_basinUp
  rw [← hu] at e hsettled hbasin hlistens
  obtain ⟨g, a, b, m', f, l, d, y, e', -⟩ := goOn_spec hgood.inv.regs
  have sameBasins : ∀ n, u.goOn.basin n = u.basin n := fun n => by rw [e']; rfl
  have samePorts : ∀ n, u.goOn.zport n = u.zport n := fun n => by rw [e']; rfl
  refine ⟨u.goOn, ?_, fun n hn => ?_, fun n hn => (sameBasins n).trans (hbasin n hn), fun n hn h1 h2 => ?_, fun hover => ?_⟩
  · unfold execBasinWave
    rw [if_neg (by simp [h]), hu]
  · unfold State.basinSettled
    rw [sameBasins]
    exact hsettled n (Or.inr hn)
  · rw [samePorts]
    exact hlistens n hn h1 h2
  · have hover' : u.basinsOver = u.goOn.basinsOver := by
      unfold State.basinsOver
      simp only [sameBasins]
    rw [← hover']
    exact goOn_basins (by rw [e]; exact h) (by rw [e]; exact hover)

/-- R14, R15, R25, R387: what the end of a training comes to, once it has been noted. -/
def State.TrainingEnds (s u : State) (r : Res) : Prop :=
  (u.bistOver = false → r = .next u) ∧
    (u.bistOver = true → ((List.range 12).any u.stackLost = true → ∃ m f, r = .next { u with alert := true, regs := m, flt := f } ∧
        ∀ k, k < 12 → u.stackLost k = true → ({ u with regs := m } : State).errSet .hbmc k 5 = true) ∧
      ((List.range 12).any u.stackLost = false → ∃ t, r = .next t ∧ t.stage = .clearing ∧ t.hbm = s.hbm ∧
        t.flt.exec = (t.inServiceOf .west == 40 && t.inServiceOf .east == 40)))

theorem trainingEnds {u : State} (hr : Sparse.wf regReset u.regs = true) (h : u.atStage .bist = true) (hm : u.hbm = s.hbm) :
    s.TrainingEnds u (.next u.goOn) := by
  rw [goOn_bist h]
  refine ⟨fun hover => by rw [endBist_waits hover], fun hover => ⟨fun hl => ?_, fun hl => ?_⟩⟩
  · obtain ⟨m, f, e, herr⟩ := endBist_lost hr hover hl
    exact ⟨m, f, congrArg _ e, herr⟩
  · obtain ⟨bs, l, d, g, f, e, hexec, -⟩ := endBist_binds hover hl
    exact ⟨_, rfl, by rw [e], by rw [e]; exact hm, by rw [e]; exact hexec⟩

theorem bistTrainingDone_berth (hs : Inv s) (b : Berth) (ok : Bool) (h : s.atStage .bist = true) (ht : (s.berth b.val).trained = false)
    (hd : s.dark b.val = false) : s.TrainingEnds (s.setBerth b.val { s.berth b.val with
      trained := true, storeOk := ok, role := if ok then .spare else .retired, removed := s.repairMap b.val, store := [], held := [], holdSignal := false
      badLines := [], rowErrors := [] }) (execBistTrainingDone (.berth b) ok s) := by
  have e : execBistTrainingDone (.berth b) ok s = .next (s.setBerth b.val { s.berth b.val with
      trained := true, storeOk := ok, role := if ok then .spare else .retired, removed := s.repairMap b.val, store := [], held := [], holdSignal := false
      badLines := [], rowErrors := [] }).goOn := by
    unfold execBistTrainingDone
    refine congrArg _ ((if_neg ?_).trans (if_neg ?_))
    · simp [h]
    · simp [ht, hd]
  rw [e]
  exact trainingEnds hs.regs h rfl

theorem bistTrainingDone_stack (hs : Inv s) (k : Stack) (ok : Bool) (h : s.atStage .bist = true) (ht : (s.stack k.val).trained = false) :
    s.TrainingEnds ((if ok then s else s.raise .hbmc k.val 5).setStack k.val { s.stack k.val with
      trained := true, failed := !ok, retired := (s.flash.retired.filter (fun p => p / 2 ^ 25 = k.val)).map (· % 2 ^ 25)
      softRepaired := (s.flash.softRepaired.filter (fun p => p / 2 ^ 25 = k.val)).map (· % 2 ^ 25) }) (execBistTrainingDone (.stack k) ok s) := by
  have e : execBistTrainingDone (.stack k) ok s = .next ((if ok then s else s.raise .hbmc k.val 5).setStack k.val { s.stack k.val with
      trained := true, failed := !ok, retired := (s.flash.retired.filter (fun p => p / 2 ^ 25 = k.val)).map (· % 2 ^ 25)
      softRepaired := (s.flash.softRepaired.filter (fun p => p / 2 ^ 25 = k.val)).map (· % 2 ^ 25) }).goOn := by
    unfold execBistTrainingDone
    refine congrArg _ ((if_neg ?_).trans ((if_neg ?_).trans ?_))
    · simp [h]
    · simp [ht]
    cases ok
    · obtain ⟨m, f, er⟩ := raise_only s .hbmc k.val 5
      simp [er]
    · rfl
  rw [e]
  cases ok
  · obtain ⟨m, f, er, hm⟩ := raise_wf .hbmc k.val 5 hs.regs
    rw [if_neg Bool.false_ne_true, er]
    exact trainingEnds (u := State.setStack { s with regs := m, flt := f } k.val _) hm h rfl
  · exact trainingEnds (u := State.setStack s k.val _) hs.regs h rfl

end

section
/-! Firmware, the host parts and ready (R384, R387, R470). -/

variable {s : State}

/-- R417, R470: where the timeline stands once the clock roots have been tried. -/
def State.clocked (s : State) : State := { s with stage := if s.refLost then .holdClock else .basins, alert := s.refLost }

theorem lockClocks_spec (hr : Sparse.wf regReset s.regs = true) :
    ∃ m, s.lockClocks = { s.clocked with regs := m } ∧ Sparse.wf regReset m = true := by
  have lockOne : ∀ (t : State) (i : Nat), Sparse.wf regReset t.regs = true →
      ∃ m, (if i = t.activeRoot ∨ bits (t.reg .clkg i 0x040) 15 8 = 0 then t.setReg .clkg i 0x040 (putBits (t.reg .clkg i 0x040) 0 0 1) else t) =
        { t with regs := m } ∧ Sparse.wf regReset m = true := fun t i ht => by
    split
    · exact setReg_wf .clkg i 0x040 _ ht
    · exact ⟨t.regs, rfl, ht⟩
  unfold State.lockClocks State.clocked
  cases hlost : s.refLost with
  | true => exact ⟨s.regs, rfl, hr⟩
  | false =>
    obtain ⟨m, e, hm⟩ := lockOne s 0 hr
    obtain ⟨m', e', hm'⟩ := lockOne { s with regs := m } 1 hm
    refine ⟨m', ?_, hm'⟩
    simp only [Bool.false_eq_true, if_false]
    rw [e, e', hlost]

end

section
/-! Firmware (R470). -/

variable {s : State}

/-- R470, R480: a module whose firmware runs from a copy, before the flags of the boot are set. -/
def State.booted (s : State) (b : Bool) (m : List (Nat × Word)) (f : Flt) : State :=
  { s with
    fwStarted := true, draws := s.draws + 1, stage := if s.refLost then .holdClock else .basins, alert := s.refLost, regs := m, flt := f
    secu := { s.secu with
      running := some b, svn := copySvn (s.fwCopy b), fwDigest := sha256 (s.fwCopy b), nonce := Config.nonce s.draws, bottom := s.flash.nextFree / 1024 + 1 } }

theorem runFirmware_spec (hr : Sparse.wf regReset s.regs = true) (b : Bool) :
    ∃ m, s.runFirmware b = s.booted b m s.flt ∧ Sparse.wf regReset m = true :=
  lockClocks_spec (s := State.drawn { s with
    fwStarted := true, secu := { s.secu with
      running := some b, svn := copySvn (s.fwCopy b), fwDigest := sha256 (s.fwCopy b), nonce := Config.nonce s.draws, bottom := s.flash.nextFree / 1024 + 1 } }) hr

/-- R470: the other copy runs, with its flag set. -/
theorem runFirmware_other (hr : Sparse.wf regReset s.regs = true) (b : Bool) :
    ∃ m f, (s.runFirmware b).raise .secu 0 0 = s.booted b m f ∧ ({ s with regs := m } : State).errSet .secu 0 0 = true := by
  obtain ⟨m, e, hm⟩ := runFirmware_spec hr b
  obtain ⟨m', f, e', herr, -⟩ := raise_sets (s := s.booted b m s.flt) (b := .secu) (i := 0) (n := 0) hm rfl (by decide)
  exact ⟨m', f, by rw [e, e']; rfl, herr⟩

end

section
/-! The host parts, ready and the standing image (R384, R387, R498). -/

variable {s t : State} {m : Manifest} {e : Nat × List Byte}

theorem placeShard_stage (s : State) (d : ShardPlace) (off : Nat) (refill : Bool) (data : List Byte) : (s.placeShard d off refill data).stage = s.stage := by
  unfold State.placeShard
  refine (foldl_same State.stage (f := fun s a => s.toBuffer a (.toTier a data)) (fun _ _ => rfl) _ _).trans ?_
  split
  · rfl
  · split
    · rfl
    · split
      · rfl
      · unfold State.pagerWrite
        split
        · rfl
        · obtain ⟨m, f, e⟩ := raise_only s .stor ‹Nat› 6
          rw [e]

theorem standShard_stage (h : s.standShard m e = some t) : t.stage = s.stage := by
  unfold State.standShard at h
  split at h
  · rw [← Option.some.inj h]
  · dsimp only at h
    split at h
    · exact absurd h (by simp)
    · rw [← Option.some.inj h]
      exact placeShard_stage ..

theorem standProgram_stage (h : s.standProgram m e = some t) : t.stage = s.stage := by
  unfold State.standProgram at h
  split at h
  · rw [← Option.some.inj h]
  · split at h
    · exact absurd h (by simp)
    · rw [← Option.some.inj h]
      rfl

theorem standAll_stage {f : State → Nat × List Byte → Option State} (hf : ∀ s e t, f s e = some t → t.stage = s.stage) (l : List (Nat × List Byte))
    {s t : State} (h : standAll f l s = some t) : t.stage = s.stage := by
  induction l generalizing s with
  | nil => rw [← Option.some.inj h]
  | cons e l ih =>
    unfold standAll at h
    split at h
    next u hu => exact (ih h).trans (hf s e u hu)
    next => exact absurd h (by simp)

theorem image_setImage_new {i : Nat} {x : ImageSt} (h : x ≠ {}) : (s.setImage i x).image i = x := Sparse.get_set_new s.images h

/-- R384: a standing image that loads is READY in slot 7, and the timeline stands where it stood. -/
theorem standLoad_spec (h : s.standLoad m = some t) : t.stage = s.stage ∧ (t.image 7).st = .ready := by
  unfold State.standLoad at h
  dsimp only at h
  split at h
  · exact absurd h (by simp)
  next u hu =>
    split at h
    · exact absurd h (by simp)
    next v hv =>
      split at h
      · rw [← Option.some.inj h]
        have programs := standAll_stage (f := fun s e => s.standProgram m e) (fun _ _ _ => standProgram_stage) _ hu
        have shards := standAll_stage (f := fun s e => s.standShard m e) (fun _ _ _ => standShard_stage) _ hv
        refine ⟨shards.trans programs, ?_⟩
        have hne : ({ v.image 7 with st := .ready } : ImageSt) ≠ {} := fun h => by simpa using congrArg ImageSt.st h
        exact congrArg ImageSt.st (image_setImage_new hne)
      · exact absurd h (by simp)

theorem reportLoad_only (s : State) (i k : Nat) (x : LoadFault) : ∃ r, s.reportLoad i k x = { s with regs := r } := by
  unfold State.reportLoad State.setReg
  exact ⟨_, rfl⟩

/-- R57: the report of a standing image that failed changes registers alone. -/
theorem reportStanding_only (s : State) (m : Manifest) : ∃ r, s.reportStanding m = { s with regs := r } := by
  unfold State.reportStanding
  dsimp only
  split
  · exact ⟨s.regs, rfl⟩
  · split
    · exact ⟨s.regs, rfl⟩
    · split
      · exact ⟨s.regs, rfl⟩
      · generalize loadFault _ _ _ = x
        cases x with
        | none => exact ⟨s.regs, rfl⟩
        | some x => exact reportLoad_only ..

/-- R384, R473: a standing image ends READY in slot 7, or only registers and the fault handler's record change. -/
theorem standing_spec (s : State) : s.standing.stage = s.stage ∧ ((s.standing.image 7).st = .ready ∨ ∃ m f, s.standing = { s with regs := m, flt := f }) := by
  have refused : ∀ t : State, (∃ m f, t = { s with regs := m, flt := f }) → t.stage = s.stage ∧ ((t.image 7).st = .ready ∨ ∃ m f, t = { s with regs := m, flt := f }) := by
    rintro _ ⟨m, f, rfl⟩
    exact ⟨rfl, Or.inr ⟨m, f, rfl⟩⟩
  unfold State.standing
  split
  next c x _ =>
    split
    · split
      · exact refused _ (raise_only ..)
      · split
        next t ht =>
          obtain ⟨hstage, hst⟩ := standLoad_spec ht
          exact ⟨hstage, Or.inl hst⟩
        next =>
          obtain ⟨r, e⟩ := reportStanding_only s _
          rw [e]
          exact refused _ (raise_only { s with regs := r } ..)
    · exact refused _ (raise_only ..)
    · exact refused _ (raise_only ..)

end

section
/-! The start of a warm reset (R385, R386). -/

variable {s : State} {z : Nat} {m : CtlMsg}

theorem portOut_sendCtl_mono (s : State) (z : Nat) (m : CtlMsg) : s.portOut ⊆ (s.sendCtl z m).portOut := by
  unfold State.sendCtl
  dsimp only
  split
  · exact List.Subset.refl _
  · split
    · exact List.Subset.refl _
    · exact List.subset_append_left ..

/-- R339, R354: a message leaves at once by a port that carries it while its window has room and none waits. -/
theorem mem_portOut_sendCtl (hf : s.fenced z = false) (hu : (s.zport z).unacked < 4095) (hw : (s.zport z).waiting = []) :
    (z, m) ∈ (s.sendCtl z m).portOut := by
  unfold State.sendCtl
  dsimp only
  rw [hf, Bool.false_and, if_neg Bool.false_ne_true, if_neg (by rw [hw]; simp; omega)]
  exact List.mem_append_right _ List.mem_cons_self

theorem zport_sendCtl_other {y : Nat} (h : y ≠ z) : (s.sendCtl z m).zport y = s.zport y := by
  unfold State.sendCtl
  dsimp only
  split
  · rfl
  · split
    · exact State.zport_setZport_other h
    · exact State.zport_setZport_other h

theorem fenced_sendCtl_other {y : Nat} (h : y ≠ z) : (s.sendCtl z m).fenced y = s.fenced y := by
  have hz := zport_sendCtl_other (s := s) (m := m) h
  obtain ⟨p, o, e⟩ := sendCtl_only s z m
  unfold State.fenced
  rw [hz, e]
  rfl

/-- R386: a message sent by each of several ports leaves by those that carry it at once. -/
theorem mem_portOut_sendAll (m : CtlMsg) (l : List Nat) (hl : l.Nodup) (s : State) (hz : z ∈ l) (hf : s.fenced z = false) (hu : (s.zport z).unacked < 4095)
    (hw : (s.zport z).waiting = []) : (z, m) ∈ (l.foldl (fun s z => s.sendCtl z m) s).portOut := by
  induction l generalizing s with
  | nil => exact absurd hz List.not_mem_nil
  | cons k l ih =>
    obtain ⟨hk, hl⟩ := List.nodup_cons.1 hl
    by_cases h : z = k
    · subst h
      exact foldl_rel (R := fun s t => s.portOut ⊆ t.portOut) (fun _ => List.Subset.refl _) List.Subset.trans
        (f := fun s z => s.sendCtl z m) (fun s z => portOut_sendCtl_mono s z m) l _ (mem_portOut_sendCtl hf hu hw)
    · have kept := zport_sendCtl_other (s := s) (m := m) h
      exact ih hl _ ((List.mem_cons.1 hz).resolve_left h) ((fenced_sendCtl_other h).trans hf) (kept ▸ hu) (kept ▸ hw)

theorem sendAll_only (m : CtlMsg) (l : List Nat) (s : State) : ∃ p o, l.foldl (fun s z => s.sendCtl z m) s = { s with zports := p, portOut := o } :=
  foldl_rel (R := fun s t => ∃ p o, t = { s with zports := p, portOut := o }) (fun s => ⟨s.zports, s.portOut, rfl⟩)
    (by rintro s _ _ ⟨p, o, rfl⟩ ⟨p', o', rfl⟩; exact ⟨p', o', rfl⟩) (f := fun s z => s.sendCtl z m) (fun s z => sendCtl_only s z m) l s

/-- R386: what a warm reset does to a host port. -/
def State.hostDown (s : State) (p : HostPort) : State :=
  let s := (s.stopChannels p).disableRings p
  let s := if (s.port p).leftReset then s.linkTo p .down else s
  s.setPort p { s.port p with decoder := false, locked := false, commitError := false, cfgReady := false, leftReset := false, resp := .none }

/-- R385, R386: a host port that goes down keeps the other port; beside it only channels, slots, registers and the fault handler's record may change. -/
theorem hostDown_spec (s : State) (p : HostPort) : ∃ c i m f x, s.hostDown p = ({ s with chans := c, images := i, regs := m, flt := f } : State).setPort p x ∧
    x.decoder = false ∧ x.cfgReady = false ∧ x.link = if (s.port p).leftReset then .down else (s.port p).link := by
  obtain ⟨c, i, e⟩ := stopChannels_only s p
  have rings : ∀ u : State, ∃ m, u.disableRings p = { u with regs := m } := fun u => ⟨_, rfl⟩
  obtain ⟨m, e'⟩ := rings { s with chans := c, images := i }
  have hport : ({ s with chans := c, images := i, regs := m } : State).port p = s.port p := by cases p <;> rfl
  unfold State.hostDown
  dsimp only
  rw [e, e', hport]
  split
  next =>
    obtain ⟨m', f, w, v, d, e''⟩ := linkTo_spec { s with chans := c, images := i, regs := m } p .down
    rw [e'', State.port_setPort]
    exact ⟨c, i, m', f, _, setPort_comm .., rfl, rfl, rfl⟩
  next => exact ⟨c, i, m, s.flt, _, rfl, rfl, rfl, by rw [hport]⟩

/-- R385, R386: both host ports go down. -/
theorem hostsDown_spec (s : State) : ∃ c i m f a b, (s.hostDown .a).hostDown .b = { s with chans := c, images := i, regs := m, flt := f, portA := a, portB := b } ∧
    (a.decoder = false ∧ a.cfgReady = false ∧ a.link = if s.portA.leftReset then .down else s.portA.link) ∧
    (b.decoder = false ∧ b.cfgReady = false ∧ b.link = if s.portB.leftReset then .down else s.portB.link) := by
  obtain ⟨c, i, m, f, a, e, ha⟩ := hostDown_spec s .a
  obtain ⟨c', i', m', f', b, e', hb⟩ := hostDown_spec (s.hostDown .a) .b
  have hport : (s.hostDown .a).port .b = s.portB := by rw [e]; rfl
  rw [hport] at hb
  exact ⟨c', i', m', f', a, b, by rw [e', e]; rfl, ha, hb⟩

theorem startWarm_idle (h : s.powered = false ∨ s.resetPending = true ∨ s.stackHold = true) : s.startWarm = s := if_pos h

/-- R386: GOING_DOWN leaves by the open ports, and both host ports go down. -/
theorem startWarm_spec (hp : s.powered = true) (hr : s.resetPending = false) (hh : s.stackHold = false) :
    ∃ z o c i m f a b, s.startWarm = { s with zports := z, portOut := o, chans := c, images := i, regs := m, flt := f, portA := a, portB := b
                                              forwarding := true, resetPending := true } ∧
      (a.decoder = false ∧ a.cfgReady = false ∧ a.link = if s.portA.leftReset then .down else s.portA.link) ∧
      (b.decoder = false ∧ b.cfgReady = false ∧ b.link = if s.portB.leftReset then .down else s.portB.link) ∧
      ∀ y, y < 84 → s.portOpen y = true → (s.zport y).unacked < 4095 → (s.zport y).waiting = [] → (y, CtlMsg.goingDown (s.address.getD 0)) ∈ o := by
  obtain ⟨l, hl⟩ : ∃ l, l = (List.range 84).filter (portLive s) := ⟨_, rfl⟩
  obtain ⟨z, o, e⟩ := sendAll_only (.goingDown (s.address.getD 0)) l s
  obtain ⟨c, i, m, f, a, b, e', ha, hb⟩ := hostsDown_spec { s with zports := z, portOut := o }
  refine ⟨z, o, c, i, m, f, a, b, ?_, ha, hb, fun y hy ho hu hw => ?_⟩
  · have run : s.startWarm = { ((l.foldl (fun t z => t.sendCtl z (.goingDown (s.address.getD 0))) s).hostDown .a).hostDown .b with
        forwarding := true, resetPending := true } := by
      unfold State.startWarm
      rw [if_neg (by simp [hp, hr, hh]), hl]
      rfl
    rw [run, e, e']
  · obtain ⟨hlive, hfence⟩ : portLive s y = true ∧ s.fenced y = false := by simpa [State.portOpen] using ho
    have mem : y ∈ l := hl ▸ List.mem_filter.2 ⟨List.mem_range.2 hy, hlive⟩
    have sent := mem_portOut_sendAll (.goingDown (s.address.getD 0)) l (hl ▸ List.nodup_range.filter _) s mem hfence hu hw
    rw [e] at sent
    exact sent

end

section
/-! T0 (R385, R396, R398, R417): what a power-up starts from, and what a warm reset keeps. -/

variable {s t u : State}

/-- R398, R400, R417: from one state to the other only basins and registers change, and no register of FLT. -/
structure PowerOnly (s t : State) : Prop where
  only : ∃ bs m, t = { s with basins := bs, regs := m }
  flt : ∀ o, o < 0x1000 → t.reg .flt 0 o = s.reg .flt 0 o

theorem PowerOnly.refl (s : State) : PowerOnly s s := ⟨⟨s.basins, s.regs, rfl⟩, fun _ _ => rfl⟩

theorem PowerOnly.trans (h : PowerOnly s t) (h' : PowerOnly t u) : PowerOnly s u := by
  obtain ⟨⟨bs, m, rfl⟩, hf⟩ := h
  obtain ⟨⟨bs', m', rfl⟩, hf'⟩ := h'
  exact ⟨⟨bs', m', rfl⟩, fun o ho => (hf' o ho).trans (hf o ho)⟩

theorem PowerOnly.ite {p : Prop} [Decidable p] (h : PowerOnly s t) (h' : PowerOnly s u) : PowerOnly s (if p then t else u) := by
  split <;> assumption

theorem PowerOnly.foldl {α : Type} {f : State → α → State} (hf : ∀ s a, PowerOnly s (f s a)) (l : List α) (s : State) : PowerOnly s (l.foldl f s) :=
  foldl_rel PowerOnly.refl PowerOnly.trans hf l s

theorem PowerOnly.setBasin (s : State) (n : Nat) (x : BasinSt) : PowerOnly s (s.setBasin n x) := ⟨⟨_, s.regs, rfl⟩, fun _ _ => rfl⟩

theorem PowerOnly.setReg (s : State) {b : Blk} {i o : Nat} (v : Word) (h : 0x6000 ≤ regKey b i o) : PowerOnly s (s.setReg b i o v) := by
  refine ⟨⟨s.basins, _, rfl⟩, fun k hk => ?_⟩
  have key : regKey .flt 0 k = 0x5000 + k := rfl
  exact Sparse.get_set_other _ _ (by omega)

theorem bsn_key_above (n o : Nat) : 0x6000 ≤ regKey .bsn n o := by
  unfold regKey pageBase berthWindow
  dsimp only
  split <;> omega

theorem PowerOnly.seeRail (s : State) (n mv : Nat) : PowerOnly s (s.seeRail n mv) :=
  .ite (((PowerOnly.setReg s _ (bsn_key_above ..)).trans (.setReg _ _ (bsn_key_above ..))).trans (.setReg _ _ (bsn_key_above ..))) (.refl s)

theorem PowerOnly.harboursUp (s : State) : PowerOnly s s.harboursUp := .foldl (fun _ _ => (PowerOnly.setBasin ..).trans (.seeRail ..)) _ s

theorem PowerOnly.onStage (s : State) (x : Bool) : PowerOnly s (s.onStage x) :=
  .ite (.foldl (fun _ _ => (PowerOnly.setBasin ..).trans (.setReg _ _ (bsn_key_above ..))) _ s) (.refl s)

/-- R398, R400, R421: a basin that uses its own last stage goes on doing so when the harbour basins come up. -/
theorem inpkg_harboursUp (s : State) (n : Nat) : (s.harboursUp.basin n).inpkg = (s.basin n).inpkg := by
  refine foldl_same (fun t => (t.basin n).inpkg) (f := fun s n => (s.setBasin n { s.basin n with regulating := true }).seeRail n 650) (fun t k => ?_) _ s
  obtain ⟨m, e⟩ := seeRail_only (t.setBasin k { t.basin k with regulating := true }) k 650
  have same : ((t.setBasin k { t.basin k with regulating := true }).seeRail k 650).basin n = (t.setBasin k { t.basin k with regulating := true }).basin n := by
    rw [e]
    rfl
  dsimp only
  rw [same]
  by_cases h : n = k
  · rw [h, basin_setBasin_new fun h => by simpa using congrArg BasinSt.regulating h]
  · rw [State.basin_setBasin_other h]

theorem basin_setReg (s : State) (b : Blk) (i o : Nat) (v : Word) (n : Nat) : (s.setReg b i o v).basin n = s.basin n := rfl

/-- R398, R421: each basin of a list starts on its own last stage. -/
theorem inpkg_started (l : List Nat) (s : State) (n : Nat) (h : (s.basin n).inpkg = true ∨ n ∈ l) :
    ((l.foldl (fun s n => (s.setBasin n { s.basin n with inpkg := true }).setReg .bsn n 0x040 0x100#32) s).basin n).inpkg = true := by
  induction l generalizing s with
  | nil => exact h.resolve_right List.not_mem_nil
  | cons k l ih =>
    refine ih _ ?_
    rw [basin_setReg]
    by_cases hk : n = k
    · refine Or.inl ?_
      rw [hk, basin_setBasin_new fun h => by simpa using congrArg BasinSt.inpkg h]
    · rw [State.basin_setBasin_other hk]
      exact h.imp id fun h => (List.mem_cons.1 h).resolve_left hk

theorem inpkg_onStage (hs : s.basins = []) {n : Nat} (hn : n < 100) (x : Bool) : ((s.onStage x).basin n).inpkg = x := by
  cases x with
  | false =>
    unfold State.onStage State.basin
    rw [if_neg Bool.false_ne_true, hs]
    rfl
  | true => exact inpkg_started _ s n (Or.inr (List.mem_range.2 hn))

/-- R398, R417, R467, R503: what a warm reset begins with, before roots and last stages are chosen. -/
def State.warmStart (s : State) : State :=
  (({ s.wiped with
    powered := true, refLost := s.refLost, plateLost := s.plateLost, unav := s.unav, cool := { alertPin := s.cool.alertPin }
    flt := { fatal := s.flt.fatal }, secu := { noSign := s.secu.noSign } } : State).setReg .flt 0 0x064 (s.reg .flt 0 0x064)).setReg .flt 0 0x068 (s.reg .flt 0 0x068)

theorem keptWarm_power (s : State) : PowerOnly s.warmStart s.keptWarm := by
  unfold State.keptWarm
  dsimp only
  refine PowerOnly.trans ?_ (.foldl (fun t n => .ite (.refl t) ((PowerOnly.setBasin ..).trans (.setReg _ _ (bsn_key_above ..)))) _ _)
  exact ((PowerOnly.setReg s.warmStart _ (by decide)).trans (.setReg _ _ (by decide))).trans (.setReg _ _ (by decide))

theorem warmStart_reg (s : State) : s.warmStart.reg .flt 0 0x064 = s.reg .flt 0 0x064 ∧ s.warmStart.reg .flt 0 0x068 = s.reg .flt 0 0x068 := by
  refine ⟨?_, ?_⟩
  · refine (Sparse.get_set_other _ _ (by decide)).trans ?_
    exact Sparse.get_set_same _ rfl
  · exact Sparse.get_set_same _ (Sparse.wf_set _ rfl)

/-- R385, R503: a timeline that starts: firmware first, and nothing left of what ran. -/
def State.Fresh (s t : State) : Prop :=
  t.stage = .firmware ∧ t.fwStarted = false ∧ t.powered = true ∧ t.resetPending = false ∧ t.fuses = s.fuses ∧ t.flash = s.flash ∧
  t.secu.sealed = false ∧ t.secu.debug = 0 ∧ t.seq.cur = none ∧ t.coresMode = .idle ∧ t.hbm = [] ∧ t.streams = [] ∧ t.images = [] ∧ t.cores = [] ∧ t.berths = [] ∧
  ∀ p, (t.port p).link = .reset ∧ (t.port p).decoder = false

/-- R385, R386, R417: the state after WARM_T0, but for a standing alert. -/
def State.warmed (s : State) (straps : BitVec 4) : State := ({ s.keptWarm with straps := straps } : State).harboursUp

theorem warmed_spec (s : State) (st : BitVec 4) : s.Fresh (s.warmed st) ∧ (s.warmed st).straps = st ∧ (s.warmed st).unav = s.unav ∧
    (s.warmed st).cool.alertPin = s.cool.alertPin ∧ (s.warmed st).secu.noSign = s.secu.noSign ∧
    (s.warmed st).reg .flt 0 0x064 = s.reg .flt 0 0x064 ∧ (s.warmed st).reg .flt 0 0x068 = s.reg .flt 0 0x068 := by
  obtain ⟨⟨bs, m, e⟩, hkept⟩ := keptWarm_power s
  obtain ⟨⟨bs', m', e'⟩, hup⟩ := PowerOnly.harboursUp { s.keptWarm with straps := st }
  obtain ⟨h064, h068⟩ := warmStart_reg s
  have same : s.warmed st = { s.warmStart with straps := st, basins := bs', regs := m' } := by
    refine e'.trans ?_
    rw [e]
  have kept : ∀ o, o < 0x1000 → (s.warmed st).reg .flt 0 o = s.warmStart.reg .flt 0 o := fun o ho => (hup o ho).trans (hkept o ho)
  refine ⟨?_, congrArg State.straps same, (congrArg State.unav same).trans rfl, (congrArg (fun t => t.cool.alertPin) same).trans rfl, (congrArg (fun t => t.secu.noSign) same).trans rfl,
    (kept _ (by decide)).trans h064, (kept _ (by decide)).trans h068⟩
  · rw [same]
    exact ⟨rfl, rfl, rfl, rfl, rfl, rfl, rfl, rfl, rfl, rfl, rfl, rfl, rfl, rfl, rfl, fun p => by cases p <;> exact ⟨rfl, rfl⟩⟩

/-- R396, R398, R417: the state after COLD_POWER_UP. -/
def State.coldStarted (s : State) (straps : BitVec 4) (plate : Bool) : State :=
  ((({ s.wiped with straps := straps, powered := true } : State).onStage (!plate)).setReg .clkg 0 0x040 2#32).harboursUp

theorem coldStarted_spec (s : State) (st : BitVec 4) (plate : Bool) : s.Fresh (s.coldStarted st plate) ∧ (s.coldStarted st plate).straps = st ∧
    (s.coldStarted st plate).unav = 0 ∧ (s.coldStarted st plate).reg .flt 0 0x068 = 0 ∧ (s.coldStarted st plate).secu.noSign = false ∧
    ∀ n, n < 100 → ((s.coldStarted st plate).basin n).inpkg = !plate := by
  obtain ⟨⟨bs, m, e⟩, hflt⟩ : PowerOnly { s.wiped with straps := st, powered := true } (s.coldStarted st plate) :=
    ((PowerOnly.onStage _ _).trans (.setReg _ _ (by decide))).trans (.harboursUp _)
  refine ⟨?_, congrArg State.straps e, (congrArg State.unav e).trans rfl, (hflt _ (by decide)).trans (show regReset 0x5068 = 0 by decide),
    (congrArg (fun t => t.secu.noSign) e).trans rfl, fun n hn => ?_⟩
  · rw [e]
    exact ⟨rfl, rfl, rfl, rfl, rfl, rfl, rfl, rfl, rfl, rfl, rfl, rfl, rfl, rfl, rfl, fun p => by cases p <;> exact ⟨rfl, rfl⟩⟩
  · refine (inpkg_harboursUp ..).trans ?_
    rw [basin_setReg]
    exact inpkg_onStage rfl hn _

end

section
/-! The stages of the first second, instruction by instruction. -/

variable {s : State}

theorem modResetN_spec (hp : s.powered = true) (hr : s.resetPending = false) (hh : s.stackHold = false) : ∃ t, exec .modResetN s = .next t ∧
    t.resetPending = true ∧ t.forwarding = true ∧ t.hbm = s.hbm ∧ t.berths = s.berths ∧ t.streams = s.streams ∧
    (∀ p, (t.port p).decoder = false ∧ (t.port p).cfgReady = false ∧ (t.port p).link = if (s.port p).leftReset then .down else (s.port p).link) ∧
    ∀ z, z < 84 → s.portOpen z = true → (s.zport z).unacked < 4095 → (s.zport z).waiting = [] → (z, CtlMsg.goingDown (s.address.getD 0)) ∈ t.portOut := by
  obtain ⟨z, o, c, i, m, f, a, b, e, ha, hb, sent⟩ := startWarm_spec hp hr hh
  refine ⟨_, congrArg Host.Outcome.next e, rfl, rfl, rfl, rfl, rfl, fun p => ?_, sent⟩
  cases p
  · exact ha
  · exact hb

theorem warmT0_spec (st : BitVec 4) (hp : s.resetPending = true) (hf : s.rootFailed = false) (ha : s.cool.alertPin = false) :
    exec (.warmT0 st) s = .next (s.warmed st) := by
  obtain ⟨-, -, -, halert, -⟩ := warmed_spec s st
  refine congrArg Host.Outcome.next ((if_neg ?_).trans (if_neg ?_))
  · simp [hp, hf]
  · exact fun h => Bool.false_ne_true (ha.symm.trans (halert.symm.trans h))

/-- R470: the preferred copy runs if it verifies, else the other with its flag set, else the module holds in recovery. -/
theorem firmwareBoot_spec (hs : Inv s) : let b := s.flash.preferB
    if s.atStage .firmware = false then exec .firmwareBoot s = .next s
    else if s.copyGood (s.fwCopy b) = true then ∃ m, exec .firmwareBoot s = .next (s.booted b m s.flt)
    else if s.copyGood (s.fwCopy (!b)) = true then ∃ m f, exec .firmwareBoot s = .next (s.booted (!b) m f) ∧ ({ s with regs := m } : State).errSet .secu 0 0 = true
    else exec .firmwareBoot s = .next { s with stage := .recovery, alert := true } := by
  have run : exec .firmwareBoot s = execFirmwareBoot s := rfl
  dsimp only
  rw [run]
  unfold execFirmwareBoot
  cases hstage : s.atStage .firmware with
  | false => rfl
  | true =>
    rw [if_neg (by decide)]
    simp only [Bool.not_true, Bool.false_eq_true, if_false]
    by_cases h1 : s.copyGood (s.fwCopy s.flash.preferB) = true
    · obtain ⟨m, e, -⟩ := runFirmware_spec hs.regs s.flash.preferB
      rw [if_pos h1, if_pos h1, e]
      exact ⟨m, rfl⟩
    · rw [if_neg h1, if_neg h1]
      by_cases h2 : s.copyGood (s.fwCopy (!s.flash.preferB)) = true
      · obtain ⟨m, f, e, herr⟩ := runFirmware_other hs.regs (!s.flash.preferB)
        rw [if_pos h2, if_pos h2, e]
        exact ⟨m, f, rfl, herr⟩
      · rw [if_neg h2, if_neg h2]

theorem bistTrainingDone_berth_not {b : Berth} (ok : Bool) (h : s.atStage .bist = false ∨ (s.berth b.val).trained = true ∨ s.dark b.val = true) :
    exec (.bistTrainingDone (.berth b) ok) s = .next s := by
  by_cases hstage : s.atStage .bist = true
  · refine congrArg Host.Outcome.next ((if_neg ?_).trans (if_pos ?_))
    · simp [hstage]
    · rcases h with h | h | h
      · exact absurd (hstage.symm.trans h) (by decide)
      · simp [h]
      · simp [h]
  · exact congrArg Host.Outcome.next (if_pos (by simpa using hstage))

theorem bistTrainingDone_stack_not {k : Stack} (ok : Bool) (h : s.atStage .bist = false ∨ (s.stack k.val).trained = true) :
    exec (.bistTrainingDone (.stack k) ok) s = .next s := by
  by_cases hstage : s.atStage .bist = true
  · refine congrArg Host.Outcome.next ((if_neg ?_).trans (if_pos ?_))
    · simp [hstage]
    · exact h.resolve_left fun h => absurd (hstage.symm.trans h) (by decide)
  · exact congrArg Host.Outcome.next (if_pos (by simpa using hstage))

theorem memActive_spec : exec .memActive s = if s.atStage .clearing = true then .next { s with
    hbm := s.hbm.filter (fun e => s.hostLimit ≤ e.1), stage := .optical
    portA := { s.portA with memActive := true }, portB := { s.portB with memActive := true } } else .next s := by
  split
  next h => exact congrArg Host.Outcome.next (if_neg (by simp [h]))
  next h => exact congrArg Host.Outcome.next (if_pos (by simp [h]))

theorem msiFault_only (s : State) : ∃ x, s.msiFault = { s with msix := x } := ⟨_, rfl⟩

/-- R384, R387: a module that becomes ready, before a missing spare or the standing image. -/
def State.made (s : State) (ms : BitVec 16) : State := { s with stage := .ready, tms := ms.toNat, flt := { s.flt with fatal := false } }

theorem moduleReady_short (hs : Inv s) (ms : BitVec 16) (h : s.atStage .optical = true) (hx : s.flt.exec = false) :
    ∃ m f x, exec (.moduleReady ms) s = .next { s.made ms with regs := m, flt := f, msix := x } ∧ ({ s.made ms with regs := m } : State).errSet .flt 0 1 = true := by
  obtain ⟨m, f, e, herr, -⟩ := raise_sets (s := s.made ms) (b := .flt) (i := 0) (n := 1) hs.regs rfl (by decide)
  obtain ⟨x, e'⟩ := msiFault_only { s.made ms with regs := m, flt := f }
  have run : execModuleReady ms s = .next ((s.made ms).raise .flt 0 1).msiFault := by
    unfold execModuleReady
    refine congrArg Host.Outcome.next ((if_neg ?_).trans (if_pos ?_))
    · simp [h]
    · simp [hx]
  exact ⟨m, f, x, run.trans (by rw [e, e']), herr⟩

theorem moduleReady_full (ms : BitVec 16) (h : s.atStage .optical = true) (hx : s.flt.exec = true) :
    exec (.moduleReady ms) s = .next (if s.straps.getLsbD 1 then (s.made ms).standing else s.made ms) := by
  have run : execModuleReady ms s = .next (if s.straps.getLsbD 1 then (s.made ms).standing else s.made ms) := by
    unfold execModuleReady
    refine congrArg Host.Outcome.next ((if_neg ?_).trans (if_neg ?_))
    · simp [h]
    · simp [hx]
  exact run

end

/-- Settles O52: each instruction of the first second by the law of its own stage. -/
theorem firstSecond : Obligations.FirstSecond := by
  intro s hs
  dsimp only
  refine ⟨fun h => ?_, fun h hr => ?_, fun h hr => ?_, fun h => congrArg Host.Outcome.next (startWarm_idle h), modResetN_spec,
    fun st => ⟨fun h => congrArg Host.Outcome.next (if_pos h), fun hp hf ha => ?_⟩,
    fun st pl => ⟨fun h => congrArg Host.Outcome.next (if_pos h), fun h => ?_⟩, fun n => ?_, firmwareBoot_spec hs, fun w => ?_,
    ⟨fun b ok => ?_, fun k ok => ?_⟩, ?_,
    fun ms => ⟨fun h => ?_, moduleReady_short hs ms, fun h hx hst => ?_, fun h hx hst => ?_⟩⟩
  · exact congrArg Host.Outcome.next (if_pos (by simp [h]))
  · exact congrArg Host.Outcome.next ((if_neg (by simp [h])).trans (if_pos hr))
  · exact congrArg Host.Outcome.next ((if_neg (by simp [h])).trans (if_neg hr))
  · obtain ⟨fresh, straps, unav, -, noSign, h064, h068⟩ := warmed_spec s st
    exact ⟨_, warmT0_spec st hp hf ha, fresh, straps, unav, h064, h068, noSign⟩
  · exact ⟨_, congrArg Host.Outcome.next (if_neg (by simp [h])), coldStarted_spec s st pl⟩
  · show Host.Outcome.next _ = _
    split <;> rfl
  · split
    next h => exact congrArg Host.Outcome.next (if_pos (by simp [h]))
    next h =>
      obtain ⟨t, e, hsettled, hkept, hlistens, hover⟩ := basinWave_spec hs w (by simpa using h)
      exact ⟨t, e, hsettled, hkept, fun n hn hlt hr hl hd hrole hc => hlistens n hn (by simp [State.basinSettled, hr, hl]) ⟨hlt, hd, hrole, hc⟩, hover⟩
  · split
    next h => exact bistTrainingDone_berth_not ok h
    next h =>
      simp only [not_or, Bool.not_eq_false, Bool.not_eq_true] at h
      obtain ⟨hstage, htrained, hdark⟩ := h
      exact bistTrainingDone_berth hs b ok hstage htrained hdark
  · split
    next h => exact bistTrainingDone_stack_not ok h
    next h =>
      simp only [not_or, Bool.not_eq_false, Bool.not_eq_true] at h
      obtain ⟨hstage, htrained⟩ := h
      exact bistTrainingDone_stack hs k ok hstage htrained
  · exact memActive_spec
  · exact congrArg Host.Outcome.next (if_pos (by simp [h]))
  · rw [moduleReady_full ms h hx, hst]
    rfl
  · obtain ⟨hstage, hdone⟩ := standing_spec (s.made ms)
    exact ⟨_, by rw [moduleReady_full ms h hx, hst]; rfl, hstage, hdone⟩

end Sys2Proof.Machine
end

section
/-! PROOF. Flow points (O15): what SEND, CANCEL, AWAIT and the arrival wait do where a core's block goes on. -/

namespace Sys2Proof.Machine

section
/-! Records of the flow table and the end of a bundle. -/

variable {s : State} {c : CoreId} {k : Core}

theorem flowRec_flow {blk : CoreBlock} {recv : Bool} {flow : Nat} {r : FlowRec} (h : flowRec blk recv flow = some r) : r.flow = flow := by
  have := List.find?_some h
  simp only [Bool.and_eq_true, decide_eq_true_eq] at this
  exact this.1

theorem reached_iff {flow : Nat} : reached k flow = true ↔ flow ∈ k.sent ∨ flow ∈ k.cancelled := by simp [reached]

/-- R100: a bundle's end, of a core that stands where it did and whose block has another bundle. -/
theorem endBundle_nextBundle (hn : (s.core c.val).pc + 1 < (s.block c.val).nbundle) (hp : k.pc = (s.core c.val).pc)
    (hi : k.issued = (s.core c.val).issued) : s.endBundle c k = s.nextBundle c k := by
  rw [endBundle_inside (by rw [hp]; exact hn), hp, hi]
  rfl

/-- R110: a refused flow instruction records its fault and the core goes on (log entry 10). -/
theorem flowFault_goesOn {cause flow : Nat} (h : s.goesOn c) :
    flowFault s c (slotTaken (s.core c.val) .scalar) cause flow =
      (s.boundsFault c.val 0 cause (flowAddr (s.block c.val) flow)).nextBundle c (s.core c.val) := endBundle_boundsFault h

end

section
/-! SEND and CANCEL (R110). -/

variable {s : State} {c : CoreId} {flow : BitVec 16} {r : FlowRec}

theorem send_runs (h : s.opens c .scalar) (hr : flowRec (s.block c.val) false flow.toNat = some r) :
    exec (.send c flow) s = .next (
      let k := slotTaken (s.core c.val) .scalar
      if reached k flow.toNat then flowFault s c k 2 flow.toNat
      else if interlocked k r.addr r.len false then s.stall c .scalar k
      else s.endBundle c { k with sent := k.sent ++ [flow.toNat] }) := by
  refine congrArg Host.Outcome.next ((onCore_opens h).trans ?_)
  simp only [hr, flowRec_flow hr]

theorem cancel_runs (h : s.opens c .scalar) (hr : flowRec (s.block c.val) false flow.toNat = some r) :
    exec (.cancel c flow) s = .next (
      let k := slotTaken (s.core c.val) .scalar
      if reached k flow.toNat || !r.cond then flowFault s c k 2 flow.toNat
      else s.endBundle c { k with cancelled := k.cancelled ++ [flow.toNat] }) := by
  refine congrArg Host.Outcome.next ((onCore_opens h).trans ?_)
  simp only [hr, flowRec_flow hr]

/-- R110: without a sending record, or past a point of the flow, SEND and CANCEL are refused. -/
theorem sendCancel_refused (h : s.goesOn c)
    (hr : flowRec (s.block c.val) false flow.toNat = none ∨ flow.toNat ∈ (s.core c.val).sent ∨ flow.toNat ∈ (s.core c.val).cancelled) :
    let t := (s.boundsFault c.val 0 2 (flowAddr (s.block c.val) flow.toNat)).nextBundle c (s.core c.val)
    exec (.send c flow) s = .next t ∧ exec (.cancel c flow) s = .next t := by
  intro t
  have ht : flowFault s c (slotTaken (s.core c.val) .scalar) 2 flow.toNat = t := flowFault_goesOn h
  cases hrec : flowRec (s.block c.val) false flow.toNat with
  | none =>
    constructor
    all_goals
      refine congrArg Host.Outcome.next ((onCore_opens h.1).trans ?_)
      rw [hrec]
      exact ht
  | some r =>
    have hp : reached (slotTaken (s.core c.val) .scalar) flow.toNat = true :=
      reached_iff.2 (hr.resolve_left (by simp [hrec]))
    rw [send_runs h.1 hrec, cancel_runs h.1 hrec]
    simp only [hp, if_true, Bool.true_or, ht, and_self]

/-- R110: SEND and CANCEL of a flow with a sending record that has reached no point. -/
theorem sendCancel_open (h : s.goesOn c) (hr : flowRec (s.block c.val) false flow.toNat = some r) (hs : flow.toNat ∉ (s.core c.val).sent)
    (hc : flow.toNat ∉ (s.core c.val).cancelled) :
    let k := s.core c.val
    (interlocked k r.addr r.len false = false → exec (.send c flow) s = .next (s.nextBundle c { k with sent := k.sent ++ [flow.toNat] })) ∧
    (interlocked k r.addr r.len false = true → exec (.send c flow) s = .next (s.setCore c.val { k with slot := 3, stalled := true })) ∧
    (r.cond = true → exec (.cancel c flow) s = .next (s.nextBundle c { k with cancelled := k.cancelled ++ [flow.toNat] })) ∧
    (r.cond = false → exec (.cancel c flow) s = .next ((s.boundsFault c.val 0 2 (flowAddr (s.block c.val) flow.toNat)).nextBundle c k)) := by
  intro k
  have hp : reached (slotTaken k .scalar) flow.toNat = false := by
    rw [← Bool.not_eq_true, reached_iff]
    exact fun h => h.elim hs hc
  have hlock : interlocked (slotTaken k .scalar) r.addr r.len false = interlocked k r.addr r.len false := rfl
  rw [send_runs h.1 hr, cancel_runs h.1 hr]
  simp only [show s.core c.val = k from rfl, hp, hlock, Bool.false_eq_true, if_false, Bool.false_or]
  refine ⟨fun hl => ?_, fun hl => ?_, fun hcond => ?_, fun hcond => ?_⟩
  · rw [hl]
    exact congrArg Host.Outcome.next (endBundle_nextBundle h.2 rfl rfl)
  · rw [hl]
    rfl
  · rw [hcond]
    exact congrArg Host.Outcome.next (endBundle_nextBundle h.2 rfl rfl)
  · rw [hcond]
    exact congrArg Host.Outcome.next (flowFault_goesOn h)

end

section
/-! AWAIT and the arrival wait (R110, R111). -/

variable {s : State} {c : CoreId} {gd : GReg} {r : FlowRec}

theorem nextBundle_setG_slot (k : Core) (gd : GReg) (v : Word) (a : Nat) (b : Bool) :
    s.nextBundle c (setG { k with slot := a, stalled := b } gd v) = s.nextBundle c (setG k gd v) := by
  unfold State.nextBundle setG
  split <;> rfl

/-- R110: an arrival wait that ends, wherever the core's slot of the bundle stood. -/
theorem awaitDone_nextBundle {flow : Nat} (data : Bool) (a : Nat) (b : Bool) (hn : (s.core c.val).pc + 1 < (s.block c.val).nbundle) :
    let k := s.core c.val
    awaitDone s c { k with slot := a, stalled := b } gd flow data = s.nextBundle c (setG
      { (if data && !k.readable.contains flow then { k with readable := k.readable ++ [flow] } else k) with st := .run } gd (truth data)) := by
  intro k
  unfold awaitDone
  have read : ∀ p : Bool, s.endBundle c (setG { (if p then { k with slot := a, stalled := b, readable := k.readable ++ [flow] }
        else { k with slot := a, stalled := b }) with st := .run } gd (truth data)) =
      s.nextBundle c (setG { (if p then { k with readable := k.readable ++ [flow] } else k) with st := .run } gd (truth data)) := by
    intro p
    rw [endBundle_nextBundle hn (by rw [setG_pc]; cases p <;> rfl) (by rw [setG_issued]; cases p <;> rfl)]
    cases p
    · exact nextBundle_setG_slot { k with st := .run } gd _ a b
    · exact nextBundle_setG_slot { k with readable := k.readable ++ [flow], st := .run } gd _ a b
  exact read _

theorem arrivalOf_landed (h : s.flowLanded c r = true) : arrivalOf s c r = some true := if_pos h

theorem arrivalOf_cancelled (h : s.flowLanded c r = false) (hc : s.flowCancelled c r.flow = true) : arrivalOf s c r = some false := by
  simp [arrivalOf, h, hc]

theorem arrivalOf_open (h : s.flowLanded c r = false) (hc : s.flowCancelled c r.flow = false) : arrivalOf s c r = none := by
  simp [arrivalOf, h, hc]

theorem await_runs {flow : BitVec 16} (h : s.opens c .scalar) (hr : flowRec (s.block c.val) true flow.toNat = some r) :
    (∀ d, arrivalOf s c.val r = some d → exec (.await c gd flow) s = .next (awaitDone s c (slotTaken (s.core c.val) .scalar) gd flow.toNat d)) ∧
    (arrivalOf s c.val r = none →
      exec (.await c gd flow) s = .next (s.setCore c.val { slotTaken (s.core c.val) .scalar with st := .waitFlow gd flow.toNat })) := by
  refine ⟨fun d hd => ?_, fun hd => ?_⟩
  all_goals
    refine congrArg Host.Outcome.next ((onCore_opens h).trans ?_)
    simp only [hr, hd, flowRec_flow hr]

theorem awaitReturn_runs {flow : Nat} (hm : s.coresMode = .run) (hst : (s.core c.val).st = .waitFlow gd flow)
    (hr : flowRec (s.block c.val) true flow = some r) :
    (∀ d, arrivalOf s c.val r = some d → exec (.awaitReturn c) s = .next (awaitDone s c (s.core c.val) gd flow d)) ∧
    (arrivalOf s c.val r = none → exec (.awaitReturn c) s = .next s) := by
  refine ⟨fun d hd => ?_, fun hd => ?_⟩
  all_goals
    refine congrArg Host.Outcome.next ?_
    simp only [hm, hst, hr, hd, ne_eq, not_true_eq_false, if_false]

end

/-- Settles O15: each flow point by what its record and the flow's state make of it. -/
theorem flowPoints : Obligations.FlowPoints := by
  intro s c gd flow hm hn k out inn fault got open_
  have landed : ∀ a b, awaitDone s c { k with slot := a, stalled := b } gd flow.toNat true = got 1 (open_ k) := fun a b => by
    rw [awaitDone_nextBundle true a b hn]
    cases hc : k.readable.contains flow.toNat <;> simp only [got, open_, hc] <;> rfl
  have cancelled : ∀ a b, awaitDone s c { k with slot := a, stalled := b } gd flow.toNat false = got 0 k := fun a b =>
    awaitDone_nextBundle false a b hn
  refine ⟨fun h => ⟨fun r hr hs hc => sendCancel_open ⟨h, hn⟩ hr hs hc, sendCancel_refused ⟨h, hn⟩, fun r hr => ?_, fun hr => ?_⟩, fun hst r hr => ?_⟩
  · obtain ⟨done, waits⟩ := await_runs (gd := gd) h hr
    have hf := flowRec_flow hr
    exact ⟨fun hl => (done _ (arrivalOf_landed hl)).trans (congrArg _ (landed _ _)),
      fun hl hc => (done _ (arrivalOf_cancelled hl (by rwa [hf]))).trans (congrArg _ (cancelled _ _)),
      fun hl hc => waits (arrivalOf_open hl (by rwa [hf]))⟩
  · refine congrArg Host.Outcome.next ((onCore_opens h).trans ?_)
    simp only [show flowRec (s.block c.val) true flow.toNat = none from hr]
    exact flowFault_goesOn ⟨h, hn⟩
  · obtain ⟨done, waits⟩ := awaitReturn_runs hm hst hr
    have hf := flowRec_flow hr
    exact ⟨fun hl => (done _ (arrivalOf_landed hl)).trans (congrArg _ (landed k.slot k.stalled)),
      fun hl hc => (done _ (arrivalOf_cancelled hl (by rwa [hf]))).trans (congrArg _ (cancelled k.slot k.stalled)),
      fun hl hc => waits (arrivalOf_open hl (by rwa [hf]))⟩

end Sys2Proof.Machine
end

section
/-! PROOF. Completion waits, the end of a block and the arrival at the barrier (O16). -/

namespace Sys2Proof.Machine

section
/-! What a completion wait names, which records have reached a point, and when a core may arrive. -/

variable {s : State} {c : CoreId} {k : Core}

/-- R107: whether a completion wait names a request. -/
def dwaitNames (sel : DwaitSel) (r : DynReq) : Bool := match sel with
  | .all => true
  | .tag t => r.tag = t.val

theorem dynWaits_iff (sel : DwaitSel) : dynWaits k sel = true ↔ k.dyn.filter (dwaitNames sel) ≠ [] := by
  cases sel <;> simp [dynWaits, dwaitNames, List.eq_nil_iff_forall_not_mem]

/-- R112: whether END has nothing to report of a record. -/
def pointReached (k : Core) (r : FlowRec) : Prop := r.recv = true ∨ r.flow ∈ k.sent ∨ r.flow ∈ k.cancelled

theorem unsent_iff (r : FlowRec) : (!r.recv && !reached k r.flow) = true ↔ ¬pointReached k r := by
  rw [pointReached, ← reached_iff]
  cases r.recv <;> simp

theorem unsentRec_none {blk : CoreBlock} (h : ∀ r ∈ blk.flows, pointReached k r) : unsentRec blk k = none :=
  List.find?_eq_none.2 fun r hr => by rw [unsent_iff, not_not]; exact h r hr

theorem unsentRec_first {blk : CoreBlock} {l₁ l₂ : List FlowRec} {r : FlowRec} (hl : blk.flows = l₁ ++ r :: l₂)
    (h : ∀ q ∈ l₁, pointReached k q) (hr : ¬pointReached k r) : unsentRec blk k = some r := by
  unfold unsentRec
  rw [hl, List.find?_eq_some_iff_append]
  exact ⟨(unsent_iff r).2 hr, l₁, l₂, rfl, fun q hq => by rw [Bool.not_eq_true', ← Bool.not_eq_true, unsent_iff, not_not]; exact h q hq⟩

theorem mayArrive_iff : s.mayArrive c = true ↔ (s.core c).st = .ended ∧ (s.core c).tile = none ∧ (s.core c).reads = [] ∧
    ∀ r ∈ (s.block c).flows, (r.recv = true → s.flowLanded c r = true ∨ s.flowCancelled c r.flow = true) ∧
      (r.recv = false → r.flow ∈ (s.core c).cancelled ∨ s.flowSent c r = true) := by
  have record : ∀ r : FlowRec, (if r.recv = true then s.flowLanded c r || s.flowCancelled c r.flow
      else (s.core c).cancelled.contains r.flow || s.flowSent c r) = true ↔
      (r.recv = true → s.flowLanded c r = true ∨ s.flowCancelled c r.flow = true) ∧
      (r.recv = false → r.flow ∈ (s.core c).cancelled ∨ s.flowSent c r = true) := by
    intro r
    cases r.recv <;> simp
  simp only [State.mayArrive, Bool.and_eq_true, beq_iff_eq, Option.isNone_iff_eq_none, List.isEmpty_iff, List.all_eq_true, record, and_assoc]

end

section
/-! The instructions and events. -/

variable {s : State} {c : CoreId} {sel : DwaitSel}

theorem dwait_runs (h : s.opens c .scalar) :
    (dynWaits (s.core c.val) sel = true →
      exec (.dwait c sel) s = .next (s.setCore c.val { slotTaken (s.core c.val) .scalar with st := .waitDyn sel })) ∧
    (dynWaits (s.core c.val) sel = false → exec (.dwait c sel) s = .next (s.endBundle c (slotTaken (s.core c.val) .scalar))) := by
  have run : exec (.dwait c sel) s = .next (if dynWaits (s.core c.val) sel = true
      then s.setCore c.val { slotTaken (s.core c.val) .scalar with st := .waitDyn sel } else s.endBundle c (slotTaken (s.core c.val) .scalar)) := by
    refine congrArg Host.Outcome.next ((onCore_opens h).trans ?_)
    cases sel <;> rfl
  exact ⟨fun hw => by rw [run, if_pos hw], fun hw => by rw [run, if_neg (by simp [hw])]⟩

theorem dwaitReturn_runs (hm : s.coresMode = .run) (hst : (s.core c.val).st = .waitDyn sel) :
    exec (.dwaitReturn c) s = .next (if dynWaits (s.core c.val) sel = true then s else s.endBundle c { s.core c.val with st := .run }) := by
  refine congrArg Host.Outcome.next ?_
  simp only [hm, hst, ne_eq, not_true_eq_false, if_false]

/-- R112: a core whose bundle at END has issued. -/
def endIssued (k : Core) : Core := { k with issued := k.issued + 1, slot := 0, stalled := false }

theorem endBlock_runs (h : s.opens c .scalar) :
    exec (.endBlock c) s = .next (if (s.core c.val).dyn = [] then s.endChecked c.val (endIssued (s.core c.val))
      else s.setCore c.val { endIssued (s.core c.val) with st := .ending }) := by
  refine congrArg Host.Outcome.next ((onCore_opens h).trans ?_)
  cases hd : (s.core c.val).dyn <;> simp only [slotTaken, endIssued, hd] <;> rfl

theorem endChecked_none {k : Core} (h : unsentRec (s.block c.val) k = none) : s.endChecked c.val k = s.setCore c.val { k with st := .ended } := by
  rw [State.endChecked, h]

theorem endChecked_some {k : Core} {r : FlowRec} (h : unsentRec (s.block c.val) k = some r) :
    s.endChecked c.val k = (s.setCore c.val { k with st := .blocked }).boundsFault c.val 0 2 r.addr := by
  rw [State.endChecked, h]

theorem barrierArrival_runs (hm : s.coresMode = .run) :
    exec (.barrierArrival c) s = .next (if s.mayArrive c.val = true then s.setCore c.val { s.core c.val with st := .arrived } else s) := by
  refine congrArg Host.Outcome.next ?_
  rw [hm]
  rfl

end

/-- Settles O16: each wait by what it names, END by the records that have reached no point, the arrival by `State.mayArrive`. -/
theorem completionWaits : Obligations.CompletionWaits := by
  intro s c sel hm k named ended done
  have hnamed : named = k.dyn.filter (dwaitNames sel) := by cases sel <;> rfl
  have waits : named ≠ [] → dynWaits k sel = true := fun h => (dynWaits_iff sel).2 (hnamed ▸ h)
  have free : named = [] → dynWaits k sel = false := fun h => by
    rw [← Bool.not_eq_true, dynWaits_iff, not_not, ← hnamed]
    exact h
  refine ⟨fun h hd => ?_, fun h hd => ?_, fun hst hn hd => ?_, fun hst hd => ?_, fun h hd => ?_, fun h hd hall => ?_,
    fun l₁ r l₂ h hd hl hbefore hr => ?_, fun hst ht hr hf => ?_, fun hst => ?_⟩
  · rw [(dwait_runs h.1).2 (free hd)]
    exact congrArg Host.Outcome.next (endBundle_nextBundle h.2 rfl rfl)
  · exact (dwait_runs h).1 (waits hd)
  · rw [dwaitReturn_runs hm hst, if_neg (by simp [show dynWaits (s.core c.val) sel = false from free hd])]
    exact congrArg Host.Outcome.next (endBundle_nextBundle hn rfl rfl)
  · rw [dwaitReturn_runs hm hst, if_pos (waits hd)]
  · rw [endBlock_runs h, if_neg hd]
    rfl
  · rw [endBlock_runs h, if_pos hd]
    exact congrArg Host.Outcome.next (endChecked_none (k := endIssued k) (unsentRec_none hall))
  · rw [endBlock_runs h, if_pos hd]
    exact congrArg Host.Outcome.next (endChecked_some (k := endIssued k) (unsentRec_first hl hbefore hr))
  · rw [barrierArrival_runs hm, if_pos (mayArrive_iff.2 ⟨hst, ht, hr, hf⟩)]
  · rw [barrierArrival_runs hm, if_neg fun h => hst (mayArrive_iff.1 h).1]

end Sys2Proof.Machine
end

section
/-! PROOF. Scheduled slots on their links (O27): SLOT_ISSUE at a link's sending router and at a tunnel's, and SLOT_LANDING. -/

namespace Sys2Proof.Machine

section
/-! What an issue of a slot changes, as the statements put it. -/

variable {s : State}

/-- R44, R64, R191: physical link `w` of the state `b` once a slot has issued onto it, with the counts that it had in `s`. -/
def State.slotSent (s b : State) (w l hop : Nat) (u : SlotUnit) (tunnel : Bool) (own : Nat) : State :=
  b.setWay w { (s.way w).flight (s.madeRoom w ++ [.slot l hop u]) with
    sinceDyn := (s.way w).sinceDyn + 1, owned := (s.way w).owned + own, lastTunnel := tunnel }

/-- A slot that issues in a state that differs from `s` in a logical link alone. -/
theorem issueSlot_setLink (l : Nat) (x : Link) (w hop : Nat) (u : SlotUnit) (tunnel own : Bool) :
    ∃ m p o, (s.setLink l x).issueSlot w l hop u tunnel own =
      { s.slotSent (s.setLink l x) w l hop u tunnel (if own then 1 else 0) with regs := m, zports := p, portOut := o } :=
  issueSlot_only (s.setLink l x) w l hop u tunnel own

/-- R77: an egress read of words with good check bits records nothing and delivers the slot. -/
theorem egress_clean {l src : Nat} {u : SlotUnit} (h : ∀ c f, slotOrigin l src = .core c → flowRec (s.block c) false u.flow = some f →
    damagedIn (s.core c) (f.addr + 512 * u.k) u.data.length = []) : s.noteEgress l src u = s ∧ s.egressLost l src u = false := by
  unfold State.noteEgress State.egressLost
  cases ho : slotOrigin l src with
  | core c =>
    cases hf : flowRec (s.block c) false u.flow with
    | none => simp only [hf, and_self]
    | some f => simp [hf, State.noteRead, unreadable, h c f ho hf]
  | _ => exact ⟨rfl, rfl⟩

theorem takeFirst_split {α : Type} {p : α → Bool} {a : α} {l₁ l₂ : List α} (h : ∀ e ∈ l₁, p e = false) (ha : p a = true) :
    takeFirst p (l₁ ++ a :: l₂) = some (a, l₁ ++ l₂) := by
  induction l₁ with
  | nil => simp [takeFirst, ha]
  | cons b l₁ ih =>
    rw [List.forall_mem_cons] at h
    simp [takeFirst, h.1, ih h.2]

end

section
/-! SLOT_ISSUE at the sending router (R44, R47, R50, R52). -/

variable {s : State} {link : Word} {external : List Byte} {r : SlotRun}

theorem slotIssue_owned (hm : s.coresMode = .run) : exec (.slotIssue link 0 external) s = .next (s.issueOwned link.toNat external) :=
  congrArg Host.Outcome.next ((if_neg (not_not.2 hm)).trans (if_pos rfl))

theorem issueOwned_cancelled {l : Nat} (hr : ownedAt (s.table l) (s.link l).pos = some r) (hc : r.cond = true ∧ s.cancelKnown r.flow pathFuel l = true) :
    s.issueOwned l external = s.setLink l { s.link l with pos := (s.link l).pos + 1 } := by
  simp only [State.issueOwned, hr, hc, Bool.and_self, if_true]

theorem issueOwned_marked {l : Nat} (hr : ownedAt (s.table l) (s.link l).pos = some r) (hc : ¬(r.cond = true ∧ s.cancelKnown r.flow pathFuel l = true))
    (hk : slotOrigin l r.src = .outside ∧ external = [] ∧ r.cond = true) : s.issueOwned l external =
      s.setLink l { s.link l with pos := (s.link l).pos + 1, marks := (s.link l).marks.filter (· ≠ r.flow) ++ [r.flow] } := by
  obtain ⟨ho, he, hcond⟩ := hk
  have hc' : (r.cond && s.cancelKnown r.flow pathFuel l) = false := by simpa using hc
  have hk' : (slotOrigin l r.src == .outside && external.isEmpty && r.cond) = true := by simp [ho, he, hcond]
  simp only [State.issueOwned, hr, hc', hk', if_true, Bool.false_eq_true, if_false]

/-- R50: once a slot has issued, it leaves the staging buffer from which it was taken, as soon as no other link needs it there. -/
def State.takenFrom (t : State) (u : SlotUnit) : Origin → State
  | .link v => t.releaseStaged v u.flow u.k
  | _ => t

/-- R44, R50: a slot that is neither cancelled nor marked so from outside, on a link whose path is known. -/
theorem issueOwned_path {l w : Nat} {rest : List Nat} (hr : ownedAt (s.table l) (s.link l).pos = some r)
    (hc : ¬(r.cond = true ∧ s.cancelKnown r.flow pathFuel l = true)) (hk : ¬(slotOrigin l r.src = .outside ∧ external = [] ∧ r.cond = true))
    (hw : s.linkWays l = some (w :: rest)) :
    (s.slotHeld w (!rest.isEmpty) = true ∨ s.slotReady l external = none → s.issueOwned l external = s) ∧
    (∀ u, s.slotHeld w (!rest.isEmpty) = false → s.slotReady l external = some u →
      (∀ c f, slotOrigin l r.src = .core c → flowRec (s.block c) false u.flow = some f → damagedIn (s.core c) (f.addr + 512 * u.k) u.data.length = []) →
      s.issueOwned l external =
        ((s.setLink l { s.link l with pos := (s.link l).pos + 1 }).issueSlot w l 0 u (!rest.isEmpty) true).takenFrom u (slotOrigin l r.src)) := by
  have hc' : (r.cond && s.cancelKnown r.flow pathFuel l) = false := by simpa using hc
  have hk' : (slotOrigin l r.src == .outside && external.isEmpty && r.cond) = false := by
    rw [← Bool.not_eq_true]
    simpa [and_assoc] using hk
  constructor
  · intro h
    simp only [State.issueOwned, hr, hc', hk', hw, Bool.false_eq_true, if_false]
    split
    · rfl
    next hheld => rw [h.resolve_left hheld]
  · intro u hheld hu hd
    obtain ⟨clean, kept⟩ := egress_clean hd
    simp only [State.issueOwned, hr, hc', hk', hw, hheld, hu, clean, kept, Bool.false_eq_true, if_false]
    cases slotOrigin l r.src <;> rfl

end

section
/-! SLOT_ISSUE at a later router of a tunnel (R64). -/

variable {s : State} {link : Word} {external : List Byte}

theorem slotIssue_tunnel {hop : Nat} (hm : s.coresMode = .run) (hh : hop ≠ 0) :
    exec (.slotIssue link hop external) s = .next (s.issueTunnel link.toNat hop) :=
  congrArg Host.Outcome.next ((if_neg (not_not.2 hm)).trans (if_neg hh))

theorem issueTunnel_staged {l hop w : Nat} {ws : List Nat} {u : SlotUnit} {before after : List (Nat × SlotUnit)} (hws : s.linkWays l = some ws)
    (hw : ws[hop]? = some w) (ht : (s.link l).tunnel = before ++ (hop, u) :: after) (hb : ∀ e ∈ before, e.1 ≠ hop) :
    s.issueTunnel l hop = if s.slotHeld w true = true then s
      else (s.setLink l { s.link l with tunnel := before ++ after }).issueSlot w l hop u true false := by
  have hfirst : takeFirst (fun e => e.1 == hop) (s.link l).tunnel = some ((hop, u), before ++ after) := by
    rw [ht]
    exact takeFirst_split (fun e he => by simpa using hb e he) (by simp)
  have hway : ((s.linkWays l).bind fun ws => ws[hop]?) = some w := by rw [hws]; exact hw
  unfold State.issueTunnel
  simp only [hfirst, hway]

end

section
/-! SLOT_LANDING (R47, R50, R64). -/

variable {s : State} {link : Word} {hop w : Nat} {ws : List Nat} {u : SlotUnit} {rest : List LinkUnit}

/-- R47: the slot at the head of the units under way on the hop's physical link. -/
theorem slotLanding_runs (hm : s.coresMode = .run) (hws : s.linkWays link.toNat = some ws) (hw : ws[hop]? = some w)
    (hu : readHeads (s.way w).inflight = .slot link.toNat hop u :: rest) :
    exec (.slotLanding link hop) s = .next (
      if ws.length = 1 ∧ 16 ≤ (s.link link.toNat).staged.length then s
      else
        let t := (s.setWay w ((s.way w).flight rest)).countWay w 0x044 false (ceilDiv u.data.length 64)
        if hop + 1 < ws.length then t.setLink link.toNat { t.link link.toNat with tunnel := (t.link link.toNat).tunnel ++ [(hop + 1, u)] }
        else t.slotEnds link.toNat w u (decide (1 < ws.length))) := by
  refine congrArg Host.Outcome.next ?_
  simp only [hm, hws, hw, hu, ne_eq, not_true_eq_false, false_or, if_false]

/-- R50, R64: a slot whose link ends neither at a core nor at a stack or port is staged. -/
theorem slotEnds_staged {l : Nat} {tunnel : Bool} (h1 : linkKind l ≠ 1) (h4 : linkKind l ≠ 4) (h5 : linkKind l ≠ 5 ∨ linkFromPort l = true) :
    ∃ m, s.slotEnds l w u tunnel = { s.setLink l { s.link l with staged := (s.link l).staged ++ [u] } with regs := m } := by
  have hleaves : ¬((linkKind l = 4 ∧ (!linkFromStack l) = true) ∨ (linkKind l = 5 ∧ (!linkFromPort l) = true)) := by
    rintro (⟨h, -⟩ | ⟨h, hp⟩)
    · exact h4 h
    · exact h5.elim (fun h' => h' h) (fun h' => by simp [h'] at hp)
  unfold State.slotEnds
  rw [if_neg h1, if_neg hleaves]
  cases tunnel
  · exact trackStaging_only ..
  · exact ⟨s.regs, rfl⟩

/-- R47: a slot whose link ends at a core lands there. -/
theorem slotEnds_core {l : Nat} {tunnel : Bool} (h : linkKind l = 1) :
    s.slotEnds l w u tunnel = s.ingest (linkBerth l * 144 + linkCore l) u := if_pos h

theorem ingest_lands {c : Nat} {r : FlowRec} (hr : flowRec (s.block c) true u.flow = some r) :
    s.ingest c u = s.setCore c { (s.core c).put (r.addr + 512 * u.k) (u.data.take (r.len - 512 * u.k)) with
      landed := (s.core c).landed.filter (fun e => e.1 ≠ u.flow) ++ [(u.flow, (lookup (s.core c).landed u.flow).getD 0 + 1)] } := by
  simp only [State.ingest, hr]

end

/-- Settles O27: the slot that each link, tunnel and hop has next, by the laws of an issue and of a landing. -/
theorem scheduledSlots : Obligations.ScheduledSlots := by
  intro s link external hm l x sent
  refine ⟨fun r hr => ?_, fun hop ws w u before after hh hws hw ht hb => ?_, fun hop ws w u rest hws hw hu => ?_⟩
  · intro cancelled marked
    rw [slotIssue_owned hm]
    refine ⟨fun hc => congrArg _ (issueOwned_cancelled hr hc), fun hc hk => congrArg _ (issueOwned_marked hr hc hk), fun w rest hc hk hw => ?_⟩
    obtain ⟨stays, goes⟩ := issueOwned_path hr hc hk hw
    refine ⟨fun h => congrArg _ (stays h), fun u hheld hu hd => ?_⟩
    obtain ⟨m, p, o, e⟩ := issueSlot_setLink (s := s) l { x with pos := x.pos + 1 } w 0 u (!rest.isEmpty) true
    refine ⟨m, p, o, congrArg _ ((goes u hheld hu hd).trans ?_)⟩
    rw [e]
    dsimp only
    cases slotOrigin l r.src <;> rfl
  · rw [slotIssue_tunnel hm hh, issueTunnel_staged hws hw ht hb]
    refine ⟨fun h => congrArg _ (if_pos h), fun h => ?_⟩
    obtain ⟨m, p, o, e⟩ := issueSlot_setLink (s := s) l { x with tunnel := before ++ after } w hop u true false
    exact ⟨m, p, o, congrArg _ ((if_neg (by simp [h])).trans e)⟩
  · intro left ends
    have hhop : hop < ws.length := (List.getElem?_eq_some_iff.1 hw).1
    obtain ⟨m, e⟩ := countWay_only left w 0x044 false (ceilDiv u.data.length 64)
    rw [slotLanding_runs hm hws hw hu, e]
    refine ⟨fun h1 h16 => congrArg _ (if_pos ⟨h1, h16⟩), fun hlt => ⟨m, ?_⟩, fun hends hkind h4 h1 => ?_, fun r hends h1 hr => ⟨m, ?_⟩⟩
    · exact congrArg _ ((if_neg (by omega)).trans (if_pos hlt))
    · have h5 : linkKind l ≠ 5 ∨ linkFromPort l = true := by
        by_cases hp : linkFromPort l = true
        · exact .inr hp
        · exact .inl (by have := hkind.imp_right (Or.imp_right (Or.resolve_right · hp)); omega)
      obtain ⟨m', e'⟩ := slotEnds_staged (s := { left with regs := m }) (w := w) (u := u) (tunnel := decide (1 < ws.length)) h1 h4 h5
      exact ⟨m', congrArg _ ((if_neg hends.2).trans ((if_neg (by omega)).trans e'))⟩
    · exact congrArg _ ((if_neg hends.2).trans ((if_neg (by omega)).trans ((slotEnds_core h1).trans (ingest_lands hr))))

end Sys2Proof.Machine
end

section
/-! PROOF. The barrier tree (O30): ARRIVE at a node, the barrier timer and RELEASE. -/

namespace Sys2Proof.Machine

section
/-! ARRIVE and the barrier timer (R178, R182, R355). -/

variable {s : State} {n : ChNode} {resent : Bool}

/-- R182: a node that has passed. -/
def State.nodePassed (s : State) (n : ChNode) : State :=
  { s with passed := s.passed ++ [n], oneLeft := s.oneLeft.filter (· ≠ n), barrierTimer := s.barrierTimer && n != .root }

/-- R182: a node that is marked one left. -/
def State.nodeOneLeft (s : State) (n : ChNode) : State :=
  { s with oneLeft := s.oneLeft ++ [n], barrierTimer := s.barrierTimer || n == .root }

/-- R182: a live running node that has not passed has something to send as its missing children say. -/
theorem arriveDue_missing (hm : s.coresMode = .run) (hr : s.nodeRuns n = true) (hl : s.nodeLive n = true) (hp : n ∉ s.passed) :
    (∀ b, s.missingBelow n = (0, b) → s.arriveDue n = true) ∧
    (∀ k, s.missingBelow n = (k + 1, true) → s.arriveDue n = !s.oneLeft.contains n) ∧
    (∀ k, s.missingBelow n = (k + 1, false) → s.arriveDue n = false) := by
  have hp' : s.passed.contains n = false := by simpa using hp
  refine ⟨fun b h => ?_, fun k h => ?_, fun k h => ?_⟩
  all_goals simp only [State.arriveDue, hm, hr, hl, hp', h, beq_self_eq_true, Bool.not_false, Bool.and_self, Bool.true_and]

theorem arrive_still (h : s.arriveDue n = false) : exec (.arrive n resent) s = .next s :=
  congrArg Host.Outcome.next (if_pos (by simp [h]))

theorem arrive_passes {b : Bool} (h : s.arriveDue n = true) (hb : s.missingBelow n = (0, b)) : ∃ r f, (resent = false → r = s.regs ∧ f = s.flt) ∧
    exec (.arrive n resent) s = .next (if n = .root ∧ s.spansModules = true then ({ s.nodePassed n with regs := r, flt := f } : State).passUp
      else { s.nodePassed n with regs := r, flt := f }) := by
  obtain ⟨r, f, e, hkept⟩ := resendFlit_only s n resent
  refine ⟨r, f, hkept, congrArg Host.Outcome.next ((if_neg (by simp [h])).trans ?_)⟩
  simp only [hb, e]
  rfl

theorem arrive_oneLeft {k : Nat} {b : Bool} (h : s.arriveDue n = true) (hb : s.missingBelow n = (k + 1, b)) :
    ∃ r f, (resent = false → r = s.regs ∧ f = s.flt) ∧ exec (.arrive n resent) s = .next { s.nodeOneLeft n with regs := r, flt := f } := by
  obtain ⟨r, f, e, hkept⟩ := resendFlit_only s n resent
  refine ⟨r, f, hkept, congrArg Host.Outcome.next ((if_neg (by simp [h])).trans ?_)⟩
  simp only [hb, e]
  rfl

theorem barrierTimerExpiry_runs (h : s.barrierTimer = true) :
    exec .barrierTimerExpiry s = .next { s with barrierTimer := false, lateSent := s.missingCores.head? } :=
  congrArg Host.Outcome.next (if_pos h)

end

section
/-! RELEASE (R38, R39, R181). -/

variable {s : State} {m : ReleaseMeasure} {p : Program}

/-- R40, R227: what the barrier leaves of an epoch, whether another follows or not. -/
def State.epochLeft (s : State) : State :=
  { s.keepDynamic with passed := [], oneLeft := [], barrierTimer := false, lateSent := none, sliceIn := [] }

theorem nextEpoch_follows (hp : s.curProg = some p) (h : s.seq.epoch + 1 < p.epochs.length) : s.nextEpoch = { s.epochLeft with
    seq := { s.seq with epoch := s.seq.epoch + 1 }, cores := (s.cores.map (fun e => (e.1, freshCore e.2))).filter (fun e => e.2 ≠ {}) } := by
  simp only [State.nextEpoch, hp]
  exact if_pos h

theorem nextEpoch_ends (hp : s.curProg = some p) (h : p.epochs.length ≤ s.seq.epoch + 1) :
    s.nextEpoch = { s.epochLeft with seq := { s.seq with finished := true, running := false }, coresMode := .idle } := by
  simp only [State.nextEpoch, hp]
  exact if_neg (by simpa [State.keepDynamic] using h)

/-- R62, R67, R191, R195, R355: before the next epoch, RELEASE changes counters, divisors and what leaves by the optical ports alone. -/
theorem release_runs (hm : s.coresMode = .run) (hr : s.mayRelease = true) : 
    ∃ u z o, RB { s with zports := z, portOut := o } u ∧ exec (.release m) s = .next u.nextEpoch := by
  obtain ⟨z, o, hsent⟩ : ∃ z o, (if s.spansModules = true then s.sendDown .release else s) = { s with zports := z, portOut := o } := by
    split
    · exact sendDown_only ..
    · exact ⟨s.zports, s.portOut, rfl⟩
  refine ⟨_, z, o, release_RB { s with zports := z, portOut := o } m, congrArg Host.Outcome.next ((if_neg (by simp [hm, hr])).trans ?_)⟩
  dsimp only
  rw [hsent]

theorem release_still (h : s.mayRelease = false) : exec (.release m) s = .next s :=
  congrArg Host.Outcome.next (if_pos (by simp [h]))

end

/-- Settles O30: ARRIVE by what is missing below its node, RELEASE by whether an epoch follows. -/
theorem barrierTree : Obligations.BarrierTree := by
  intro s n resent m hm noted done
  refine ⟨fun hr hl hp => ?_, barrierTimerExpiry_runs, fun hr p hprog => ?_, release_still,
    fun k => ⟨rfl, rfl, rfl, rfl, rfl, rfl, rfl, rfl, rfl, rfl, rfl, rfl, rfl, rfl, rfl, rfl, rfl⟩⟩
  · obtain ⟨passes, oneLeft, waits⟩ := arriveDue_missing hm hr hl hp
    refine ⟨fun b hb halone => ?_, fun b hb hroot hspans => ?_, fun k hb hleft => ?_, fun k hb hleft => ?_, fun k hb => arrive_still (waits k hb)⟩
    · obtain ⟨r, f, hkept, e⟩ := arrive_passes (resent := resent) (passes b hb) hb
      exact ⟨r, f, hkept, e.trans (congrArg _ (if_neg fun h => halone.elim (fun h' => h' h.1) (fun h' => by simp [h'] at h)))⟩
    · obtain ⟨r, f, hkept, e⟩ := arrive_passes (resent := resent) (passes b hb) hb
      rw [if_pos ⟨hroot, hspans⟩] at e
      obtain ⟨z, o, hup⟩ := passUp_only { done with regs := r, flt := f }
      refine ⟨z, o, ⟨r, f, hkept, e.trans (congrArg _ hup)⟩, fun hsent => ?_⟩
      obtain ⟨rfl, rfl⟩ := hkept hsent
      exact e
    · exact arrive_oneLeft ((oneLeft k hb).trans (by simpa using hleft)) hb
    · exact arrive_still ((oneLeft k hb).trans (by simpa using hleft))
  · obtain ⟨u, z, o, ⟨r, b, w, e, d, hu⟩, hrun⟩ := release_runs (m := m) hm hr
    have hprog' : u.curProg = some p := hu ▸ hprog
    have hepoch : u.seq.epoch = s.seq.epoch := by rw [hu]
    refine ⟨_, hrun, ?_⟩
    by_cases h : s.seq.epoch + 1 < p.epochs.length
    · rw [nextEpoch_follows hprog' (hepoch ▸ h), hu]
      exact ⟨rfl, rfl, rfl, rfl, rfl, rfl, rfl, rfl, fun _ => ⟨rfl, hm, rfl⟩, fun h' => absurd h (by omega)⟩
    · rw [nextEpoch_ends hprog' (hepoch ▸ Nat.le_of_not_lt h), hu]
      exact ⟨rfl, rfl, rfl, rfl, rfl, rfl, rfl, rfl, fun h' => absurd h' h, fun _ => ⟨rfl, rfl, rfl⟩⟩

end Sys2Proof.Machine
end

section
/-! PROOF. Late cores and tree links (O31): LATE, the epoch watchdog and a failed link of the Chamois tree. -/

namespace Sys2Proof.Machine

section
variable {s : State} {c : Nat}

/-- R182, R194: a late core sets LATE in the page of its berth. -/
theorem recordLate_bound {b : Nat} (hw : Sparse.wf regReset s.regs = true) (hb : s.physOf (c / 144) = some b) :
    ∃ m f, s.recordLate c = { s with regs := m, flt := f } ∧ ({ s with regs := m } : State).errSet .chms b 2 = true := by
  obtain ⟨m₁, e₁, w₁⟩ : ∃ m, (if s.errSet .chms b 2 = true then s
      else s.setReg .chms b 0x044 (flag true 31 ||| field (c % 144) 8 ||| field (physCore (s.berth b).removed (c % 144)) 0)) = { s with regs := m } ∧
      Sparse.wf regReset m = true := by
    split
    · exact ⟨s.regs, rfl, hw⟩
    · exact setReg_wf _ _ _ _ hw
  obtain ⟨m₂, f₂, e₂, w₂⟩ := raise_wf (s := { s with regs := m₁ }) .core (b * 156 + physCore (s.berth b).removed (c % 144)) 6 w₁
  obtain ⟨m₃, f₃, e₃, herr, -⟩ := raise_sets (s := { s with regs := m₂, flt := f₂ }) (b := .chms) (i := b) (n := 2) w₂ rfl (by decide)
  refine ⟨m₃, f₃, ?_, herr⟩
  simp only [State.recordLate, hb, e₁, e₂, e₃]

theorem recordLate_only (hw : Sparse.wf regReset s.regs = true) (c : Nat) : ∃ m f, s.recordLate c = { s with regs := m, flt := f } := by
  cases hb : s.physOf (c / 144) with
  | none => exact ⟨s.regs, s.flt, by simp only [State.recordLate, hb]⟩
  | some b =>
    obtain ⟨m, f, e, -⟩ := recordLate_bound hw hb
    exact ⟨m, f, e⟩

theorem late_runs (hc : s.lateSent = some c) (h : s.rootBusy = false) : exec .late s = .next (({ s with lateSent := none } : State).recordLate c) := by
  refine congrArg Host.Outcome.next ?_
  simp only [hc, h, Bool.false_eq_true, if_false]

theorem late_waits (h : s.rootBusy = true) : exec .late s = .next s := by
  refine congrArg Host.Outcome.next ?_
  cases s.lateSent with
  | none => rfl
  | some c => exact if_pos h

/-- R452: several late cores of one berth make the berth's repair due, where its repair is enabled. -/
def State.repairDue (s : State) (c : Nat) : State := match s.physOf (c / 144) with
  | some b => if !s.repairEn then s else { s with flt := { s.flt with repairs := s.flt.repairs ++ [{ scope := 4, type := 0, inst := b, bit := 0 }] } }
  | none => s

theorem repairDue_only (s : State) (c : Nat) : ∃ f, s.repairDue c = { s with flt := f } := by
  unfold State.repairDue
  split
  · split
    · exact ⟨s.flt, rfl⟩
    · exact ⟨_, rfl⟩
  · exact ⟨s.flt, rfl⟩

/-- R59, R452: what the epoch watchdog does at the slice root, for one missing core and for any other number. -/
theorem epochWatchdog_runs (hs : Inv s) (hm : s.coresMode = .run) (hroot : s.spansModules = false ∨ s.parentRole = none) :
    (∀ c, s.missingCores = [c] → exec .epochWatchdog s = .next ((s.raise .schd 0 0).recordLate c)) ∧
    (s.missingCores.length ≠ 1 → ∃ m f, exec .epochWatchdog s = .next { s with regs := m, flt := f } ∧
      ({ s with regs := m } : State).errSet .schd 0 0 = true) := by
  have runs : ¬(s.coresMode ≠ .run ∨ s.spansModules = true ∧ s.parentRole.isSome = true) := by
    rcases hroot with h | h <;> simp [hm, h]
  obtain ⟨m, f, e, herr, -⟩ := raise_sets (b := .schd) (i := 0) (n := 0) hs.regs rfl (by decide)
  refine ⟨fun c hc => congrArg Host.Outcome.next ((if_neg runs).trans (by rw [hc])), fun hlen => ?_⟩
  match hc : s.missingCores with
  | [] => exact ⟨m, f, congrArg Host.Outcome.next ((if_neg runs).trans (by rw [hc]; exact e)), herr⟩
  | [c] => exact absurd (by rw [hc]; rfl) hlen
  | c :: d :: rest =>
    by_cases hsame : (d :: rest).all (fun x => x / 144 == c / 144) = true
    · obtain ⟨m', f', e', herr'⟩ := raiseAs_set (b := .schd) (i := 0) (n := 0) (c := .berth) hs.regs (by decide) (by decide)
      obtain ⟨f'', e''⟩ := repairDue_only (s.raiseAs .schd 0 0 .berth) c
      refine ⟨m', f'', congrArg Host.Outcome.next ((if_neg runs).trans ?_), herr'⟩
      rw [hc]
      exact (if_pos hsame).trans (e''.trans (by rw [e']))
    · refine ⟨m, f, congrArg Host.Outcome.next ((if_neg runs).trans ?_), herr⟩
      rw [hc]
      exact (if_neg hsame).trans e

/-- R178: a node of levels 3 to 5 whose role has moved to its duplicate, once. -/
def State.roleMoved (s : State) (n : ChNode) : List ChNode :=
  if (nodeDup n).isSome = true ∧ n ∉ s.treeMoved then s.treeMoved ++ [n] else s.treeMoved

theorem treeLinkFail_runs (n : ChNode) : exec (.treeLinkFail n) s = .next (if s.nodeLive n = true
    then ({ s with treeMoved := s.roleMoved n } : State).raise .chms (s.nodeBerth n) 3 else { s with treeMoved := s.roleMoved n }) := by
  have hmoved : (if ((nodeDup n).isSome && !s.treeMoved.contains n) = true then { s with treeMoved := s.treeMoved ++ [n] } else s) =
      { s with treeMoved := s.roleMoved n } := by
    unfold State.roleMoved
    by_cases h : (nodeDup n).isSome = true ∧ n ∉ s.treeMoved
    · rw [if_pos h, if_pos (by simpa using h)]
    · rw [if_neg h, if_neg (by simpa using h)]
  rw [← hmoved]
  rfl

end

/-- Settles O31: LATE and the watchdog by the record of a late core, a failed tree link by the node's move. -/
theorem lateAndWatchdog : Obligations.LateAndWatchdog := by
  intro s hs
  refine ⟨fun c b hc hbusy hb => ?_, late_waits, fun hm hroot => ?_, fun n => ?_⟩
  · obtain ⟨m, f, e, herr⟩ := recordLate_bound (s := { s with lateSent := none }) hs.regs hb
    exact ⟨m, f, (late_runs hc hbusy).trans (congrArg _ e), herr⟩
  · obtain ⟨one, other⟩ := epochWatchdog_runs hs hm hroot
    by_cases hlen : s.missingCores.length = 1
    · obtain ⟨c, hc⟩ := List.length_eq_one_iff.1 hlen
      obtain ⟨m, f, e, w⟩ := raise_wf (s := s) .schd 0 0 hs.regs
      cases hb : s.physOf (c / 144) with
      | none =>
        obtain ⟨m', f', e'⟩ := recordLate_only (s := { s with regs := m, flt := f }) w c
        refine ⟨m', f', (one c hc).trans (congrArg _ (by rw [e, e'])), fun h => absurd hlen h, fun d b hd hb' => ?_⟩
        obtain rfl : c = d := by simpa [hc] using hd
        simp [hb] at hb'
      | some b =>
        obtain ⟨m', f', e', herr⟩ := recordLate_bound (s := { s with regs := m, flt := f }) w hb
        refine ⟨m', f', (one c hc).trans (congrArg _ (by rw [e, e'])), fun h => absurd hlen h, fun d b' hd hb' => ?_⟩
        obtain rfl : c = d := by simpa [hc] using hd
        obtain rfl : b = b' := Option.some.inj (hb.symm.trans hb')
        exact herr
    · obtain ⟨m, f, e, herr⟩ := other hlen
      exact ⟨m, f, e, fun _ => herr, fun c b hc => absurd (by rw [hc]; rfl) hlen⟩
  · intro moved
    rw [treeLinkFail_runs]
    refine ⟨fun hl => ?_, fun hl => congrArg _ (if_neg (by simp [hl]))⟩
    obtain ⟨m, f, e, herr, -⟩ := raise_sets (s := { s with treeMoved := moved }) (b := .chms) (i := s.nodeBerth n) (n := 3) hs.regs rfl (by decide)
    exact ⟨m, f, congrArg _ ((if_pos hl).trans e), herr⟩

end Sys2Proof.Machine
end

section
/-! PROOF. GO and ABORT (O32): how a step's run begins, anew or as a replay, and how an abort ends it. -/

namespace Sys2Proof.Machine

section
/-! GO (R73, R227, R446). -/

variable {s : State} {t : Step}

theorem foldl_only_images {α : Type} {f : State → α → State} (hf : ∀ s a, ∃ m, f s a = { s with images := m }) (l : List α) (s : State) :
    ∃ m, l.foldl f s = { s with images := m } := by
  induction l generalizing s with
  | nil => exact ⟨s.images, rfl⟩
  | cons a l ih =>
    obtain ⟨m, e⟩ := hf s a
    obtain ⟨m', e'⟩ := ih (f s a)
    exact ⟨m', by rw [List.foldl_cons, e', e]⟩

theorem takeTurn_only (s : State) : ∃ m, s.takeTurn = { s with images := m } :=
  foldl_only_images (fun s i => by
    dsimp only
    split
    · exact ⟨_, rfl⟩
    · exact ⟨s.images, rfl⟩) _ _

theorem markWritten_only (s : State) (t : Step) : ∃ m, s.markWritten t = { s with streams := m } :=
  foldl_only_streams (fun _ _ => ⟨_, rfl⟩) _ _

/-- R330: the state in which a step of another image has taken the turn between two copy steps. -/
def State.turnTaken (s : State) (t : Step) : State := if t.copy.isNone then s.takeTurn else s

/-- R227: the state in which the prepared step is no longer the next one, and no replay of it has been counted. -/
def State.nextTaken (s : State) : State := { s with seq := { s.seq with next := none, replay := 0 } }

theorem turnTaken_only (s : State) (t : Step) : ∃ i, s.turnTaken t = { s with images := i } := by
  unfold State.turnTaken
  split
  · exact takeTurn_only s
  · exact ⟨s.images, rfl⟩

/-- R281, R330: what GO does to the streams and images before a prepared step starts. -/
theorem prepared_only (s : State) (t : Step) :
    ∃ i m, (s.turnTaken t).nextTaken.markWritten t = { s.nextTaken with images := i, streams := m } := by
  obtain ⟨i, hi⟩ := turnTaken_only s t
  obtain ⟨m, hw⟩ := markWritten_only (s.turnTaken t).nextTaken t
  exact ⟨i, m, by rw [hw, hi]; rfl⟩

theorem go_prepared (hg : s.goClear = true) (hc : s.seq.cur = none) (hn : s.seq.next = some t) (hp : t.prepared = true) (hf : s.flt.phase = .idle)
    (hturn : t.copy.isSome = true ∨ s.swapTurn = true) : exec .go s = .next (((s.turnTaken t).nextTaken.markWritten t).startRun t) := by
  have hready : ¬((!t.prepared || s.flt.phase != .idle || (t.copy.isNone && !s.swapTurn)) = true) := by
    rcases hturn with h | h
    · simp [hp, hf, Option.isSome_iff_ne_none.1 h]
    · simp [hp, hf, h]
  refine congrArg Host.Outcome.next ((if_neg (by simp [hg])).trans ?_)
  simp only [hc, hn]
  exact if_neg hready

/-- R450: the fault handler once a handling has ended. -/
def Flt.ended (f : Flt) : Flt := { f with phase := .idle, cur := none, next := none, ovf := 0, repairs := [], rowTest := [], sudden := false }

theorem go_replay (hg : s.goClear = true) (hc : s.seq.cur = some t) (hp : s.flt.phase = .restore ∨ s.flt.phase = .coolant) (hmsgs : s.flt.msgs = [])
    (hm : s.coresMode = .held) : exec .go s = .next (s.endHandling.startRun t) := by
  refine congrArg Host.Outcome.next ((if_neg (by simp [hg])).trans ?_)
  simp only [hc]
  exact if_pos ⟨hp, hmsgs, hm⟩

theorem go_still (hg : s.goClear = false) : exec .go s = .next s := congrArg Host.Outcome.next (if_pos (by simp [hg]))

end

section
/-! ABORT (R168, R355, R446). -/

variable {s : State} {t : Step} {counted : Bool}

theorem abortRun_held (hm : s.coresMode = .held) : s.abortRun counted = s := by
  unfold State.abortRun
  cases s.seq.cur with
  | none => rfl
  | some t => exact if_pos hm

theorem abortRun_running (hc : s.seq.cur = some t) (hm : s.coresMode ≠ .held) : ∃ bs msgs a, s.abortRun counted = { s.keepDynamic with
    coresMode := .held, cores := (s.cores.map (fun e => (e.1, { e.2 with reads := [], tile := none }))).filter (fun e => e.2 ≠ {})
    berths := bs, passed := [], oneLeft := [], barrierTimer := false, lateSent := none, sliceIn := msgs
    seq := { s.seq with running := false, finished := false, epoch := 0, heldEpoch := s.seq.epoch, replay := s.seq.replay + (if counted then 1 else 0) }
    flt := { s.flt with aborted := a } } := by
  refine ⟨(s.berths.map (fun e => (e.1, { e.2 with entries := dropCoreReads e.2.entries }))).filter (fun e => e.2 ≠ {}),
    s.sliceIn.filter (fun m => m == .abort), s.flt.aborted || (counted && t.copy.isNone), ?_⟩
  unfold State.abortRun
  rw [hc]
  exact if_neg hm

/-- R355: an abort that travels over the slice changes what leaves by the optical ports alone. -/
theorem abortSent_only (s : State) : ∃ z o, (if (s.spansModules && s.coresMode != .held) = true then (s.sendUp .abort).sendDown .abort else s) =
    { s with zports := z, portOut := o } ∧ (s.spansModules = false → z = s.zports ∧ o = s.portOut) := by
  split
  next h =>
    obtain ⟨z, o, e⟩ := ports_trans (sendUp_only s .abort) (sendDown_only (s.sendUp .abort) .abort)
    exact ⟨z, o, e, fun h' => by simp [h'] at h⟩
  next h => exact ⟨s.zports, s.portOut, rfl, fun _ => ⟨rfl, rfl⟩⟩

theorem abort_runs (hf : s.flt.phase = .abort) : ∃ z o, (s.spansModules = false → z = s.zports ∧ o = s.portOut) ∧
    let u := ({ s with zports := z, portOut := o } : State).abortRun (!s.flt.sudden)
    exec .abort s = .next { u with flt := { u.flt with phase := .quiesce } } := by
  obtain ⟨z, o, e, hkept⟩ := abortSent_only s
  refine ⟨z, o, hkept, congrArg Host.Outcome.next ((if_pos hf).trans ?_)⟩
  dsimp only
  rw [e]

theorem abort_held (hf : s.flt.phase = .abort) (hm : s.coresMode = .held) : exec .abort s = .next { s with flt := { s.flt with phase := .quiesce } } := by
  have hstays : ¬((s.spansModules && s.coresMode != .held) = true) := by simp [hm]
  refine congrArg Host.Outcome.next ((if_pos hf).trans ?_)
  dsimp only
  rw [if_neg hstays, abortRun_held hm]

/-- R446: a held core has no tile in progress and waits for no lines. -/
theorem heldCores_still {cores : List (Nat × Core)} :
    ∀ e ∈ (cores.map (fun e => (e.1, { e.2 with reads := [], tile := none }))).filter (fun e => e.2 ≠ {}), e.2.reads = [] ∧ e.2.tile = none := by
  intro e he
  obtain ⟨d, -, rfl⟩ := List.mem_map.1 (List.mem_filter.1 he).1
  exact ⟨rfl, rfl⟩

end

/-- Settles O32: both ways of GO end in the same start of a run, ABORT in the same end. -/
theorem stepStartAndAbort : Obligations.StepStartAndAbort := by
  intro s t starts
  refine ⟨fun hg hc hn hp hf hturn => ?_, fun hg hc hp hmsgs hm => ?_, fun hf hc hm => ?_, abort_held, go_still⟩
  · obtain ⟨i, m, before⟩ := prepared_only s t
    obtain ⟨_, _, _, _, _, run⟩ := startRun_only { s.nextTaken with images := i, streams := m } t
    have e := go_prepared hg hc hn hp hf hturn
    rw [before, run] at e
    exact ⟨_, e, ⟨rfl, rfl, rfl, rfl, rfl, rfl, rfl, rfl, rfl, rfl, rfl, rfl⟩, rfl, rfl, rfl⟩
  · have e := go_replay hg hc hp hmsgs hm
    obtain ⟨m, handled⟩ : ∃ m, s.endHandling = { s with regs := m, flt := s.flt.ended } := endHandling_only s
    rw [handled] at e
    obtain ⟨_, _, _, _, _, run⟩ := startRun_only { s with regs := m, flt := s.flt.ended } t
    rw [run] at e
    exact ⟨_, e, ⟨rfl, rfl, rfl, rfl, rfl, rfl, rfl, rfl, rfl, rfl, rfl, rfl⟩, rfl, rfl, rfl, rfl⟩
  · obtain ⟨z, o, hkept, e⟩ := abort_runs hf
    obtain ⟨_, _, _, run⟩ := abortRun_running (s := { s with zports := z, portOut := o }) (counted := !s.flt.sudden) hc hm
    rw [run] at e
    refine ⟨_, e, rfl, heldCores_still, rfl, rfl, rfl, ?_, rfl, rfl, rfl, rfl, rfl, rfl, hkept⟩
    cases s.flt.sudden <;> rfl

end Sys2Proof.Machine
end

section
/-! PROOF. A core's general registers and scratchpad words (O9, O12, O13): what a written register leaves, and GLD and GST, done and refused. -/

namespace Sys2Proof.Machine

section
/-! General registers (R71, R105). -/

variable {k : Core} {r : GReg} {v : Word}

theorem gReg_setG_same (hk : CoreOk k) : gReg (setG k r v) r = if r.val = 0 then 0 else v := by
  unfold gReg setG
  split
  · rfl
  · exact Sparse.get_set_same v hk.g

theorem gReg_setG_other {q : GReg} (h : q ≠ r) : gReg (setG k r v) q = gReg k q := by
  unfold gReg setG
  split
  · rfl
  · split
    · rfl
    · exact Sparse.get_set_other v _ (fun e => h (Fin.ext e))

theorem setG_only (k : Core) (r : GReg) (v : Word) : setG k r v = { k with g := (setG k r v).g } := by
  unfold setG
  split <;> rfl

end

/-- Settles O9: `State.wrote` puts the core of `setG`, moved to its next bundle, in the core's place. -/
theorem writtenRegister : Obligations.WrittenRegister := by
  intro s c gd v hi t k k'
  have hk' : k' = { setG k gd v with pc := k.pc + 1, issued := k.issued + 1, slot := 0, stalled := false } := State.core_setCore hi.cores
  rw [setG_only] at hk'
  refine ⟨?_, fun r hr => ?_, by rw [hk'], by rw [hk'], by rw [hk'], fun d hd => State.core_setCore_other hd, rfl⟩
  · rw [hk']
    exact gReg_setG_same (inv_core hi)
  · rw [hk']
    exact gReg_setG_other hr

section
/-! Scratchpad words (R103, R104, R107). -/

variable {s : State} {c : CoreId} {gd ga : GReg} {imm : BitVec 16}

/-- R103, R107: the word address as a sum of signed numbers, wrapped. -/
theorem scalarAddr_eq (w : Word) (imm : BitVec 16) : scalarAddr w imm = (BitVec.ofInt 32 (w.toInt + imm.toInt * 4)).toNat / 4 * 4 := by
  rw [BitVec.ofInt_add, BitVec.ofInt_mul, BitVec.ofInt_toInt]
  rfl

theorem gld_done (h : s.goesOn c) (ha : s.mayAccess c .read (scalarAddr (gReg (s.core c.val) ga) imm) 4) :
    exec (.gld c gd ga imm) s = .next (s.wrote c gd (Memory.word (s.core c.val).scratch (scalarAddr (gReg (s.core c.val) ga) imm))) :=
  congrArg Host.Outcome.next ((onCore_opens h.1).trans ((checked_may ha).trans (endBundle_setG h)))

theorem gst_done (h : s.goesOn c) (ha : s.mayAccess c .write (scalarAddr (gReg (s.core c.val) ga) imm) 4) :
    exec (.gst c gd ga imm) s = .next (s.nextBundle c
      ((s.core c.val).put (scalarAddr (gReg (s.core c.val) ga) imm) (leBytes (gReg (s.core c.val) gd).toNat 4))) :=
  congrArg Host.Outcome.next ((onCore_opens h.1).trans ((checked_may ha).trans (endBundle_nextBundle h.2 rfl rfl)))

/-- R81, R104: a refused word access records its fault and the core goes on (log entry 10). -/
theorem word_refused {n x : Nat} {i : Instr} {acc : Access} (hia : (i = .gld c gd ga imm ∧ acc = .read) ∨ (i = .gst c gd ga imm ∧ acc = .write))
    (h : s.goesOn c) (hl : interlocked (s.core c.val) (scalarAddr (gReg (s.core c.val) ga) imm) 4 (acc != .read) = false)
    (hr : refused (s.core c.val) (s.block c.val) acc (scalarAddr (gReg (s.core c.val) ga) imm) 4 = some (n, x)) :
    exec i s = .next ((s.boundsFault c.val 0 n x).nextBundle c (s.core c.val)) := by
  obtain ⟨rfl, rfl⟩ | ⟨rfl, rfl⟩ := hia
  all_goals exact congrArg Host.Outcome.next ((onCore_opens h.1).trans ((checked_refused hl hr).trans (endBundle_boundsFault h)))

/-- R81, R95: a further bounds fault sets BOUNDS again and leaves the captured one. -/
theorem boundsFault_held {c i u n x : Nat} (hi : Inv s) (hc : s.coreInst c = some i) (hh : i ∈ s.boundsHeld) (hn : n < 6) :
    (s.boundsFault c u n x).errSet .core i 2 = true ∧ (s.boundsFault c u n x).reg .core i 0x050 = s.reg .core i 0x050 ∧
      (s.boundsFault c u n x).boundsHeld = s.boundsHeld := by
  have hf : s.boundsFault c u n x = s.raise .core i 2 := by
    simp [State.boundsFault, hc, hh, show n ≠ 6 by omega]
  have hkey : regKey .core i 0x050 ≠ 0x5054 := fun h => by
    have := regKey_mod (b := .core) (i := i) (o := 0x050) (by decide)
    omega
  have hreg : (s.raise .core i 2).reg .core i 0x050 = s.reg .core i 0x050 := raise_reg_at (by decide) (by decide) hkey
  obtain ⟨m, f, e, hset⟩ := raise_any (b := .core) (i := i) (n := 2) hi.regs rfl (by decide)
  rw [hf]
  refine ⟨?_, hreg, ?_⟩
  · rw [e]
    exact hset
  · rw [e]

end

/-- Settles O12: a permitted word access, its address a sum of signed numbers; a stored word reads back. -/
theorem scratchpadWords : Obligations.ScratchpadWords := by
  intro s c gd ga imm hi h k a
  have hk : CoreOk k := inv_core hi
  refine ⟨scalarAddr_eq _ _, gld_done h, fun ha => ⟨_, _, gst_done h ha, ?_, ?_, fun x hx => ?_, fun e he => (List.mem_filter.1 he).1⟩⟩
  · exact word_setWord hk.scratch
  · exact Memory.wf_setWord _ hk.scratch
  · exact Memory.byte_write_other _ hx

/-- Settles O13: the refused access is a bounds fault, captured where none is held, and otherwise only set again. -/
theorem refusedScratchpadWords : Obligations.RefusedScratchpadWords := by
  intro s c gd ga imm n x i hi h hc hn i₀ acc hia a hl hr
  have hrest := boundsFault_rest s c.val 0 n x
  refine ⟨_, word_refused hia h hl hr, hrest.1, hrest.2, ?_⟩
  by_cases hh : i ∈ s.boundsHeld
  · obtain ⟨hset, hreg, hheld⟩ := boundsFault_held (u := 0) (x := x) hi hc hh hn
    exact ⟨hset, fun h' => absurd hh h', fun _ => ⟨hreg, hheld⟩⟩
  · obtain ⟨-, hset, hreg, hheld, -⟩ := boundsFault_spec (u := 0) (x := x) hi hc hh hn
    have hunit : field 0 25 ||| field n 22 = field n 22 := by simp [field]
    rw [hunit] at hreg
    exact ⟨hset, fun _ => ⟨hreg, hheld⟩, fun h' => absurd h' hh⟩

end Sys2Proof.Machine
end

section
/-! PROOF. Vector registers (O19, O21): what a written register leaves, and the arithmetic of the vector unit, lane by lane. -/

namespace Sys2Proof.Machine

section
/-! A vector register and its lanes (R71). -/

variable {r : VReg}

theorem get_putLanes_other (l : List Word) {m : List (Nat × Word)} {i j : Nat} (h : j < r.val * 64 + i ∨ r.val * 64 + i + l.length ≤ j) :
    Sparse.get (fun _ => (0 : Word)) (putLanes m r i l) j = Sparse.get (fun _ => 0) m j := by
  induction l generalizing m i with
  | nil => rfl
  | cons w t ih =>
    rw [List.length_cons] at h
    rw [putLanes, ih (by omega)]
    exact Sparse.get_set_other w m (by omega)

theorem get_putLanes_same (l : List Word) {m : List (Nat × Word)} {i j : Nat} (h : Sparse.wf (fun _ => (0 : Word)) m = true) (hj : j < l.length) :
    Sparse.get (fun _ => (0 : Word)) (putLanes m r i l) (r.val * 64 + (i + j)) = l[j] := by
  induction l generalizing m i j with
  | nil => exact absurd hj (Nat.not_lt_zero j)
  | cons w t ih =>
    cases j with
    | zero =>
      rw [putLanes, get_putLanes_other t (by omega)]
      exact Sparse.get_set_same w h
    | succ j =>
      rw [putLanes, show i + (j + 1) = i + 1 + j by omega]
      exact ih (Sparse.wf_set w h) (Nat.lt_of_succ_lt_succ hj)

theorem vLane_setV_same {k : Core} {l : List Word} {i : Nat} (hk : CoreOk k) (hl : l.length = 64) (h : i < l.length) :
    vLane (setV k r l) r i = l[i] := by
  have := get_putLanes_same (r := r) l (i := 0) hk.v h
  rw [Nat.zero_add] at this
  rw [setV, List.take_of_length_le (Nat.le_of_eq hl)]
  exact this

theorem vLane_setV_other {k : Core} {q : VReg} {l : List Word} {i : Nat} (h : q ≠ r) (hi : i < 64) : vLane (setV k r l) q i = vLane k q i := by
  have hval : q.val ≠ r.val := fun e => h (Fin.ext e)
  have hlen : (l.take 64).length ≤ 64 := List.length_take_le 64 l
  exact get_putLanes_other (l.take 64) (by omega)

end

/-- Settles O21: the lanes lie at 64 keys of their own register. -/
theorem writtenVectorRegister : Obligations.WrittenVectorRegister :=
  fun _ _ _ hk hl => ⟨fun _ h => vLane_setV_same hk hl h, fun _ _ hr hi => vLane_setV_other hr hi, rfl, ok_setV hk⟩

section
/-! Lane by lane (R121, R122). -/

variable {s : State} {c : CoreId}

/-- R121: a vector instruction writes its lanes and takes its slot; what it reads of the core does not depend on the slot. -/
theorem vop_opens {vd : VReg} {f : Core → List Word} {l : List Word} (h : s.opens c .vector) (hf : f (slotTaken (s.core c.val) .vector) = l) :
    vop s c vd f = s.setCore c.val (setV (slotTaken (s.core c.val) .vector) vd l) := by
  rw [vop, onCore_opens h, hf]

theorem lanes2_eq (k : Core) (va vb : VReg) (f : Word → Word → Word) :
    lanes2 k va vb f = (List.range 64).map (fun i => f (vLane k va i) (vLane k vb i)) := by
  rw [lanes2, vLanes, vLanes, List.zipWith_map, List.zipWith_self]

end

/-- Settles O19: each instruction is `vop` of its lanes. -/
theorem vectorArithmetic : Obligations.VectorArithmetic := by
  intro s c vd va vb vc h k lanes
  have two : ∀ f : Word → Word → Word, Host.Outcome.next (vop s c vd (fun k => lanes2 k va vb f)) =
      lanes (fun i => f (vLane k va i) (vLane k vb i)) :=
    fun f => congrArg Host.Outcome.next (vop_opens h (lanes2_eq ..))
  exact ⟨two fadd, two fsub, two fmul, congrArg Host.Outcome.next (vop_opens h rfl), two fmax, two fmin⟩

end Sys2Proof.Machine
end

section
/-! PROOF. A core's transfers with its berth's store die (O25): XRD and XWR. -/

namespace Sys2Proof.Machine

section
variable {s : State} {c : CoreId} {gl gn gc : GReg}

/-- R72: an access that the interlock holds waits in its slot. -/
theorem checked_waits {v : CoreUnit} {u : Nat} {acc a n} {p d : State → State} (h : interlocked (s.core c.val) a n (acc != .read) = true) :
    s.checked c v (slotTaken (s.core c.val) v) u acc a n p d =
      s.setCore c.val { s.core c.val with slot := slotOrder v, stalled := true } := if_pos h

/-- R128: XRD and XWR of no line pass. -/
theorem xrdXwr_none (h : s.opens c .memory) (hn : (gReg (s.core c.val) gc).toNat = 0) :
    let pass := s.setCore c.val (slotTaken (s.core c.val) .memory)
    exec (.xrd c gl gn gc) s = .next pass ∧ exec (.xwr c gl gn gc) s = .next pass :=
  ⟨congrArg Host.Outcome.next ((onCore_opens h).trans (if_pos hn)), congrArg Host.Outcome.next ((onCore_opens h).trans (if_pos hn))⟩

/-- R128: a core whose XRD has issued, its lines waiting for the store controller. -/
def readsQueued (k : Core) (line a n : Nat) : Core :=
  { k with
    reads := k.reads ++ (List.range n).map (fun i => { line := (line + i) % storeLines, dst := a + i * 128, queued := false })
    lines := k.lines + n }

/-- R128: XRD of at least one line is an access of its landing range. -/
theorem xrd_runs (h : s.opens c .memory) (hn : (gReg (s.core c.val) gc).toNat ≠ 0) :
    let k := s.core c.val
    let n := (gReg k gc).toNat
    let a := align128 (gReg k gl)
    exec (.xrd c gl gn gc) s = .next (s.checked c .memory (slotTaken k .memory) 4 .land a (n * 128)
      (fun s => s.setCore c.val (slotTaken k .memory))
      (fun s => s.setCore c.val (readsQueued (slotTaken k .memory) ((gReg k gn).toNat % storeLines) a n))) :=
  congrArg Host.Outcome.next ((onCore_opens h).trans (if_neg hn))

/-- R83: whether a core has still to read one of `n` lines from a line on. -/
def linesDue (k : Core) (line n : Nat) : Bool := k.reads.any (fun r => (r.line + storeLines - line) % storeLines < n)

theorem linesDue_iff (k : Core) (line n : Nat) : linesDue k line n = true ↔ ∃ r ∈ k.reads, (r.line + 2 ^ 26 - line) % 2 ^ 26 < n := by
  rw [linesDue, List.any_eq_true]
  exact exists_congr fun _ => and_congr_right fun _ => decide_eq_true_iff

/-- R83: XWR waits for the core's own reads of its lines. -/
theorem xwr_due (h : s.opens c .memory) (hn : (gReg (s.core c.val) gc).toNat ≠ 0)
    (hd : linesDue (s.core c.val) ((gReg (s.core c.val) gn).toNat % storeLines) (gReg (s.core c.val) gc).toNat = true) :
    exec (.xwr c gl gn gc) s = .next (s.setCore c.val { s.core c.val with slot := 2, stalled := true }) :=
  congrArg Host.Outcome.next ((onCore_opens h).trans ((if_neg hn).trans (if_pos hd)))

/-- R128: XWR of lines that the core has not still to read is an access of its source range. -/
theorem xwr_runs (h : s.opens c .memory) (hn : (gReg (s.core c.val) gc).toNat ≠ 0)
    (hd : ¬linesDue (s.core c.val) ((gReg (s.core c.val) gn).toNat % storeLines) (gReg (s.core c.val) gc).toNat = true) :
    let k := s.core c.val
    let n := (gReg k gc).toNat
    let a := align128 (gReg k gl)
    exec (.xwr c gl gn gc) s = .next (s.checked c .memory (slotTaken k .memory) 4 .read a (n * 128)
      (fun s => s.setCore c.val (slotTaken k .memory))
      (fun s => match s.physOf (c.val / 144) with
        | none => s.setCore c.val (slotTaken k .memory)
        | some b => (s.setCore c.val (slotTaken k .memory)).writeLines b n ((gReg k gn).toNat % storeLines) (Memory.read k.scratch a (n * 128)))) :=
  congrArg Host.Outcome.next ((onCore_opens h).trans ((if_neg hn).trans (if_neg hd)))

/-- R83, R128: a permitted XWR writes its lines and takes its slot. -/
theorem xwr_done {b : Nat} (h : s.opens c .memory) (hn : (gReg (s.core c.val) gc).toNat ≠ 0)
    (hd : ¬linesDue (s.core c.val) ((gReg (s.core c.val) gn).toNat % storeLines) (gReg (s.core c.val) gc).toNat = true)
    (ha : s.mayAccess c .read (align128 (gReg (s.core c.val) gl)) ((gReg (s.core c.val) gc).toNat * 128)) (hb : s.physOf (c.val / 144) = some b) :
    let k := s.core c.val
    let n := (gReg k gc).toNat
    exec (.xwr c gl gn gc) s = .next ((s.setCore c.val (slotTaken k .memory)).writeLines b n ((gReg k gn).toNat % storeLines)
      (Memory.read k.scratch (align128 (gReg k gl)) (n * 128))) := by
  intro k n
  rw [xwr_runs h hn hd, checked_may ha, hb]

theorem inv_setCore {k : Core} (hi : Inv s) (hk : CoreOk k) (c : Nat) : Inv (s.setCore c k) := (good_setCore hk (good_self hi)).inv

end

/-- Settles O25: each transfer by its line count, by what holds it, by the bounds check, and by `writeLines_spec`. -/
theorem storeDieTransfers : Obligations.StoreDieTransfers := by
  intro s c gl gn gc h k past pass wait n a line due read write
  have hdue : linesDue k line n = true ↔ due := linesDue_iff ..
  refine ⟨xrdXwr_none h, fun hn ha => ?_, fun b hn hd ha hb hi => ?_, fun cause x hn hl hr => ?_, fun cause x hn hd hl hr => ?_,
    fun hn hl => ?_, fun hn hl => ?_⟩
  · exact (xrd_runs h hn).trans (congrArg _ (checked_may ha))
  · obtain ⟨hbecomes, hkept, hwritten⟩ := writeLines_spec b n (s := pass) line (Memory.read k.scratch a (n * 128))
      (inv_setCore hi (ok_mk.2 (inv_core hi)) _) (length_read ..)
    refine ⟨_, xwr_done h hn (hdue.not.2 hd) ha hb, hbecomes, hkept, fun hmax i j hi hj => ?_⟩
    exact (hwritten hmax i j hi hj).trans (getD_read _ _ _ _ (by omega))
  · exact (xrd_runs h hn).trans (congrArg _ ((checked_refused hl hr).trans (boundsFault_setCore ..).symm))
  · exact (xwr_runs h hn (hdue.not.2 hd)).trans (congrArg _ ((checked_refused hl hr).trans (boundsFault_setCore ..).symm))
  · exact (xrd_runs h hn).trans (congrArg _ (checked_waits hl))
  · by_cases hd : due
    · exact xwr_due h hn (hdue.2 hd)
    · exact (xwr_runs h hn (hdue.not.2 hd)).trans (congrArg _ (checked_waits (hl.resolve_left hd)))

end Sys2Proof.Machine
end

section
/-! PROOF. Merged reads (O35): a read's arrival at its store die, the end of a merge window, the return of a line and the refill buffer. -/

namespace Sys2Proof.Machine

section
/-! The arrival of a read (R84, R85, R507). -/

variable {s : State} {b : Berth} {line : BitVec 26} {r : StoreReader}

theorem noteArrival_berth (s : State) (l : Nat) (r : StoreReader) (b : Nat) : (s.noteArrival l r).berth b = s.berth b := by cases r <;> rfl

theorem noteArrival_fuses (s : State) (l : Nat) (r : StoreReader) : (s.noteArrival l r).fuses = s.fuses := by cases r <;> rfl

/-- R84, R85: a read that is issued makes an entry of its own. -/
theorem issueRead_noted (b l : Nat) (o : Bool) : (s.noteArrival l r).issueRead b l o r = (s.noteArrival l r).setBerth b
    { activate (s.berth b) l with entries := (s.berth b).entries ++ [{ line := l, opened := o, readers := [r] }] } := by
  rw [State.issueRead, noteArrival_berth]
  rfl

theorem readArrival_notDue (y : Bool) (h : readDue s b.val line.toNat r = false) : exec (.storeReadArrival b line r y) s = .next s :=
  congrArg Host.Outcome.next (if_pos (by simp [h]))

/-- R84, R85: a due read that does not wait already. -/
theorem readArrival_due (y : Bool) (h : readDue s b.val line.toNat r = true)
    (hr : ∀ id, r = .remote id → ∀ m ∈ (s.berth b.val).entries, m.line = line.toNat → r ∉ m.readers) :
    let l := line.toNat
    let x := s.berth b.val
    let u := s.noteArrival l r
    exec (.storeReadArrival b line r y) s = .next (
      if (y && s.fuses.stepping == .a1) = true then u.issueRead b.val l false r
      else if x.entries.any (fun e => e.line = l && e.opened) = true then
        if readerJoins r then (u.setBerth b.val { x with entries := joinEntry l r x.entries }).countMerge r else u.issueRead b.val l false r
      else u.issueRead b.val l (decide ((x.entries.filter (·.opened)).length < 64)) r) := by
  intro l x u
  rw [← noteArrival_fuses s l r]
  refine congrArg Host.Outcome.next (if_neg ?_)
  cases r with
  | remote id =>
    simp only [h, Bool.not_true, Bool.false_or, Bool.and_true, List.any_eq_true, Bool.and_eq_true, decide_eq_true_eq, List.contains_iff_mem]
    rintro ⟨m, hm, hl, hw⟩
    exact hr id rfl m hm hl hw
  | _ => simp [h]

theorem countMerge_only (s : State) (r : StoreReader) : ∃ m, s.countMerge r = { s with regs := m } := by
  unfold State.countMerge
  split
  · split
    · exact count_only ..
    · exact ⟨s.regs, rfl⟩
  · exact ⟨s.regs, rfl⟩

theorem hasOpen_iff {l : Nat} {es : List MergeEntry} :
    es.any (fun e => e.line = l && e.opened) = true ↔ ∃ e ∈ es, e.line = l ∧ e.opened = true := by
  simp only [List.any_eq_true, Bool.and_eq_true, decide_eq_true_eq]

/-- R507: on A1 a read during a refresh is issued without merging. -/
theorem readArrival_a1 (h : readDue s b.val line.toNat r = true)
    (hr : ∀ id, r = .remote id → ∀ m ∈ (s.berth b.val).entries, m.line = line.toNat → r ∉ m.readers) (ha : s.fuses.stepping = .a1) :
    exec (.storeReadArrival b line r true) s = .next ((s.noteArrival line.toNat r).issueRead b.val line.toNat false r) := by
  rw [readArrival_due true h hr]
  exact congrArg Host.Outcome.next (if_pos (by rw [ha]; rfl))

/-- R84: with no open entry of its line, a read makes one, open while fewer than 64 are. -/
theorem readArrival_new (h : readDue s b.val line.toNat r = true)
    (hr : ∀ id, r = .remote id → ∀ m ∈ (s.berth b.val).entries, m.line = line.toNat → r ∉ m.readers)
    (hno : ∀ m ∈ (s.berth b.val).entries, ¬(m.line = line.toNat ∧ m.opened = true)) :
    exec (.storeReadArrival b line r false) s = .next ((s.noteArrival line.toNat r).issueRead b.val line.toNat
      (decide (((s.berth b.val).entries.filter (·.opened)).length < 64)) r) := by
  have hopen : ¬(s.berth b.val).entries.any (fun e => e.line = line.toNat && e.opened) = true :=
    hasOpen_iff.not.2 fun ⟨m, hm, ho⟩ => hno m hm ho
  rw [readArrival_due false h hr]
  exact congrArg Host.Outcome.next (if_neg hopen)

/-- R84, R97: beside an open entry of its line, a read of a core or a remote one joins it, and another is issued without merging. -/
theorem readArrival_open {pre post : List MergeEntry} {e : MergeEntry} (h : readDue s b.val line.toNat r = true)
    (hr : ∀ id, r = .remote id → ∀ m ∈ (s.berth b.val).entries, m.line = line.toNat → r ∉ m.readers)
    (hx : (s.berth b.val).entries = pre ++ e :: post) (hpre : ∀ m ∈ pre, ¬(m.line = line.toNat ∧ m.opened = true))
    (he : e.line = line.toNat ∧ e.opened = true) :
    (readerJoins r = true → ∃ m, exec (.storeReadArrival b line r false) s = .next { (s.noteArrival line.toNat r).setBerth b.val
      { s.berth b.val with entries := pre ++ { e with readers := e.readers ++ [r] } :: post } with regs := m }) ∧
    (readerJoins r = false → exec (.storeReadArrival b line r false) s =
      .next ((s.noteArrival line.toNat r).issueRead b.val line.toNat false r)) := by
  have hopen : (s.berth b.val).entries.any (fun e => e.line = line.toNat && e.opened) = true :=
    hasOpen_iff.2 ⟨e, by simp [hx], he⟩
  rw [readArrival_due false h hr]
  simp only [Bool.false_and, Bool.false_eq_true, if_false, hopen, if_true]
  refine ⟨fun hj => ?_, fun hj => ?_⟩
  · rw [if_pos hj, hx, joinEntry_split pre hpre he]
    obtain ⟨m, hm⟩ := countMerge_only ((s.noteArrival line.toNat r).setBerth b.val
      { s.berth b.val with entries := pre ++ { e with readers := e.readers ++ [r] } :: post }) r
    exact ⟨m, congrArg _ hm⟩
  · rw [if_neg (by simp [hj])]

/-- R84: the end of a merge window closes the first open entry of its line. -/
theorem mergeWindowEnd_closes {pre post : List MergeEntry} {e : MergeEntry} (hx : (s.berth b.val).entries = pre ++ e :: post)
    (hpre : ∀ m ∈ pre, ¬(m.line = line.toNat ∧ m.opened = true)) (he : e.line = line.toNat ∧ e.opened = true) :
    exec (.mergeWindowEnd b line) s =
      .next (s.setBerth b.val { s.berth b.val with entries := pre ++ { e with opened := false } :: post }) := by
  refine congrArg Host.Outcome.next ?_
  show s.setBerth b.val { s.berth b.val with entries := closeEntry line.toNat (s.berth b.val).entries } = _
  rw [hx, closeEntry_split pre hpre he]

end

section
/-! The return of a line (R84, R203, R205). -/

variable {s : State} {b : Berth} {line : BitVec 26}

theorem lineReturn_held (e : EccOutcome) (ok : Bool) (h : line.toNat ∈ (s.berth b.val).held) :
    exec (.storeLineReturn b line e ok) s = .next s := by
  refine congrArg Host.Outcome.next ?_
  cases hf : (s.berth b.val).entries.find? (fun m => m.line = line.toNat) with
  | none => simp only [hf]
  | some m => simp only [hf, List.contains_iff_mem, h, if_true]

theorem line_setBerth (hi : Inv s) (b l : Nat) (x : BerthSt) : (s.setBerth b x).line b l = Memory.read x.store (l % storeLines * 128) 128 := by
  rw [State.line, State.berth_setBerth hi.berths]

theorem storePut_setBerth (hi : Inv s) (b off : Nat) (x : BerthSt) (data : List Byte) :
    (s.setBerth b x).storePut b off data = s.setBerth b { x with store := Memory.write x.store off data } := by
  rw [State.storePut, State.berth_setBerth hi.berths]
  exact State.setBerth_setBerth hi.berths

/-- R84, R205: a line of an entry that is not held leaves the list, whatever the die returns. -/
theorem lineReturn_runs {m : MergeEntry} (hi : Inv s) (e : EccOutcome) (ok : Bool)
    (hf : (s.berth b.val).entries.find? (fun m => m.line = line.toNat) = some m) (hh : line.toNat ∉ (s.berth b.val).held) :
    let l := line.toNat
    let x := s.berth b.val
    let u := s.setBerth b.val { x with entries := dropEntry l x.entries }
    let data := m.data.getD (Memory.read x.store (l * 128) 128)
    let good := Memory.read x.store (mirrorLine l % storeLines * 128) 128
    exec (.storeLineReturn b line e ok) s = .next (match e with
      | .clean => m.readers.foldl (fun s r => s.deliverLine l data r) u
      | .corrected => m.readers.foldl (fun s r => s.deliverLine l data r) (u.lineCorrected b.val l)
      | .uncorrectable =>
        if s.regionOf b.val l = 2 ∧ ok = true then
          m.readers.foldl (fun s r => s.deliverLine l good r) (((u.noteRow b.val l true).storePut b.val (l * 128) good).raise .stor b.val 5)
        else m.readers.foldl State.failLine
          ((u.lineLost b.val l).raiseAs .stor b.val 1 (if s.regionOf b.val l = 2 then .berth else .contained))) := by
  intro l x u data good
  have hdata : u.line b.val l = Memory.read x.store (l * 128) 128 := by
    rw [line_setBerth hi, show l % storeLines = l from Nat.mod_eq_of_lt line.isLt]
  have hgood : u.line b.val (mirrorLine l) = good := line_setBerth hi _ _ _
  have hheld : x.held.contains l = false := by
    rw [← Bool.not_eq_true, List.contains_iff_mem]
    exact hh
  refine congrArg Host.Outcome.next ?_
  simp only [hf]
  rw [if_neg (by simp [hh])]
  cases e with
  | clean =>
    show m.readers.foldl (fun s r => s.deliverLine l (m.data.getD (u.line b.val l)) r) u = _
    rw [hdata]
  | corrected =>
    show m.readers.foldl (fun s r => s.deliverLine l (m.data.getD (u.line b.val l)) r) (u.lineCorrected b.val l) = _
    rw [hdata]
  | uncorrectable => rw [← hgood]; rfl

/-- R204, R206: a corrected line, of a berth that has just been written. -/
theorem lineCorrected_setBerth (hi : Inv s) (b l : Nat) (x : BerthSt) : ∃ g f, (s.setBerth b x).lineCorrected b l =
    { s.setBerth b { x with rowErrors := rowsWith s x l false } with regs := g, flt := f } ∧
    ({ s with regs := g } : State).errSet .stor b 0 = true := by
  rw [State.lineCorrected, noteRow_setBerth hi.berths]
  exact raise_any (s := s.setBerth b { x with rowErrors := rowsWith s x l false }) hi.regs rfl (by decide)

/-- R205: a line of the reserve, of a berth that has just been written, rewritten from its mirror copy. -/
theorem lineMirrored_setBerth (hi : Inv s) (b l : Nat) (x : BerthSt) (good : List Byte) : ∃ g f,
    (((s.setBerth b x).noteRow b l true).storePut b (l * 128) good).raise .stor b 5 =
      { s.setBerth b { x with rowErrors := rowsWith s x l true, store := Memory.write x.store (l * 128) good } with regs := g, flt := f } ∧
    ({ s with regs := g } : State).errSet .stor b 5 = true := by
  rw [noteRow_setBerth hi.berths, storePut_setBerth hi]
  exact raise_any (s := s.setBerth b { x with rowErrors := rowsWith s x l true, store := Memory.write x.store (l * 128) good }) hi.regs rfl
    (by decide)

/-- R205, R219: a line that is lost, of a berth that has just been written, with its error of whatever class. -/
theorem lineLost_raised (hi : Inv s) (b l : Nat) (x : BerthSt) (z : ErrClass) : ∃ g f,
    ((s.setBerth b x).lineLost b l).raiseAs .stor b 1 z =
      { s.setBerth b { x with rowErrors := rowsWith s x l true, badLines := x.badLines.filter (· ≠ l) ++ [l] } with regs := g, flt := f } ∧
    ({ s with regs := g } : State).errSet .stor b 1 = true := by
  obtain ⟨m, e, hm⟩ := lineLost_setBerth hi b l x
  rw [e]
  exact raiseAs_any (s := { s.setBerth b { x with rowErrors := rowsWith s x l true, badLines := x.badLines.filter (· ≠ l) ++ [l] } with
    regs := m }) hm (by decide)

/-- R84, R128: a line that returns to a core lands at its read's address. -/
theorem deliverLine_core {t : State} {c : CoreId} {l : Nat} {data : List Byte} {w : LineWait}
    (h : (t.core c.val).reads.find? (fun r => r.line = l && r.queued) = some w) :
    t.deliverLine l data (.core c) = t.setCore c.val { (t.core c.val).put w.dst data with reads := dropWait l (t.core c.val).reads } := by
  simp only [State.deliverLine, h]

end

section
/-! The refill buffer (R199). -/

variable {s : State} {b : Berth}

theorem inv_setBerth {x : BerthSt} (hi : Inv s) (hx : Memory.wf x.store = true) (b : Nat) : Inv (s.setBerth b x) :=
  (good_setBerth hx (good_self hi)).inv

theorem refillWrite_none (h : (s.berth b.val).refill = []) : exec (.refillWrite b) s = .next s := by
  refine congrArg Host.Outcome.next ?_
  simp only [h]

theorem refillWrite_some {off : Nat} {data : List Byte} {rest : List (Nat × List Byte)} (h : (s.berth b.val).refill = (off, data) :: rest) :
    let u := s.setBerth b.val { s.berth b.val with refill := rest }
    exec (.refillWrite b) s = .next (if off + data.length ≤ 0x3E00000 * 128 then u.storeWrite b.val off data else u.raise .stor b.val 6) := by
  intro u
  refine congrArg Host.Outcome.next ?_
  simp only [h, inPools, decide_eq_true_eq]
  rfl

/-- R199: a refill buffer within the weight region and the KV pool is written. -/
theorem refillWrite_fits (hi : Inv s) {off : Nat} {data : List Byte} {rest : List (Nat × List Byte)}
    (h : (s.berth b.val).refill = (off, data) :: rest) (hfit : off + data.length ≤ 0x3E00000 * 128) :
    ∃ t, exec (.refillWrite b) s = .next t ∧
      (s.setBerth b.val { s.berth b.val with refill := rest }).StoreBecomes b.val (Memory.write (s.berth b.val).store off data) t := by
  have hu : Inv (s.setBerth b.val { s.berth b.val with refill := rest }) :=
    inv_setBerth (x := { s.berth b.val with refill := rest }) hi (inv_store (b := b.val) hi) _
  have hspec := storeWrite_spec hu b.val off data
  rw [State.berth_setBerth hi.berths] at hspec
  exact ⟨_, (refillWrite_some h).trans (congrArg _ (if_pos hfit)), hspec⟩

/-- R199, R217: another is refused with PART. -/
theorem refillWrite_refused (hi : Inv s) {off : Nat} {data : List Byte} {rest : List (Nat × List Byte)}
    (h : (s.berth b.val).refill = (off, data) :: rest) (hfit : 0x3E00000 * 128 < off + data.length) :
    ∃ g f, exec (.refillWrite b) s = .next { s.setBerth b.val { s.berth b.val with refill := rest } with regs := g, flt := f } ∧
      ({ s with regs := g } : State).errSet .stor b.val 6 = true := by
  obtain ⟨g, f, e, hset⟩ := raise_any (s := s.setBerth b.val { s.berth b.val with refill := rest }) (b := .stor) (i := b.val) (n := 6) hi.regs rfl
    (by decide)
  exact ⟨g, f, (refillWrite_some h).trans (congrArg _ ((if_neg (by omega)).trans e)), hset⟩

end

/-- Settles O35: a read's arrival by the entries of its line, a return by what the die delivers, the refill buffer by where it lies. -/
theorem mergedReads : Obligations.MergedReads := by
  intro s b line r hi l x noted issued rows
  refine ⟨fun hd y => readArrival_notDue y hd,
    fun hd hr => ⟨fun c hc => ?_, fun ha => ?_, fun hno => ?_, fun pre e post hx hpre hl ho => ?_⟩,
    fun pre e post hx hpre hl ho => mergeWindowEnd_closes hx hpre ⟨hl, ho⟩, fun hh e ok => lineReturn_held e ok hh, ?_,
    fun t c data w hw => deliverLine_core hw, refillWrite_none, fun off data rest h => ⟨refillWrite_fits hi h, refillWrite_refused hi h⟩⟩
  · rw [show noted = s.noteArrival l r from rfl, hc]
    rfl
  · exact (readArrival_a1 hd hr ha).trans (congrArg _ (issueRead_noted ..))
  · exact (readArrival_new hd hr hno).trans (congrArg _ (issueRead_noted ..))
  · obtain ⟨joins, alone⟩ := readArrival_open hd hr hx hpre ⟨hl, ho⟩
    split
    next hj => exact joins hj
    next hj => exact (alone (by simpa using hj)).trans (congrArg _ (issueRead_noted ..))
  · intro m ok hf hh left data good
    refine ⟨lineReturn_runs hi .clean ok hf hh, ?_, fun hreg hok => ?_, fun hlost => ?_⟩
    · obtain ⟨g, f, e, hset⟩ := lineCorrected_setBerth hi b.val l left
      exact ⟨g, f, (lineReturn_runs hi .corrected ok hf hh).trans (congrArg (fun u => Host.Outcome.next (m.readers.foldl _ u)) e), hset⟩
    · obtain ⟨g, f, e, hset⟩ := lineMirrored_setBerth hi b.val l left good
      exact ⟨g, f, (lineReturn_runs hi .uncorrectable ok hf hh).trans
        ((congrArg _ (if_pos ⟨hreg, hok⟩)).trans (congrArg (fun u => Host.Outcome.next (m.readers.foldl _ u)) e)), hset⟩
    · obtain ⟨g, f, e, hset⟩ := lineLost_raised hi b.val l left (if s.regionOf b.val l = 2 then .berth else .contained)
      have hnot : ¬(s.regionOf b.val l = 2 ∧ ok = true) := fun h => hlost.elim (· h.1) fun hf => by simp [hf] at h
      exact ⟨g, f, (lineReturn_runs hi .uncorrectable ok hf hh).trans
        ((congrArg _ (if_neg hnot)).trans (congrArg (fun u => Host.Outcome.next (m.readers.foldl _ u)) e)), hset⟩

end Sys2Proof.Machine
end

section
/-! PROOF. The start of a tile (O17): MCFG and MTILE. -/

namespace Sys2Proof.Machine

section
variable {s : State} {c : CoreId} {ga gb gd : GReg}

/-- R113: MCFG copies its operand into a configuration word. -/
theorem mcfg_opens {w : CfgWord} (h : s.opens c .matrix) (hw : w ≠ .reserved) :
    exec (.mcfg c ga w) s = .next (s.setCore c.val (setCfg (slotTaken (s.core c.val) .matrix) w (gReg (s.core c.val) ga))) :=
  congrArg Host.Outcome.next ((onCore_opens h).trans (if_neg hw))

theorem mcfg_reserved (h : s.opens c .matrix) : exec (.mcfg c ga .reserved) s = .next (s.fetchFault c.val) :=
  congrArg Host.Outcome.next ((onCore_opens h).trans (if_pos rfl))

theorem mtile_waits (h : s.opens c .matrix) (ht : (s.core c.val).tile ≠ none) :
    exec (.mtile c gd ga gb) s = .next (s.setCore c.val { s.core c.val with slot := 0, stalled := true }) :=
  congrArg Host.Outcome.next ((onCore_opens h).trans (if_pos (Option.isSome_iff_ne_none.2 ht)))

theorem mtile_badConfig (h : s.opens c .matrix) (ht : (s.core c.val).tile = none)
    (hp : parseTile (s.core c.val).tshape (s.core c.val).tfmt (s.core c.val).tbound = none) :
    exec (.mtile c gd ga gb) s = .next (s.fetchFault c.val) := by
  refine congrArg Host.Outcome.next ((onCore_opens h).trans ?_)
  simp only [slotTaken, ht, hp, Option.isSome_none, Bool.false_eq_true, if_false]

/-- R72, R117: whether the interlock holds one of a tile's ranges. -/
def tileHeld (k : Core) (g : TileCfg) (out act wgt : Nat) : Bool :=
  interlocked k act g.actBytes false || interlocked k wgt g.weightBytes false || interlocked k out g.outBytes true

/-- R117: the first refused range of a tile: activations, weights, output. -/
def tileRefused (k : Core) (blk : CoreBlock) (g : TileCfg) (out act wgt : Nat) : Option (Nat × Nat) :=
  refused k blk .read act g.actBytes <|> refused k blk .read wgt g.weightBytes <|> refused k blk .write out g.outBytes

theorem tileHeld_eq (k : Core) (g : TileCfg) (out act wgt : Nat) :
    (tileRanges g out act wgt).any (fun x => interlocked k x.2.1 x.2.2 (x.1 != .read)) = tileHeld k g out act wgt := by
  simp only [tileRanges, tileHeld, List.any_cons, List.any_nil, Bool.or_false, Bool.or_assoc]
  rfl

theorem tileRefused_eq (k : Core) (blk : CoreBlock) (g : TileCfg) (out act wgt : Nat) :
    (tileRanges g out act wgt).findSome? (fun x => refused k blk x.1 x.2.1 x.2.2) = tileRefused k blk g out act wgt := by
  simp only [tileRanges, tileRefused, List.findSome?_cons, List.findSome?_nil]
  cases refused k blk .read act g.actBytes with
  | some x => rfl
  | none => cases refused k blk .read wgt g.weightBytes with
    | some x => rfl
    | none => cases refused k blk .write out g.outBytes <;> rfl

/-- R117, R118: MTILE with a configuration that the unit takes and no tile in progress: it waits, starts its tile, or faults. -/
theorem mtile_runs {g : TileCfg} (h : s.opens c .matrix) (ht : (s.core c.val).tile = none)
    (hp : parseTile (s.core c.val).tshape (s.core c.val).tfmt (s.core c.val).tbound = some g) :
    let k := s.core c.val
    let out := align64 (gReg k gd)
    let act := align64 (gReg k ga)
    let wgt := align64 (gReg k gb)
    (tileHeld k g out act wgt = true → exec (.mtile c gd ga gb) s = .next (s.setCore c.val { k with slot := 0, stalled := true })) ∧
    (tileHeld k g out act wgt = false → tileRefused k (s.block c.val) g out act wgt = none → exec (.mtile c gd ga gb) s =
      .next (s.setCore c.val { slotTaken k .matrix with tile := some (firstAttempt k g out act wgt) })) ∧
    (∀ n x, tileHeld k g out act wgt = false → tileRefused k (s.block c.val) g out act wgt = some (n, x) →
      exec (.mtile c gd ga gb) s = .next ((s.setCore c.val (slotTaken k .matrix)).boundsFault c.val 2 n x)) := by
  intro k out act wgt
  have run : exec (.mtile c gd ga gb) s = .next (
      if (tileRanges g out act wgt).any (fun x => interlocked k x.2.1 x.2.2 (x.1 != .read)) then s.stall c .matrix (slotTaken k .matrix)
      else match (tileRanges g out act wgt).findSome? (fun x => refused k (s.block c.val) x.1 x.2.1 x.2.2) with
        | some (cause, x) => (s.setCore c.val (slotTaken k .matrix)).boundsFault c.val 2 cause x
        | none => s.setCore c.val { slotTaken k .matrix with tile := some (firstAttempt k g out act wgt) }) := by
    refine congrArg Host.Outcome.next ((onCore_opens h).trans ?_)
    have ht' : (slotTaken k .matrix).tile = none := ht
    have hp' : parseTile (slotTaken k .matrix).tshape (slotTaken k .matrix).tfmt (slotTaken k .matrix).tbound = some g := hp
    simp only [show s.core c.val = k from rfl, ht', hp', Option.isSome_none, Bool.false_eq_true, if_false]
    rfl
  rw [run, tileHeld_eq, tileRefused_eq]
  refine ⟨fun hh => ?_, fun hh hr => ?_, fun n x hh hr => ?_⟩
  · rw [if_pos hh]
    rfl
  · rw [if_neg (by simp [hh]), hr]
  · rw [if_neg (by simp [hh]), hr]

end

/-- Settles O17: MTILE by what holds it, then by its configuration, then by the first refused range. -/
theorem tileStart : Obligations.TileStart := by
  intro s c gd ga gb h k past out act wgt wait
  refine ⟨mcfg_opens h (by decide), mcfg_opens h (by decide), mcfg_opens h (by decide), mcfg_reserved h, mtile_waits h, mtile_badConfig h, ?_⟩
  intro g ht hp held ra rb ro
  obtain ⟨waits, starts, faults⟩ := mtile_runs (gd := gd) (ga := ga) (gb := gb) h ht hp
  refine ⟨waits, fun hh ha hb ho => starts hh ?_, faults⟩
  show (ra <|> rb <|> ro) = none
  rw [ha, hb, ho]
  rfl

end Sys2Proof.Machine
end

section
/-! PROOF. The invariant (O3, O4): it holds at reset, and every step keeps it. -/

namespace Sys2Proof.Machine

/-- The invariant does not speak of the queue of waiting commands. -/
theorem inv_withPending {s : State} {l : List Instr} (h : Inv s) : Inv { s with pending := l } :=
  ⟨h.hbm, h.hostMem, h.regs, h.rollback, h.svn, h.cores, h.core, h.berths, h.store⟩

theorem exec_keeps_inv {c : Instr} {s t : State} (h : Inv s) (ht : exec c s = .next t) : Inv t := (good_exec c (good_self h) t ht).inv

theorem tick_keeps_inv {s : State} (h : Inv s) : Inv (tick s) := (good_tick (good_self h)).inv

/-- Settles O3: the reset state lists nothing, and both counts start at 0. -/
theorem invariantAtReset : Obligations.InvariantAtReset :=
  ⟨rfl, rfl, rfl, Nat.zero_le _, Nat.zero_le _, rfl, fun _ he => absurd he List.not_mem_nil, rfl, fun _ he => absurd he List.not_mem_nil⟩

/-- Settles O4: a step is the tick of an empty queue or a command run on the queue's rest, and either keeps the invariant. -/
theorem stepKeepsInvariant : Obligations.StepKeepsInvariant := by
  intro s t hs ht
  unfold step at ht
  split at ht
  · cases ht
    exact tick_keeps_inv hs
  · exact exec_keeps_inv (inv_withPending hs) ht

end Sys2Proof.Machine
end

section
/-! PROOF. Slot words (O6, O7): the rows of the encoding tables by the shape of their fields, read and written. -/

namespace Sys2Proof

open Machine

section
/-! The fields of a word (R106). -/

/-- R106: what a slot word holds: its opcode, two register fields and bits [15:0]. -/
structure HasFields (w : Word) (op : Nat) (a b : Fin 32) (m : Nat) : Prop where
  op : w.toNat / 2 ^ 26 = op
  a : regAt w 21 = a
  b : regAt w 16 = b
  low : w.toNat % 65536 = m

variable {w : Word} {op m x : Nat} {a b d e : Fin 32}

theorem toNat_slotOf {low : Nat} (ho : op < 64) (hl : low < 2 ^ 26) : (slotOf op low).toNat = op * 2 ^ 26 + low := by
  rw [slotOf, BitVec.toNat_ofNat]
  omega

theorem opcode_slotOf {low : Nat} (ho : op < 64) (hl : low < 2 ^ 26) : (slotOf op low).toNat / 2 ^ 26 = op := by
  rw [toNat_slotOf ho hl]
  omega

/-- A word is its opcode and what stands below it. -/
theorem eq_slotOf {low : Nat} (ho : w.toNat / 2 ^ 26 = op) (hl : w.toNat % 2 ^ 26 = low) : w = slotOf op low := by
  have := w.isLt
  apply BitVec.eq_of_toNat_eq
  rw [toNat_slotOf (by omega) (by omega)]
  omega

theorem packImm_lt (a b : Fin 32) (hm : m < 65536) : packImm a b m < 2 ^ 26 := by
  unfold packImm
  omega

theorem hasFields_slotOf (ho : op < 64) (hm : m < 65536) : HasFields (slotOf op (packImm a b m)) op a b m := by
  have hw := toNat_slotOf ho (packImm_lt a b hm)
  rw [packImm] at hw
  refine ⟨opcode_slotOf ho (packImm_lt a b hm), Fin.ext ?_, Fin.ext ?_, ?_⟩
  · show _ / 2 ^ 21 % 32 = a.val
    rw [packImm]
    omega
  · show _ / 2 ^ 16 % 32 = b.val
    rw [packImm]
    omega
  · rw [packImm]
    omega

/-- R106: a word's fields make it up. -/
theorem packImm_fields (w : Word) : packImm (regAt w 21) (regAt w 16) (w.toNat % 65536) = w.toNat % 2 ^ 26 := by
  simp only [packImm, regAt]
  omega

theorem eq_slotOf_packImm (ho : w.toNat / 2 ^ 26 = op) (hl : w.toNat % 65536 = m) : w = slotOf op (packImm (regAt w 21) (regAt w 16) m) :=
  eq_slotOf ho (by rw [← hl, packImm_fields])

theorem HasFields.reg11 (h : HasFields w op a b m) (hd : m / 2048 = d.val) : regAt w 11 = d := by
  have := h.low
  refine Fin.ext ?_
  show _ / 2 ^ 11 % 32 = d.val
  omega

theorem HasFields.reg6 (h : HasFields w op a b m) (he : m / 64 % 32 = e.val) : regAt w 6 = e := by
  have := h.low
  refine Fin.ext ?_
  show _ / 2 ^ 6 % 32 = e.val
  omega

theorem HasFields.imm (h : HasFields w op a b m) : imm16 w = BitVec.ofNat 16 m := congrArg _ h.low

end

section
/-! The rows of the tables, by the fields that they read (R107, R113, R120, R121, R125–R127). -/

variable {w : Word} {op : Nat} {i : Instr}

theorem guardRow_eq_some {ok : Bool} {r : Instr} : guardRow ok r = some i ↔ ok = true ∧ r = i := by
  unfold guardRow
  split <;> simp [*]

theorem opcode_lt (w : Word) : w.toNat / 2 ^ 26 < 64 := by
  have := w.isLt
  omega

/-- R106: three register fields are two and the third at the top of bits [15:0]. -/
theorem packRegs_add (a b d : Fin 32) (x : Nat) : packRegs a b d + x = packImm a b (d.val * 2048 + x) := by
  unfold packRegs packImm
  omega

theorem packRegs_eq (a b d : Fin 32) : packRegs a b d = packImm a b (d.val * 2048) := by
  unfold packRegs packImm
  omega

theorem hasFields_packRegs (a b d : Fin 32) (ho : op < 64) : HasFields (slotOf op (packRegs a b d)) op a b (d.val * 2048) := by
  rw [packRegs_eq]
  exact hasFields_slotOf ho (by omega)

/-- Three registers, the bits below them zero. -/
theorem regsRow {f : Fin 32 → Fin 32 → Fin 32 → Instr} (ho : w.toNat / 2 ^ 26 = op) :
    guardRow (w.toNat % 2048 = 0) (f (regAt w 21) (regAt w 16) (regAt w 11)) = some i ↔
      ∃ a b d, i = f a b d ∧ w = slotOf op (packRegs a b d) := by
  rw [guardRow_eq_some, decide_eq_true_iff]
  constructor
  · rintro ⟨hz, rfl⟩
    refine ⟨_, _, _, rfl, ?_⟩
    rw [packRegs_eq]
    refine eq_slotOf_packImm ho ?_
    simp only [regAt]
    omega
  · rintro ⟨a, b, d, rfl, rfl⟩
    have h := hasFields_packRegs a b d (ho ▸ opcode_lt _)
    have := h.low
    exact ⟨by omega, by rw [h.a, h.b, h.reg11 (d := d) (by omega)]⟩

/-- Two registers and bits [15:0] as they stand. -/
theorem immRow {f : Fin 32 → Fin 32 → BitVec 16 → Instr} (ho : w.toNat / 2 ^ 26 = op) :
    some (f (regAt w 21) (regAt w 16) (imm16 w)) = some i ↔ ∃ a b m, i = f a b m ∧ w = slotOf op (packImm a b m.toNat) := by
  constructor
  · rintro ⟨⟩
    exact ⟨_, _, _, rfl, eq_slotOf_packImm ho (by simp [imm16])⟩
  · rintro ⟨a, b, m, rfl, rfl⟩
    have h : HasFields (slotOf op (packImm a b m.toNat)) op a b m.toNat := hasFields_slotOf (ho ▸ opcode_lt _) (by omega)
    rw [h.a, h.b, h.imm, BitVec.ofNat_toNat, BitVec.setWidth_eq]

/-- One register and bits [15:0] that the row allows, the second register field zero. -/
theorem immOneRowIf {f : Fin 32 → BitVec 16 → Instr} {ok : Nat → Bool} (ho : w.toNat / 2 ^ 26 = op) :
    guardRow (w.toNat / 2 ^ 16 % 32 = 0 && ok (w.toNat % 65536)) (f (regAt w 21) (imm16 w)) = some i ↔
      ∃ a m, i = f a m ∧ ok m.toNat = true ∧ w = slotOf op (packImm a 0 m.toNat) := by
  rw [guardRow_eq_some, Bool.and_eq_true, decide_eq_true_iff]
  constructor
  · rintro ⟨⟨hb, hok⟩, rfl⟩
    have hb : regAt w 16 = 0 := Fin.ext hb
    have hm : (imm16 w).toNat = w.toNat % 65536 := by simp [imm16]
    exact ⟨_, _, rfl, by rwa [hm], hb ▸ eq_slotOf_packImm ho hm.symm⟩
  · rintro ⟨a, m, rfl, hok, rfl⟩
    have h : HasFields (slotOf op (packImm a 0 m.toNat)) op a 0 m.toNat := hasFields_slotOf (ho ▸ opcode_lt _) (by omega)
    exact ⟨⟨congrArg Fin.val h.b, by rwa [h.low]⟩, by rw [h.a, h.imm, BitVec.ofNat_toNat, BitVec.setWidth_eq]⟩

/-- One register and bits [15:0] as they stand, the second register field zero. -/
theorem immOneRow {f : Fin 32 → BitVec 16 → Instr} (ho : w.toNat / 2 ^ 26 = op) :
    guardRow (w.toNat / 2 ^ 16 % 32 = 0) (f (regAt w 21) (imm16 w)) = some i ↔ ∃ a m, i = f a m ∧ w = slotOf op (packImm a 0 m.toNat) := by
  have h := immOneRowIf (f := f) (ok := fun _ => true) (i := i) ho
  simpa only [Bool.and_true, true_and] using h

/-- Two registers and a 5-bit shift amount. -/
theorem shiftRow {f : Fin 32 → Fin 32 → BitVec 5 → Instr} (ho : w.toNat / 2 ^ 26 = op) :
    guardRow (w.toNat % 65536 < 32) (f (regAt w 21) (regAt w 16) (BitVec.ofNat 5 (w.toNat % 65536))) = some i ↔
      ∃ a b s, i = f a b s ∧ w = slotOf op (packImm a b s.toNat) := by
  rw [guardRow_eq_some, decide_eq_true_iff]
  constructor
  · rintro ⟨hz, rfl⟩
    exact ⟨_, _, _, rfl, eq_slotOf_packImm ho (by rw [BitVec.toNat_ofNat]; omega)⟩
  · rintro ⟨a, b, s, rfl, rfl⟩
    have h : HasFields (slotOf op (packImm a b s.toNat)) op a b s.toNat := hasFields_slotOf (ho ▸ opcode_lt _) (by omega)
    exact ⟨by rw [h.low]; exact s.isLt, by rw [h.a, h.b, h.low, BitVec.ofNat_toNat, BitVec.setWidth_eq]⟩

/-- Two registers, the bits below them zero. -/
theorem twoRegsRow {f : Fin 32 → Fin 32 → Instr} (ho : w.toNat / 2 ^ 26 = op) :
    guardRow (w.toNat % 65536 = 0) (f (regAt w 21) (regAt w 16)) = some i ↔ ∃ a b, i = f a b ∧ w = slotOf op (packRegs a b 0) := by
  rw [guardRow_eq_some, decide_eq_true_iff]
  constructor
  · rintro ⟨hz, rfl⟩
    exact ⟨_, _, rfl, eq_slotOf_packImm ho hz⟩
  · rintro ⟨a, b, rfl, rfl⟩
    have h := hasFields_packRegs a b 0 (ho ▸ opcode_lt _)
    exact ⟨h.low, by rw [h.a, h.b]⟩

/-- Four registers, the bits below them zero. -/
theorem fourRegsRow {f : Fin 32 → Fin 32 → Fin 32 → Fin 32 → Instr} (ho : w.toNat / 2 ^ 26 = op) :
    guardRow (w.toNat % 64 = 0) (f (regAt w 21) (regAt w 16) (regAt w 11) (regAt w 6)) = some i ↔
      ∃ a b d e, i = f a b d e ∧ w = slotOf op (packRegs a b d + e.val * 64) := by
  rw [guardRow_eq_some, decide_eq_true_iff]
  constructor
  · rintro ⟨hz, rfl⟩
    refine ⟨_, _, _, _, rfl, ?_⟩
    rw [packRegs_add]
    refine eq_slotOf_packImm ho ?_
    simp only [regAt]
    omega
  · rintro ⟨a, b, d, e, rfl, rfl⟩
    rw [packRegs_add] at ho ⊢
    have h := hasFields_slotOf (a := a) (b := b) (m := d.val * 2048 + e.val * 64) (ho ▸ opcode_lt _) (by omega)
    have := h.low
    exact ⟨by omega, by rw [h.a, h.b, h.reg11 (d := d) (by omega), h.reg6 (e := e) (by omega)]⟩

/-- No register: bits [15:0] name a flow. -/
theorem flowRow {f : BitVec 16 → Instr} (ho : w.toNat / 2 ^ 26 = op) :
    guardRow (w.toNat / 2 ^ 21 % 32 = 0 && w.toNat / 2 ^ 16 % 32 = 0) (f (imm16 w)) = some i ↔ ∃ m, i = f m ∧ w = slotOf op m.toNat := by
  rw [guardRow_eq_some, Bool.and_eq_true, decide_eq_true_iff, decide_eq_true_iff]
  constructor
  · rintro ⟨⟨ha, hb⟩, rfl⟩
    refine ⟨_, rfl, eq_slotOf ho ?_⟩
    rw [imm16, BitVec.toNat_ofNat]
    omega
  · rintro ⟨m, rfl, rfl⟩
    have hw := toNat_slotOf (low := m.toNat) (ho ▸ opcode_lt _) (by omega)
    refine ⟨⟨by omega, by omega⟩, congrArg f ?_⟩
    rw [imm16]
    apply BitVec.eq_of_toNat_eq
    rw [BitVec.toNat_ofNat]
    omega

/-- An opcode alone. -/
theorem opcodeRow {r : Instr} (ho : w.toNat / 2 ^ 26 = op) : guardRow (w.toNat % 2 ^ 26 = 0) r = some i ↔ i = r ∧ w = slotOf op 0 := by
  rw [guardRow_eq_some, decide_eq_true_iff]
  constructor
  · rintro ⟨hz, rfl⟩
    exact ⟨rfl, eq_slotOf ho hz⟩
  · rintro ⟨rfl, rfl⟩
    have hw := toNat_slotOf (low := 0) (ho ▸ opcode_lt _) (by decide)
    exact ⟨by omega, rfl⟩

/-- R107: DWAIT: a tag in bits [3:0], or all where bit 4 is set. -/
theorem dwaitRow {c : CoreId} (ho : w.toNat / 2 ^ 26 = op) :
    guardRow (w.toNat / 2 ^ 21 % 32 = 0 && w.toNat / 2 ^ 16 % 32 = 0 && w.toNat % 65536 < 32)
        (.dwait c (if w.toNat / 16 % 2 = 1 then .all else .tag ⟨w.toNat % 16, Nat.mod_lt _ (by decide)⟩)) = some i ↔
      (∃ t : Fin 16, i = .dwait c (.tag t) ∧ w = slotOf op t.val) ∨ (∃ t : Fin 16, i = .dwait c .all ∧ w = slotOf op (16 + t.val)) := by
  rw [guardRow_eq_some, Bool.and_eq_true, Bool.and_eq_true, decide_eq_true_iff, decide_eq_true_iff, decide_eq_true_iff]
  constructor
  · rintro ⟨⟨⟨ha, hb⟩, hs⟩, rfl⟩
    split
    · exact .inr ⟨⟨w.toNat % 16, Nat.mod_lt _ (by decide)⟩, rfl, eq_slotOf ho (by simp only; omega)⟩
    · exact .inl ⟨⟨w.toNat % 16, Nat.mod_lt _ (by decide)⟩, rfl, eq_slotOf ho (by simp only; omega)⟩
  · rintro (⟨t, rfl, rfl⟩ | ⟨t, rfl, rfl⟩)
    · have hw := toNat_slotOf (low := t.val) (ho ▸ opcode_lt _) (by omega)
      refine ⟨⟨⟨by omega, by omega⟩, by omega⟩, ?_⟩
      rw [if_neg (by omega)]
      exact congrArg (fun t => Instr.dwait c (.tag t)) (Fin.ext (by simp only; omega))
    · have hw := toNat_slotOf (low := 16 + t.val) (ho ▸ opcode_lt _) (by omega)
      exact ⟨⟨⟨by omega, by omega⟩, by omega⟩, by rw [if_pos (by omega)]⟩

/-- R113: the number of a configuration word in the WORD field. -/
def wordNumber : CfgWord → Nat
  | .tshape => 0
  | .tfmt => 1
  | .tbound => 2
  | .reserved => 3

theorem wordNumber_cfgWordAt (w : Word) : wordNumber (cfgWordAt w) = w.toNat % 4 := by
  have h : w.toNat % 4 = 0 ∨ w.toNat % 4 = 1 ∨ w.toNat % 4 = 2 ∨ w.toNat % 4 = 3 := by omega
  obtain h | h | h | h := h <;> simp [cfgWordAt, h, wordNumber]

theorem wordNumber_inj {x y : CfgWord} (h : wordNumber x = wordNumber y) : x = y := by
  cases x <;> cases y <;> first | rfl | cases h

theorem wordNumber_lt (x : CfgWord) : wordNumber x < 4 := by cases x <;> decide

/-- R113: MCFG: a register and a configuration word that is not the reserved one. -/
theorem mcfgRow {c : CoreId} (ho : w.toNat / 2 ^ 26 = op) :
    guardRow (w.toNat / 2 ^ 21 % 32 = 0 && w.toNat / 4 % 2 ^ 14 = 0 && cfgWordAt w != .reserved) (.mcfg c (regAt w 16) (cfgWordAt w)) = some i ↔
      ∃ a x, i = .mcfg c a x ∧ x ≠ .reserved ∧ w = slotOf op (packImm 0 a (wordNumber x)) := by
  rw [guardRow_eq_some, Bool.and_eq_true, Bool.and_eq_true, decide_eq_true_iff, decide_eq_true_iff, bne_iff_ne]
  constructor
  · rintro ⟨⟨⟨ha, hz⟩, hx⟩, rfl⟩
    have ha : regAt w 21 = 0 := Fin.ext ha
    refine ⟨_, _, rfl, hx, ha ▸ eq_slotOf_packImm ho ?_⟩
    rw [wordNumber_cfgWordAt]
    omega
  · rintro ⟨a, x, rfl, hx, rfl⟩
    have hx4 := wordNumber_lt x
    have h : HasFields (slotOf op (packImm 0 a (wordNumber x))) op 0 a (wordNumber x) := hasFields_slotOf (ho ▸ opcode_lt _) (by omega)
    have hl := h.low
    have hw : cfgWordAt (slotOf op (packImm 0 a (wordNumber x))) = x := wordNumber_inj (by rw [wordNumber_cfgWordAt]; omega)
    rw [hw, h.b]
    exact ⟨⟨⟨congrArg Fin.val h.a, by omega⟩, hx⟩, rfl⟩

/-- R125: VLD and VST: two registers, an element format that is defined, and an offset. -/
theorem loadStoreRow {f : Fin 32 → Fin 32 → BitVec 4 → BitVec 12 → Instr} (ho : w.toNat / 2 ^ 26 = op) :
    guardRow ((BitVec.ofNat 4 (w.toNat / 4096 % 16)).toNat < 3)
        (f (regAt w 21) (regAt w 16) (BitVec.ofNat 4 (w.toNat / 4096 % 16)) (BitVec.ofNat 12 (w.toNat % 4096))) = some i ↔
      ∃ a b x o, i = f a b x o ∧ x.toNat < 3 ∧ w = slotOf op (packImm a b (x.toNat * 4096 + o.toNat)) := by
  rw [guardRow_eq_some, decide_eq_true_iff]
  constructor
  · rintro ⟨hx, rfl⟩
    refine ⟨_, _, _, _, rfl, hx, eq_slotOf_packImm ho ?_⟩
    simp only [BitVec.toNat_ofNat]
    omega
  · rintro ⟨a, b, x, o, rfl, hx, rfl⟩
    have h : HasFields (slotOf op (packImm a b (x.toNat * 4096 + o.toNat))) op a b (x.toNat * 4096 + o.toNat) :=
      hasFields_slotOf (ho ▸ opcode_lt _) (by omega)
    have hl := h.low
    have hfmt : BitVec.ofNat 4 ((slotOf op (packImm a b (x.toNat * 4096 + o.toNat))).toNat / 4096 % 16) = x :=
      BitVec.eq_of_toNat_eq (by rw [BitVec.toNat_ofNat]; omega)
    have hoff : BitVec.ofNat 12 ((slotOf op (packImm a b (x.toNat * 4096 + o.toNat))).toNat % 4096) = o :=
      BitVec.eq_of_toNat_eq (by rw [BitVec.toNat_ofNat]; omega)
    rw [hfmt, hoff, h.a, h.b]
    exact ⟨hx, rfl⟩

/-- R126: VQNT: four registers and a format from 1 to 8. -/
theorem vqntRow {f : Fin 32 → Fin 32 → Fin 32 → Fin 32 → BitVec 4 → Instr} (ho : w.toNat / 2 ^ 26 = op) :
    guardRow (w.toNat % 4 = 0 && 1 ≤ (BitVec.ofNat 4 (w.toNat / 4 % 16)).toNat && (BitVec.ofNat 4 (w.toNat / 4 % 16)).toNat ≤ 8)
        (f (regAt w 21) (regAt w 16) (regAt w 11) (regAt w 6) (BitVec.ofNat 4 (w.toNat / 4 % 16))) = some i ↔
      ∃ a b d e x, i = f a b d e x ∧ (1 ≤ x.toNat ∧ x.toNat ≤ 8) ∧ w = slotOf op (packRegs a b d + e.val * 64 + x.toNat * 4) := by
  rw [guardRow_eq_some, Bool.and_eq_true, Bool.and_eq_true, decide_eq_true_iff, decide_eq_true_iff, decide_eq_true_iff]
  constructor
  · rintro ⟨⟨⟨hz, h1⟩, h8⟩, rfl⟩
    refine ⟨_, _, _, _, _, rfl, ⟨h1, h8⟩, ?_⟩
    rw [Nat.add_assoc, packRegs_add]
    refine eq_slotOf_packImm ho ?_
    simp only [regAt, BitVec.toNat_ofNat]
    omega
  · rintro ⟨a, b, d, e, x, rfl, ⟨h1, h8⟩, rfl⟩
    rw [Nat.add_assoc, packRegs_add] at ho ⊢
    have h := hasFields_slotOf (a := a) (b := b) (m := d.val * 2048 + (e.val * 64 + x.toNat * 4)) (ho ▸ opcode_lt _) (by omega)
    have hl := h.low
    have hfmt : BitVec.ofNat 4 ((slotOf op (packImm a b (d.val * 2048 + (e.val * 64 + x.toNat * 4)))).toNat / 4 % 16) = x :=
      BitVec.eq_of_toNat_eq (by rw [BitVec.toNat_ofNat]; omega)
    rw [hfmt, h.a, h.b, h.reg11 (d := d) (by omega), h.reg6 (e := e) (by omega)]
    exact ⟨⟨⟨by omega, h1⟩, h8⟩, rfl⟩

/-- R99: the zero word of a unit. -/
theorem nopRow {c : CoreId} {u : CoreUnit} : guardRow (w = 0) (.nop c u 0) = some i ↔ i = .nop c u 0 ∧ w = 0 := by
  rw [guardRow_eq_some, decide_eq_true_iff]
  constructor <;> rintro ⟨rfl, rfl⟩ <;> exact ⟨rfl, rfl⟩

end

section
/-! From a word to its instruction and back (R102). -/

variable {c : CoreId} {u : CoreUnit} {w : Word} {i : Instr}

/-- R102: an instruction is well formed and spelled by a word; DWAIT for all is spelled with a zero tag. -/
def SpelledBy (c : CoreId) (u : CoreUnit) (w : Word) (i : Instr) : Prop :=
  i.wellFormed = true ∧ encodeSlot i = some (u, if i = .dwait c .all then w &&& 0xFFFFFFF0 else w)

theorem spelledBy (hi : i.wellFormed = true) (he : encodeSlot i = some (u, w)) (hn : i ≠ .dwait c .all) : SpelledBy c u w i :=
  ⟨hi, by rw [he, if_neg hn]⟩

theorem encodeSlot_mcfg (c : CoreId) (a : GReg) (x : CfgWord) :
    encodeSlot (.mcfg c a x) = some (.matrix, slotOf 1 (packImm 0 a (wordNumber x))) := by cases x <;> rfl

/-- R107: the tag field of a DWAIT for all is masked out. -/
theorem dwaitAll_masked : ∀ t : Fin 16, slotOf 0x2C (16 + t.val) &&& 0xFFFFFFF0 = slotOf 0x2C 16 := by decide

theorem decodeMatrix_spelledBy (h : decodeMatrix c w = some i) : SpelledBy c .matrix w i := by
  unfold decodeMatrix at h
  split at h
  case h_1 =>
    obtain ⟨rfl, rfl⟩ := nopRow.1 h
    exact spelledBy rfl rfl nofun
  case h_2 ho =>
    obtain ⟨a, x, rfl, hx, rfl⟩ := (mcfgRow ho).1 h
    exact spelledBy (bne_iff_ne.2 hx) (encodeSlot_mcfg ..) nofun
  case h_3 ho =>
    obtain ⟨d, a, b, rfl, rfl⟩ := (regsRow ho).1 h
    exact spelledBy rfl rfl nofun
  case h_4 => cases h

theorem decodeMemory_spelledBy (h : decodeMemory c w = some i) : SpelledBy c .memory w i := by
  unfold decodeMemory at h
  split at h
  case h_1 =>
    obtain ⟨rfl, rfl⟩ := nopRow.1 h
    exact spelledBy rfl rfl nofun
  case h_2 ho | h_3 ho =>
    obtain ⟨l, n, d, rfl, rfl⟩ := (regsRow ho).1 h
    exact spelledBy rfl rfl nofun
  case h_4 ho =>
    obtain ⟨l, d, rfl, rfl⟩ := (twoRegsRow ho).1 h
    exact spelledBy rfl rfl nofun
  case h_5 => cases h

theorem decodeVector_spelledBy (h : decodeVector c w = some i) : SpelledBy c .vector w i := by
  unfold decodeVector at h
  dsimp only at h
  split at h
  case h_1 =>
    obtain ⟨rfl, rfl⟩ := nopRow.1 h
    exact spelledBy rfl rfl nofun
  case h_2 ho | h_3 ho | h_4 ho | h_6 ho | h_7 ho =>
    obtain ⟨d, a, b, rfl, rfl⟩ := (regsRow ho).1 h
    exact spelledBy rfl rfl nofun
  case h_5 ho =>
    obtain ⟨d, a, b, e, rfl, rfl⟩ := (fourRegsRow ho).1 h
    exact spelledBy rfl rfl nofun
  case h_8 ho | h_9 ho | h_10 ho | h_11 ho | h_12 ho | h_13 ho =>
    obtain ⟨d, a, rfl, rfl⟩ := (twoRegsRow ho).1 h
    exact spelledBy rfl rfl nofun
  case h_14 ho | h_15 ho =>
    obtain ⟨d, a, x, o, rfl, hx, rfl⟩ := (loadStoreRow ho).1 h
    exact spelledBy (decide_eq_true hx) rfl nofun
  case h_16 ho =>
    obtain ⟨v, a, b, e, x, rfl, hx, rfl⟩ := (vqntRow (f := .vqnt c) ho).1 h
    exact spelledBy (by simpa [Instr.wellFormed] using hx) rfl nofun
  case h_17 => cases h

theorem decodeScalar_spelledBy (h : decodeScalar c w = some i) : SpelledBy c .scalar w i := by
  unfold decodeScalar at h
  dsimp only at h
  split at h
  case h_1 =>
    obtain ⟨rfl, rfl⟩ := nopRow.1 h
    exact spelledBy rfl rfl nofun
  case h_2 ho | h_3 ho | h_4 ho | h_5 ho | h_6 ho | h_7 ho | h_8 ho | h_9 ho | h_10 ho | h_11 ho | h_12 ho =>
    obtain ⟨d, a, b, rfl, rfl⟩ := (regsRow ho).1 h
    exact spelledBy rfl rfl nofun
  case h_13 ho | h_14 ho | h_15 ho | h_20 ho | h_21 ho | h_22 ho | h_23 ho | h_24 ho | h_25 ho | h_26 ho =>
    obtain ⟨a, b, m, rfl, rfl⟩ := (immRow ho).1 h
    exact spelledBy rfl rfl nofun
  case h_16 ho | h_29 ho =>
    obtain ⟨a, m, rfl, rfl⟩ := (immOneRow ho).1 h
    exact spelledBy rfl rfl nofun
  case h_17 ho | h_18 ho | h_19 ho =>
    obtain ⟨a, b, x, rfl, rfl⟩ := (shiftRow ho).1 h
    exact spelledBy rfl rfl nofun
  case h_27 ho | h_28 ho =>
    obtain ⟨m, rfl, rfl⟩ := (flowRow ho).1 h
    exact spelledBy rfl rfl nofun
  case h_30 ho =>
    obtain ⟨t, rfl, rfl⟩ | ⟨t, rfl, rfl⟩ := (dwaitRow ho).1 h
    · exact spelledBy rfl rfl (by simp)
    · exact ⟨rfl, by rw [if_pos rfl, dwaitAll_masked]; rfl⟩
  case h_31 ho =>
    obtain ⟨a, m, rfl, hm, rfl⟩ := (immOneRowIf (f := .spar c) ho).1 h
    exact spelledBy hm rfl nofun
  case h_32 ho =>
    obtain ⟨rfl, rfl⟩ := (opcodeRow ho).1 h
    exact spelledBy rfl rfl nofun
  case h_33 => cases h

/-- R102: a decoded word is its instruction's word. -/
theorem decodeSlot_spelledBy (h : decodeSlot c u w = some i) : SpelledBy c u w i := by
  cases u with
  | scalar => exact decodeScalar_spelledBy h
  | matrix => exact decodeMatrix_spelledBy h
  | vector => exact decodeVector_spelledBy h
  | memory => exact decodeMemory_spelledBy h

theorem packRegs_lt (a b d : Fin 32) : packRegs a b d < 2 ^ 26 := by
  unfold packRegs
  omega

theorem packRegs_add_lt (a b d : Fin 32) {x : Nat} (hx : x < 2048) : packRegs a b d + x < 2 ^ 26 := by
  unfold packRegs
  omega

/-- The opcode of a word that is known field by field. -/
theorem opcode_eq {op low : Nat} (hw : w = slotOf op low) (ho : op < 64) (hl : low < 2 ^ 26) : w.toNat / 2 ^ 26 = op := by
  rw [hw, opcode_slotOf ho hl]

theorem spelled_eq {v : CoreUnit} {x : Word} (h : some (v, x) = some (u, w)) : u = v ∧ w = x := by
  cases h
  exact ⟨rfl, rfl⟩

/-- R102: a well-formed instruction is read back from its word, on the core that it names. -/
theorem decodeSlot_encodeSlot (hi : i.wellFormed = true) (he : encodeSlot i = some (u, w)) :
    (∃ c, decodeSlot c u w = some i) ∨ ∃ c, i = .nop c u w := by
  unfold encodeSlot at he
  split at he
  case h_1 c u w =>
    cases he
    exact .inr ⟨c, rfl⟩
  case h_37 => cases hi
  case h_57 => cases he
  all_goals obtain ⟨rfl, hw⟩ := spelled_eq he
  case h_2 c a b d | h_3 c a b d | h_4 c a b d | h_5 c a b d | h_6 c a b d | h_7 c a b d | h_8 c a b d | h_9 c a b d | h_10 c a b d |
      h_11 c a b d | h_12 c a b d =>
    have ho := opcode_eq hw (by decide) (packRegs_lt a b d)
    refine .inl ⟨c, ?_⟩
    rw [decodeSlot, decodeScalar, ho]
    exact (regsRow ho).2 ⟨a, b, d, rfl, hw⟩
  case h_13 c a b m | h_14 c a b m | h_15 c a b m | h_20 c a b m | h_21 c a b m | h_22 c a b m | h_23 c a b m | h_24 c a b m | h_25 c a b m |
      h_26 c a b m =>
    have ho := opcode_eq hw (by decide) (packImm_lt a b m.isLt)
    refine .inl ⟨c, ?_⟩
    rw [decodeSlot, decodeScalar, ho]
    exact (immRow ho).2 ⟨a, b, m, rfl, hw⟩
  case h_16 c a m | h_29 c a m =>
    have ho := opcode_eq hw (by decide) (packImm_lt a 0 m.isLt)
    refine .inl ⟨c, ?_⟩
    rw [decodeSlot, decodeScalar, ho]
    exact (immOneRow ho).2 ⟨a, m, rfl, hw⟩
  case h_17 c a b x | h_18 c a b x | h_19 c a b x =>
    have ho := opcode_eq hw (by decide) (packImm_lt a b (show x.toNat < 65536 by omega))
    refine .inl ⟨c, ?_⟩
    rw [decodeSlot, decodeScalar, ho]
    exact (shiftRow ho).2 ⟨a, b, x, rfl, hw⟩
  case h_27 c m | h_28 c m =>
    have ho := opcode_eq hw (by decide) (show m.toNat < 2 ^ 26 by omega)
    refine .inl ⟨c, ?_⟩
    rw [decodeSlot, decodeScalar, ho]
    exact (flowRow ho).2 ⟨m, rfl, hw⟩
  case h_30 c t =>
    have ho := opcode_eq hw (by decide) (show t.val < 2 ^ 26 by omega)
    refine .inl ⟨c, ?_⟩
    rw [decodeSlot, decodeScalar, ho]
    exact (dwaitRow ho).2 (.inl ⟨t, rfl, hw⟩)
  case h_31 c =>
    have ho := opcode_eq hw (by decide) (by decide)
    refine .inl ⟨c, ?_⟩
    rw [decodeSlot, decodeScalar, ho]
    exact (dwaitRow ho).2 (.inr ⟨0, rfl, hw⟩)
  case h_32 c a m =>
    have ho := opcode_eq hw (by decide) (packImm_lt a 0 m.isLt)
    refine .inl ⟨c, ?_⟩
    rw [decodeSlot, decodeScalar, ho]
    exact (immOneRowIf (f := .spar c) ho).2 ⟨a, m, rfl, hi, hw⟩
  case h_33 c =>
    have ho := opcode_eq hw (by decide) (by decide)
    refine .inl ⟨c, ?_⟩
    rw [decodeSlot, decodeScalar, ho]
    exact (opcodeRow ho).2 ⟨rfl, hw⟩
  case h_34 c a | h_35 c a | h_36 c a =>
    have ho := opcode_eq hw (by decide) (packImm_lt 0 a (by decide))
    refine .inl ⟨c, ?_⟩
    rw [decodeSlot, decodeMatrix, ho]
    exact (mcfgRow ho).2 ⟨a, _, rfl, by decide, hw⟩
  case h_38 c d a b =>
    have ho := opcode_eq hw (by decide) (packRegs_lt d a b)
    refine .inl ⟨c, ?_⟩
    rw [decodeSlot, decodeMatrix, ho]
    exact (regsRow ho).2 ⟨d, a, b, rfl, hw⟩
  case h_39 c d a b | h_40 c d a b | h_41 c d a b | h_43 c d a b | h_44 c d a b =>
    have ho := opcode_eq hw (by decide) (packRegs_lt d a b)
    refine .inl ⟨c, ?_⟩
    rw [decodeSlot, decodeVector, ho]
    exact (regsRow ho).2 ⟨d, a, b, rfl, hw⟩
  case h_42 c d a b e =>
    have ho := opcode_eq hw (by decide) (packRegs_add_lt d a b (show e.val * 64 < 2048 by omega))
    refine .inl ⟨c, ?_⟩
    rw [decodeSlot, decodeVector, ho]
    exact (fourRegsRow ho).2 ⟨d, a, b, e, rfl, hw⟩
  case h_45 c d a | h_46 c d a | h_47 c d a | h_48 c d a | h_49 c d a | h_50 c d a =>
    have ho := opcode_eq hw (by decide) (packRegs_lt d a 0)
    refine .inl ⟨c, ?_⟩
    rw [decodeSlot, decodeVector, ho]
    exact (twoRegsRow ho).2 ⟨d, a, rfl, hw⟩
  case h_51 c v a x o | h_52 c v a x o =>
    have ho := opcode_eq hw (by decide) (packImm_lt v a (show x.toNat * 4096 + o.toNat < 65536 by omega))
    refine .inl ⟨c, ?_⟩
    rw [decodeSlot, decodeVector, ho]
    exact (loadStoreRow ho).2 ⟨v, a, x, o, rfl, of_decide_eq_true hi, hw⟩
  case h_53 c v a b e x =>
    have hx : 1 ≤ x.toNat ∧ x.toNat ≤ 8 := by simpa [Instr.wellFormed] using hi
    have ho := opcode_eq hw (by decide) (by rw [Nat.add_assoc]; exact packRegs_add_lt v a b (by omega))
    refine .inl ⟨c, ?_⟩
    rw [decodeSlot, decodeVector, ho]
    exact (vqntRow (f := .vqnt c) ho).2 ⟨v, a, b, e, x, rfl, hx, hw⟩
  case h_54 c l a n | h_55 c l a n =>
    have ho := opcode_eq hw (by decide) (packRegs_lt l a n)
    refine .inl ⟨c, ?_⟩
    rw [decodeSlot, decodeMemory, ho]
    exact (regsRow ho).2 ⟨l, a, n, rfl, hw⟩
  case h_56 c l d =>
    have ho := opcode_eq hw (by decide) (packRegs_lt l d 0)
    refine .inl ⟨c, ?_⟩
    rw [decodeSlot, decodeMemory, ho]
    exact (twoRegsRow ho).2 ⟨l, d, rfl, hw⟩

theorem guardRow_eq_none {ok : Bool} {r : Instr} : guardRow ok r = none ↔ ok = false := by
  unfold guardRow
  split <;> simp [*]

/-- R102: whether a word is a reserved encoding does not depend on the core: the rows' guards read the word alone. -/
theorem decodeSlot_none (h : decodeSlot c u w = none) (d : CoreId) : decodeSlot d u w = none := by
  cases u
  case scalar =>
    simp only [decodeSlot, decodeScalar] at h ⊢
    split at h <;> simp_all only [guardRow_eq_none, reduceCtorEq]
  case matrix =>
    simp only [decodeSlot, decodeMatrix] at h ⊢
    split at h <;> simp_all only [guardRow_eq_none]
  case vector =>
    simp only [decodeSlot, decodeVector] at h ⊢
    split at h <;> simp_all only [guardRow_eq_none]
  case memory =>
    simp only [decodeSlot, decodeMemory] at h ⊢
    split at h <;> simp_all only [guardRow_eq_none]

theorem decodeSlot_zero (c : CoreId) (u : CoreUnit) : decodeSlot c u 0 = some (.nop c u 0) := by cases u <;> rfl

end

/-- Settles O6: a word's instruction is spelled by the word, row by row, and read back from its fields; a reserved word decodes on no core. -/
theorem slotWordsRoundTrip : Obligations.SlotWordsRoundTrip := by
  refine ⟨fun i u w hi he => ?_, fun c u w i h => decodeSlot_spelledBy h⟩
  obtain h | ⟨c, rfl⟩ := decodeSlot_encodeSlot hi he
  · exact .inl h
  · by_cases hw : w = 0
    · exact .inl ⟨c, hw ▸ decodeSlot_zero c u⟩
    · have hn : w = 0 ∨ decodeSlot c u w = none := by simpa [Instr.wellFormed] using hi
      exact .inr ⟨decodeSlot_none (hn.resolve_left hw), hw, c, rfl⟩

/-- Settles O7: the decoder evaluated at the words. -/
theorem decodedWords : Obligations.DecodedWords :=
  fun _ => ⟨rfl, rfl, rfl, rfl, rfl, rfl, rfl, rfl, rfl, rfl, rfl, rfl, rfl, rfl, rfl⟩

end Sys2Proof
end

section
/-! PROOF. The scalar instructions (O8, O10, O11, O14): register and immediate forms, NOP and SPAR, branches. -/

namespace Sys2Proof.Machine

section
/-! Results as sums, products and quotients of numbers (R105, R107). -/

theorem add_eq_ofNat (a b : Word) : a + b = BitVec.ofNat 32 (a.toNat + b.toNat) := by
  rw [BitVec.ofNat_add, BitVec.ofNat_toNat, BitVec.ofNat_toNat, BitVec.setWidth_eq, BitVec.setWidth_eq]

theorem mul_eq_ofNat (a b : Word) : a * b = BitVec.ofNat 32 (a.toNat * b.toNat) := by
  rw [BitVec.ofNat_mul, BitVec.ofNat_toNat, BitVec.ofNat_toNat, BitVec.setWidth_eq, BitVec.setWidth_eq]

theorem sub_eq_ofInt (a b : Word) : a - b = BitVec.ofInt 32 (a.toInt - b.toInt) := by
  rw [Int.sub_eq_add_neg, BitVec.ofInt_add, BitVec.ofInt_neg, BitVec.ofInt_toInt, BitVec.ofInt_toInt, BitVec.sub_eq_add_neg]

theorem shiftLeft_eq_ofNat (a : Word) (n : Nat) : a <<< n = BitVec.ofNat 32 (a.toNat * 2 ^ n) := by
  apply BitVec.eq_of_toNat_eq
  rw [BitVec.toNat_shiftLeft, Nat.shiftLeft_eq, BitVec.toNat_ofNat]

theorem addSext_eq_ofInt (a : Word) (m : BitVec 16) : a + sext16 m = BitVec.ofInt 32 (a.toInt + m.toInt) := by
  rw [BitVec.ofInt_add, BitVec.ofInt_toInt]
  rfl

theorem truth_eq (p : Prop) [Decidable p] : truth (decide p) = if p then 1 else 0 := by
  unfold truth
  simp only [decide_eq_true_eq]

end

section
variable {s : State} {c : CoreId} {gd : GReg}

/-- R105: a write to g0 is discarded. -/
theorem wrote_g0 (h : gd.val = 0) (v : Word) : s.wrote c gd v = s.nextBundle c (s.core c.val) := by
  rw [State.wrote, setG, if_pos h]

/-- R107: a scalar operation whose result is known writes it and goes on. -/
theorem next_alu {f : Core → Word} {v : Word} (h : s.goesOn c) (hv : f (s.core c.val) = v)
    (hf : f (slotTaken (s.core c.val) .scalar) = f (s.core c.val) := by rfl) :
    (Host.Outcome.next (alu s c gd f) : Res) = .next (s.wrote c gd v) := by
  rw [alu_goesOn f h hf, hv]

end

/-- Settles O8: each instruction is `alu` of its result, the result a number of the operands. -/
theorem scalarRegisterResults : Obligations.ScalarRegisterResults := by
  intro s c gd ga gb h a b
  exact ⟨next_alu h (add_eq_ofNat a b), next_alu h (sub_eq_ofInt a b), next_alu h rfl, next_alu h rfl, next_alu h rfl,
    next_alu h (shiftLeft_eq_ofNat a _), next_alu h (ofNat_srl a _).symm, next_alu h (ofInt_sra a _).symm,
    next_alu h (truth_eq _), next_alu h (truth_eq _), next_alu h (mul_eq_ofNat a b), fun h0 => ⟨if_pos h0, wrote_g0 h0⟩⟩

/-- Settles O10: each instruction is `alu` of its result, the immediate extended. -/
theorem scalarImmediateResults : Obligations.ScalarImmediateResults := by
  intro s c gd ga imm sh h a
  exact ⟨next_alu h (addSext_eq_ofInt a imm), next_alu h (congrArg (a &&& ·) (zext16_eq imm)), next_alu h (congrArg (a ||| ·) (zext16_eq imm)),
    next_alu h (lui_eq imm), next_alu h (shiftLeft_eq_ofNat a _), next_alu h (ofNat_srl a _).symm, next_alu h (ofInt_sra a _).symm⟩

section
/-! NOP, reserved encodings and SPAR (R99, R102, R108). -/

variable {s : State} {c : CoreId} {u : CoreUnit} {w : Word}

theorem nop_zero (h : s.opens c u) : exec (.nop c u 0) s =
    .next (if u = .scalar then s.endBundle c (slotTaken (s.core c.val) u) else s.setCore c.val (slotTaken (s.core c.val) u)) :=
  congrArg Host.Outcome.next ((if_neg (not_not.2 rfl)).trans (onCore_opens h))

theorem nop_scalar (h : s.goesOn c) : exec (.nop c .scalar 0) s = .next (s.nextBundle c (s.core c.val)) :=
  (nop_zero h.1).trans (congrArg Host.Outcome.next (endBundle_nextBundle h.2 rfl rfl))

theorem nop_other (h : s.opens c u) (hu : u ≠ .scalar) : exec (.nop c u 0) s = .next (s.setCore c.val (slotTaken (s.core c.val) u)) :=
  (nop_zero h).trans (congrArg Host.Outcome.next (if_neg hu))

theorem nop_reserved (h : s.opens c u) (hw : w ≠ 0) : exec (.nop c u w) s = .next (s.fetchFault c.val) :=
  congrArg Host.Outcome.next ((if_pos hw).trans (onCore_opens h))

theorem spar_unlisted {gd : GReg} {i : BitVec 16} (h : s.opens c .scalar) (hi : sparListed i.toNat = false) :
    exec (.spar c gd i) s = .next (s.fetchFault c.val) :=
  congrArg Host.Outcome.next ((if_neg (by simp [hi])).trans (onCore_opens h))

/-- R102: no slot of a bundle that holds a reserved encoding takes effect. -/
theorem onCore_reserved {f : Core → State} (hr : s.coresMode = .run) (hk : (s.core c.val).st = .run) (ho : slotOpen (s.core c.val) u = true)
    (hp : (s.core c.val).pc ∈ (s.block c.val).reserved) : s.onCore c u f = s.fetchFault c.val := by
  simp [State.onCore, State.issuing, hr, hk, ho, hp]

theorem nop_reservedBundle (hr : s.coresMode = .run) (hk : (s.core c.val).st = .run) (ho : slotOpen (s.core c.val) u = true)
    (hp : (s.core c.val).pc ∈ (s.block c.val).reserved) : exec (.nop c u w) s = .next (s.fetchFault c.val) := by
  refine congrArg Host.Outcome.next ?_
  split
  · exact onCore_reserved hr hk ho hp
  · exact onCore_reserved hr hk ho hp

/-- R108: SPAR of a listed index writes its step parameter. -/
theorem spar_listed {gd : GReg} {i : BitVec 16} (h : s.goesOn c) (hi : sparListed i.toNat = true) :
    exec (.spar c gd i) s = .next (s.wrote c gd (stepParameter s c.val i.toNat)) :=
  congrArg Host.Outcome.next ((if_pos hi).trans (alu_goesOn _ h))

/-- R229: words 4 and up of a step descriptor read zero. -/
theorem stepParameter_zero {i : Nat} (hi : 0x14 ≤ i) (c : Nat) : stepParameter s c i = 0 := by
  obtain ⟨n, rfl⟩ := Nat.exists_eq_add_of_le hi
  rw [Nat.add_comm]
  show descriptorWord s (n + 0x14 - 0x10) = 0
  rw [show n + 0x14 - 0x10 = n + 4 by omega]
  unfold descriptorWord
  split <;> rfl

/-- R229: the descriptor words of the current step. -/
theorem stepParameter_current {t : Step} (ht : s.seq.cur = some t) (c : Nat) :
    stepParameter s c 4 = BitVec.ofNat 32 t.image ∧ stepParameter s c 0x10 = BitVec.ofNat 32 t.id ∧
    stepParameter s c 0x11 = (if t.copy.isSome then field 1 0 ||| field 1 16 else field (positions t.entries) 0 ||| field t.entries.length 16) |||
      field (t.prog % 4) 24 ∧
    stepParameter s c 0x12 = field (batchLine t.id) 0 ∧ ∀ p, s.curProg = some p → stepParameter s c 0x13 = field p.capacity 0 := by
  refine ⟨?_, ?_, ?_, ?_, fun p hp => ?_⟩
  · simp only [stepParameter, ht]
  · simp only [stepParameter, descriptorWord, ht]
  · simp only [stepParameter, descriptorWord, ht, Step.positions, Step.streams, Step.program]
    split <;> rfl
  · simp only [stepParameter, descriptorWord, ht]
  · simp only [stepParameter, descriptorWord, ht, hp]

/-- R91, R102: the fetch fault stops its core, leaves the others, and sets FETCH in the page of the physical core. -/
theorem fetchFault_core_other {c d : Nat} (h : d ≠ c) : (s.fetchFault c).core d = s.core d := by
  have hset : (s.setCore c { s.core c with st := .blocked }).core d = s.core d := State.core_setCore_other h
  unfold State.fetchFault
  dsimp only
  split
  · exact hset
  · rw [State.core, raise_cores]
    exact hset

theorem fetchFault_errSet {c x : Nat} (hi : Inv s) (hx : s.coreInst c = some x) : (s.fetchFault c).errSet .core x 4 = true := by
  have hcore : ∀ k, (s.setCore c k).coreInst c = some x := fun _ => hx
  simp only [State.fetchFault, hcore]
  exact errSet_raiseAs hi.regs (by decide) (by decide)

end

/-- Settles O11: a NOP by its word, SPAR by its index and the current step, and what the fetch fault leaves. -/
theorem nopAndStepParameters : Obligations.NopAndStepParameters := by
  intro s c
  refine ⟨nop_scalar, fun u => nop_other, fun u w => nop_reserved, fun gd i => spar_unlisted, fun u w => nop_reservedBundle,
    fun gd i h hi => ⟨_, spar_listed h hi, by rintro rfl; rfl, by rintro rfl; rfl, by rintro rfl; rfl, by rintro rfl; rfl,
      fun h14 => stepParameter_zero h14 _, fun t ht => ?_⟩,
    fun hi => ⟨fetchFault_core hi, fun d hd => fetchFault_core_other hd, fun x hx => fetchFault_errSet hi hx⟩⟩
  obtain ⟨himage, hid, hcount, hline, hcap⟩ := stepParameter_current ht c.val
  exact ⟨by rintro rfl; exact himage, by rintro rfl; exact hid, by rintro rfl; exact hcount, by rintro rfl; exact hline,
    fun p hp => by rintro rfl; exact hcap p hp⟩

section
/-! Branches (R101, R107). -/

variable {s : State} {c : CoreId} {off : BitVec 16} {p : Core → Bool}

/-- R101: a bundle's end at a target inside the block. -/
theorem endBundleAt_inside {k : Core} {t : Int} (h : 0 ≤ t ∧ t < ((s.block c.val).nbundle : Int)) :
    s.endBundleAt c k t = s.setCore c.val { k with pc := t.toNat, issued := k.issued + 1, slot := 0, stalled := false } := if_pos h

theorem endBundleAt_outside {k : Core} {t : Int} (h : ¬(0 ≤ t ∧ t < ((s.block c.val).nbundle : Int))) :
    s.endBundleAt c k t = (s.setCore c.val { k with issued := k.issued + 1, slot := 0, stalled := false }).fetchFault c.val := if_neg h

theorem branch_taken (h : s.opens c .scalar) (hp : p (slotTaken (s.core c.val) .scalar) = true) :
    branch s c off p = s.endBundleAt c (slotTaken (s.core c.val) .scalar) (((s.core c.val).pc : Int) + off.toInt) :=
  (onCore_opens h).trans (if_pos hp)

theorem branch_untaken (h : s.opens c .scalar) (hp : ¬p (slotTaken (s.core c.val) .scalar) = true)
    (hn : (s.core c.val).pc + 1 < (s.block c.val).nbundle) : branch s c off p = s.nextBundle c (s.core c.val) :=
  (onCore_opens h).trans ((if_neg hp).trans (endBundle_nextBundle hn rfl rfl))

/-- R101, R107: where a branch leads, by its condition `P` and its target. -/
theorem branch_spec {i : Instr} {P : Prop} (h : s.opens c .scalar) (hi : exec i s = .next (branch s c off p))
    (hp : p (slotTaken (s.core c.val) .scalar) = true ↔ P) :
    let k := s.core c.val
    let t := (k.pc : Int) + off.toInt
    let inside := 0 ≤ t ∧ t < ((s.block c.val).nbundle : Int)
    (P → inside → exec i s = .next (s.setCore c.val { k with pc := t.toNat, issued := k.issued + 1, slot := 0, stalled := false })) ∧
    (¬P → k.pc + 1 < (s.block c.val).nbundle → exec i s = .next (s.nextBundle c k)) ∧
    (P → ¬inside → exec i s = .next ((s.setCore c.val { k with issued := k.issued + 1, slot := 0, stalled := false }).fetchFault c.val)) := by
  intro k t inside
  refine ⟨fun hP ht => ?_, fun hP hn => ?_, fun hP ht => ?_⟩
  · rw [hi, branch_taken h (hp.2 hP), endBundleAt_inside ht]
    rfl
  · rw [hi, branch_untaken h (mt hp.1 hP) hn]
  · rw [hi, branch_taken h (hp.2 hP), endBundleAt_outside ht]
    rfl

end

/-- Settles O14: each branch is `branch` of its condition. -/
theorem branches : Obligations.Branches := by
  intro s c ga gb off h k a b t inside i p hip
  simp only [List.mem_cons, List.not_mem_nil, or_false, Prod.mk.injEq] at hip
  obtain ⟨rfl, rfl⟩ | ⟨rfl, rfl⟩ | ⟨rfl, rfl⟩ | ⟨rfl, rfl⟩ | ⟨rfl, rfl⟩ := hip
  · exact branch_spec h rfl beq_iff_eq
  · exact branch_spec h rfl bne_iff_ne
  · exact branch_spec h rfl decide_eq_true_iff
  · exact branch_spec h rfl (by simp only [ltS, Bool.not_eq_true', decide_eq_false_iff_not, Int.not_lt]; rfl)
  · exact branch_spec h rfl decide_eq_true_iff

end Sys2Proof.Machine
end

section
/-! PROOF. Tile attempts (O18): ATTEMPT_TROUBLE and TILE_COMPLETE of an attempt that reads no word with bad check bits. -/

namespace Sys2Proof.Machine

section
variable {s : State} {c : CoreId} {t : Tile} {g : TileCfg}

/-- R155–R157: a count of a core's page taken only in one case changes registers alone. -/
theorem countCore_if (s : State) (p : Prop) [Decidable p] (c off hi lo : Nat) :
    ∃ m, (if p then s.countCore c off hi lo else s) = { s with regs := m } := by
  split
  · exact countCore_only ..
  · exact ⟨s.regs, rfl⟩

/-- What a write of a core's scratchpad leaves: the written bytes, every byte outside them, and no new bad check bits (R77). -/
theorem put_spec {k : Core} (hk : CoreOk k) (a : Nat) (l : List Byte) :
    (∀ i (h : i < l.length), Memory.byte (k.put a l).scratch (a + i) = l[i]) ∧
    (∀ x, x < a ∨ a + l.length ≤ x → Memory.byte (k.put a l).scratch x = Memory.byte k.scratch x) ∧ ∀ e ∈ (k.put a l).damage, e ∈ k.damage :=
  ⟨fun _ h => Memory.byte_write_same l hk.scratch h, fun _ h => Memory.byte_write_other l h, fun _ he => (List.mem_filter.1 he).1⟩

/-- R146, R148: a troubled attempt whose wider operand fits the reserve. -/
theorem attemptTrouble_fits {kinds : List Trouble} (hr : s.coresMode = .run) (ht : (s.core c.val).tile = some t)
    (hp : parseTile t.shape t.fmt t.bound = some g) (hd : ∀ r ∈ tileReads (s.block c.val) t g, damagedIn (s.core c.val) r.1 r.2 = [])
    (hT : tileAttempt (s.core c.val) t g = .trouble kinds) (hfit : g.reserveBytes (nextFmt t.attempt t.af) ≤ (s.block c.val).rsize) :
    let k := s.core c.val
    let f := nextFmt t.attempt t.af
    ∃ m, exec (.attemptTrouble c) s = .next (({ s with regs := m } : State).setCore c.val
      { k.put (s.block c.val).rbase (g.reserveOperand (operand k t.act) f) with tile := some { t with attempt := t.attempt + 1, af := f } }) := by
  intro k f
  obtain ⟨m, hm⟩ := recordTrouble_only s c.val (troubleCode (recordedTrouble s.fuses k t g kinds)) t.af f
  obtain ⟨n, hn⟩ := countCore_if ({ s with regs := m } : State) (t.attempt = 1) c.val 0x064 31 16
  refine ⟨n, (attemptTrouble_eq hr rfl ht hp hT hd).trans ?_⟩
  dsimp only
  rw [if_neg (Nat.not_lt.2 hfit), hm, hn]

/-- R148: a troubled attempt whose wider operand does not fit the reserve. -/
theorem attemptTrouble_tooWide {kinds : List Trouble} (hr : s.coresMode = .run) (ht : (s.core c.val).tile = some t)
    (hp : parseTile t.shape t.fmt t.bound = some g) (hd : ∀ r ∈ tileReads (s.block c.val) t g, damagedIn (s.core c.val) r.1 r.2 = [])
    (hT : tileAttempt (s.core c.val) t g = .trouble kinds) (hwide : (s.block c.val).rsize < g.reserveBytes (nextFmt t.attempt t.af)) :
    ∃ m, exec (.attemptTrouble c) s = .next ((({ s with regs := m } : State).setCore c.val { s.core c.val with tile := none }).boundsFault c.val 3 6
      ((s.block c.val).rbase + (s.block c.val).rsize)) := by
  obtain ⟨m, hm⟩ := recordTrouble_only s c.val (troubleCode (recordedTrouble s.fuses (s.core c.val) t g kinds)) t.af (nextFmt t.attempt t.af)
  refine ⟨m, (attemptTrouble_eq hr rfl ht hp hT hd).trans ?_⟩
  dsimp only
  rw [if_pos hwide, hm]

/-- R71, R118: an attempt whose result stands. -/
theorem tileComplete_stands {bytes : List Byte} {alarm : Bool} (hr : s.coresMode = .run) (ht : (s.core c.val).tile = some t)
    (hp : parseTile t.shape t.fmt t.bound = some g) (hd : ∀ r ∈ tileReads (s.block c.val) t g, damagedIn (s.core c.val) r.1 r.2 = [])
    (hT : tileAttempt (s.core c.val) t g = .result bytes alarm) :
    let k := s.core c.val
    let sums := g.sums (operand k t.act) (operand k t.wgt) t.attempt t.af
    ∃ m, exec (.tileComplete c) s = .next (({ s with regs := m } : State).setCore c.val
      { k.put t.out bytes with tile := none, acc := sums ++ k.acc.drop sums.length }) := by
  intro k sums
  obtain ⟨m, hm⟩ := countCore_if s (alarm = true) c.val 0x068 31 24
  obtain ⟨n, hn⟩ := countCore_if ({ s with regs := m } : State) (t.attempt = 1) c.val 0x064 15 0
  refine ⟨n, (tileComplete_eq hr rfl ht hp hT hd).trans ?_⟩
  dsimp only
  rw [hm, hn]

end

/-- Settles O18: what an attempt comes to, by its trouble, the size of its wider operand, or its result; and what a write of the scratchpad leaves. -/
theorem tileAttempts : Obligations.TileAttempts := by
  intro s c t g hi hr ht hp k blk f wider hd
  have hk : CoreOk k := inv_core hi
  refine ⟨fun kinds hT hfit => ?_, fun kinds hT hwide => ?_, fun bytes alarm hT => ?_⟩
  · obtain ⟨m, he⟩ := attemptTrouble_fits hr ht hp hd hT hfit
    obtain ⟨hin, hout, hdam⟩ := put_spec hk blk.rbase wider
    exact ⟨_, _, _, he, rfl, hin, hout, hdam⟩
  · obtain ⟨m, he⟩ := attemptTrouble_tooWide hr ht hp hd hT hwide
    exact ⟨_, he, rfl⟩
  · obtain ⟨m, he⟩ := tileComplete_stands hr ht hp hd hT
    obtain ⟨hin, hout, hdam⟩ := put_spec hk t.out bytes
    exact ⟨_, _, _, _, he, rfl, List.take_left, hin, hout, hdam⟩

end Sys2Proof.Machine
end

section
/-! PROOF. The functions of the vector unit (O20, O22, O24): rounded results, special inputs and the sum tree. -/

namespace Sys2Proof.Machine

section
/-! Rounded results have no denormal and one NaN (R122). -/

/-- R122: a bit pattern that is zero, normal, infinite or the canonical NaN. -/
def Canonical (w : Word) : Prop := (bits w 30 23 = 0 → bits w 22 0 = 0) ∧ (bits w 30 23 = 255 → bits w 22 0 ≠ 0 → w = f32Nan)

theorem canonical_nan : Canonical f32Nan := ⟨by decide, fun _ _ => rfl⟩

/-- The exponent field and the fraction of a word put together from a sign, an exponent and a fraction. -/
theorem bits_of_parts {s e f : Nat} (hs : s = 0 ∨ s = 2 ^ 31) (he : e < 256) (hf : f < 2 ^ 23) :
    bits (BitVec.ofNat 32 (s + e * 2 ^ 23 + f)) 30 23 = e ∧ bits (BitVec.ofNat 32 (s + e * 2 ^ 23 + f)) 22 0 = f := by
  simp only [bits, BitVec.toNat_ofNat]
  omega

theorem canonical_of_parts {s e f : Nat} (hs : s = 0 ∨ s = 2 ^ 31) (he : e < 256) (hf : f < 2 ^ 23) (h : f = 0 ∨ (e ≠ 0 ∧ e ≠ 255)) :
    Canonical (BitVec.ofNat 32 (s + e * 2 ^ 23 + f)) := by
  obtain ⟨hexp, hfrac⟩ := bits_of_parts hs he hf
  rw [Canonical, hexp, hfrac]
  exact ⟨fun h0 => h.resolve_right fun h' => h'.1 h0, fun h255 hne => absurd (h.resolve_right fun h' => h'.2 h255) hne⟩

/-- A nonzero number shifted to `p` significant bits, or cut to them, has `p` significant bits. -/
theorem roundSig_bounds {p m : Nat} (hp : 0 < p) (hm : m ≠ 0) (e : Int) (sticky : Bool) :
    2 ^ (p - 1) ≤ (roundSig p m e sticky).1 ∧ (roundSig p m e sticky).1 < 2 ^ p := by
  have hlow : 2 ^ Nat.log2 m ≤ m := Nat.log2_self_le hm
  have hhigh : m < 2 ^ (Nat.log2 m + 1) := Nat.lt_log2_self
  have hhalf : 2 ^ (p - 1) < 2 ^ p := Nat.pow_lt_pow_right (by decide) (by omega)
  unfold roundSig
  dsimp only
  split
  case isTrue hle =>
    have h1 : 2 ^ (p - 1) = 2 ^ Nat.log2 m * 2 ^ (p - (Nat.log2 m + 1)) := by
      rw [← Nat.pow_add]
      congr 1
      omega
    have h2 : 2 ^ p = 2 ^ (Nat.log2 m + 1) * 2 ^ (p - (Nat.log2 m + 1)) := by
      rw [← Nat.pow_add]
      congr 1
      omega
    exact ⟨h1 ▸ Nat.mul_le_mul_right _ hlow, h2 ▸ Nat.mul_lt_mul_of_pos_right hhigh (Nat.two_pow_pos _)⟩
  case isFalse hgt =>
    have hq : 2 ^ (p - 1) ≤ m / 2 ^ (Nat.log2 m + 1 - p) := by
      rw [Nat.le_div_iff_mul_le (Nat.two_pow_pos _), ← Nat.pow_add]
      exact Nat.le_trans (Nat.pow_le_pow_right (by decide) (by omega)) hlow
    have hq' : m / 2 ^ (Nat.log2 m + 1 - p) < 2 ^ p := by
      rw [Nat.div_lt_iff_lt_mul (Nat.two_pow_pos _), ← Nat.pow_add]
      exact Nat.lt_of_lt_of_le hhigh (Nat.pow_le_pow_right (by decide) (by omega))
    generalize m / 2 ^ (Nat.log2 m + 1 - p) = q at hq hq'
    split
    · split
      · exact ⟨Nat.le_refl _, hhalf⟩
      · exact ⟨Nat.le_succ_of_le hq, Nat.lt_of_le_of_ne hq' ‹_›⟩
    · rw [if_neg (Nat.ne_of_lt hq')]
      exact ⟨hq, hq'⟩

/-- R122: a rounded value of 24 significant bits is normal, infinite or a zero. -/
theorem canonical_packSig {q : Nat} (hq : 2 ^ 23 ≤ q ∧ q < 2 ^ 24) (neg : Bool) (e : Int) : Canonical (BitVec.ofNat 32 (packSig 24 neg q e)) := by
  have hs : (if neg then 2 ^ (24 + 7) else 0) = 0 ∨ (if neg then 2 ^ (24 + 7) else 0) = 2 ^ 31 := by cases neg <;> decide
  unfold packSig
  dsimp only
  generalize (if neg then 2 ^ (24 + 7) else 0) = s at hs
  split
  · exact canonical_of_parts hs (e := 255) (f := 0) (by decide) (by decide) (.inl rfl)
  · split
    · have h := canonical_of_parts hs (e := 0) (f := 0) (by decide) (by decide) (.inl rfl)
      rwa [Nat.zero_mul] at h
    · exact canonical_of_parts hs (by omega) (by omega) (.inr ⟨by omega, by omega⟩)

theorem canonical_roundF32 (neg : Bool) (m : Nat) (e : Int) (sticky : Bool) : Canonical (roundF32 neg m e sticky) := by
  unfold roundF32
  split
  · cases neg <;> exact ⟨by decide, by decide⟩
  · next hm => exact canonical_packSig (roundSig_bounds (p := 24) (by decide) hm e sticky) neg _

theorem canonical_toF32 (v : Fv) : Canonical v.toF32 := by
  cases v with
  | nan => exact canonical_nan
  | inf s => cases s <;> exact ⟨by decide, by decide⟩
  | zero s => cases s <;> exact ⟨by decide, by decide⟩
  | fin s m e => exact canonical_roundF32 s m e false

theorem canonical_ite {p : Prop} [Decidable p] {a b : Word} (ha : Canonical a) (hb : Canonical b) : Canonical (if p then a else b) := by
  split
  · exact ha
  · exact hb

theorem canonical_fmax (a b : Word) : Canonical (fmax a b) := by
  unfold fmax
  split
  · exact canonical_nan
  · exact canonical_nan
  · exact canonical_ite (canonical_toF32 _) (canonical_toF32 _)

theorem canonical_fmin (a b : Word) : Canonical (fmin a b) := by
  unfold fmin
  split
  · exact canonical_nan
  · exact canonical_nan
  · exact canonical_ite (canonical_toF32 _) (canonical_toF32 _)

theorem canonical_frcp (a : Word) : Canonical (frcp a) := by
  unfold frcp
  split
  · exact canonical_nan
  · exact canonical_toF32 _
  · exact canonical_toF32 _
  · exact canonical_roundF32 ..

theorem canonical_frsq (a : Word) : Canonical (frsq a) := by
  unfold frsq
  split
  · exact canonical_nan
  · exact canonical_ite canonical_nan (canonical_toF32 (.zero false))
  · exact canonical_toF32 _
  · exact canonical_nan
  · exact canonical_roundF32 ..

end

/-- Settles O22: every result is a value rounded to FP32, or the canonical NaN. -/
theorem floatResults : Obligations.FloatResults := by
  intro a b c w hw
  simp only [List.mem_cons, List.not_mem_nil, or_false] at hw
  obtain rfl | rfl | rfl | rfl | rfl | rfl | rfl | rfl := hw
  · exact canonical_toF32 _
  · exact canonical_toF32 _
  · exact canonical_toF32 _
  · exact canonical_toF32 _
  · exact canonical_fmax a b
  · exact canonical_fmin a b
  · exact canonical_frcp a
  · exact canonical_frsq a

section
/-! Special inputs (R124). -/

variable {x : Word}

/-- R122: a zero or denormal pattern is read as a zero of its sign. -/
theorem ofF32_zero (he : bits x 30 23 = 0) : Fv.ofF32 x = .zero x.msb := by
  rw [BitVec.msb_eq_getLsbD_last]
  simp [Fv.ofF32, he]

theorem ofF32_nan (he : bits x 30 23 = 255) (hf : bits x 22 0 ≠ 0) : Fv.ofF32 x = .nan := by simp [Fv.ofF32, he, hf]

theorem ofF32_fin (h0 : 0 < bits x 30 23) (h255 : bits x 30 23 < 255) :
    Fv.ofF32 x = .fin x.msb (bits x 22 0 + 2 ^ 23) ((bits x 30 23 : Int) - 150) := by
  rw [BitVec.msb_eq_getLsbD_last]
  simp [Fv.ofF32, Nat.ne_of_gt h0, Nat.ne_of_lt h255]

theorem functions_zero (he : bits x 30 23 = 0) : fexp x = 0x3F800000 ∧ frcp x = (if x.msb then 0xFF800000 else 0x7F800000) ∧
    frsq x = (if x.msb then 0xFF800000 else 0x7F800000) := by
  simp only [fexp, frcp, frsq, ofF32_zero he]
  exact ⟨rfl, rfl, rfl⟩

theorem functions_nan (he : bits x 30 23 = 255) (hf : bits x 22 0 ≠ 0) : fexp x = 0x7FC00000 ∧ frcp x = 0x7FC00000 ∧ frsq x = 0x7FC00000 := by
  simp only [fexp, frcp, frsq, ofF32_nan he hf]
  exact ⟨rfl, rfl, rfl⟩

theorem frsq_negative (hs : x.msb = true) (h0 : 0 < bits x 30 23) (h255 : bits x 30 23 < 255) : frsq x = 0x7FC00000 := by
  simp only [frsq, ofF32_fin h0 h255, hs]
  rfl

theorem fmax_nan_left (h : Fv.ofF32 x = .nan) (y : Word) : fmax x y = f32Nan := by simp only [fmax, h]

theorem fmax_nan_right (h : Fv.ofF32 x = .nan) (y : Word) : fmax y x = f32Nan := by
  unfold fmax
  rw [h]
  cases Fv.ofF32 y <;> rfl

/-- R121: once the maximum is a NaN it stays one. -/
theorem foldl_fmax_nan (l : List Word) : l.foldl fmax f32Nan = f32Nan := by
  induction l with
  | nil => rfl
  | cons y t ih => rw [List.foldl_cons, fmax_nan_left (by decide), ih]

theorem foldl_fmax_mem (h : Fv.ofF32 x = .nan) (l : List Word) (y : Word) (hx : x ∈ l) : l.foldl fmax y = f32Nan := by
  induction l generalizing y with
  | nil => exact absurd hx List.not_mem_nil
  | cons z t ih =>
    rw [List.foldl_cons]
    obtain rfl | hx := List.mem_cons.1 hx
    · rw [fmax_nan_right h, foldl_fmax_nan]
    · exact ih _ hx

/-- R121, R122: the maximum of lanes of which one is a NaN. -/
theorem laneMax_nan (h : Fv.ofF32 x = .nan) (l : List Word) (hx : x ∈ l) : laneMax l = f32Nan := by
  cases l with
  | nil => exact absurd hx List.not_mem_nil
  | cons a t =>
    rw [laneMax]
    obtain rfl | hx := List.mem_cons.1 hx
    · rw [fmax_nan_left h, foldl_fmax_nan]
    · exact foldl_fmax_mem h t _ hx

end

section
/-! Lists of lanes (R71, R121). -/

theorem map_vLanes (k : Core) (va : VReg) (g : Word → Word) : (vLanes k va).map g = (List.range 64).map (fun i => g (vLane k va i)) := by
  rw [vLanes, List.map_map]
  rfl

theorem replicate_lanes (v : Word) : List.replicate 64 v = (List.range 64).map (fun _ => v) := by
  rw [List.map_const', List.length_range]

end

/-- Settles O20: each instruction is `vop` of its lanes, and each special input is read as a zero, an infinity or a NaN. -/
theorem vectorFunctions : Obligations.VectorFunctions := by
  refine ⟨?_, rfl, rfl, rfl, rfl, rfl, rfl, fun x => functions_zero, fun x => frsq_negative, fun x => functions_nan,
    fun l x hx he hf => laneMax_nan (ofF32_nan he hf) l hx⟩
  intro s c vd va ga h k lanes
  have mapped : ∀ g : Word → Word, Host.Outcome.next (vop s c vd (fun k => (vLanes k va).map g)) = lanes (fun i => g (vLane k va i)) :=
    fun g => congrArg Host.Outcome.next (vop_opens h (map_vLanes k va g))
  have spread : ∀ g : Core → Word, g (slotTaken k .vector) = g k →
      Host.Outcome.next (vop s c vd (fun k => List.replicate 64 (g k))) = lanes (fun _ => g k) :=
    fun g hg => congrArg Host.Outcome.next (vop_opens h (by rw [hg, replicate_lanes]))
  exact ⟨mapped fexp, mapped frcp, mapped frsq, spread (fun k => treeSum (vLanes k va)) rfl, spread (fun k => laneMax (vLanes k va)) rfl,
    spread (fun k => gReg k ga) rfl⟩

section
/-! The tree of VRSUM (R123). -/

/-- R123: level `n` of the tree over the lanes `l`. -/
def sumLevel (l : List Word) : Nat → List Word
  | 0 => l
  | n + 1 => pairSums (sumLevel l n)

/-- R123: entry `j` of level `n`. -/
def sumEntry (l : List Word) (n j : Nat) : Word := (sumLevel l n).getD j 0

theorem getD_pairSums : ∀ (l : List Word) (j : Nat), 2 * j + 1 < l.length → (pairSums l).getD j 0 = fadd (l.getD (2 * j) 0) (l.getD (2 * j + 1) 0)
  | [], j, h => absurd h (Nat.not_lt_zero _)
  | [_], j, h => absurd h (by simp)
  | a :: b :: t, 0, h => rfl
  | a :: b :: t, j + 1, h => by
    have ih := getD_pairSums t j (by simp only [List.length_cons] at h; omega)
    rw [pairSums, List.getD_cons_succ, ih]
    rfl

theorem length_pairSums : ∀ l : List Word, (pairSums l).length = (l.length + 1) / 2
  | [] => rfl
  | [_] => by simp [pairSums]
  | a :: b :: t => by
    simp only [pairSums, List.length_cons, length_pairSums t]
    omega

theorem length_sumLevel {l : List Word} (hl : l.length = 64) : ∀ {n : Nat}, n ≤ 6 → (sumLevel l n).length = 64 / 2 ^ n
  | 0, _ => hl
  | n + 1, hn => by
    rw [sumLevel, length_pairSums, length_sumLevel hl (Nat.le_of_succ_le hn)]
    have : n < 6 := hn
    interval_cases n <;> rfl

/-- R123: an entry of the next level is the rounded sum of two adjacent ones. -/
theorem sumEntry_succ {l : List Word} {n j : Nat} (hl : l.length = 64) (hn : n < 6) (hj : j < 32 / 2 ^ n) :
    sumEntry l (n + 1) j = fadd (sumEntry l n (2 * j)) (sumEntry l n (2 * j + 1)) := by
  refine getD_pairSums _ _ ?_
  rw [length_sumLevel hl (Nat.le_of_lt hn)]
  interval_cases n <;> omega

theorem treeSum_eq (l : List Word) : treeSum l = sumEntry l 6 0 := List.headD_eq_getD ..

theorem length_vLanes (k : Core) (va : VReg) : (vLanes k va).length = 64 := by rw [vLanes, List.length_map, List.length_range]

theorem sumEntry_zero (k : Core) (va : VReg) {j : Nat} (hj : j < 64) : sumEntry (vLanes k va) 0 j = vLane k va j := by
  simp [sumEntry, sumLevel, vLanes, List.getD, hj]

end

/-- Settles O24: the levels are those of `sumEntry`, and VRSUM does not read the fuses. -/
theorem vrsumTree : Obligations.VrsumTree := by
  intro c vd va s h
  exact ⟨sumEntry (vLanes (s.core c.val) va), fun j hj => sumEntry_zero _ va hj, fun n j hn hj => sumEntry_succ (length_vLanes ..) hn hj,
    fun p => congrArg Host.Outcome.next (vop_opens h (congrArg (List.replicate 64) (treeSum_eq (vLanes (s.core c.val) va))))⟩

end Sys2Proof.Machine
end

section
/-! PROOF. The vector unit's memory accesses (O23): VLD, VST and VQNT. -/

namespace Sys2Proof.Machine

section
/-! Addresses and elements (R120, R125, R126). -/

/-- R120: the address of a vector access as a wrapped sum of numbers (log entry 36). -/
theorem vectorAddr_eq (w : Word) (off : BitVec 12) : vectorAddr w off = (w.toNat + off.toNat * 64) % 2 ^ 32 / 64 * 64 := by
  have := off.isLt
  rw [vectorAddr, BitVec.toNat_add, BitVec.toNat_mul, BitVec.toNat_setWidth, Nat.add_mod_mod, Nat.mod_eq_of_lt (a := off.toNat) (by omega)]
  rfl

/-- R126: the addresses of a pair as wrapped sums of numbers (log entry 36). -/
theorem pairAddrs_eq (k : Core) (ga gb gi : GReg) (n : Nat) : pairAddrs k ga gb gi n =
    (((gReg k ga).toNat + (gReg k gi).toNat * (8 * n)) % 2 ^ 32, ((gReg k gb).toNat + (gReg k gi).toNat * 2) % 2 ^ 32) := by
  rw [pairAddrs, BitVec.toNat_add, BitVec.toNat_mul, BitVec.toNat_ofNat, Nat.mul_mod_mod, Nat.add_mod_mod, BitVec.toNat_add, BitVec.toNat_mul,
    Nat.add_mod_mod]
  rfl

theorem length_leBytes (v n : Nat) : (leBytes v n).length = n := by
  induction n generalizing v with
  | zero => rfl
  | succ n ih => rw [leBytes, List.length_cons, ih]

/-- R125: a converted lane takes the bytes of its format. -/
theorem length_storeElem {fmt : BitVec 4} (h : elemBytes fmt ≠ 0) (w : Word) : (storeElem fmt w).length = elemBytes fmt := by
  unfold elemBytes at h ⊢
  unfold storeElem
  split at h
  case h_1 he =>
    rw [he]
    exact length_leBytes ..
  case h_2 he =>
    rw [he]
    exact length_leBytes ..
  case h_3 he =>
    rw [he]
    rfl
  case h_4 => exact absurd rfl h

theorem length_stored {fmt : BitVec 4} (h : elemBytes fmt ≠ 0) (k : Core) (v : VReg) :
    ((vLanes k v).flatMap (storeElem fmt)).length = 64 * elemBytes fmt := by
  rw [List.length_flatMap, List.map_congr_left (fun w _ => length_storeElem h w), List.map_const', List.sum_replicate, length_vLanes, smul_eq_mul]

end

section
/-! VLD and VST (R125). -/

variable {s : State} {c : CoreId} {v : VReg} {ga : GReg} {fmt : BitVec 4} {off : BitVec 12}

theorem loadStore_reserved (h : s.opens c .vector) (hn : elemBytes fmt = 0) :
    exec (.vld c v ga fmt off) s = .next (s.fetchFault c.val) ∧ exec (.vst c v ga fmt off) s = .next (s.fetchFault c.val) :=
  ⟨congrArg Host.Outcome.next ((onCore_opens h).trans (if_pos hn)), congrArg Host.Outcome.next ((onCore_opens h).trans (if_pos hn))⟩

theorem vld_runs (h : s.opens c .vector) (hn : elemBytes fmt ≠ 0) :
    let k := s.core c.val
    let past := slotTaken k .vector
    let a := vectorAddr (gReg k ga) off
    exec (.vld c v ga fmt off) s = .next (s.checked c .vector past 1 .read a (64 * elemBytes fmt) (fun s => s.setCore c.val past)
      (fun s => s.setCore c.val (setV past v ((List.range 64).map (loadElem k.scratch fmt a))))) :=
  congrArg Host.Outcome.next ((onCore_opens h).trans (if_neg hn))

theorem vst_runs (h : s.opens c .vector) (hn : elemBytes fmt ≠ 0) :
    let k := s.core c.val
    let past := slotTaken k .vector
    let a := vectorAddr (gReg k ga) off
    exec (.vst c v ga fmt off) s = .next (s.checked c .vector past 1 .write a (64 * elemBytes fmt) (fun s => s.setCore c.val past)
      (fun s => s.setCore c.val (past.put a ((vLanes k v).flatMap (storeElem fmt))))) :=
  congrArg Host.Outcome.next ((onCore_opens h).trans (if_neg hn))

end

section
/-! VQNT (R126). -/

variable {s : State} {c : CoreId} {v : VReg} {ga gb gi : GReg} {fmt : BitVec 4}

theorem vqnt_reserved (h : s.opens c .vector) (hn : fmt.toNat = 0 ∨ 8 < fmt.toNat) : exec (.vqnt c v ga gb gi fmt) s = .next (s.fetchFault c.val) :=
  congrArg Host.Outcome.next ((onCore_opens h).trans (if_pos hn))

/-- R126: VQNT of a defined format waits, faults, or writes payload and scales. -/
theorem vqnt_runs (h : s.opens c .vector) (h1 : 1 ≤ fmt.toNat) (h8 : fmt.toNat ≤ 8) :
    let k := s.core c.val
    let past := slotTaken k .vector
    let q := fmt.toNat
    let a := pairAddrs k ga gb gi q
    let l := quantLanes q (vLanes k v)
    (¬(interlocked k a.1 (8 * q) true = false ∧ interlocked k a.2 2 true = false) →
      exec (.vqnt c v ga gb gi fmt) s = .next (s.setCore c.val { k with slot := 1, stalled := true })) ∧
    ((interlocked k a.1 (8 * q) true = false ∧ interlocked k a.2 2 true = false) →
      (∀ cause x, pairRefused k (s.block c.val) a q = some (cause, x) →
        exec (.vqnt c v ga gb gi fmt) s = .next ((s.setCore c.val past).boundsFault c.val 1 cause x)) ∧
      (pairRefused k (s.block c.val) a q = none → exec (.vqnt c v ga gb gi fmt) s = .next (s.setCore c.val ((past.put a.1 l.2).put a.2 l.1)))) := by
  intro k past q a l
  have run : exec (.vqnt c v ga gb gi fmt) s = .next (
      if interlocked k a.1 (8 * q) true || interlocked k a.2 2 true then s.stall c .vector past
      else match pairRefused k (s.block c.val) a q with
        | some (cause, x) => (s.setCore c.val past).boundsFault c.val 1 cause x
        | none => s.setCore c.val ((past.put a.1 l.2).put a.2 l.1)) :=
    congrArg Host.Outcome.next ((onCore_opens h).trans (if_neg (by omega)))
  rw [run]
  refine ⟨fun hh => ?_, fun hh => ⟨fun cause x hr => ?_, fun hr => ?_⟩⟩
  · rw [if_pos (by simpa [or_iff_not_imp_left] using hh)]
    rfl
  · rw [if_neg (by simp [hh]), hr]
  · rw [if_neg (by simp [hh]), hr]

/-- R126: which of the two ranges of a pair is reported: the one of the lower address (log entry 174). -/
theorem pairRefused_some {k : Core} {blk : CoreBlock} {a : Nat × Nat} {n cause x : Nat}
    (h : (refused k blk .write a.1 (8 * n) = some (cause, x) ∧ ∀ y, refused k blk .write a.2 2 = some y → x ≤ y.2) ∨
      (refused k blk .write a.2 2 = some (cause, x) ∧ ∀ y, refused k blk .write a.1 (8 * n) = some y → x < y.2)) :
    pairRefused k blk a n = some (cause, x) := by
  unfold pairRefused
  obtain ⟨hp, hle⟩ | ⟨hs, hlt⟩ := h
  · rw [hp]
    cases hs : refused k blk .write a.2 2 with
    | none => rfl
    | some y => exact congrArg some (if_neg (Nat.not_lt.2 (hle y hs)))
  · rw [hs]
    cases hp : refused k blk .write a.1 (8 * n) with
    | none => rfl
    | some y => exact congrArg some (if_pos (hlt y hp))

theorem pairRefused_none {k : Core} {blk : CoreBlock} {a : Nat × Nat} {n : Nat} (hp : refused k blk .write a.1 (8 * n) = none)
    (hs : refused k blk .write a.2 2 = none) : pairRefused k blk a n = none := by
  rw [pairRefused, hp, hs]

end

/-- Settles O23: VLD and VST by their format, by what holds them and by the bounds check; VQNT by its format and then by its two ranges. -/
theorem vectorMemory : Obligations.VectorMemory := by
  intro s c v ga gb gi fmt off h k past wait fault a n q pa ps load store quant free rp rs
  have ha : vectorAddr (gReg k ga) off = a := vectorAddr_eq ..
  have hpair : pairAddrs k ga gb gi q = (pa, ps) := pairAddrs_eq ..
  have loads := fun hn => vld_runs (v := v) (ga := ga) (off := off) (fmt := fmt) h hn
  have stores := fun hn => vst_runs (v := v) (ga := ga) (off := off) (fmt := fmt) h hn
  have quants := fun h1 h8 => vqnt_runs (v := v) (ga := ga) (gb := gb) (gi := gi) (fmt := fmt) h h1 h8
  simp only [show s.core c.val = k from rfl] at loads stores quants
  rw [ha] at loads stores
  rw [show fmt.toNat = q from rfl, hpair] at quants
  refine ⟨loadStore_reserved h, fun hn hm => ?_, fun hn hm => ?_, fun hn hl => ?_, fun hn hl => ?_, fun cause x hn hl hr => ?_,
    fun cause x hn hl hr => ?_, vqnt_reserved h, fun h1 h8 => (quants h1 h8).1, fun h1 h8 hf hp hs => ?_, fun cause x h1 h8 hf hr => ?_⟩
  · exact (loads hn).trans (congrArg _ (checked_may hm))
  · refine ⟨_, _, (stores hn).trans (congrArg _ (checked_may hm)), rfl, fun x hx => ?_, fun e he => (List.mem_filter.1 he).1⟩
    exact Memory.byte_write_other _ (by rwa [length_stored hn])
  · exact (loads hn).trans (congrArg _ (checked_waits hl))
  · exact (stores hn).trans (congrArg _ (checked_waits hl))
  · exact (loads hn).trans (congrArg _ ((checked_refused hl hr).trans (boundsFault_setCore ..).symm))
  · exact (stores hn).trans (congrArg _ ((checked_refused hl hr).trans (boundsFault_setCore ..).symm))
  · exact ⟨_, ((quants h1 h8).2 hf).2 (pairRefused_none hp hs), fun e he => (List.mem_filter.1 (List.mem_filter.1 he).1).1⟩
  · exact ((quants h1 h8).2 hf).1 cause x (pairRefused_some hr)

end Sys2Proof.Machine
end

section
/-! PROOF. Packets on the rings and at their units (O29): RING_HOP, DELIVERY_HOP and PACKET_ARRIVAL. -/

namespace Sys2Proof.Machine

section
/-! The hops (R173, R174, R176, R177). -/

variable {s : State} {id : Nat} {p : Packet}

theorem ringHop_ring {n d : Nat} {turns : Bool} (hp : s.packet? id = some p) (hm : s.moveOf p = .ring n d turns) :
    exec (.ringHop id) s = .next (if s.pathDone p then s.movePacket p (.ring n (opposite d)) else s) := by
  refine congrArg Host.Outcome.next ?_
  simp only [hp, hm]

theorem ringHop_unformable (hp : s.packet? id = some p) (hm : s.moveOf p = .unformable) : exec (.ringHop id) s = .next (s.refusePacket p) := by
  refine congrArg Host.Outcome.next ?_
  simp only [hp, hm]

theorem deliveryHop_delivery {t : Nat} (hp : s.packet? id = some p) (hm : s.moveOf p = .delivery t) : exec (.deliveryHop id) s =
    .next (if s.pathDone p then s.movePacket p (.delivery t (opposite (deliveryDir (packetAt p.loc).1 t))) else s) := by
  refine congrArg Host.Outcome.next ?_
  simp only [hp, hm]

/-- R130, R166: a request that ends without data adds at most its core's empty response to what has been delivered. -/
theorem failRequest_only (s : State) (p : Packet) : ∃ d, s.failRequest p = { s with delivered := d } ∧ (p.core = none → d = s.delivered) ∧
    (p.core ≠ none → ∃ q, d = s.delivered ++ [q] ∧ q.core = p.core ∧ q.h.tag = p.h.tag ∧ q.payload = []) := by
  cases hc : p.core with
  | none => exact ⟨s.delivered, by rw [State.failRequest, hc], fun _ => rfl, fun h => absurd rfl h⟩
  | some c =>
    obtain ⟨q, e, hq⟩ := failRequest_some s p hc
    exact ⟨_, e, fun h => by simp at h, fun _ => ⟨q, rfl, hq⟩⟩

end

section
/-! PACKET_ARRIVAL of a packet all of whose units have reached its unit (R169, R171, R173). -/

variable {s : State} {id : Nat} {p : Packet} (hp : s.packet? id = some p) (hm : s.moveOf p = .arrived) (hd : s.pathDone p = true)
  (ho : p.h.dst.toNat ≠ dstOptical)

include hm hd ho

theorem stands_at_unit : ¬(s.moveOf p ≠ .arrived ∨ s.pathDone p = false ∨ p.h.dst.toNat = dstOptical) := by
  simp [hm, hd, ho]

include hp

theorem packetArrival_bad : exec (.packetArrival id true) s = .next ((s.dropPacket id).raise .mesh p.target 2) := by
  refine congrArg Host.Outcome.next ?_
  simp only [hp, stands_at_unit hm hd ho, if_true, if_false]

/-- R130: a response that names its core waits there. -/
theorem packetArrival_response (hr : isResponse p.h = true) (hb : p.h.dst.toNat < 84) (hu : p.h.dunit.toNat < 0x9C) (hc : p.core ≠ none) :
    exec (.packetArrival id false) s = .next (s.deliver p) := by
  obtain ⟨c, hc⟩ := Option.ne_none_iff_exists'.1 hc
  have same : { p with core := some c } = p := by rw [← hc]
  refine congrArg Host.Outcome.next ?_
  simp only [hp, stands_at_unit hm hd ho, hr, hb, hu, hc, same, and_self, Bool.false_eq_true, if_true, if_false]

/-- R171: a request goes to the unit that its header names: of a berth, of a stack or of a harbour die. -/
theorem packetArrival_request (hr : isResponse p.h = false) : exec (.packetArrival id false) s = .next (
    if p.h.dst.toNat < 84 then (if p.h.dunit.toNat = unitStore then s.serveStore p else s.dropPacket id)
    else if p.h.dst.toNat < 0x60 then s.serveStack (p.h.dst.toNat - 0x54) p
    else s.serveHarbour p) := by
  refine congrArg Host.Outcome.next ?_
  simp only [hp, stands_at_unit hm hd ho, hr, Bool.false_eq_true, if_false]

theorem packetArrival_harbour (hr : isResponse p.h = false) (h : 0x60 ≤ p.h.dst.toNat) : exec (.packetArrival id false) s = .next (s.serveHarbour p) := by
  rw [packetArrival_request hp hm hd ho hr, if_neg (by omega), if_neg (by omega)]

end

section
/-! What a unit does with a request that has reached it (R130, R217, R221, R282). -/

variable {s : State} {p : Packet}

theorem serveStore_beyond (h : 2 ^ 33 < p.h.addr.toNat + p.h.len.toNat) :
    s.serveStore p = ((s.dropPacket p.id).raise .stor p.target 8).respond p [] := if_pos h

theorem serveStore_write (h : p.h.addr.toNat + p.h.len.toNat ≤ 2 ^ 33) (ht : p.h.type = 1) : s.serveStore p =
    ((s.dropPacket p.id).storeWrite p.target p.h.addr.toNat (p.payload.take p.h.len.toNat)).respond p [] :=
  (if_neg (Nat.not_lt.2 h)).trans (if_pos ht)

theorem serveStore_read (h : p.h.addr.toNat + p.h.len.toNat ≤ 2 ^ 33) (ht : p.h.type = 0) : s.serveStore p = s.deliver { p with payload := [] } :=
  (if_neg (Nat.not_lt.2 h)).trans ((if_neg (by simp [ht])).trans (if_pos ht))

theorem serveStack_controller {k : Nat} (hu : p.h.dunit = 0) (ht : p.h.type = 0 ∨ p.h.type = 1) : s.serveStack k p =
    (s.deliver p).setStack k { s.stack k with reqs := (s.stack k).reqs ++
      [{ packet := p.id, write := p.h.type = 1, offset := p.h.addr.toNat, len := p.h.len.toNat, data := p.payload }] } :=
  if_pos ⟨hu, ht⟩

theorem serveStack_pager {k : Nat} (hu : p.h.dunit = 1) (ht : p.h.type = 2) : s.serveStack k p =
    (s.deliver p).setStack k { s.stack k with pager := (s.stack k).pager ++ [p.id] } :=
  (if_neg (by simp [hu])).trans (if_pos ⟨hu, ht⟩)

/-- R171: the function of a harbour die that is its host port. -/
theorem serveHarbour_port (hu : p.h.dunit = 0) (hb : p.h.dst = 0x60 ∨ p.h.dst = 0x61) :
    let a := hostKey (if p.h.dst = 0x60 then .a else .b) p.h.addr.toNat
    s.serveHarbour p = if p.h.type = 1 then ({ s.dropPacket p.id with hostMem := Memory.write s.hostMem a p.payload } : State).respond p []
      else (s.dropPacket p.id).respond p (Memory.read s.hostMem a p.h.len.toNat) := if_pos ⟨hu, hb⟩

theorem serveHarbour_other (h : p.h.dunit ≠ 0 ∨ 0x61 < p.h.dst.toNat) : s.serveHarbour p = s.deliver p := by
  refine if_neg fun ⟨hu, hb⟩ => h.elim (absurd hu) fun h => ?_
  rcases hb with hb | hb
  all_goals
    rw [hb] at h
    exact absurd h (by decide)

end

/-- Settles O29: the hops by the next move, an arrival by the unit that the header names. -/
theorem packetMoves : Obligations.PacketMoves := by
  intro s id p hp hid there
  subst hid
  refine ⟨fun n d turns hm => ?_, fun hm => ?_, fun t hm => ?_, fun hm hd ho => ⟨fun hs => ?_, fun hr hb hu hc => ?_, fun hr hb hu => ?_,
    fun k hr hk hlt => ?_, fun hr hb hu => ?_, fun hr hb hu => ?_⟩⟩
  · rw [ringHop_ring hp hm]
    exact ⟨fun h => congrArg _ (if_pos h), fun h => congrArg _ (if_neg (by simp [h]))⟩
  · obtain ⟨m, f, e⟩ := raise_only (s.dropPacket p.id) .mesh (packetAt p.loc).1 3
    obtain ⟨d, e', hd⟩ := failRequest_only ((s.dropPacket p.id).raise .mesh (packetAt p.loc).1 3) p
    have hdel : ((s.dropPacket p.id).raise .mesh (packetAt p.loc).1 3).delivered = s.delivered := by rw [e]; rfl
    rw [hdel] at hd
    refine ⟨m, f, d, (ringHop_unformable hp hm).trans (congrArg _ (e'.trans (by rw [e]))), fun hs => ?_, hd⟩
    obtain ⟨m', f', e'', herr⟩ := raise_any (s := s.dropPacket p.id) (b := .mesh) (i := (packetAt p.loc).1) (n := 3) hs.regs rfl (by decide)
    have hm' : m' = m := congrArg State.regs (e''.symm.trans e)
    exact hm' ▸ herr
  · rw [deliveryHop_delivery hp hm]
    exact ⟨fun h => congrArg _ (if_pos h), fun h => congrArg _ (if_neg (by simp [h]))⟩
  · obtain ⟨m, f, e, herr⟩ := raise_any (s := s.dropPacket p.id) (b := .mesh) (i := p.target) (n := 2) hs.regs rfl (by decide)
    exact ⟨m, f, (packetArrival_bad hp hm hd ho).trans (congrArg _ e), herr⟩
  · exact packetArrival_response hp hm hd ho hr hb hu hc
  · rw [packetArrival_request hp hm hd ho hr, if_pos hb, if_pos (show _ = unitStore from hu)]
    exact ⟨fun h => ⟨fun ht => congrArg _ (serveStore_write h ht), fun ht => congrArg _ (serveStore_read h ht)⟩,
      fun h => congrArg _ (serveStore_beyond h)⟩
  · rw [packetArrival_request hp hm hd ho hr, if_neg (by omega), if_pos (by omega), hk, Nat.add_sub_cancel_left]
    exact ⟨fun hu ht => congrArg _ (serveStack_controller hu ht), fun hu ht => congrArg _ (serveStack_pager hu ht)⟩
  · have h60 : 0x60 ≤ p.h.dst.toNat := hb.elim (fun h => by rw [h]; decide) (fun h => by rw [h]; decide)
    rw [packetArrival_harbour hp hm hd ho hr h60, serveHarbour_port hu hb]
    exact ⟨fun ht => congrArg _ (if_pos ht), fun ht => congrArg _ (if_neg ht)⟩
  · exact (packetArrival_harbour hp hm hd ho hr hb).trans (congrArg _ (serveHarbour_other hu))

end Sys2Proof.Machine
end

section
/-! PROOF. FAULT messages (O33): the oldest one waits, starts a handling, or joins the one under way. -/

namespace Sys2Proof.Machine

section
variable {s : State} {e c : FltErr} {rest : List FltErr}

/-- R449: the repairs that are due once an error has joined a handling; a module-fatal error makes none due. -/
def State.repairsWith (s : State) (e : FltErr) : List FltErr :=
  if e.scope = 5 then s.flt.repairs else addRepair (addRepair s.flt.repairs (s.repairOf e)) (State.rewriteOf e)

/-- R449: what the fault handler holds once a message has left the queue and joined the handling of error `c`: its own error, where no second
one is held, or one more counted, and the wider scope. -/
def Flt.joined (f : Flt) (c e : FltErr) (rest repairs : List FltErr) : Flt :=
  if f.next = none then { f with msgs := rest, next := some e, cur := some { c with scope := max c.scope e.scope }, repairs := repairs }
  else { f with msgs := rest, ovf := min (f.ovf + 1) 65535, cur := some { c with scope := max c.scope e.scope }, repairs := repairs }

theorem fault_waits (hm : s.flt.msgs = e :: rest) (hw : s.faultWaits e = true) : exec .fault s = .next s := by
  refine congrArg Host.Outcome.next ?_
  simp only [hm, hw, if_true]

theorem fault_starts (hm : s.flt.msgs = e :: rest) (hw : s.faultWaits e = false) (hc : s.flt.cur = none) :
    ∃ r, exec .fault s = .next { s with flt := { s.flt with msgs := rest, phase := .abort, cur := some e, repairs := r } } := by
  refine ⟨({ s with flt := { s.flt with msgs := rest } } : State).repairsWith e, congrArg Host.Outcome.next ?_⟩
  simp only [hm, hw, hc, Bool.false_eq_true, if_false]
  rfl

theorem fault_joins (hm : s.flt.msgs = e :: rest) (hw : s.faultWaits e = false) (hc : s.flt.cur = some c) : ∃ r,
    let u : State := { s with flt := s.flt.joined c e rest r }
    exec .fault s = .next (if (s.flt.phase = .repair ∨ s.flt.phase = .restore ∨ s.flt.phase = .coolant) ∧ e.scope < 5 then u.repairAll [] else u) := by
  refine ⟨({ s with flt := { s.flt with msgs := rest } } : State).repairsWith e, congrArg Host.Outcome.next ?_⟩
  simp only [hm, hw, hc, Bool.false_eq_true, if_false]
  cases hn : s.flt.next with
  | none => simp only [Flt.joined, hn]; rfl
  | some x => simp only [Flt.joined, hn]; rfl

end

/-- Settles O33: the message waits for an ARRIVE, starts a handling, or joins the one under way. -/
theorem faultMessages : Obligations.FaultMessages := by
  intro s e rest hm
  refine ⟨fault_waits hm, fun hw => ⟨fault_starts hm hw, fun c hc => ?_⟩⟩
  intro late
  obtain ⟨r, h⟩ := fault_joins hm hw hc
  refine ⟨r, ?_⟩
  intro u
  have hu : u = { s with flt := s.flt.joined c e rest r } := (apply_ite (fun f => ({ s with flt := f } : State)) _ _ _).symm
  rw [hu]
  exact ⟨fun hl => h.trans (congrArg _ (if_neg hl)), fun hl => h.trans (congrArg _ (if_pos hl))⟩

end Sys2Proof.Machine
end

section
/-! PROOF. TIME and POINT (O34): the broadcast, a node's correction of its copy of STAMP, and a register write through a node. -/

namespace Sys2Proof.Machine

section
/-! TIME (R180, R183, R357). -/

variable {s : State} {b : Berth} {t : Dword} {resent : Bool}

/-- R351: a module that is no slice's has nobody below it. -/
theorem sendTime_alone (h : s.sliceModules = none) (n : Nat) : s.sendTime t n = s := by
  unfold State.sendTime State.edgesDown
  simp [h]

theorem timeBroadcast_runs (s : State) : ∃ p o, exec .timeBroadcast s = .next { s with timeMsg := some s.stamp, zports := p, portOut := o } ∧
    (s.sliceModules = none ∨ s.parentRole ≠ none → p = s.zports ∧ o = s.portOut) := by
  by_cases hroot : s.parentRole = none
  · by_cases hm : s.sliceModules = none
    · refine ⟨s.zports, s.portOut, congrArg Host.Outcome.next ?_, fun _ => ⟨rfl, rfl⟩⟩
      simp only [hroot, sendTime_alone hm, Option.isNone_none, if_true]
    · obtain ⟨p, o, e⟩ := sendTime_only s s.stamp 0
      refine ⟨p, o, congrArg Host.Outcome.next ?_, fun h => h.elim (absurd · hm) (absurd hroot ·)⟩
      simp only [hroot, e, Option.isNone_none, if_true]
  · refine ⟨s.zports, s.portOut, congrArg Host.Outcome.next ?_, fun _ => ⟨rfl, rfl⟩⟩
    simp only [Option.isNone_iff_eq_none, hroot, if_false]

theorem time_waits (h : s.rootBusy = true) : exec (.time b resent) s = .next s := by
  refine congrArg Host.Outcome.next ?_
  cases s.timeMsg with
  | none => rfl
  | some t => simp only [h, Bool.or_true, if_true]

/-- R183: the node of a berth as it has corrected its copy `c` of STAMP to `v`. -/
def State.clockSet (s : State) (c v : Int) : NodeClock :=
  if c ≤ v then { skew := v - s.stamp.toNat, hold := 0 } else { skew := c - s.stamp.toNat, hold := (c - v).toNat }

/-- R183: a correction of more than one PCLK is reported, and a flit that was resent; nothing else changes beside the copy. -/
theorem time_corrects (ht : s.timeMsg = some t) (hd : s.dark b.val = false) (hr : s.rootBusy = false) :
    let v : Int := t.toNat + Config.pathDelay b.val s.countFrom
    let c : Int := s.stamp.toNat + (s.nodeClock b.val).skew
    ∃ m f, exec (.time b resent) s =
        .next { s with nodeClocks := Sparse.set (fun _ => {}) s.nodeClocks b.val (s.clockSet c v), regs := m, flt := f } ∧
      (resent = false → v ≤ c + 1 → c ≤ v + 1 → m = s.regs ∧ f = s.flt) := by
  intro v c
  obtain ⟨m, f, e, hkept⟩ := resendFlit_only s (.berth b) resent
  have run : exec (.time b resent) s = .next (
      let u := ({ s with regs := m, flt := f } : State).correctClock b.val c v
      if 1 < (v - c).natAbs then u.raise .chms b.val 1 else u) := by
    refine congrArg Host.Outcome.next ?_
    simp only [ht, hd, hr, e, Bool.or_self, Bool.false_eq_true, if_false]
    rfl
  rw [run, correctClock_only]
  by_cases hfar : 1 < (v - c).natAbs
  · obtain ⟨m', f', e'⟩ := raise_only { s with nodeClocks := Sparse.set (fun _ => {}) s.nodeClocks b.val (s.clockSet c v), regs := m, flt := f } .chms b.val 1
    exact ⟨m', f', congrArg _ ((if_pos hfar).trans e'), fun _ h₁ h₂ => absurd hfar (by omega)⟩
  · exact ⟨m, f, congrArg _ (if_neg hfar), fun h _ _ => hkept h⟩

end

section
/-! POINT (R178, R179, R459). -/

variable {s : State} {n : ChNode} {addr : Nat} {value : Word} {resent : Bool} {blk : Blk} {i off : Nat}

/-- R459: whether a POINT through a node reaches a page now. -/
def State.pointReaches (s : State) (n : ChNode) (blk : Blk) (i addr : Nat) : Prop :=
  s.nodeLive n = true ∧ s.nodeBerth n ∈ pageNodes blk i ∧ addr % 4 = 0 ∧ s.rootBusy = false

theorem point_runs (ho : s.powered = true) (ha : pageAt addr = some (blk, i, off)) :
    (s.pointReaches n blk i addr → exec (.point n addr value resent) s = .next ((s.resendFlit n resent).writeWord .firmware addr value)) ∧
    (¬s.pointReaches n blk i addr → exec (.point n addr value resent) s = .next s) := by
  have hcond : s.pointReaches n blk i addr ↔
      ¬((!s.nodeLive n || !(pageNodes blk i).contains (s.nodeBerth n) || addr % 4 != 0 || s.rootBusy) = true) := by
    simp [State.pointReaches, and_assoc]
  have run : exec (.point n addr value resent) s = .next (
      if !s.nodeLive n || !(pageNodes blk i).contains (s.nodeBerth n) || addr % 4 != 0 || s.rootBusy then s
      else (s.resendFlit n resent).writeWord .firmware addr value) := by
    refine congrArg Host.Outcome.next ((if_pos ho).trans ?_)
    simp only [ha]
  rw [hcond, not_not, run]
  exact ⟨fun h => congrArg _ (if_neg h), fun h => congrArg _ (if_pos h)⟩

end

/-- Settles O34: the broadcast by whether modules stand below, TIME by the correction, POINT by whether its node reaches the page. -/
theorem timeAndPoint : Obligations.TimeAndPoint := by
  intro s b n addr value resent
  refine ⟨timeBroadcast_runs s, fun t ht hd hr => time_corrects ht hd hr, time_waits, fun blk i off ho ha => ?_⟩
  obtain ⟨reaches, misses⟩ := point_runs (n := n) (value := value) (resent := resent) ho ha
  refine ⟨fun h => ?_, misses⟩
  obtain ⟨m, f, e, hkept⟩ := resendFlit_only s n resent
  exact ⟨m, f, hkept, (reaches h).trans (by rw [e])⟩

end Sys2Proof.Machine
end

section
/-! PROOF. Clock roots, the reference and the seam (O55): LOCK_LOSS, REF_LOSS, REF_DEV and SEAM_SYNC. -/

namespace Sys2Proof.Machine

section
/-! A root reads unlocked (R417, R423, R424). -/

variable {s : State}

/-- R424: the number of the CLKG page of a root. -/
def rootInst (standby : Bool) : Nat := if standby then 1 else 0

theorem clkg_key_eq (i o : Nat) : regKey .clkg i o = 0x10000 + i * 0x1000 + o := rfl

/-- R424: root `i` reads unlocked, and its loss is counted. -/
def State.unlocked (s : State) (i : Nat) : State :=
  (s.setReg .clkg i 0x040 (putBits (s.reg .clkg i 0x040) 0 0 0)).countSat .clkg i 0x040 15 8

theorem unlocked_reads (hr : Sparse.wf regReset s.regs = true) (i : Nat) : bit ((s.unlocked i).reg .clkg i 0x040) 0 = false := by
  unfold State.unlocked State.countSat
  dsimp only
  rw [State.reg_setReg (Sparse.wf_set _ hr), State.reg_setReg hr]
  exact (bit_putBits_above _ (by decide) (by decide)).trans (bit_putBits_zero _)

theorem unlocked_select {i : Nat} (hi : i < 2) : (s.unlocked i).reg .clkg 2 0x040 = s.reg .clkg 2 0x040 := by
  have hk : regKey .clkg 2 0x040 ≠ regKey .clkg i 0x040 := by
    rw [clkg_key_eq, clkg_key_eq]
    omega
  exact (State.reg_setReg_other hk).trans (State.reg_setReg_other hk)

/-- R417: the standby root is chosen for the next warm reset. -/
def State.standbyChosen (s : State) : State := s.setReg .clkg 2 0x040 (s.reg .clkg 2 0x040 ||| 2#32)

/-- R417, R424: the registers as a root that was locked has lost its lock. -/
def State.lockGone (s : State) (standby : Bool) : State :=
  if standby then s.unlocked 1 else (s.unlocked 0).standbyChosen

theorem lockGone_only (hr : Sparse.wf regReset s.regs = true) (standby : Bool) :
    ∃ m, s.lockGone standby = { s with regs := m } ∧ Sparse.wf regReset m = true := by
  cases standby
  · exact ⟨_, rfl, Sparse.wf_set _ (Sparse.wf_set _ (Sparse.wf_set _ hr))⟩
  · exact ⟨_, rfl, Sparse.wf_set _ (Sparse.wf_set _ hr)⟩

/-- R417, R424: the lost root reads unlocked, the active root is the same, and a lost primary root has chosen the standby. -/
theorem lockGone_reads (hr : Sparse.wf regReset s.regs = true) (standby : Bool) :
    bit ((s.lockGone standby).reg .clkg (rootInst standby) 0x040) 0 = false ∧ (s.lockGone standby).activeRoot = s.activeRoot ∧
      (standby = false → bit ((s.lockGone standby).reg .clkg 2 0x040) 1 = true) := by
  cases standby with
  | true =>
    refine ⟨unlocked_reads hr 1, ?_, fun h => by cases h⟩
    exact congrArg (fun w => if bit w 0 = true then 1 else 0) (unlocked_select (by decide))
  | false =>
    have hw : Sparse.wf regReset (s.unlocked 0).regs = true := Sparse.wf_set _ (Sparse.wf_set _ hr)
    have hsel : (s.unlocked 0).standbyChosen.reg .clkg 2 0x040 = s.reg .clkg 2 0x040 ||| 2#32 :=
      (State.reg_setReg hw).trans (congrArg (· ||| 2#32) (unlocked_select (by decide)))
    refine ⟨?_, ?_, fun _ => ?_⟩
    · exact (congrArg (bit · 0) (State.reg_setReg_other (by decide))).trans (unlocked_reads hr 0)
    · show (if bit ((s.unlocked 0).standbyChosen.reg .clkg 2 0x040) 0 = true then 1 else 0) = _
      rw [hsel]
      simp [State.activeRoot, bit]
    · show bit ((s.unlocked 0).standbyChosen.reg .clkg 2 0x040) 1 = true
      rw [hsel]
      simp [bit]

theorem loseLock_unlocked {standby : Bool} (h : bit (s.reg .clkg (rootInst standby) 0x040) 0 = false) : s.loseLock standby = s := by
  unfold State.loseLock
  exact if_pos (by show (!bit (s.reg .clkg (rootInst standby) 0x040) 0) = true; rw [h]; rfl)

theorem loseLock_locked {standby : Bool} (h : bit (s.reg .clkg (rootInst standby) 0x040) 0 = true) : s.loseLock standby =
    if (s.lockGone standby).activeRoot = rootInst standby then (s.lockGone standby).gateClocks.raiseAs .clkg (rootInst standby) 0 .fatal
    else (s.lockGone standby).raiseAs .clkg (rootInst standby) 0 .corrected := by
  unfold State.loseLock
  refine (if_neg (by show ¬(!bit (s.reg .clkg (rootInst standby) 0x040) 0) = true; rw [h]; decide)).trans ?_
  cases standby <;> rfl

end

section
/-! Gating every clock (R417). -/

variable {s : State}

/-- R404: gating berths leaves every register of the clock roots. -/
theorem gateAll_clkg {i : Nat} (hi : i < 3) : s.gateAll.reg .clkg i 0x040 = s.reg .clkg i 0x040 := by
  have hkey : ∀ n o, o < 0x1000 → regKey .clkg i 0x040 ≠ regKey .bsn n o := fun n o ho => by
    have hk := clkg_key_eq i 0x040
    have hb : regKey .bsn n o = (if n < 84 then 0x01000000 + n * 0x00100000 + 0x5000 else 0x50000 + (n - 84) * 0x1000) + o := rfl
    split at hb <;> omega
  refine foldl_same (fun s => s.reg .clkg i 0x040) (fun s b => ?_) _ _
  split
  · rfl
  · unfold State.gateBerth State.seeRail
    extract_lets t
    split
    · exact (State.reg_setReg_other (hkey _ _ (by decide))).trans
        ((State.reg_setReg_other (hkey _ _ (by decide))).trans (State.reg_setReg_other (hkey _ _ (by decide))))
    · rfl

/-- R417: what gating every clock does to the cores, and what it leaves. -/
theorem gateClocks_spec (hr : Sparse.wf regReset s.regs = true) (hb : Sparse.wf (fun _ => ({} : BerthSt)) s.berths = true) :
    Sparse.wf regReset s.gateClocks.regs = true ∧ s.gateClocks.hbm = s.hbm ∧ (∀ i, i < 3 → s.gateClocks.reg .clkg i 0x040 = s.reg .clkg i 0x040) ∧
      (s.seq.cur ≠ none → s.gateClocks.coresMode = .held) ∧ ∀ b, b < 84 → s.dark b = false → s.gateClocks.awake b = false := by
  obtain ⟨hregs, hhbm, -, hberths, hheld, -, -, hberth⟩ := abortRun_keeps hb false
  have hr' : Sparse.wf regReset (s.abortRun false).regs = true := hregs ▸ hr
  obtain ⟨m, bs, w, e, hgate, hm, -, -, -⟩ := (Paced.gateAll (s.abortRun false)).out hr' hberths
  refine ⟨?_, ?_, fun i hi => (gateAll_clkg hi).trans (by unfold State.reg; rw [hregs]), fun hc => ?_, fun b hlt hd => gateAll_asleep hr' hberths hlt ?_⟩
  · exact (congrArg State.regs hgate).symm ▸ hm
  · exact (congrArg State.hbm hgate).trans hhbm
  · exact (congrArg State.coresMode hgate).trans (hheld hc)
  · obtain ⟨l, hl⟩ := hberth b
    unfold State.dark at hd ⊢
    rw [hl]
    exact hd

/-- R443: a module-fatal error sends its FAULT message. -/
theorem raiseAs_fatal_sends (s : State) (b : Blk) (i n : Nat) : fltErr 5 b i n ∈ (s.raiseAs b i n .fatal).flt.msgs :=
  List.mem_append_right _ (List.mem_singleton.2 rfl)

end

section
/-! LOCK_LOSS of a root that was locked (R417, R424). -/

variable {s : State} {standby : Bool}

theorem rootInst_lt (standby : Bool) : rootInst standby < 3 := by
  cases standby <;> decide

/-- R492: an error leaves the state and the selection of the clock roots. -/
theorem raiseAs_clkg {b : Blk} {i n j : Nat} {c : ErrClass} : (s.raiseAs b i n c).reg .clkg j 0x040 = s.reg .clkg j 0x040 :=
  raiseAs_reg (by decide) (by decide) (by rw [clkg_key_eq]; omega)

/-- R423: the loss of a root that does not drive the clocks is a corrected error. -/
theorem lockLoss_standing (hs : Inv s) (h : bit (s.reg .clkg (rootInst standby) 0x040) 0 = true) (ha : s.activeRoot ≠ rootInst standby) :
    ∃ m f, exec (.lockLoss standby) s = .next { s with regs := m, flt := f } ∧
      bit (({ s with regs := m } : State).reg .clkg (rootInst standby) 0x040) 0 = false ∧
      ({ s with regs := m } : State).errSet .clkg (rootInst standby) 0 = true := by
  obtain ⟨m, hgone, hm⟩ := lockGone_only hs.regs standby
  obtain ⟨hlock, hactive, -⟩ := lockGone_reads hs.regs standby
  obtain ⟨m', f, e, herr⟩ := raiseAs_any (s := s.lockGone standby) (b := .clkg) (i := rootInst standby) (n := 0) (c := .corrected) (hgone ▸ hm) (by decide)
  have hread := raiseAs_clkg (s := s.lockGone standby) (b := .clkg) (i := rootInst standby) (n := 0) (j := rootInst standby) (c := .corrected)
  rw [e] at hread
  refine ⟨m', f, congrArg Host.Outcome.next ?_, (congrArg (bit · 0) hread).trans hlock, herr⟩
  exact (loseLock_locked h).trans ((if_neg (hactive ▸ ha)).trans (by rw [e, hgone]))

/-- R417, R424: the loss of the active root gates every clock and is fatal. -/
theorem lockLoss_active (hs : Inv s) (h : bit (s.reg .clkg (rootInst standby) 0x040) 0 = true) (ha : s.activeRoot = rootInst standby) :
    ∃ t, exec (.lockLoss standby) s = .next t ∧ bit (t.reg .clkg (rootInst standby) 0x040) 0 = false ∧
      t.errSet .clkg (rootInst standby) 0 = true ∧ (standby = false → bit (t.reg .clkg 2 0x040) 1 = true) ∧
      (s.seq.cur ≠ none → t.coresMode = .held) ∧ (∀ b, b < 84 → s.dark b = false → t.awake b = false) ∧
      fltErr 5 .clkg (rootInst standby) 0 ∈ t.flt.msgs ∧ t.hbm = s.hbm := by
  obtain ⟨m, hgone, hm⟩ := lockGone_only hs.regs standby
  obtain ⟨hlock, hactive, hchosen⟩ := lockGone_reads hs.regs standby
  have run : exec (.lockLoss standby) s = .next ((s.lockGone standby).gateClocks.raiseAs .clkg (rootInst standby) 0 .fatal) :=
    congrArg Host.Outcome.next ((loseLock_locked h).trans (if_pos (hactive.trans ha)))
  obtain ⟨hwf, hhbm, hclkg, hheld, hasleep⟩ := gateClocks_spec (s := s.lockGone standby) (hgone ▸ hm) (hgone ▸ hs.berths)
  generalize (s.lockGone standby).gateClocks = u at run hwf hhbm hclkg hheld hasleep
  obtain ⟨m', f, e, herr⟩ := raiseAs_any (s := u) (b := .clkg) (i := rootInst standby) (n := 0) (c := .fatal) hwf (by decide)
  have hread : ∀ j, j < 3 → (u.raiseAs .clkg (rootInst standby) 0 .fatal).reg .clkg j 0x040 = (s.lockGone standby).reg .clkg j 0x040 :=
    fun j hj => raiseAs_clkg.trans (hclkg j hj)
  refine ⟨_, run, (congrArg (bit · 0) (hread _ (rootInst_lt standby))).trans hlock, errSet_of herr (congrArg State.regs e).symm,
    fun hp => (congrArg (bit · 1) (hread 2 (by decide))).trans (hchosen hp), fun hc => (congrArg State.coresMode e).trans (hheld ?_),
    fun b hb hd => (congrArg (State.awake · b) e).trans (hasleep b hb ?_), raiseAs_fatal_sends .., (congrArg State.hbm e).trans (hhbm.trans ?_)⟩
  all_goals rw [hgone]
  · exact hc
  · exact hd

end

section
/-! The reference (R417, R423). -/

variable {s : State} {d : BitVec 16}

theorem refGone_known (h : s.refLost = true) : s.refGone = s := if_pos h

theorem refGone_found (h : s.refLost = false) : s.refGone = ({ s with refLost := true } : State).raise .clkg 2 1 := if_neg (by simp [h])

/-- R423, R424: the deviation stored, and flagged above 100 ppm. -/
def State.deviationSeen (s : State) (d : BitVec 16) : State :=
  if 10000 < d.toInt.natAbs then (s.setReg .clkg 2 0x044 (field d.toNat 0)).raise .clkg 2 2 else s.setReg .clkg 2 0x044 (field d.toNat 0)

theorem deviationSeen_spec (hr : Sparse.wf regReset s.regs = true) (d : BitVec 16) :
    ∃ m f, s.deviationSeen d = { s with regs := m, flt := f } ∧ Sparse.wf regReset m = true ∧
      ({ s with regs := m } : State).reg .clkg 2 0x044 = field d.toNat 0 ∧
      (10000 < d.toInt.natAbs → ({ s with regs := m } : State).errSet .clkg 2 2 = true) ∧ (d.toInt.natAbs ≤ 10000 → f = s.flt) := by
  obtain ⟨m, e, hm, hread⟩ := setReg_reads (s := s) .clkg 2 0x044 (field d.toNat 0) hr
  unfold State.deviationSeen
  rw [e]
  by_cases hn : 10000 < d.toInt.natAbs
  · obtain ⟨m', f, e', herr, hm'⟩ := raise_sets (s := { s with regs := m }) (b := .clkg) (i := 2) (n := 2) hm rfl (by decide)
    have hkept : (({ s with regs := m } : State).raise .clkg 2 2).reg .clkg 2 0x044 = field d.toNat 0 :=
      (raise_reg_at (by decide) (by decide) (by decide)).trans hread
    rw [e'] at hkept
    exact ⟨m', f, (if_pos hn).trans e', hm', hkept, fun _ => herr, fun h => absurd hn (by omega)⟩
  · exact ⟨m, s.flt, if_neg hn, hm, hread, fun h => absurd h hn, fun _ => rfl⟩

theorem refDev_off (h : s.powered = false) : exec (.refDev d) s = .next s := congrArg Host.Outcome.next (if_pos (by simp [h]))

theorem refDev_runs (h : s.powered = true) : exec (.refDev d) s = .next (
    let u := s.deviationSeen d
    if 30000 < d.toInt.natAbs then u.refGone
    else if u.stage = .holdClock then ({ u with refLost := false } : State).lockClocks else { u with refLost := false }) :=
  congrArg Host.Outcome.next (if_neg (by simp [h]))

/-- R417: a root locks, the standby too unless it has lost its lock. -/
def State.lockRoot (s : State) (i : Nat) : State :=
  if i = s.activeRoot ∨ bits (s.reg .clkg i 0x040) 15 8 = 0 then s.setReg .clkg i 0x040 (putBits (s.reg .clkg i 0x040) 0 0 1) else s

/-- A root that locks changes one register, which is neither an error register nor the stored deviation. -/
theorem lockRoot_keeps (s : State) (i : Nat) : ∃ m, s.lockRoot i = { s with regs := m } ∧
    (∀ b j n, ({ s with regs := m } : State).errSet b j n = s.errSet b j n) ∧ ({ s with regs := m } : State).reg .clkg 2 0x044 = s.reg .clkg 2 0x044 := by
  have hk := clkg_key_eq i 0x040
  unfold State.lockRoot
  split
  · refine ⟨_, rfl, fun b j n => errSet_setReg ?_, State.reg_setReg_other ?_⟩
    · have hp := pageBase_mod b j
      omega
    · rw [clkg_key_eq]
      omega
  · exact ⟨s.regs, rfl, fun _ _ _ => rfl, rfl⟩

/-- R387, R417: with the reference back the roots lock and the module goes on; no error comes or goes, and the deviation stays. -/
theorem lockClocks_back (h : s.refLost = false) : ∃ m, s.lockClocks = { s with regs := m, stage := .basins, alert := false } ∧
    (∀ b i n, ({ s with regs := m } : State).errSet b i n = s.errSet b i n) ∧ ({ s with regs := m } : State).reg .clkg 2 0x044 = s.reg .clkg 2 0x044 := by
  have locks : s.lockClocks = { (s.lockRoot 0).lockRoot 1 with stage := .basins, alert := false } := if_neg (by simp [h])
  obtain ⟨m, e, herr, hread⟩ := lockRoot_keeps s 0
  obtain ⟨m', e', herr', hread'⟩ := lockRoot_keeps { s with regs := m } 1
  exact ⟨m', by rw [locks, e, e'], fun b i n => (herr' b i n).trans (herr b i n), hread'.trans hread⟩

/-- R417, R423: a deviation above 300 ppm counts as a loss of the reference. -/
theorem refDev_lost (hs : Inv s) (ho : s.powered = true) (hn : 30000 < d.toInt.natAbs) :
    ∃ m f, exec (.refDev d) s = .next { s with regs := m, flt := f, refLost := true } ∧ ({ s with regs := m } : State).reg .clkg 2 0x044 = field d.toNat 0 ∧
      ({ s with regs := m } : State).errSet .clkg 2 2 = true ∧ (s.refLost = false → ({ s with regs := m } : State).errSet .clkg 2 1 = true) := by
  obtain ⟨m, f, e, hm, hread, hdev, -⟩ := deviationSeen_spec hs.regs d
  have run : exec (.refDev d) s = .next ({ s with regs := m, flt := f } : State).refGone := by
    rw [refDev_runs ho, e]
    exact congrArg _ (if_pos hn)
  cases hl : s.refLost with
  | true => exact ⟨m, f, by rw [run, refGone_known (s := { s with regs := m, flt := f }) hl, ← hl], hread, hdev (by omega), fun h => by cases h⟩
  | false =>
    obtain ⟨m', f', e', herr, -⟩ := raise_sets (s := { s with regs := m, flt := f, refLost := true }) (b := .clkg) (i := 2) (n := 1) hm rfl (by decide)
    have hread' : (({ s with regs := m, flt := f, refLost := true } : State).raise .clkg 2 1).reg .clkg 2 0x044 = field d.toNat 0 :=
      (raise_reg_at (by decide) (by decide) (by decide)).trans hread
    have hdev' : (({ s with regs := m, flt := f, refLost := true } : State).raise .clkg 2 1).errSet .clkg 2 2 = true :=
      errSet_raise_keep hm (hdev (by omega))
    rw [e'] at hread' hdev'
    exact ⟨m', f', run.trans (congrArg _ ((refGone_found (s := { s with regs := m, flt := f }) hl).trans e')), hread', hdev', fun _ => herr⟩

/-- R387, R417: within 300 ppm the reference is back, and a module that held for its clock goes on. -/
theorem refDev_back (hs : Inv s) (ho : s.powered = true) (hn : d.toInt.natAbs ≤ 30000) :
    ∃ m f, exec (.refDev d) s = .next { s with
        regs := m, flt := f, refLost := false, stage := if s.stage = .holdClock then .basins else s.stage
        alert := if s.stage = .holdClock then false else s.alert } ∧
      ({ s with regs := m } : State).reg .clkg 2 0x044 = field d.toNat 0 ∧
      (10000 < d.toInt.natAbs → ({ s with regs := m } : State).errSet .clkg 2 2 = true) ∧ (d.toInt.natAbs ≤ 10000 → f = s.flt) := by
  obtain ⟨m, f, e, -, hread, hdev, hkept⟩ := deviationSeen_spec hs.regs d
  have run : exec (.refDev d) s = .next (if s.stage = .holdClock then ({ s with regs := m, flt := f, refLost := false } : State).lockClocks
      else { s with regs := m, flt := f, refLost := false }) := by
    rw [refDev_runs ho, e]
    exact congrArg _ (if_neg (by omega))
  rw [run]
  by_cases hst : s.stage = .holdClock
  · obtain ⟨m', e', herr, hread'⟩ := lockClocks_back (s := { s with regs := m, flt := f, refLost := false }) rfl
    refine ⟨m', f, ?_, hread'.trans hread, fun h => (herr _ _ _).trans (hdev h), hkept⟩
    rw [if_pos hst, if_pos hst, if_pos hst, e']
  · refine ⟨m, f, ?_, hread, hdev, hkept⟩
    rw [if_neg hst, if_neg hst, if_neg hst]

theorem refLoss_runs (h : s.powered = true) : exec .refLoss s = .next s.refGone := congrArg Host.Outcome.next (if_pos h)

theorem refLoss_off (h : s.powered = false) : exec .refLoss s = .next s := congrArg Host.Outcome.next (if_neg (by simp [h]))

end

/-- Settles O55: a root's loss by whether it is active, the deviation by its limits, the seam by the berth's column. -/
theorem clockRoots : Obligations.ClockRoots := by
  intro s hs
  refine ⟨fun standby => ⟨fun h => congrArg _ (loseLock_unlocked h), lockLoss_standing hs, lockLoss_active hs⟩, ?_, fun d => ⟨refDev_off, fun ho => ?_⟩,
    fun b => ?_⟩
  · split
    next h =>
      obtain ⟨m, f, e, herr⟩ := raise_any (s := { s with refLost := true }) (b := .clkg) (i := 2) (n := 1) hs.regs rfl (by decide)
      exact ⟨m, f, (refLoss_runs h.1).trans (congrArg _ ((refGone_found h.2).trans e)), herr⟩
    next h =>
      cases ho : s.powered with
      | false => exact refLoss_off ho
      | true => exact (refLoss_runs ho).trans (congrArg _ (refGone_known (by simpa [ho] using h)))
  · by_cases hn : 30000 < d.toInt.natAbs
    · obtain ⟨m, f, e, hread, hdev, hlost⟩ := refDev_lost hs ho hn
      have hback : ¬(d.toInt.natAbs ≤ 30000 ∧ s.stage = .holdClock) := by omega
      refine ⟨m, f, ?_, hread, fun _ => hdev, fun _ => hlost, by omega⟩
      rw [e, decide_eq_true hn, if_neg hback, if_neg hback]
    · obtain ⟨m, f, e, hread, hdev, hkept⟩ := refDev_back hs ho (Nat.le_of_not_lt hn)
      refine ⟨m, f, ?_, hread, hdev, fun h => absurd h hn, hkept⟩
      simp only [e, decide_eq_false hn, Nat.le_of_not_lt hn, true_and]
  · split
    next h =>
      obtain ⟨m, f, e, herr⟩ := raise_any (b := .mesh) (i := b.val) (n := 5) hs.regs rfl (by decide)
      exact ⟨m, f, congrArg _ ((if_pos h).trans e), herr⟩
    next h => exact congrArg _ (if_neg h)

end Sys2Proof.Machine
end

section
/-! PROOF. Refresh, scrub and spare rows of a store die (O36): R200 to R206. -/

namespace Sys2Proof.Machine

section
/-! Refreshes (R200 to R202, R218, R219). -/

variable {s : State} {b : Berth} {bank row : Fin 2048}

/-- R201: in idle bank time a refresh that is due takes one from the bank's debt. -/
theorem refreshDue_idle (hi : Inv s) (b bank : Nat) (x : BerthSt) :
    (s.setBerth b x).refreshDue b bank false = s.setBerth b (setDebt x bank (debtOf x bank - 1)) := by
  unfold State.refreshDue
  dsimp only
  rw [State.berth_setBerth hi.berths]
  exact State.setBerth_setBerth hi.berths

theorem postponeLimit_setBerth (s : State) (b c : Nat) (x : BerthSt) : postponeLimit (s.setBerth c x) b = postponeLimit s b := rfl

/-- R201, R218: while requests wait and the limit is not reached, a refresh that is due is postponed. -/
theorem refreshDue_postponed (hi : Inv s) {b bank : Nat} {x : BerthSt} (h : postponed x bank < postponeLimit s b) :
    (s.setBerth b x).refreshDue b bank true = s.setBerth b (setDebt x bank (debtOf x bank + 1)) := by
  unfold State.refreshDue
  dsimp only
  rw [State.berth_setBerth hi.berths, postponeLimit_setBerth, if_pos rfl, if_pos h]
  exact State.setBerth_setBerth hi.berths

/-- R201, R219: at the limit it goes ahead of the waiting requests and is counted. -/
theorem refreshDue_forced (hi : Inv s) {b bank : Nat} {x : BerthSt} (h : postponeLimit s b ≤ postponed x bank) :
    (s.setBerth b x).refreshDue b bank true = (s.setBerth b x).count .stor b 0x04C 1 := by
  unfold State.refreshDue
  dsimp only
  rw [State.berth_setBerth hi.berths, postponeLimit_setBerth, if_pos rfl, if_neg (Nat.not_lt.2 h)]

theorem refresh_idle (hi : Inv s) : let x := s.berth b.val
    exec (.refresh b bank false) s = .next (s.setBerth b.val (setDebt (nextInterval x bank.val) bank.val (debtOf x bank.val - 1))) :=
  congrArg Host.Outcome.next (refreshDue_idle hi b.val bank.val (nextInterval (s.berth b.val) bank.val))

theorem refresh_postponed (hi : Inv s) (h : postponed (s.berth b.val) bank.val < postponeLimit s b.val) : let x := s.berth b.val
    exec (.refresh b bank true) s = .next (s.setBerth b.val (setDebt (nextInterval x bank.val) bank.val (debtOf x bank.val + 1))) := by
  refine congrArg Host.Outcome.next ((if_neg ?_).trans (refreshDue_postponed hi (x := nextInterval (s.berth b.val) bank.val) h))
  simpa using h

theorem refresh_atLimit (h : postponeLimit s b.val ≤ postponed (s.berth b.val) bank.val) : exec (.refresh b bank true) s = .next s :=
  congrArg Host.Outcome.next (if_pos (by simpa using h))

theorem refreshDeadline_early (h : postponed (s.berth b.val) bank.val < postponeLimit s b.val) : exec (.refreshDeadline b bank) s = .next s :=
  congrArg Host.Outcome.next (if_pos h)

theorem refreshDeadline_forced (hi : Inv s) (h : postponeLimit s b.val ≤ postponed (s.berth b.val) bank.val) :
    exec (.refreshDeadline b bank) s =
      .next ((s.setBerth b.val (nextInterval (s.berth b.val) bank.val)).count .stor b.val 0x04C 1) :=
  congrArg Host.Outcome.next ((if_neg (Nat.not_lt.2 h)).trans (refreshDue_forced hi (x := nextInterval (s.berth b.val) bank.val) h))

theorem targetDue_iff {x : BerthSt} {bank row : Nat} : targetDue x bank row = true ↔
    bank ∉ x.targeted ∧ 16384 < Sparse.get (fun _ => 0) x.activations (bank * 2048 + row) := by
  simp [targetDue]

theorem targetedRefresh_notDue (y : Bool) (h : targetDue (s.berth b.val) bank.val row.val ≠ true) :
    exec (.targetedRefresh b bank row y) s = .next s :=
  congrArg Host.Outcome.next (if_pos (by simpa using h))

/-- R202: a due targeted refresh is entered for its bank, and its row's activations count anew. -/
theorem targetedRefresh_due (y : Bool) (h : targetDue (s.berth b.val) bank.val row.val = true) : let x := s.berth b.val
    exec (.targetedRefresh b bank row y) s = .next ((s.setBerth b.val { x with
      targeted := x.targeted ++ [bank.val], activations := Sparse.erase x.activations (bank.val * 2048 + row.val) }).refreshDue b.val bank.val y) :=
  congrArg Host.Outcome.next (if_neg (by simp [h]))

end

section
/-! Patrol scrub (R203, R219). -/

variable {s : State} {b : Berth} {line : BitVec 26}

theorem scrubPreempt_on (bank : Fin 2048) (h : scrubOn s b.val = true) : exec (.scrubPreempt b bank) s = .next (s.count .stor b.val 0x04C 1) :=
  congrArg Host.Outcome.next (if_pos h)

theorem scrubPreempt_off (bank : Fin 2048) (h : scrubOn s b.val = false) : exec (.scrubPreempt b bank) s = .next s :=
  congrArg Host.Outcome.next (if_neg (by simp [h]))

theorem scrubRead_off (o : EccOutcome) (y : Bool) (h : scrubOn s b.val = false) : exec (.patrolScrubRead b line o y) s = .next s :=
  congrArg Host.Outcome.next (if_pos (by simp [h]))

theorem scrubRead_clean (y : Bool) (h : scrubOn s b.val = true) : exec (.patrolScrubRead b line .clean y) s = .next (s.countPass b.val line.toNat) :=
  congrArg Host.Outcome.next (if_neg (by simp [h]))

theorem countPass_last {b l : Nat} (h : l = 2 ^ 26 - 1) : s.countPass b l =
    s.setReg .stor b 0x044 (putBits (s.reg .stor b 0x044) 31 16 (bits (s.reg .stor b 0x044) 31 16 + 1)) := if_pos h

theorem countPass_inside {b l : Nat} (h : l ≠ 2 ^ 26 - 1) : s.countPass b l = s := if_neg h

theorem scrubRead_corrected (y : Bool) (h : scrubOn s b.val = true) (hl : line.toNat ≠ 2 ^ 26 - 1) :
    exec (.patrolScrubRead b line .corrected y) s = .next (s.lineCorrected b.val line.toNat) := by
  refine congrArg Host.Outcome.next ((if_neg (by simp [h])).trans ?_)
  dsimp only
  rw [countPass_inside hl]

/-- R203: an uncorrectable line that is not the last joins the 16 places of the hold list, or finds them taken. -/
theorem scrubRead_uncorrectable (y : Bool) (h : scrubOn s b.val = true) (hl : line.toNat ≠ 2 ^ 26 - 1) : let x := s.berth b.val
    exec (.patrolScrubRead b line .uncorrectable y) s = .next (
      if x.held.contains line.toNat then s
      else if x.held.length < 16 then
        (s.setBerth b.val { x with held := x.held ++ [line.toNat], holdSignal := true }).noteRow b.val line.toNat true
      else s.raiseAs .stor b.val 4 .berth) := by
  refine congrArg Host.Outcome.next ((if_neg (by simp [h])).trans ?_)
  dsimp only
  rw [countPass_inside hl]

/-- R204, R206: a corrected line, in any state. -/
theorem lineCorrected_spec (hi : Inv s) (b l : Nat) : ∃ m f, s.lineCorrected b l =
    { s.setBerth b { s.berth b with rowErrors := rowsWith s (s.berth b) l false } with regs := m, flt := f } ∧
    ({ s with regs := m } : State).errSet .stor b 0 = true :=
  raise_any (s := s.noteRow b l false) hi.regs rfl (by decide)

theorem holdTimeout_waited (hi : Inv s) (hh : line.toNat ∈ (s.berth b.val).held) (hm : ∃ m ∈ (s.berth b.val).entries, m.line = line.toNat) :
    ∃ m f, exec (.holdTimeout b line) s = .next { s with regs := m, flt := f } ∧ ({ s with regs := m } : State).errSet .stor b.val 4 = true := by
  obtain ⟨m, f, e, hset⟩ := raise_any (b := .stor) (i := b.val) (n := 4) hi.regs rfl (by decide)
  exact ⟨m, f, congrArg Host.Outcome.next ((if_pos (by simpa [hh] using hm)).trans e), hset⟩

theorem holdTimeout_other (h : line.toNat ∉ (s.berth b.val).held ∨ ∀ m ∈ (s.berth b.val).entries, m.line ≠ line.toNat) :
    exec (.holdTimeout b line) s = .next s := by
  refine congrArg Host.Outcome.next (if_neg ?_)
  simpa [Decidable.imp_iff_not_or] using h

end

section
/-! The repair of a held line (R203, R205). -/

variable {s : State} {b : Berth} {line : BitVec 26} {data : List Byte}

theorem heldRepaired_notHeld (h : line.toNat ∉ (s.berth b.val).held) : exec (.heldLineRepaired b line data) s = .next s :=
  congrArg Host.Outcome.next (if_pos (by simpa using h))

/-- R203: the state in which a line has left the hold list of its berth; the signal stands while others are held. -/
def State.holdLifted (s : State) (b l : Nat) : State :=
  let x := s.berth b
  let rest := x.held.filter (· ≠ l)
  s.setBerth b { x with held := rest, holdSignal := !rest.isEmpty }

/-- R205, R214: the repair of a line by its region. -/
theorem heldRepaired_held (h : line.toNat ∈ (s.berth b.val).held) :
    let l := line.toNat
    let u := s.holdLifted b.val l
    (s.regionOf b.val l = 2 → exec (.heldLineRepaired b line data) s = .next (u.storePut b.val (l * 128) (u.line b.val (mirrorLine l)))) ∧
    (s.regionOf b.val l = 1 → exec (.heldLineRepaired b line data) s = .next (u.mendKv b.val l)) ∧
    (s.regionOf b.val l = 0 → exec (.heldLineRepaired b line data) s =
      .next (if u.backedUp b.val l then u.mendWeights b.val l else u.storePut b.val (l * 128) (data.take 128))) := by
  intro l u
  have hrun : exec (.heldLineRepaired b line data) s = .next (match s.regionOf b.val l with
      | 2 => u.storePut b.val (l * 128) (u.line b.val (mirrorLine l))
      | 1 => u.mendKv b.val l
      | _ => if u.backedUp b.val l then u.mendWeights b.val l else u.storePut b.val (l * 128) (data.take 128)) :=
    congrArg Host.Outcome.next (if_neg (by simpa using h))
  rw [hrun]
  exact ⟨fun hr => by rw [hr]; rfl, fun hr => by rw [hr]; rfl, fun hr => by rw [hr]; rfl⟩

end

section
/-! Spare rows (R206). -/

variable {s : State} {b : Berth} {bank row : Fin 2048}

/-- R206: the errors of a row within 24 hours. -/
def recentErrors (x : BerthSt) (now key : Nat) : List (Nat × Nat × Bool) := x.rowErrors.filter (fun e => e.1 = key && now < e.2.1 + dayPclk)

theorem rowDue_iff {x : BerthSt} {now key : Nat} : rowDue x now key = true ↔
    16 ≤ (recentErrors x now key).length ∨ ∃ e ∈ recentErrors x now key, e.2.2 = true := by
  unfold rowDue
  rw [Bool.or_eq_true, List.any_eq_true, decide_eq_true_eq, or_comm]
  exact Iff.rfl

theorem rowSpared_waits (h : s.coresMode = .run ∨ 64 ≤ sparesUsed (s.berth b.val) bank.val ∨
    rowDue (s.berth b.val) s.stamp.toNat (bank.val * 2048 + row.val) ≠ true) : exec (.rowSpared b bank row) s = .next s :=
  congrArg Host.Outcome.next (if_pos (by simpa using h))

/-- R206: the berth in which a row of a bank has moved to the next spare row. -/
def BerthSt.withSpare (x : BerthSt) (bank row : Nat) : BerthSt :=
  { x with spareRows := Sparse.set (fun _ => 0) x.spareRows bank (sparesUsed x bank + 1)
           rowErrors := x.rowErrors.filter (fun e => e.1 ≠ bank * 2048 + row) }

theorem rowSpared_runs (hm : s.coresMode ≠ .run) (hn : sparesUsed (s.berth b.val) bank.val < 64)
    (hd : rowDue (s.berth b.val) s.stamp.toNat (bank.val * 2048 + row.val) = true) :
    let u := (s.setBerth b.val ((s.berth b.val).withSpare bank.val row.val)).raise .stor b.val 2
    exec (.rowSpared b bank row) s = .next (if sparesUsed (s.berth b.val) bank.val + 1 = 64 then u.raise .stor b.val 3 else u) := by
  have hnot : ¬(s.coresMode = .run ∨ 64 ≤ sparesUsed (s.berth b.val) bank.val ∨
      (!rowDue (s.berth b.val) s.stamp.toNat (bank.val * 2048 + row.val)) = true) := by
    rw [hd]
    rintro (h | h | h)
    · exact hm h
    · omega
    · cases h
  exact congrArg Host.Outcome.next (if_neg hnot)

/-- R206: ROW_SPARED, with SPARE_OUT besides when the bank's last spare row is taken; only registers and messages differ. -/
theorem sparing_raised {u : State} (hr : Sparse.wf regReset u.regs = true) (b : Nat) (last : Prop) [Decidable last] :
    ∃ m f, (if last then (u.raise .stor b 2).raise .stor b 3 else u.raise .stor b 2) = { u with regs := m, flt := f } ∧
      ({ u with regs := m } : State).errSet .stor b 2 = true ∧ (last → ({ u with regs := m } : State).errSet .stor b 3 = true) := by
  obtain ⟨m, f, e, hset, hw⟩ := raise_sets (s := u) (b := .stor) (i := b) (n := 2) hr rfl (by decide)
  rw [e]
  split
  next hlast =>
    obtain ⟨m', f', e', hset', -⟩ := raise_sets (s := { u with regs := m, flt := f }) (b := .stor) (i := b) (n := 3) hw rfl (by decide)
    have hkept : ({ u with regs := m, flt := f } : State).raise .stor b 3 |>.errSet .stor b 2 := errSet_raise_keep hw hset
    rw [e'] at hkept
    exact ⟨m', f', e', hkept, fun _ => hset'⟩
  next hmore => exact ⟨m, f, rfl, hset, fun h => absurd h hmore⟩

/-- R206: a row that is due is spared, and its bank's last spare row sets SPARE_OUT (log entry 18). -/
theorem rowSpared_spares (hi : Inv s) (hm : s.coresMode ≠ .run) (hn : sparesUsed (s.berth b.val) bank.val < 64)
    (hd : rowDue (s.berth b.val) s.stamp.toNat (bank.val * 2048 + row.val) = true) :
    ∃ m f, exec (.rowSpared b bank row) s =
      .next { s.setBerth b.val ((s.berth b.val).withSpare bank.val row.val) with regs := m, flt := f } ∧
      ({ s with regs := m } : State).errSet .stor b.val 2 = true ∧
      (sparesUsed (s.berth b.val) bank.val = 63 → ({ s with regs := m } : State).errSet .stor b.val 3 = true) := by
  obtain ⟨m, f, e, hset, hlast⟩ := sparing_raised (u := s.setBerth b.val ((s.berth b.val).withSpare bank.val row.val)) hi.regs b.val
    (sparesUsed (s.berth b.val) bank.val + 1 = 64)
  exact ⟨m, f, (rowSpared_runs hm hn hd).trans (congrArg _ e), hset, fun h => hlast (by omega)⟩

end

/-- Settles O36: refreshes by the bank's debt against its limit (log entries 17 and 181), a scrub read by its line and outcome (log entry 41), a
held line by its region, a row by its errors (log entry 18). -/
theorem refreshAndScrub : Obligations.RefreshAndScrub := by
  intro s b bank row line data hi x l n max key due hit forced rows w rest lifted old
  refine ⟨refresh_postponed hi, refresh_atLimit, refresh_idle hi, refreshDeadline_early, refreshDeadline_forced hi,
    fun h y => targetedRefresh_notDue y ?_, fun hb hr => ?_, scrubPreempt_on bank,
    fun h => ⟨scrubPreempt_off bank h, fun o y => scrubRead_off o y h⟩,
    fun h hl y => (scrubRead_clean y h).trans (congrArg _ (countPass_last hl)), fun h hl y => ?_, holdTimeout_waited hi, holdTimeout_other,
    heldRepaired_notHeld, fun h => ?_, fun h => rowSpared_waits (h.imp_right (Or.imp_right ?_)),
    fun hm hn hd => rowSpared_spares hi hm hn (rowDue_iff.2 hd)⟩
  · rw [Ne, targetDue_iff]
    rintro ⟨hb, hr⟩
    exact h.elim hb fun h => absurd hr (Nat.not_lt.2 h)
  · have run := fun y => targetedRefresh_due (s := s) (b := b) y (targetDue_iff.2 ⟨hb, hr⟩)
    exact ⟨(run false).trans (congrArg _ (refreshDue_idle hi b.val bank.val hit)),
      fun h => (run true).trans (congrArg _ (refreshDue_postponed hi (x := hit) h)),
      fun h => (run true).trans (congrArg _ (refreshDue_forced hi (x := hit) h))⟩
  · have run := scrubRead_uncorrectable (b := b) y h hl
    refine ⟨(scrubRead_clean y h).trans (congrArg _ (countPass_inside hl)), ?_, fun hh => ?_, fun hh hlen => ?_, fun hh hlen => ?_⟩
    · obtain ⟨m, f, e, hset⟩ := lineCorrected_spec hi b.val l
      exact ⟨m, f, (scrubRead_corrected y h hl).trans (congrArg _ e), hset⟩
    · exact run.trans (congrArg _ (if_pos (List.contains_iff_mem.2 hh)))
    · refine run.trans (congrArg _ ((if_neg (mt List.contains_iff_mem.1 hh)).trans ((if_pos hlen).trans ?_)))
      exact noteRow_setBerth hi.berths ..
    · obtain ⟨m, f, e, hset⟩ := raiseAs_any (b := .stor) (i := b.val) (n := 4) (c := .berth) hi.regs (by decide)
      exact ⟨m, f, run.trans (congrArg _ ((if_neg (mt List.contains_iff_mem.1 hh)).trans ((if_neg (Nat.not_lt.2 hlen)).trans e))), hset⟩
  · obtain ⟨reserve, kv, weights⟩ := heldRepaired_held (data := data) h
    refine ⟨fun hr => (reserve hr).trans (congrArg _ ?_), kv, fun hr => ?_⟩
    · exact (congrArg _ (line_setBerth hi ..)).trans (storePut_setBerth hi ..)
    · split
      next hb => exact (weights hr).trans (congrArg _ (if_pos hb))
      next hb => exact (weights hr).trans (congrArg _ ((if_neg hb).trans (storePut_setBerth hi ..)))
  · rintro ⟨hlen, hnone⟩ hd
    rcases rowDue_iff.1 hd with hlong | ⟨e, he, hlost⟩
    · exact absurd hlen (Nat.not_lt.2 hlong)
    · exact absurd hlost (by simp [hnone e he])

end Sys2Proof.Machine
end

section
/-! PROOF. The upkeep of the slower tier (O37): R208, R215, R216, R221. -/

namespace Sys2Proof.Machine

section
/-! What the shared operations of the tier do (R130, R209, R216, R222). -/

variable {s : State}

/-- R130: answering a request changes no memory, berth or core. -/
theorem answer_keeps (t : State) (p : Nat) (d : List Byte) :
    (t.answer p d).hbm = t.hbm ∧ (t.answer p d).tier = t.tier ∧ (t.answer p d).cores = t.cores ∧ (t.answer p d).berths = t.berths := by
  unfold State.answer
  cases t.served? p with
  | none => exact ⟨rfl, rfl, rfl, rfl⟩
  | some q =>
    obtain ⟨m, f, l, n, i, e⟩ := respond_only t q d
    rw [Option.elim_some, e]
    exact ⟨rfl, rfl, rfl, rfl⟩

/-- R209, R222: a corrected unit changes registers and messages, and sets CORR. -/
theorem correctUnit_spec (hr : Sparse.wf regReset s.regs = true) (k : Nat) :
    ∃ m f, s.correctUnit k = { s with regs := m, flt := f } ∧ ({ s with regs := m } : State).errSet .hbmc k 0 = true :=
  raise_any (s := s.countSat .hbmc k 0x044 31 0) (Sparse.wf_set _ hr) rfl (by decide)

theorem logTierError_wf (hr : Sparse.wf regReset s.regs = true) (k o : Nat) :
    ∃ m, s.logTierError k o = { s with regs := m } ∧ Sparse.wf regReset m = true := by
  unfold State.logTierError
  split
  · exact ⟨s.regs, rfl, hr⟩
  · exact ⟨_, rfl, Sparse.wf_set _ (Sparse.wf_set _ hr)⟩

/-- A stack that differs from one at reset reads as it was written. -/
theorem stack_setStack_new {k : Nat} {x : StackSt} (h : x ≠ {}) : (s.setStack k x).stack k = x := Sparse.get_set_new s.tier h

theorem retirePage_again {k p : Nat} (h : p ∈ (s.stack k).retired) : s.retirePage k p = s := if_pos (List.contains_iff_mem.2 h)

/-- R216: the page that has been entered stands last among the retired ones of its stack and among the data to restore. -/
theorem pageEntered_stack (s : State) (k p : Nat) : let x := s.stack k
    (s.pageEntered k p).stack k = { x with retired := x.retired ++ [p], badUnits := x.badUnits.filter (· ≠ p * 4096) ++ [p * 4096] } := by
  intro x
  have entered : (s.setStack k { x with retired := x.retired ++ [p] }).stack k = { x with retired := x.retired ++ [p] } :=
    stack_setStack_new fun h => by simpa using congrArg StackSt.retired h
  have restored : ∀ (u : State) (y : StackSt), u.stack k = y →
      (u.unitLost k (p * 4096)).stack k = { y with badUnits := y.badUnits.filter (· ≠ p * 4096) ++ [p * 4096] } := by
    rintro u _ rfl
    exact stack_setStack_new fun h => by simpa using congrArg StackSt.badUnits h
  exact restored _ _ entered

theorem pageEntered_stack_other {k j : Nat} (p : Nat) (h : j ≠ k) : (s.pageEntered k p).stack j = s.stack j :=
  (State.stack_setStack_other h).trans (State.stack_setStack_other h)

/-- R216: a page is retired: it is entered in its stack and in flash, awaits its restoring, and PAGE_RETIRED is set. -/
theorem retirePage_spec (hi : Inv s) {k p : Nat} (h : p ∉ (s.stack k).retired) :
    let x := s.stack k
    let t := s.retirePage k p
    t = { s with regs := t.regs, flt := t.flt, portA := t.portA, portB := t.portB, tier := t.tier
                 flash := { s.flash with retired := s.flash.retired ++ [k * 2 ^ 25 + p] } } ∧
    t.stack k = { x with retired := x.retired ++ [p], badUnits := x.badUnits.filter (· ≠ p * 4096) ++ [p * 4096] } ∧
    (∀ j, j ≠ k → t.stack j = s.stack j) ∧ t.errSet .hbmc k 4 = true := by
  intro x t
  obtain ⟨m, f, pa, pb, e⟩ : RM (s.pageEntered k p) t := retirePage_RM h
  have hstack : ∀ j, t.stack j = (s.pageEntered k p).stack j := fun j => by rw [e]; rfl
  refine ⟨?_, (hstack k).trans (pageEntered_stack s k p), fun j hj => (hstack j).trans (pageEntered_stack_other p hj), retirePage_err hi.regs h⟩
  rw [e]
  rfl

end

section
/-! Firmware retires or repairs a page (R216). -/

variable {s : State} {k : Stack} {page : Nat}

theorem pageRetire_running (soft : Bool) (h : s.coresMode = .run) : exec (.pageRetire k page soft) s = .next s :=
  congrArg Host.Outcome.next (if_pos h)

theorem pageRetire_soft (hm : s.coresMode ≠ .run) (hp : page ∉ (s.stack k.val).softRepaired) : let x := s.stack k.val
    exec (.pageRetire k page true) s = .next { s.setStack k.val { x with softRepaired := x.softRepaired ++ [page] } with
      flash := { s.flash with softRepaired := s.flash.softRepaired ++ [k.val * 2 ^ 25 + page] } } :=
  congrArg Host.Outcome.next ((if_neg hm).trans (if_pos (by simpa using hp)))

theorem pageRetire_retires {soft : Bool} (hm : s.coresMode ≠ .run) (hp : soft = false ∨ page ∈ (s.stack k.val).softRepaired) :
    exec (.pageRetire k page soft) s = .next (s.retirePage k.val page) := by
  refine congrArg Host.Outcome.next ((if_neg hm).trans (if_neg ?_))
  rcases hp with rfl | hp
  · simp
  · simp [hp]

end

section
/-! The oldest device request of a stack (R130, R221, R222). -/

variable {s : State} {k : Stack} {unit : Nat} {r : StackReq} {rest : List StackReq}

/-- R221: the oldest device request has left the queue of its stack. -/
def State.requestTaken (s : State) (k : Nat) (rest : List StackReq) : State := s.setStack k { s.stack k with reqs := rest }

theorem deviceRequest_none (e : EccOutcome) (h : (s.stack k.val).reqs = []) : exec (.deviceStackRequest k e unit) s = .next s := by
  refine congrArg Host.Outcome.next ?_
  simp only [h]

/-- R221: a request that fails a check completes without data. -/
theorem deviceRequest_refused {b : Nat} (e : EccOutcome) (h : (s.stack k.val).reqs = r :: rest)
    (hc : deviceCheck s k.val r.offset r.len = some b) :
    let u := s.requestTaken k.val rest
    exec (.deviceStackRequest k e unit) s =
      .next (((if b = 1 then u.logTierError k.val (retiredUnit u k.val r) else u).raise .hbmc k.val b).answer r.packet []) := by
  intro u
  refine congrArg Host.Outcome.next ?_
  simp only [h, hc]
  rfl

theorem deviceRequest_writes (e : EccOutcome) (h : (s.stack k.val).reqs = r :: rest)
    (hc : deviceCheck s k.val r.offset r.len = none) (hw : r.write = true) :
    exec (.deviceStackRequest k e unit) s =
      .next (((s.requestTaken k.val rest).stackWrite k.val r.offset (r.data.take r.len)).answer r.packet []) := by
  refine congrArg Host.Outcome.next ?_
  simp only [h, hc, hw, if_true]
  rfl

/-- R221, R222: a read that no check refuses answers by what the stack delivers. -/
theorem deviceRequest_reads (e : EccOutcome) (h : (s.stack k.val).reqs = r :: rest) (hc : deviceCheck s k.val r.offset r.len = none)
    (hw : r.write = false) :
    let u := s.requestTaken k.val rest
    let data := s.stackRead k.val r.offset r.len
    exec (.deviceStackRequest k e unit) s = .next (match e with
      | .clean => u.answer r.packet data
      | .corrected => (u.correctUnit k.val).answer r.packet data
      | .uncorrectable => ((u.tierLost k.val (failingUnit r unit)).raise .hbmc k.val 1).answer r.packet []) := by
  refine congrArg Host.Outcome.next ?_
  simp only [h, hc, hw, Bool.false_eq_true, if_false]
  cases e <;> rfl

/-- R221, R222: the checks of a device request are those of bits 1 to 3. -/
theorem deviceCheck_bit {k off n b : Nat} (h : deviceCheck s k off n = some b) : b = 1 ∨ b = 2 ∨ b = 3 := by
  unfold deviceCheck at h
  split_ifs at h
  · exact .inr (.inr (Option.some.inj h).symm)
  · exact .inr (.inl (Option.some.inj h).symm)
  · exact .inl (Option.some.inj h).symm

/-- R221, R222: a refused request sets its check's bit; besides, only registers and messages differ. -/
theorem refusal_spec (hr : Sparse.wf regReset s.regs = true) {k off n b : Nat} {t : State} (hc : deviceCheck t k off n = some b) (o : Nat) :
    ∃ m f, (if b = 1 then s.logTierError k o else s).raise .hbmc k b = { s with regs := m, flt := f } ∧
      ({ s with regs := m } : State).errSet .hbmc k b = true := by
  obtain ⟨g, e, hg⟩ : ∃ g, (if b = 1 then s.logTierError k o else s) = { s with regs := g } ∧ Sparse.wf regReset g = true := by
    split
    · exact logTierError_wf hr k o
    · exact ⟨s.regs, rfl, hr⟩
  rw [e]
  rcases deviceCheck_bit hc with rfl | rfl | rfl <;> exact raise_any (s := { s with regs := g }) hg rfl (by decide)

/-- A state that differs in registers and messages from one that differs in the tier. -/
theorem regs_flt_tier {t u : State} {m : List (Nat × Word)} {f : Flt} (hu : u = { s with tier := u.tier })
    (ht : t = { u with regs := m, flt := f }) :
    t = { s with regs := t.regs, flt := t.flt, tier := u.tier } := by
  subst ht
  exact congrArg (fun v : State => { v with regs := m, flt := f }) hu

/-- R205, R215, R222: a lost unit of a stack whose oldest request has been taken awaits its restoring and sets UNCORR; besides, only registers
and messages differ. -/
theorem tierLost_raised (hr : Sparse.wf regReset s.regs = true) (k o : Nat) (rest : List StackReq) :
    let u := s.requestTaken k rest
    let t := (u.tierLost k o).raise .hbmc k 1
    t = { s with regs := t.regs, flt := t.flt, tier := (u.unitLost k o).tier } ∧ t.errSet .hbmc k 1 = true := by
  intro u t
  obtain ⟨g, e, hg⟩ := logTierError_wf (s := u) hr k o
  obtain ⟨m, f, e', hset⟩ := raise_any (s := ({ u with regs := g } : State).unitLost k o) (b := .hbmc) (i := k) (n := 1) hg rfl (by decide)
  have ht : t = { u.unitLost k o with regs := m, flt := f } :=
    (congrArg (fun v : State => (v.unitLost k o).raise .hbmc k 1) e).trans e'
  exact ⟨regs_flt_tier rfl ht, errSet_of hset (congrArg State.regs ht).symm⟩

end

/-- Settles O37: a scrub read by its outcome, a page by whether it was retired or repaired before, a device request by its check and kind. -/
theorem tierCommands : Obligations.TierCommands := by
  intro s k bank page unit off hi x retires
  refine ⟨rfl, rfl, rfl, ?_, fun h => congrArg _ (retirePage_again h), fun h => ⟨_, rfl, retirePage_spec hi h⟩,
    fun h soft => pageRetire_running soft h, pageRetire_soft, fun hm hp soft hs => ⟨_, pageRetire_retires hm hs, retirePage_spec hi hp⟩,
    fun h e => deviceRequest_none e h, fun r rest h => ?_, answer_keeps⟩
  · obtain ⟨m, f, e, hset⟩ := correctUnit_spec hi.regs k.val
    exact ⟨m, f, congrArg Host.Outcome.next e, hset⟩
  · intro u bad
    refine ⟨fun b e hc => ⟨_, deviceRequest_refused e h hc, refusal_spec (s := u) hi.regs hc _⟩,
      fun hc => ⟨fun hw e => deviceRequest_writes e h hc hw, fun hw => ?_⟩⟩
    have run := fun e => deviceRequest_reads (unit := unit) e h hc hw
    exact ⟨run .clean, ⟨_, run .corrected, correctUnit_spec (s := u) hi.regs k.val⟩, _, run .uncorrectable, tierLost_raised hi.regs _ _ _⟩

end Sys2Proof.Machine
end

section
/-! PROOF. Decoders, failover and rings of a host port (O44). -/

namespace Sys2Proof.Machine

section
/-! A host port's record beside the rest of the state. -/

variable {s : State} {p : HostPort}

theorem setPort_self (s : State) (p : HostPort) : s.setPort p (s.port p) = s := by cases p <;> rfl

theorem setPort_regs_flt (s : State) (p : HostPort) (x : Port) (m : List (Nat × Word)) (f : Flt) :
    ({ s.setPort p x with regs := m, flt := f } : State) = ({ s with regs := m, flt := f } : State).setPort p x := by cases p <;> rfl

theorem setReg_setPort (s : State) (p : HostPort) (x : Port) (b : Blk) (i o : Nat) (v : Word) :
    (s.setPort p x).setReg b i o v = (s.setReg b i o v).setPort p x := by cases p <;> rfl

theorem portOf_portIx (p : HostPort) : portOf (portIx p) = p := by cases p <;> rfl

/-- R392: an error of a port, recorded; the port's record may have changed before. -/
theorem raise_cxlp (hr : Sparse.wf regReset s.regs = true) {n : Nat} (hn : n < 5) :
    ∃ m f, s.raise .cxlp (portIx p) n = { s with regs := m, flt := f } ∧ ({ s with regs := m } : State).errSet .cxlp (portIx p) n = true :=
  raise_any hr (if_pos hn) (by omega)

end

section
/-! Decoders and failover (R374, R377). -/

variable {s : State} {p : HostPort}

theorem hdmDecoderCommit_locked {size ways gran : Nat} {lock : Bool} (h : (s.port p).locked = true) :
    exec (.hdmDecoderCommit p size ways gran lock) s = .next s :=
  congrArg Host.Outcome.next (if_pos h)

theorem hdmDecoderCommit_open {size ways gran : Nat} {lock : Bool} (h : (s.port p).locked = false) :
    exec (.hdmDecoderCommit p size ways gran lock) s = .next (s.setPort p
      (if (s.port p).memActive = true ∧ s.rangeSize p ≠ 0 ∧ size = s.rangeSize p ∧ ways ∈ [1, 2, 4, 8] ∧ gran ∈ [256, 512, 1024, 2048, 4096, 8192, 16384]
        then { s.port p with decoder := true, locked := lock, commitError := false } else { s.port p with commitError := true })) := by
  refine congrArg Host.Outcome.next ((if_neg (by simp [h])).trans ?_)
  rw [apply_ite (s.setPort p)]
  refine if_congr ?_ rfl rfl
  simp only [interleaveOk, Bool.and_eq_true, bne_iff_ne, beq_iff_eq, List.contains_iff_mem, and_assoc]

theorem take_takes {ms : Nat} (hr : Sparse.wf regReset s.regs = true) (hw : s.pageWrites .cxlp (portIx p) = true) (h0 : s.partSize p = 0)
    (hd : (s.port (otherPort p)).link = .reset ∨ ((s.port (otherPort p)).link ≠ .l0 ∧ 1 ≤ ms)) (ht : (s.port (otherPort p)).takenFrom = false) :
    ∃ m f, exec (.take p ms) s =
      .next ((({ s with regs := m, flt := f } : State).setPort p { s.port p with taken := true, rangeMoved := false }).setPort (otherPort p)
        { s.port (otherPort p) with takenFrom := true, decoder := false, locked := false }) ∧
      ({ s with regs := m } : State).errSet .cxlp (portIx p) 4 = true := by
  obtain ⟨m, f, e, hset⟩ := raise_cxlp (p := p) (n := 4) (s := (s.setPort p { s.port p with taken := true, rangeMoved := false }).setPort (otherPort p)
    { s.port (otherPort p) with takenFrom := true, decoder := false, locked := false }) (by simpa using hr) (by decide)
  refine ⟨m, f, ?_, errSet_of hset rfl⟩
  rw [setPort_regs_flt, setPort_regs_flt] at e
  rw [← e]
  exact congrArg Host.Outcome.next ((if_pos hw).trans (if_neg (by simpa [h0, ht, Nat.one_le_iff_ne_zero, or_iff_not_imp_left] using hd)))

theorem returnPart_returns (hr : Sparse.wf regReset s.regs = true) (hw : s.pageWrites .cxlp (portIx p) = true) (ht : (s.port p).taken = true)
    (hd : (s.port p).decoder = false) :
    ∃ m f, exec (.returnPart p) s =
      .next ((({ s with regs := m, flt := f } : State).setPort p { s.port p with taken := false, rangeMoved := false }).setPort (otherPort p)
        { s.port (otherPort p) with takenFrom := false }) ∧
      ({ s with regs := m } : State).errSet .cxlp (portIx p) 4 = true := by
  obtain ⟨m, f, e, hset⟩ := raise_cxlp (p := p) (n := 4) (s := (s.setPort p { s.port p with taken := false, rangeMoved := false }).setPort (otherPort p)
    { s.port (otherPort p) with takenFrom := false }) (by simpa using hr) (by decide)
  refine ⟨m, f, ?_, errSet_of hset rfl⟩
  rw [setPort_regs_flt, setPort_regs_flt] at e
  rw [← e]
  refine congrArg Host.Outcome.next ((if_pos hw).trans ((if_pos (by simp [ht, hd])).trans ?_))
  rw [port_other]

end

section
/-! Enabling a ring (R394). -/

variable {s : State} {p : HostPort} {k : RingKind} {v : Word}

/-- R394: the record of a port as a write of a ring's configuration leaves it before the ring starts: a new LOG2N is noted, unless the ring runs. -/
def State.sizeNoted (s : State) (p : HostPort) (k : RingKind) (w : Word) : Port :=
  if bits w 20 16 ≠ bits (s.reg .cxlp (portIx p) (ringRegs k).2) 20 16 ∧ ¬(bit w 31 = true ∧ bit (s.reg .cxlp (portIx p) (ringRegs k).2) 31 = true)
  then markFresh (s.port p) k else s.port p

theorem ringFits_setPort (x : Port) (w : Word) : (s.setPort p x).ringFits p k w = s.ringFits p k w := by cases p <;> rfl

theorem ringEnable_writes (hw : s.pageWrites .cxlp (portIx p) = true) :
    let off := (ringRegs k).2
    let w := v &&& ringMask k
    let x := s.sizeNoted p k w
    exec (.ringEnable p k v) s = .next (
      if bit w 31 = true ∧ bit (s.reg .cxlp (portIx p) off) 31 = false then
        if s.ringFits p k w = true then (s.setReg .cxlp (portIx p) off w).setPort p (startRing x k)
        else ((s.setReg .cxlp (portIx p) off (putBits w 31 31 0)).setPort p x).raise .cxlp (portIx p) 2
      else (s.setReg .cxlp (portIx p) off w).setPort p x) := by
  intro off w x
  have hu : (if (bits w 20 16 ≠ bits (s.reg .cxlp (portIx p) off) 20 16 && !(bit w 31 && bit (s.reg .cxlp (portIx p) off) 31)) = true
      then s.setPort p (markFresh (s.port p) k) else s) = s.setPort p x := by
    show _ = s.setPort p (ite _ _ _)
    rw [apply_ite (s.setPort p), setPort_self]
    exact if_congr (by simp [off, imp_iff_not_or]) rfl rfl
  refine congrArg Host.Outcome.next ((if_pos hw).trans ?_)
  unfold State.writeRing
  dsimp only
  rw [hu]
  simp only [ringFits_setPort, State.port_setPort, setReg_setPort, setPort_comm, Bool.and_eq_true, Bool.not_eq_true']
  rfl

/-- R392, R394: a ring that does not fit stays off, and RING is set. -/
theorem ringEnable_misfit (hr : Sparse.wf regReset s.regs = true) (hw : s.pageWrites .cxlp (portIx p) = true) (hv : bit (v &&& ringMask k) 31 = true)
    (ho : bit (s.reg .cxlp (portIx p) (ringRegs k).2) 31 = false) (hf : s.ringFits p k (v &&& ringMask k) = false) :
    ∃ m f, exec (.ringEnable p k v) s = .next (({ s with regs := m, flt := f } : State).setPort p (s.sizeNoted p k (v &&& ringMask k))) ∧
      ({ s with regs := m } : State).errSet .cxlp (portIx p) 2 = true ∧
      ({ s with regs := m } : State).reg .cxlp (portIx p) (ringRegs k).2 = putBits (v &&& ringMask k) 31 31 0 := by
  obtain ⟨u, hu⟩ : ∃ u, u = s.setReg .cxlp (portIx p) (ringRegs k).2 (putBits (v &&& ringMask k) 31 31 0) := ⟨_, rfl⟩
  have hread : u.reg .cxlp (portIx p) (ringRegs k).2 = putBits (v &&& ringMask k) 31 31 0 := hu ▸ reg_setReg_same hr
  obtain ⟨m, f, e, hset⟩ := raise_cxlp (s := u.setPort p (s.sizeNoted p k (v &&& ringMask k))) (p := p) (n := 2)
    (by rw [State.setPort_regs, hu]; exact Sparse.wf_set _ hr) (by decide)
  refine ⟨m, f, ?_, errSet_of hset rfl, ?_⟩
  · rw [ringEnable_writes hw, if_pos ⟨hv, ho⟩, if_neg (by simp [hf]), ← hu, e, setPort_regs_flt, hu]
    rfl
  · have hkeep := get_ringRegs_raise (s := u.setPort p (s.sizeNoted p k (v &&& ringMask k))) (p := p) (n := 2) (o := (ringRegs k).2) (by cases k <;> decide)
    rw [e, State.setPort_reg_at, hread] at hkeep
    exact hkeep

end

section
/-! The records of a ring (R379, R380, R382, R383, R392). -/

variable {s : State} {p : HostPort}

theorem ringFailed_spec (hr : Sparse.wf regReset s.regs = true) (k : RingKind) :
    ∃ m f, s.ringFailed p k = { s with regs := m, flt := f } ∧ ({ s with regs := m } : State).errSet .cxlp (portIx p) 2 = true :=
  raise_cxlp (n := 2) (Sparse.wf_set _ hr) (by decide)

/-- R235, R238: the record that answers a request record with BAD_REQ. -/
def State.badRecord (s : State) (r : RequestRec) : OutRec :=
  { stream := reqStream r, status := 0x10, last := true, position := 0, token := 0xFFFFFFFF, accepted := 0, stamp := s.stamp, step := 0 }

theorem badReq_eq (r : RequestRec) : s.badReq p r = s.setPort p { s.port p with pend := (s.port p).pend ++ [s.badRecord r] } := by
  unfold State.badReq State.status State.emit
  rw [portOf_portIx]
  rfl

theorem badReq_setPort (x : Port) (r : RequestRec) : (s.setPort p x).badReq p r = s.setPort p { x with pend := x.pend ++ [s.badRecord r] } := by
  rw [badReq_eq, State.port_setPort, setPort_comm]
  unfold State.badRecord
  rw [State.setPort_stamp]

/-- R379: the request record at a ring's index. -/
def State.ringRecord (s : State) (p : HostPort) : RequestRec :=
  (List.range 16).map (fun i => Memory.word s.hbm (s.ringDpa p .request (s.port p).rqNext + 4 * i))

theorem requestRingPoll_failed {bad : Bool} (he : bit (s.reg .cxlp (portIx p) 0x04C) 31 = true) (hl : (s.port p).pend.length ≤ 1024)
    (h : bad = true ∨ s.dpaRetired (s.ringDpa p .request (s.port p).rqNext) 64 = true) :
    exec (.requestRingPoll p bad) s = .next (s.ringFailed p .request) :=
  congrArg Host.Outcome.next ((if_neg (by simp [he, hl])).trans (if_pos h))

/-- R235, R379, R382: a record that the host has given is taken, and queued when it keeps the rules of its layout. -/
theorem requestRingPoll_takes (he : bit (s.reg .cxlp (portIx p) 0x04C) 31 = true) (hl : (s.port p).pend.length ≤ 1024)
    (h : s.dpaRetired (s.ringDpa p .request (s.port p).rqNext) 64 = false) :
    let x := s.port p
    let r := s.ringRecord p
    let t := ({ s with hbm := Memory.setWord s.hbm (s.ringDpa p .request x.rqNext) (putBits (r.getD 0 0) 31 31 0) } : State)
    let i := ringAdvance (s.reg .cxlp (portIx p) 0x04C) x.rqNext
    exec (.requestRingPoll p false) s =
      if bit (r.getD 0 0) 31 = false then .next s
      else if reqWellFormed r then .next (t.setPort p { x with rqNext := i, requests := x.requests ++ [r] })
      else .next (t.setPort p { x with rqNext := i, pend := x.pend ++ [s.badRecord r] }) := by
  intro x r t i
  refine (congrArg Host.Outcome.next ((if_neg (by simp [he, hl])).trans (if_neg (by simp [h])))).trans ?_
  refine (apply_ite _ _ _ _).trans (if_congr Iff.rfl rfl ((apply_ite _ _ _ _).trans (if_congr Iff.rfl ?_ ?_)))
  · rw [State.port_setPort, setPort_comm]
    rfl
  · rw [badReq_setPort]
    rfl

variable {r : OutRec} {rest : List OutRec}

theorem outputRecordWrite_failed (hp : (s.port p).pend = r :: rest) (he : bit (s.reg .cxlp (portIx p) 0x054) 31 = true)
    (h : s.dpaRetired (s.ringDpa p .output (s.port p).outNext) 32 = true) : exec (.outputRecordWrite p) s = .next (s.ringFailed p .output) := by
  refine congrArg Host.Outcome.next ?_
  dsimp only
  rw [hp]
  exact (if_neg (by simp [he])).trans (if_pos h)

theorem outputRecordWrite_waits (hp : (s.port p).pend = r :: rest) (he : bit (s.reg .cxlp (portIx p) 0x054) 31 = true)
    (h : s.dpaRetired (s.ringDpa p .output (s.port p).outNext) 32 = false) (ho : bit (Memory.word s.hbm (s.ringDpa p .output (s.port p).outNext)) 31 = false) :
    exec (.outputRecordWrite p) s = .next s := by
  refine congrArg Host.Outcome.next ?_
  dsimp only
  rw [hp]
  exact (if_neg (by simp [he])).trans ((if_neg (by simp [h])).trans (if_pos (by simp [ho])))

/-- R380, R383: the oldest waiting record is written; its interrupt is raised with the CNT-th record that waits for one. -/
theorem outputRecordWrite_writes (hp : (s.port p).pend = r :: rest) (he : bit (s.reg .cxlp (portIx p) 0x054) 31 = true)
    (h : s.dpaRetired (s.ringDpa p .output (s.port p).outNext) 32 = false) (ho : bit (Memory.word s.hbm (s.ringDpa p .output (s.port p).outNext)) 31 = true) :
    let w := s.reg .cxlp (portIx p) 0x054
    let n := (s.port p).unsignalled + 1
    exec (.outputRecordWrite p) s =
      .next (({ s with hbm := Memory.write s.hbm (s.ringDpa p .output (s.port p).outNext) (outBytes r)
                       msix := if outCnt w ≤ n then (s.msi (s.msiPort p) 1).msix else s.msix } : State).setPort p
        { s.port p with pend := rest, outNext := ringAdvance w (s.port p).outNext, unsignalled := if outCnt w ≤ n then 0 else n }) := by
  intro w n
  refine congrArg Host.Outcome.next ?_
  dsimp only
  rw [hp]
  refine (if_neg (by simp [he])).trans ((if_neg (by simp [h])).trans ((if_neg (by simp [ho])).trans ?_))
  by_cases hd : outCnt w ≤ n
  · rw [if_pos hd, if_pos hd, if_pos hd]
    cases p <;> rfl
  · rw [if_neg hd, if_neg hd, if_neg hd]

end

/-- Settles O44: a decoder by its lock, TAKE and RETURN by the error they raise, a ring by whether it fits, a record by who owns it. -/
theorem rangesAndRings : Obligations.RangesAndRings := by
  intro s p k v size ways gran ms lock bad hi x y ringOff
  have failed : ∀ i k, exec i s = .next (s.ringFailed p k) → ringOff i := fun i k h => by
    obtain ⟨m, f, e, hset⟩ := ringFailed_spec (p := p) hi.regs k
    exact ⟨m, f, h.trans (congrArg _ e), hset⟩
  refine ⟨hdmDecoderCommit_locked, hdmDecoderCommit_open, fun hw => ⟨take_takes hi.regs hw, returnPart_returns hi.regs hw, ?_, ?_, ?_⟩,
    fun he hl => ⟨fun h => failed _ _ (requestRingPoll_failed he hl h), ?_⟩, ?_, fun h => congrArg _ (if_neg h), fun h => congrArg _ (if_pos h)⟩
  · intro hv ho hf
    rw [ringEnable_writes hw, if_pos ⟨hv, ho⟩, if_pos hf]
    rfl
  · exact ringEnable_misfit hi.regs hw
  · intro h
    rw [ringEnable_writes hw, if_neg (by rintro ⟨h1, h2⟩; simp [h1, h2] at h)]
    rfl
  · rintro rfl h
    exact requestRingPoll_takes he hl h
  · intro r rest hp w a n due he
    exact ⟨fun h => failed _ _ (outputRecordWrite_failed hp he h), outputRecordWrite_waits hp he, fun h ho => ⟨_, outputRecordWrite_writes hp he h ho, rfl⟩⟩

end Sys2Proof.Machine
end

section
/-! PROOF. The requests of streams (O45): which record a command takes, whose stream it names, and what each operation does with it. -/

namespace Sys2Proof.Machine

section
/-! The record that a command takes (R236). -/

variable {s : State} {p : HostPort} {r : RequestRec} {rest : List RequestRec} {op : Nat} {f : State → RequestRec → State}

/-- R236: the state in which a port's record has left the queue, the others still in it. -/
def State.requestGone (s : State) (p : HostPort) (rest : List RequestRec) : State := s.setPort p { s.port p with requests := rest }

/-- R235, R238: the state in which that record has been answered BAD_REQ. -/
def State.requestRefused (s : State) (p : HostPort) (r : RequestRec) (rest : List RequestRec) : State :=
  (s.requestGone p rest).setPort p { s.port p with requests := rest, pend := (s.port p).pend ++ [s.badRecord r] }

/-- R236: the commands that take a record, each with the operation that it applies. -/
def requestCommands (p : HostPort) (bad : Bool) : List (Nat × Instr) :=
  [(1, .openStream p), (2, .append p bad), (3, .truncate p), (4, .close p), (5, .attachKv p), (6, .resume p), (7, .ship p)]

theorem requestCommand_runs {bad : Bool} : ∀ c ∈ requestCommands p bad, ∃ f, exec c.2 s = .next (s.onRequest p c.1 f) := by
  simp only [requestCommands, List.forall_mem_cons, List.not_mem_nil, false_imp_iff, implies_true, and_true]
  exact ⟨⟨_, rfl⟩, ⟨_, rfl⟩, ⟨_, rfl⟩, ⟨_, rfl⟩, ⟨_, rfl⟩, ⟨_, rfl⟩, ⟨_, rfl⟩⟩

theorem onRequest_none (h : s.seq.cur ≠ none ∨ s.pickRequest [] (s.port p).requests = none) : s.onRequest p op f = s := by
  unfold State.onRequest
  split
  · rfl
  · next hc =>
    rw [h.resolve_left fun hn => hc (Option.isSome_iff_ne_none.2 hn)]

theorem onRequest_picked (hc : s.seq.cur = none) (hp : s.pickRequest [] (s.port p).requests = some (r, rest)) :
    s.onRequest p op f = if reqOp r = op then f (s.requestGone p rest) r else s := by
  unfold State.onRequest
  rw [hc, hp]
  rfl

theorem badReq_requestGone : (s.requestGone p rest).badReq p r = s.requestRefused p r rest :=
  (badReq_setPort ..).trans (setPort_comm ..).symm

theorem stream_requestGone (i : Nat) : (s.requestGone p rest).stream i = s.stream i := State.setPort_stream_at ..

theorem image_requestGone (i : Nat) : (s.requestGone p rest).image i = s.image i := State.setPort_image_at ..

theorem targetOf_requestGone (i : Nat) : (s.requestGone p rest).targetOf i = s.targetOf i := by cases p <;> rfl

theorem serves_requestGone (i : Nat) : (s.requestGone p rest).serves i = s.serves i := by cases p <;> rfl

theorem kvShape_requestGone (i : Nat) : (s.requestGone p rest).kvShape i = s.kvShape i := by cases p <;> rfl

theorem partSize_requestGone (q : HostPort) : (s.requestGone p rest).partSize q = s.partSize q := by cases p <;> rfl

theorem partBase_requestGone (q : HostPort) : (s.requestGone p rest).partBase q = s.partBase q := by cases p <;> rfl

theorem reqTokens_requestGone (bad : Bool) : (s.requestGone p rest).reqTokens p r bad = s.reqTokens p r bad := by cases p <;> rfl

end

section
/-! The stream that a record names (R299, R527). -/

variable {s : State} {p : HostPort} {r : RequestRec} {rest : List RequestRec} {op : Nat} {v : State → RequestRec → Stream → Bool}
  {g : RequestRec → State → State}

/-- R527: a port has itself opened the stream that a record names. -/
abbrev State.owns (s : State) (p : HostPort) (r : RequestRec) : Prop :=
  (s.stream (reqStream r)).state ≠ .free ∧ (s.stream (reqStream r)).port = portIx p

/-- R299, R527: a record of its own port, not for a draft stream save to CLOSE it, whose stream meets the row's condition, is applied; any other is
refused. -/
theorem onRequest_owned (hc : s.seq.cur = none) (hp : s.pickRequest [] (s.port p).requests = some (r, rest)) (ho : reqOp r = op) :
    s.onRequest p op (fun s r => s.onOwnStream p r (v s r) (g r)) =
      if s.owns p r ∧ (s.targetOf (reqStream r) = none ∨ reqOp r = 4) ∧ v (s.requestGone p rest) r (s.stream (reqStream r)) = true
      then g r (s.requestGone p rest)
      else s.requestRefused p r rest := by
  rw [onRequest_picked hc hp, if_pos ho, ← badReq_requestGone]
  unfold State.onOwnStream
  rw [stream_requestGone, targetOf_requestGone]
  refine if_congr ?_ rfl rfl
  simp [and_assoc]

theorem onRequest_applied (hc : s.seq.cur = none) (hp : s.pickRequest [] (s.port p).requests = some (r, rest)) (ho : reqOp r = op) (hx : s.owns p r)
    (ht : s.targetOf (reqStream r) = none ∨ reqOp r = 4) (hv : v (s.requestGone p rest) r (s.stream (reqStream r)) = true) :
    s.onRequest p op (fun s r => s.onOwnStream p r (v s r) (g r)) = g r (s.requestGone p rest) :=
  (onRequest_owned hc hp ho).trans (if_pos ⟨hx, ht, hv⟩)

theorem onRequest_refused (hc : s.seq.cur = none) (hp : s.pickRequest [] (s.port p).requests = some (r, rest)) (ho : reqOp r = op)
    (h : ¬s.owns p r ∨ (s.targetOf (reqStream r) ≠ none ∧ reqOp r ≠ 4) ∨ v (s.requestGone p rest) r (s.stream (reqStream r)) = false) :
    s.onRequest p op (fun s r => s.onOwnStream p r (v s r) (g r)) = s.requestRefused p r rest := by
  refine (onRequest_owned hc hp ho).trans (if_neg ?_)
  rintro ⟨hx, ht, hv⟩
  rcases h with h | ⟨h, h'⟩ | h
  · exact h hx
  · exact ht.elim h h'
  · exact absurd (hv.symm.trans h) (by decide)

end

section
/-! The operations (R236, R241, R243, R527, R528). -/

variable {s : State} {p : HostPort} {r : RequestRec} {rest : List RequestRec} {bad : Bool}
  (hc : s.seq.cur = none) (hp : s.pickRequest [] (s.port p).requests = some (r, rest))

include hc hp

theorem openStream_picked (ho : reqOp r = 1) :
    let i := reqStream r
    let img := bits (reqWord r 1) 2 0
    exec (.openStream p) s = .next (
      if (s.stream i).state = .free ∧ s.serves img = true then
        ((s.requestGone p rest).resetConfig i).setStream i { state := .active, image := img, port := portIx p, readySince := s.stamp.toNat }
      else s.requestRefused p r rest) := by
  intro i img
  refine congrArg Host.Outcome.next ((onRequest_picked hc hp).trans ((if_pos ho).trans ?_))
  dsimp only
  rw [stream_requestGone, serves_requestGone, badReq_requestGone]
  refine if_congr (by simp [i, img]) ?_ rfl
  unfold State.requestGone
  rw [State.setPort_stamp]

theorem append_tokens (ho : reqOp r = 2) (hx : s.owns p r) (ht : s.targetOf (reqStream r) = none) {l : List Word} (hl : s.reqTokens p r bad = some l)
    {m : Manifest} (hm : (s.image (s.stream (reqStream r)).image).manifest = some m) :
    let i := reqStream r
    let x := s.stream i
    exec (.append p bad) s = .next (
      if ∃ t ∈ l, m.vocab ≤ t.toNat then s.requestRefused p r rest
      else if 1024 < x.queue.length + l.length then (s.requestGone p rest).status (portIx p) i 0x11 0
      else (s.requestGone p rest).putStream i { x with queue := x.queue ++ l, gen := if reqSetGen r then reqGen r else x.gen }) := by
  intro i x
  refine congrArg Host.Outcome.next ((onRequest_applied hc hp ho hx (.inl ht) rfl).trans ?_)
  dsimp only
  rw [stream_requestGone, image_requestGone, reqTokens_requestGone, hl, hm, badReq_requestGone]
  exact if_congr (by simp) rfl rfl

theorem append_unreadable (ho : reqOp r = 2) (hx : s.owns p r) (ht : s.targetOf (reqStream r) = none) (hl : s.reqTokens p r bad = none) :
    exec (.append p bad) s = .next (
      if reqListAt r + 4 * reqCount r ≤ s.partSize p then ((s.requestGone p rest).logRefused p (s.partBase p + reqListAt r)).badReq p r
      else s.requestRefused p r rest) := by
  refine congrArg Host.Outcome.next ((onRequest_applied hc hp ho hx (.inl ht) rfl).trans ?_)
  dsimp only
  rw [reqTokens_requestGone, hl, partSize_requestGone, partBase_requestGone, ← badReq_requestGone]
  exact apply_ite (State.badReq · p r) _ _ _

theorem truncate_applies (ho : reqOp r = 3) (hx : s.owns p r) (ht : s.targetOf (reqStream r) = none)
    (hst : (s.stream (reqStream r)).state = .active ∨ (s.stream (reqStream r)).state = .held) (hn : reqLength r ≤ (s.stream (reqStream r)).kvlen) :
    let i := reqStream r
    let t := (s.requestGone p rest).rollback i (reqLength r)
    exec (.truncate p) s = .next ((t.setStream i { t.stream i with queue := [], carry := false, drafts := [] }).resync i) :=
  congrArg Host.Outcome.next (onRequest_applied hc hp ho hx (.inl ht) (by simp [hst, hn]))

theorem truncate_unfit (ho : reqOp r = 3) (h : ((s.stream (reqStream r)).state ≠ .active ∧ (s.stream (reqStream r)).state ≠ .held) ∨
    (s.stream (reqStream r)).kvlen < reqLength r) : exec (.truncate p) s = .next (s.requestRefused p r rest) :=
  congrArg Host.Outcome.next (onRequest_refused hc hp ho (.inr (.inr (by simpa [imp_iff_not_or] using h))))

theorem attachKv_applies (ho : reqOp r = 5) (hx : s.owns p r) (ht : s.targetOf (reqStream r) = none) (hst : (s.stream (reqStream r)).state = .active)
    (hk : (s.stream (reqStream r)).kvlen = 0) (hq : (s.stream (reqStream r)).queue = []) (hm : (s.kvShape (s.stream (reqStream r)).image).modules ≤ 8) :
    let i := reqStream r
    let n := reqLength r
    let u := s.requestGone p rest
    exec (.attachKv p) s = match u.reserve i 0 n with
      | none => .next (u.status (portIx p) i 0x21 0)
      | some t =>
        let v := t.setStream i { t.stream i with
          state := .shipping
          shipIn := some { source := bits (reqWord r 2) 15 0, length := n, left := t.shipPages i n, total := t.shipPages i n, accepted := [] } }
        .next (if t.shipPages i n = 0 then v.shipDone i n else v) := by
  intro i n u
  refine (congrArg Host.Outcome.next (onRequest_applied hc hp ho hx (.inl ht) (by simp [hst, hk, hq, kvShape_requestGone, hm]))).trans ?_
  dsimp only
  cases u.reserve i 0 n <;> rfl

theorem attachKv_unfit (ho : reqOp r = 5) (h : (s.stream (reqStream r)).state ≠ .active ∨ (s.stream (reqStream r)).kvlen ≠ 0 ∨
    (s.stream (reqStream r)).queue ≠ [] ∨ 8 < (s.kvShape (s.stream (reqStream r)).image).modules) :
    exec (.attachKv p) s = .next (s.requestRefused p r rest) :=
  congrArg Host.Outcome.next (onRequest_refused hc hp ho (.inr (.inr (by simpa [imp_iff_not_or, or_assoc, kvShape_requestGone] using h))))

theorem resume_applies (ho : reqOp r = 6) (hx : s.owns p r) (ht : s.targetOf (reqStream r) = none) (hst : (s.stream (reqStream r)).state = .held)
    (hh : 0 ∈ (s.stream (reqStream r)).holds) : exec (.resume p) s = .next ((s.requestGone p rest).lift (reqStream r) 0) :=
  congrArg Host.Outcome.next (onRequest_applied hc hp ho hx (.inl ht) (by simp [hst, hh]))

theorem resume_unfit (ho : reqOp r = 6) (h : (s.stream (reqStream r)).state ≠ .held ∨ 0 ∉ (s.stream (reqStream r)).holds) :
    exec (.resume p) s = .next (s.requestRefused p r rest) :=
  congrArg Host.Outcome.next (onRequest_refused hc hp ho (.inr (.inr (by simpa [imp_iff_not_or] using h))))

theorem ship_applies (ho : reqOp r = 7) (hx : s.owns p r) (ht : s.targetOf (reqStream r) = none)
    (hst : (s.stream (reqStream r)).state = .active ∨ (s.stream (reqStream r)).state = .held) (hs : (s.stream (reqStream r)).shipOut = none)
    (h1 : 1 ≤ reqLength r) (hn : reqLength r ≤ (s.stream (reqStream r)).kvlen) :
    let i := reqStream r
    let n := reqLength r
    let u := s.requestGone p rest
    exec (.ship p) s = .next (u.setStream i { s.stream i with
      shipOut := some { dest := bits (reqWord r 2) 15 0, dstream := bits (reqWord r 2) 23 16, length := n, total := u.shipPages i n, next := 0
                        unacked := [], left := u.shipPages i n, retries := 0 } }) := by
  intro i n u
  refine congrArg Host.Outcome.next ((onRequest_applied hc hp ho hx (.inl ht) (by simp [hst, hs, h1, hn])).trans ?_)
  dsimp only
  rw [stream_requestGone]

theorem ship_unfit (ho : reqOp r = 7) (h : ((s.stream (reqStream r)).state ≠ .active ∧ (s.stream (reqStream r)).state ≠ .held) ∨
    (s.stream (reqStream r)).shipOut ≠ none ∨ reqLength r = 0 ∨ (s.stream (reqStream r)).kvlen < reqLength r) :
    exec (.ship p) s = .next (s.requestRefused p r rest) :=
  congrArg Host.Outcome.next (onRequest_refused hc hp ho (.inr (.inr (by
    simpa [imp_iff_not_or, or_assoc, Nat.one_le_iff_ne_zero] using h))))

theorem close_applies (ho : reqOp r = 4) (hx : s.owns p r) :
    exec (.close p) s = .next (((s.requestGone p rest).status (portIx p) (reqStream r) 0x13 0).freeStream (reqStream r)) :=
  congrArg Host.Outcome.next (onRequest_applied hc hp ho hx (.inr ho) rfl)

omit hc hp in
theorem ownCommand_runs : ∀ c ∈ requestCommands p bad, c.1 ≠ 1 →
    ∃ (v : State → RequestRec → Stream → Bool) (g : RequestRec → State → State),
      exec c.2 s = .next (s.onRequest p c.1 (fun s r => s.onOwnStream p r (v s r) (g r))) := by
  simp only [requestCommands, List.forall_mem_cons, List.not_mem_nil, false_imp_iff, implies_true, and_true]
  exact ⟨fun h => absurd rfl h, fun _ => ⟨_, _, rfl⟩, fun _ => ⟨_, _, rfl⟩, fun _ => ⟨_, _, rfl⟩, fun _ => ⟨_, _, rfl⟩, fun _ => ⟨_, _, rfl⟩,
    fun _ => ⟨_, _, rfl⟩⟩

/-- R299, R527: a record for a stream that its own port did not open, or for a draft stream unless it closes it, is refused. -/
theorem notOwned_refused (hx : ¬s.owns p r ∨ s.targetOf (reqStream r) ≠ none ∧ reqOp r ≠ 4) {op : Nat} {c : Instr}
    (h : (op, c) ∈ requestCommands p bad) (h1 : op ≠ 1) (ho : reqOp r = op) : exec c s = .next (s.requestRefused p r rest) := by
  obtain ⟨v, g, e⟩ := ownCommand_runs _ h h1
  rw [e, onRequest_refused hc hp ho (hx.imp_right Or.inl)]

end

/-- Settles O45: each command by the record that it may take, then by whose stream that names and by the condition of its row. -/
theorem streamRequests : Obligations.StreamRequests := by
  intro s p r rest bad u i x img n own refused all
  refine ⟨fun h c hm => ?_, fun hc hp => ?_⟩
  · obtain ⟨f, e⟩ := requestCommand_runs (s := s) c hm
    rw [e, onRequest_none h]
  refine ⟨fun c hm hne => ?_, fun ho => ?_, fun hx ht => ⟨fun ho l hl => ?_, fun ho hl => ?_,
    fun ho => truncate_applies hc hp ho hx ht, fun ho => truncate_unfit hc hp ho, fun ho => attachKv_applies hc hp ho hx ht,
    fun ho => attachKv_unfit hc hp ho, fun ho => ⟨fun h => resume_applies hc hp ho hx ht h.1 h.2, resume_unfit hc hp ho⟩,
    fun ho => ship_applies hc hp ho hx ht, fun ho => ship_unfit hc hp ho⟩, fun ho hx => close_applies hc hp ho hx, fun h => ?_, fun h ho => ?_⟩
  · obtain ⟨f, e⟩ := requestCommand_runs (s := s) c hm
    rw [e, onRequest_picked hc hp, if_neg hne]
  · have e := openStream_picked hc hp ho
    exact ⟨fun h1 h2 => e.trans (congrArg _ (if_pos ⟨h1, h2⟩)), fun h => e.trans (congrArg _ (if_neg (by simpa [imp_iff_not_or] using h)))⟩
  · refine ⟨fun m hm hv => ?_, fun m hm hv => (append_tokens hc hp ho hx ht hl hm).trans (congrArg _ (if_pos hv))⟩
    have e := (append_tokens hc hp ho hx ht hl hm).trans (congrArg _ (if_neg (by simpa using hv)))
    exact ⟨fun h => e.trans (congrArg _ (if_neg (Nat.not_lt.2 h))), fun h => e.trans (congrArg _ (if_pos h))⟩
  · have e := append_unreadable hc hp ho hx ht hl
    exact ⟨fun h => e.trans (congrArg _ (if_neg (by omega))), fun h => e.trans (congrArg _ (if_pos h))⟩
  · have refuses : ∀ op c, (op, c) ∈ all → op ≠ 1 → op ≠ 4 → reqOp r = op → exec c s = refused := fun op c hm h1 h4 ho =>
      notOwned_refused hc hp (h.imp_right (⟨·, ho ▸ h4⟩)) hm h1 ho
    refine ⟨refuses 2 _ ?_ ?_ ?_, refuses 3 _ ?_ ?_ ?_, refuses 5 _ ?_ ?_ ?_, refuses 6 _ ?_ ?_ ?_, refuses 7 _ ?_ ?_ ?_⟩ <;> simp [all]
  · exact notOwned_refused (bad := bad) hc hp (.inl h) (by simp [requestCommands]) (by decide) ho

end Sys2Proof.Machine
end

section
/-! PROOF. Shipments of KV pages (O46): what the source sends and what ends it, and what the destination does with a record. -/

namespace Sys2Proof.Machine

section
/-! The source (R243, R245). -/

variable {s : State} {st : StreamId} {seqn : BitVec 24} {o : ShipOut}

theorem source_idle (h : (s.stream st.val).shipOut = none) :
    exec (.shipmentRecordSend st) s = .next s ∧ exec (.shipmentAcknowledgement st seqn false) s = .next s ∧
      exec (.shipRetry st) s = .next s ∧ exec (.shipAckTimeout st) s = .next s := by
  refine ⟨congrArg Host.Outcome.next ?_, congrArg Host.Outcome.next ?_, congrArg Host.Outcome.next ?_, congrArg Host.Outcome.next ?_⟩ <;> simp only [h]

/-- A stream that the source of a shipment was written to reads as written. -/
theorem stream_setStream_shipping {i : Nat} {x : Stream} (h : x.shipOut = some o) : (s.setStream i x).stream i = x :=
  Sparse.get_set_new s.streams (by rintro rfl; cases h)

/-- R245: the source's stream with one record fewer outstanding. -/
def ackTaken (x : Stream) (o : ShipOut) (n : Nat) : Stream :=
  { x with shipOut := some { o with refused := o.refused && n != 0, unacked := o.unacked.filter (· ≠ n), left := o.left - 1 } }

variable (h : (s.stream st.val).shipOut = some o)

include h

theorem recordSend_runs : exec (.shipmentRecordSend st) s = (if o.total ≤ o.next ∨ 16 ≤ o.unacked.length then .next s
    else .next ((s.sendShipped st.val o o.next).setStream st.val
      { s.stream st.val with shipOut := some { o with next := o.next + 1, unacked := o.unacked ++ [o.next] } })) := by
  rw [← apply_ite Host.Outcome.next]
  refine congrArg Host.Outcome.next ?_
  dsimp only
  rw [h]

theorem acknowledgement_stray (hn : seqn.toNat ∉ o.unacked) (q : Bool) : exec (.shipmentAcknowledgement st seqn q) s = .next s := by
  refine congrArg Host.Outcome.next ?_
  dsimp only
  rw [h]
  exact if_pos (by simp [hn])

theorem refusal_arrives (hn : seqn.toNat ∈ o.unacked) : exec (.shipmentAcknowledgement st seqn true) s =
    (if seqn.toNat = 0 then .next (s.setStream st.val { s.stream st.val with shipOut := some { o with refused := true } })
      else .next (s.shipEnds st.val 0x21)) := by
  rw [← apply_ite Host.Outcome.next]
  refine congrArg Host.Outcome.next ?_
  dsimp only
  rw [h]
  exact (if_neg (by simp [hn])).trans (if_pos rfl)

theorem acknowledgement_arrives (hn : seqn.toNat ∈ o.unacked) :
    let y := ackTaken (s.stream st.val) o seqn.toNat
    exec (.shipmentAcknowledgement st seqn false) s = if o.left ≤ 1 then
      .next (((s.setStream st.val y).putStream st.val { y with shipOut := none }).status y.port st.val 0x14 0) else .next (s.setStream st.val y) := by
  intro y
  rw [← apply_ite Host.Outcome.next]
  refine congrArg Host.Outcome.next ?_
  dsimp only
  rw [h]
  refine (if_neg (by simp [hn])).trans ((if_neg Bool.false_ne_true).trans (if_congr Iff.rfl ?_ rfl))
  have hy : (s.setStream st.val y).stream st.val = y := stream_setStream_shipping rfl
  show (s.setStream st.val y).shipEnds st.val 0x14 = _
  unfold State.shipEnds
  rw [hy]

theorem shipRetry_runs : exec (.shipRetry st) s = .next (if o.refused = false then s else if 100 ≤ o.retries then s.shipEnds st.val 0x21
    else (s.sendShipped st.val o 0).setStream st.val { s.stream st.val with shipOut := some { o with retries := o.retries + 1, refused := false } }) := by
  refine congrArg Host.Outcome.next ?_
  dsimp only
  rw [h]
  exact if_congr (by simp) rfl rfl

theorem ackTimeout_runs : exec (.shipAckTimeout st) s = .next (if o.unacked = [] then s else s.shipEnds st.val 0x21) := by
  refine congrArg Host.Outcome.next ?_
  rw [h]
  exact if_congr List.isEmpty_iff rfl rfl

end

section
/-! The destination (R240, R241, R242, R245). -/

variable {s : State} {record : List Byte} {b : Nat}

theorem pageTimeout_runs (st : StreamId) :
    exec (.shipPageTimeout st) s = .next (if (s.stream st.val).state = .shipping then s.shipFails st.val else s) := rfl

/-- R244: the stream that a record is for. -/
abbrev recStream (r : List Byte) : Nat := bits (recWord r 0) 7 0

/-- R244: the module that a record comes from. -/
abbrev recSource (r : List Byte) : Nat := bits (recWord r 0) 31 16

/-- R244: the number of a record. -/
abbrev recNumber (r : List Byte) : Nat := bits (recWord r 1) 23 0

/-- R244: the layer, head and page of a record. -/
abbrev recPage (r : List Byte) : Nat × Nat × Nat := (bits (recWord r 2) 7 0, bits (recWord r 2) 11 8, bits (recWord r 2) 24 12)

/-- R258: the logical berth at which a record arrives. -/
abbrev State.recBerth (s : State) (r : List Byte) : Nat :=
  let k := s.kvShape (s.stream (recStream r)).image
  if k.heads = 0 then 0 else shipBerth k (recPage r).2.1 (recPage r).2.2

/-- R258: the home of a record's page, as logical module and berth. -/
abbrev State.recHome (s : State) (r : List Byte) : Nat × Nat :=
  let k := s.kvShape (s.stream (recStream r)).image
  pageHome k.heads k.modules (recPage r).2.1 (recPage r).2.2

/-- R240: a record's page has its home on this module. -/
def State.recHere (s : State) (r : List Byte) : Prop :=
  let k := s.kvShape (s.stream (recStream r)).image
  k.heads = 0 ∨ k.modules ≤ 1 ∨ (s.recHome r).1 = s.moduleIndex

/-- R241, R245: whether a record belongs to the shipment that its stream receives, and arrived whole. -/
def recFits (m : Manifest) (q : ShipIn) (r : List Byte) : Bool :=
  m.modelId.toNat == leNat ((r.drop 16).take 8) && m.kvlayout == (r.drop 24).take 32 && q.total == bits (recWord r 3) 25 0 &&
    crc32c (r.take 60 ++ r.drop 64) == recWord r 15

theorem recFits_iff {m : Manifest} {q : ShipIn} : recFits m q record = true ↔ m.modelId.toNat = leNat ((record.drop 16).take 8) ∧
    m.kvlayout = (record.drop 24).take 32 ∧ q.total = bits (recWord record 3) 25 0 ∧ crc32c (record.take 60 ++ record.drop 64) = recWord record 15 := by
  simp [recFits, and_assoc]

/-- R241: the place reserved for a record's page: the logical berth and the index column. -/
def State.recPlace (s : State) (r : List Byte) : Option (Nat × Nat) :=
  let k := s.kvShape (s.stream (recStream r)).image
  let (l, h, j) := recPage r
  match s.homeHere k h j with
  | some lb => if l < k.layers ∧ h < k.heads then (s.column k lb (recStream r) h j).map (fun c => (lb, c)) else none
  | none => none

/-- R241, R242, R245: a valid record is acknowledged; a new one is written first, and the last one ends the shipment. -/
def State.recTaken (s : State) (b : Nat) (q : ShipIn) (r : List Byte) (lb c : Nat) : State :=
  let st := recStream r
  let y := s.stream st
  let (l, h, j) := recPage r
  if recNumber r ∈ q.accepted then s.ackShipment b (recSource r) (recNumber r) (s.recBerth r) false
  else
    let t := ((s.landPage (s.kvShape y.image) st lb c l h j q.length (bit (recWord r 14) 20) (r.drop 64)).setStream st
      { y with shipIn := some { q with left := q.left - 1, accepted := q.accepted ++ [recNumber r] } }).ackShipment b (recSource r) (recNumber r)
        (s.recBerth r) false
    if q.left ≤ 1 then t.shipDone st q.length else t

/-- R242: a record fails its shipment. -/
def State.recFails (s : State) (b : Nat) (r : List Byte) : State :=
  (s.shipFails (recStream r)).ackShipment b (recSource r) (recNumber r) (s.recBerth r) true

theorem recPlace_none (h : s.homeHere (s.kvShape (s.stream (recStream record)).image) (recPage record).2.1 (recPage record).2.2 = none ∨
    (s.kvShape (s.stream (recStream record)).image).layers ≤ (recPage record).1 ∨
    (s.kvShape (s.stream (recStream record)).image).heads ≤ (recPage record).2.1) : s.recPlace record = none := by
  unfold State.recPlace
  dsimp only
  split
  · next lb hlb => exact if_neg fun hp => (h.resolve_left (by simp [hlb])).elim (Nat.not_le.2 hp.1) (Nat.not_le.2 hp.2)
  · rfl

theorem recPlace_some {lb c : Nat} (hlb : s.homeHere (s.kvShape (s.stream (recStream record)).image) (recPage record).2.1 (recPage record).2.2 = some lb)
    (hl : (recPage record).1 < (s.kvShape (s.stream (recStream record)).image).layers)
    (hh : (recPage record).2.1 < (s.kvShape (s.stream (recStream record)).image).heads)
    (hc : s.column (s.kvShape (s.stream (recStream record)).image) lb (recStream record) (recPage record).2.1 (recPage record).2.2 = some c) :
    s.recPlace record = some (lb, c) := by
  unfold State.recPlace
  dsimp only
  rw [hlb]
  exact (if_pos ⟨hl, hh⟩).trans (by rw [hc]; rfl)

variable (hb : s.physOf (s.recBerth record) = some b)

include hb

theorem kvRecord_elsewhere (h : ¬s.recHere record) : exec (.kvShipmentRecord record) s =
    .next (s.sendPieces b (s.recHome record).1 (recNumber record) (s.recHome record).2 record) := by
  refine congrArg Host.Outcome.next ?_
  dsimp only
  rw [hb]
  exact if_pos (by simpa [State.recHere] using h)

theorem kvRecord_unexpected (h : s.recHere record) (hy : (s.stream (recStream record)).shipIn = none ∨ (s.stream (recStream record)).state ≠ .shipping) :
    exec (.kvShipmentRecord record) s = .next (s.ackShipment b (recSource record) (recNumber record) (s.recBerth record) true) := by
  refine congrArg Host.Outcome.next ?_
  dsimp only
  rw [hb]
  refine (if_neg (by simpa [State.recHere, imp_iff_not_or] using h)).trans ?_
  cases hq : (s.stream (recStream record)).shipIn with
  | none => rfl
  | some q => exact if_pos (.inl (hy.resolve_left (by simp [hq])))

theorem kvRecord_received {m : Manifest} {q : ShipIn} (h : s.recHere record) (hq : (s.stream (recStream record)).shipIn = some q)
    (hst : (s.stream (recStream record)).state = .shipping) (hsrc : q.source = recSource record)
    (hm : (s.image (s.stream (recStream record)).image).manifest = some m) :
    exec (.kvShipmentRecord record) s = .next (
      if recFits m q record = false then s.recFails b record
      else match s.recPlace record with
        | none => s.recFails b record
        | some (lb, c) => s.recTaken b q record lb c) := by
  refine congrArg Host.Outcome.next ?_
  dsimp only
  rw [hb]
  refine (if_neg (by simpa [State.recHere, imp_iff_not_or] using h)).trans ?_
  rw [hq]
  refine (if_neg (by simp [hst, hsrc])).trans ?_
  rw [hm]
  refine if_congr (by simp [recFits, imp_iff_not_or, or_assoc]) rfl ?_
  show (match s.recPlace record with | none => _ | some (lb, c) => _) = _
  cases s.recPlace record with
  | none => rfl
  | some e => exact if_congr List.contains_iff_mem rfl rfl

end

/-- Settles O46: the source by the records left and outstanding, a record by its page's home, by the shipment that it meets and by its place. -/
theorem shipments : Obligations.Shipments := by
  intro s st seqn record b _ i x n ends
  refine ⟨source_idle, fun o h => ⟨recordSend_runs h, acknowledgement_stray h, fun hn => ⟨refusal_arrives h hn, ?_⟩, fun hr => ?_, fun hr => ?_, fun hu => ?_,
    fun hu => ?_⟩, fun h => ?_, fun h => ?_, fun hb h1 h2 h3 => ?_, fun hb hh => ⟨kvRecord_unexpected hb hh, fun m q hq hst hsrc hm => ?_⟩⟩
  · exact acknowledgement_arrives h hn
  · rw [shipRetry_runs h, if_pos hr]
  · rw [shipRetry_runs h, if_neg (by simp [hr])]
    exact apply_ite _ _ _ _
  · rw [ackTimeout_runs h, if_neg hu]
    rfl
  · rw [ackTimeout_runs h, if_pos hu]
  · rw [pageTimeout_runs, if_pos h]
  · rw [pageTimeout_runs, if_neg h]
  · exact kvRecord_elsewhere hb (by rintro (h | h | h); exacts [h1 h, absurd h (Nat.not_le.2 h2), h3 h])
  · have run := kvRecord_received hb hh hq hst hsrc hm
    refine ⟨fun h => ?_, fun lb c h1 h2 h3 h4 hlb hl hk hc => ?_⟩
    · rw [run]
      by_cases hf : recFits m q record = true
      · obtain ⟨h1, h2, h3, h4⟩ := recFits_iff.1 hf
        rw [if_neg (by simp [hf]), recPlace_none ((((h.resolve_left (· h4)).resolve_left (· h1)).resolve_left (· h2)).resolve_left (· h3))]
        rfl
      · exact congrArg _ (if_pos (by simpa using hf))
    · rw [run, if_neg (by simp [recFits_iff.2 ⟨h1, h2, h3, h4⟩]), recPlace_some hlb hl hk hc]
      exact apply_ite _ _ _ _

end Sys2Proof.Machine
end

section
/-! PROOF. What leaves the sequencer's record of its steps and the cores' mode alone: every operation on the KV cache, the tree of shared blocks, the streams and
the grammars that the choose and commit phases run. -/

namespace Sys2Proof.Machine

/-- R226: the sequencer's record of its steps and the mode of the cores are the same. -/
structure SameRun (s t : State) : Prop where
  seq : t.seq = s.seq
  mode : t.coresMode = s.coresMode

section
/-! The rules, and the operations over the state. -/

variable {s t u : State}

theorem SameRun.refl (s : State) : SameRun s s := ⟨rfl, rfl⟩

theorem SameRun.trans (h : SameRun s t) (h' : SameRun t u) : SameRun s u := ⟨h'.seq.trans h.seq, h'.mode.trans h.mode⟩

/-- An operation on a state that other parts of the record have changed. -/
theorem SameRun.since (h : SameRun t u) (hs : t.seq = s.seq) (hm : t.coresMode = s.coresMode) : SameRun s u := SameRun.trans ⟨hs, hm⟩ h

theorem SameRun.ite {p : Prop} [Decidable p] (h : SameRun s t) (h' : SameRun s u) : SameRun s (if p then t else u) := by
  split
  · exact h
  · exact h'

theorem SameRun.foldl {α : Type} {f : State → α → State} (hf : ∀ s a, SameRun s (f s a)) (l : List α) (s : State) : SameRun s (l.foldl f s) :=
  foldl_rel SameRun.refl SameRun.trans hf l s

theorem SameRun.foldlM {α : Type} {f : State → α → Option State} (hf : ∀ s a u, f s a = some u → SameRun s u) (l : List α)
    (h : l.foldlM f s = some u) : SameRun s u := by
  induction l generalizing s with
  | nil => cases h; exact .refl _
  | cons a l ih =>
    rw [List.foldlM_cons, Option.bind_eq_bind, Option.bind_eq_some_iff] at h
    obtain ⟨t, ht, hu⟩ := h
    exact (hf s a t ht).trans (ih hu)

theorem SameRun.raise (s : State) (b : Blk) (i n : Nat) : SameRun s (s.raise b i n) := by
  obtain ⟨m, f, e⟩ := raise_only s b i n
  rw [e]
  exact ⟨rfl, rfl⟩

theorem SameRun.setStream (s : State) (i : Nat) (x : Stream) : SameRun s (s.setStream i x) := ⟨rfl, rfl⟩

theorem SameRun.setStack (s : State) (k : Nat) (x : StackSt) : SameRun s (s.setStack k x) := ⟨rfl, rfl⟩

theorem SameRun.setRegI (s : State) (b : Blk) (i o j : Nat) (v : Word) : SameRun s (s.setRegI b i o j v) :=
  ⟨State.setRegI_seq .., State.setRegI_coresMode ..⟩

theorem SameRun.count (s : State) (b : Blk) (i o n : Nat) : SameRun s (s.count b i o n) := ⟨rfl, rfl⟩

theorem SameRun.putStream (s : State) (i : Nat) (x : Stream) : SameRun s (s.putStream i x) := by
  obtain ⟨m, e⟩ := putStream_only s i x
  rw [e]
  exact ⟨rfl, rfl⟩

theorem SameRun.emit (s : State) (p : Nat) (r : OutRec) : SameRun s (s.emit p r) := ⟨State.setPort_seq .., State.setPort_coresMode ..⟩

theorem SameRun.status (s : State) (p i c n : Nat) : SameRun s (s.status p i c n) := .emit ..

theorem SameRun.raiseSampler (s : State) (n : Nat) : SameRun s (s.raiseSampler n) := .foldl (fun _ _ => .raise ..) _ _

theorem SameRun.tableRead (s : State) (k : Nat) (e : EccOutcome) : SameRun s (s.tableRead k e) := by
  cases e with
  | clean => exact .refl s
  | corrected => exact .raise s .kvpg k 0
  | uncorrectable => exact .raise s .kvpg k 1

theorem SameRun.tableReads (s : State) (l : List (Stack × EccOutcome)) : SameRun s (s.tableReads l) := .foldl (fun _ _ => .tableRead ..) _ _

end

section
/-! The KV cache's storage (R253 to R262, R280, R281). -/

variable {s t : State}

theorem SameRun.lbPut (s : State) (lb off : Nat) (d : List Byte) : SameRun s (s.lbPut lb off d) := by
  unfold State.lbPut
  split
  · exact ⟨rfl, rfl⟩
  · exact .refl s

theorem SameRun.lbWrite (s : State) (lb off : Nat) (d : List Byte) : SameRun s (s.lbWrite lb off d) := by
  unfold State.lbWrite
  split
  · exact .ite ⟨rfl, rfl⟩ (.raise ..)
  · exact .refl s

theorem SameRun.setColumn (s : State) (k : KvShape) (lb st h j : Nat) (line : Option Nat) : SameRun s (s.setColumn k lb st h j line) :=
  (SameRun.lbPut ..).trans (.lbPut ..)

theorem SameRun.setIxWord (s : State) (lb line off : Nat) (w : Word) : SameRun s (s.setIxWord lb line off w) := .lbWrite ..

theorem SameRun.setRefs (s : State) (lb line n : Nat) : SameRun s (s.setRefs lb line n) :=
  .ite ((SameRun.setIxWord ..).trans (.lbWrite ..)) (.setIxWord ..)

theorem SameRun.takeFrame {lb use : Nat} {e : State × Nat} (h : s.takeFrame lb use = some e) : SameRun s e.1 := by
  unfold State.takeFrame at h
  dsimp only at h
  split at h
  · cases h
  · cases h
    exact .ite ((SameRun.raise ..).since rfl rfl) ⟨rfl, rfl⟩

theorem SameRun.newLayer {lb col w j l : Nat} (h : newLayer lb col w j s l = some t) : SameRun s t := by
  unfold Machine.newLayer at h
  rw [Option.map_eq_some_iff] at h
  obtain ⟨e, he, rfl⟩ := h
  exact (SameRun.takeFrame he).trans (.lbWrite ..)

theorem SameRun.takeColumn {lb n : Nat} {e : State × Nat} (h : s.takeColumn lb n = some e) : SameRun s e.1 := by
  unfold State.takeColumn at h
  dsimp only at h
  split at h
  · cases h
    exact ⟨rfl, rfl⟩
  · rw [Option.map_eq_some_iff] at h
    obtain ⟨f, hf, rfl⟩ := h
    exact (SameRun.takeFrame hf).trans ⟨rfl, rfl⟩

theorem SameRun.newColumn {k : KvShape} {lb w j : Nat} {e : State × Nat} (h : s.newColumn k lb w j = some e) : SameRun s e.1 := by
  unfold State.newColumn at h
  split at h
  · cases h
  · next hc =>
    rw [Option.map_eq_some_iff] at h
    obtain ⟨u, hu, rfl⟩ := h
    exact (SameRun.takeColumn hc).trans (.foldlM (fun _ _ _ => .newLayer) _ hu)

theorem SameRun.freeColumn (s : State) (lb line : Nat) : SameRun s (s.freeColumn lb line) := .ite ⟨rfl, rfl⟩ ⟨rfl, rfl⟩

theorem SameRun.dropSwitch (s : State) (lb line : Nat) : SameRun s (s.dropSwitch lb line) := by
  unfold State.dropSwitch
  dsimp only
  split
  · exact .refl s
  · exact .ite ⟨rfl, rfl⟩ ⟨rfl, rfl⟩

theorem SameRun.freePage (s : State) (lb line : Nat) : SameRun s (s.freePage lb line) := by
  unfold State.freePage
  extract_lets w t u
  have hu : SameRun s u := (SameRun.dropSwitch ..).trans (.ite ⟨rfl, rfl⟩ (.refl t))
  exact .ite (hu.trans ⟨rfl, rfl⟩) hu

theorem SameRun.releaseColumn (s : State) (k : KvShape) (lb col : Nat) : SameRun s (s.releaseColumn k lb col) := by
  unfold State.releaseColumn
  extract_lets n t
  have ht : SameRun s t := .foldl (fun s l => .ite ((SameRun.freePage ..).trans (.setRefs ..)) (.setRefs ..)) _ _
  exact .ite (ht.trans (.freeColumn ..)) ht

theorem SameRun.raiseRefs (s : State) (k : KvShape) (lb col : Nat) : SameRun s (s.raiseRefs k lb col) := .foldl (fun _ _ => .setRefs ..) _ _

theorem SameRun.copyLayer (s : State) (lb old new : Nat) : SameRun s (s.copyLayer lb old new) := by
  unfold State.copyLayer
  extract_lets page frame w t u
  have ht : SameRun s t := .lbWrite ..
  have hu : SameRun t u := .ite ((SameRun.setIxWord ..).since rfl rfl) ((SameRun.lbWrite ..).trans (.setIxWord ..))
  exact (ht.trans hu).trans (.setRefs ..)

theorem SameRun.copyColumn {k : KvShape} {lb st w j col : Nat} (h : s.copyColumn k lb st w j col = some t) : SameRun s t := by
  unfold State.copyColumn at h
  split at h
  · cases h
  · next u c hc =>
    have copies := SameRun.foldl (f := fun s l => s.copyLayer lb (col + l) (c + l)) (fun _ _ => .copyLayer ..) (List.range k.layers) u
    obtain ⟨v, hv⟩ : ∃ v, v = (List.range k.layers).foldl (fun s l => s.copyLayer lb (col + l) (c + l)) u := ⟨_, rfl⟩
    dsimp only at h
    rw [← hv] at h copies
    cases h
    refine SameRun.trans ?_ (.count ..)
    refine SameRun.trans ?_ (.setColumn ..)
    exact ((SameRun.newColumn hc).trans copies).trans ⟨rfl, rfl⟩

theorem SameRun.openPage {lb line : Nat} (h : s.openPage lb line = some t) : SameRun s t := by
  unfold State.openPage at h
  extract_lets u w back at h
  rw [Option.map_eq_some_iff] at h
  obtain ⟨v, hv, rfl⟩ := h
  have back : SameRun u v := by
    dsimp only [back] at hv
    split at hv
    · rw [Option.map_eq_some_iff] at hv
      obtain ⟨e, he, rfl⟩ := hv
      exact ((SameRun.takeFrame he).trans (.lbWrite ..)).trans (.setIxWord ..)
    · cases hv
      exact .refl u
  exact ((SameRun.dropSwitch ..).trans back).trans (.ite ((SameRun.setIxWord ..).since rfl rfl) (.refl v))

theorem SameRun.ensurePage {k : KvShape} {st first last : Nat} {hj : Nat × Nat} (h : s.ensurePage k st first last hj = some t) : SameRun s t := by
  unfold State.ensurePage at h
  split at h
  · cases h
    exact .refl s
  · split at h
    · rw [Option.map_eq_some_iff] at h
      obtain ⟨e, he, rfl⟩ := h
      exact (SameRun.newColumn he).trans (.setColumn ..)
    · split at h
      · cases h
        exact .refl s
      · split at h
        · exact .copyColumn h
        · exact .foldlM (fun _ _ _ => .openPage) _ h

theorem SameRun.ensureRing {k : KvShape} {st : Nat} {lh : Nat × Nat} (h : s.ensureRing k st lh = some t) : SameRun s t := by
  unfold State.ensureRing at h
  split at h
  · cases h
    exact .refl s
  · split at h
    · cases h
      exact .refl s
    · rw [Option.map_eq_some_iff] at h
      obtain ⟨e, he, rfl⟩ := h
      exact .takeFrame he

theorem SameRun.reserve {st first last : Nat} (h : s.reserve st first last = some t) : SameRun s t := by
  unfold State.reserve at h
  dsimp only at h
  split at h
  · cases h
  · split at h
    · cases h
    · next hu => exact (SameRun.foldlM (fun _ _ _ => .ensurePage) _ hu).trans (.foldlM (fun _ _ _ => .ensureRing) _ h)

theorem SameRun.releasePages (s : State) (st j0 : Nat) : SameRun s (s.releasePages st j0) := by
  refine (SameRun.foldl (fun s hj => .ite (.refl s) ?_) _ _).since rfl rfl
  split
  · exact .refl s
  · split
    · exact .refl s
    · exact (SameRun.releaseColumn ..).trans (.setColumn ..)

theorem SameRun.rewriteRow (s : State) (k : KvShape) (st layer w p : Nat) : SameRun s (s.rewriteRow k st layer w p) := by
  unfold State.rewriteRow
  split
  · split
    · exact .refl s
    · exact .lbWrite ..
  · exact .refl s

theorem SameRun.rewriteRing (s : State) (st len hiwrit : Nat) : SameRun s (s.rewriteRing st len hiwrit) :=
  .ite (.refl s) (.foldl (fun _ _ => .foldl (fun _ _ => .rewriteRow ..) _ _) _ _)

end

section
/-! The pagers (R270 to R279). -/

variable {s t : State}

theorem SameRun.eachHead {f : State → Nat → Nat → State} (hf : ∀ s lb h, SameRun s (f s lb h)) (s : State) (k : KvShape) (j : Nat) :
    SameRun s (s.eachHead k j f) := by
  refine .foldl (fun s h => ?_) _ _
  split
  · exact .refl s
  · exact hf ..

theorem SameRun.adoptColumn (s : State) (k : KvShape) (st j a lb w : Nat) : SameRun s (s.adoptColumn k st j a lb w) := by
  unfold State.adoptColumn
  split
  · exact .refl s
  · refine SameRun.trans ?_ (.setColumn ..)
    refine SameRun.trans ?_ (.raiseRefs ..)
    split
    · exact .releaseColumn ..
    · exact .refl s

theorem SameRun.matchBlock (s : State) (st : Nat) : SameRun s (s.matchBlock st).1 := by
  unfold State.matchBlock
  extract_lets x chain parent tokens k j
  split
  · exact .refl s
  · split
    · exact .ite (.raise ..) (.refl s)
    · split
      · exact .refl s
      · refine SameRun.trans ?_ (.setStream ..)
        refine SameRun.trans ?_ (.count ..)
        exact SameRun.trans (.ite (.eachHead (fun _ _ _ => .adoptColumn ..) ..) (.refl s)) ⟨rfl, rfl⟩

theorem SameRun.matchBlocks (s : State) (st n : Nat) : SameRun s (s.matchBlocks st n) := by
  induction n generalizing s with
  | zero => exact .refl s
  | succ n ih =>
    have h := SameRun.matchBlock s st
    unfold State.matchBlocks
    split
    · next hb =>
      rw [hb] at h
      exact h.trans (ih _)
    · next hb =>
      rw [hb] at h
      exact h

theorem SameRun.addNode (s : State) (st i key parent : Nat) (tokens : List Word) (a : Nat) : SameRun s (s.addNode st i key parent tokens a) := by
  unfold State.addNode
  dsimp only
  refine SameRun.trans ?_ (.eachHead (fun s lb h => ?_) ..)
  · exact .ite ⟨rfl, rfl⟩ ⟨rfl, rfl⟩
  split
  · exact .raiseRefs ..
  · exact .refl s

theorem SameRun.insertBlock (s : State) (st : Nat) : SameRun s (s.insertBlock st).1 := by
  unfold State.insertBlock
  extract_lets x chain i k parent tokens key move
  have moved : ∀ u a, SameRun u (move u a) := fun _ _ => .setStream ..
  split
  · exact .refl s
  · split
    · exact (moved ..).since rfl rfl
    · next c _ =>
      have ht : SameRun s (if c = true then s.raise .kvpg (s.blockPager st i) 3 else s) := .ite (.raise ..) (.refl s)
      dsimp only
      generalize (if c = true then s.raise .kvpg (s.blockPager st i) 3 else s) = t at ht
      split
      · exact ht
      · cases t.place 512 512 (Config.nodePlace t.draws) with
        | none => exact ht
        | some a => exact (ht.trans (.addNode ..)).trans (moved ..)

theorem SameRun.insertBlocks (s : State) (st n : Nat) : SameRun s (s.insertBlocks st n) := by
  induction n generalizing s with
  | zero => exact .refl s
  | succ n ih =>
    have h := SameRun.insertBlock s st
    unfold State.insertBlocks
    dsimp only
    split
    · exact .ite (.refl s) (.setStack ..)
    · split
      · next hb =>
        rw [hb] at h
        exact h.trans (ih _)
      · next hb =>
        rw [hb] at h
        exact (h.trans (.raise ..)).trans (.setStack ..)
      · next hb =>
        rw [hb] at h
        exact h

theorem SameRun.backupPage (s : State) (st w j l lb line : Nat) : SameRun s (s.backupPage st w j l lb line) := by
  refine .ite (.refl s) (.ite ⟨rfl, rfl⟩ (.ite (.refl s) ?_))
  cases s.place 64 33792 (Config.copyPlace s.draws) with
  | none => exact .refl s
  | some a =>
    refine SameRun.trans ?_ (.setIxWord ..)
    refine SameRun.trans ?_ (.lbWrite ..)
    exact ⟨rfl, rfl⟩

theorem SameRun.backupRing (s : State) (k : KvShape) (st l w : Nat) : SameRun s (s.backupRing k st l w) := by
  unfold State.backupRing
  split
  · exact .refl s
  · dsimp only
    cases lookup s.ringCopies (st * 4096 + l * 16 + w) with
    | some a => exact ⟨rfl, rfl⟩
    | none =>
      cases s.place 64 33792 (Config.copyPlace s.draws) with
      | none => exact .refl s
      | some a => exact ⟨rfl, rfl⟩

theorem SameRun.backup (s : State) (st : Nat) : SameRun s (s.backup st) := by
  refine .ite (.refl s) (SameRun.trans (.foldl (fun s hj => ?_) _ _) (.foldl (fun _ _ => .backupRing ..) _ _))
  split
  · exact .refl s
  · split
    · exact .refl s
    · exact .foldl (fun _ _ => .backupPage ..) _ _

theorem SameRun.examine (s : State) (x : Stream) (last : Nat) (e : Nat × Nat × Nat) : SameRun s (s.examine x last e) :=
  have add : ∀ v, SameRun s (s.addSwitch e.1 e.2.1 v) := fun _ => .setStack ..
  .ite (.refl s) (.ite (.ite (.ite (.ite (add _) (.refl s)) (add _)) (.refl s)) (.ite (add _) (.refl s)))

theorem SameRun.scan (s : State) (st k last : Nat) : SameRun s (s.scan st k last) := by
  unfold State.scan
  dsimp only
  split
  · exact .refl s
  · refine .ite (.refl s) (SameRun.trans ?_ (.setStream ..))
    exact .foldl (fun s (e : Nat × Nat × Nat × Nat) => .examine s _ last e.2) _ _

end

section
/-! Streams and draft links (R281, R285, R297 to R300). -/

variable {s t : State}

theorem SameRun.rollback (s : State) (st len : Nat) : SameRun s (s.rollback st len) :=
  ((SameRun.rewriteRing ..).trans (.releasePages ..)).trans (.setStream ..)

theorem SameRun.unlinkDraft (s : State) (t : Nat) : SameRun s (s.unlinkDraft t) := (SameRun.setRegI ..).trans (.setStream ..)

theorem SameRun.checkLink (s : State) (t : Nat) : SameRun s (s.checkLink t) :=
  .ite ((SameRun.unlinkDraft ..).trans (.raiseSampler ..)) (.refl s)

theorem SameRun.applyConfig (s : State) (i : Nat) : SameRun s (s.applyConfig i) := .setStream ..

theorem SameRun.resync (s : State) (t : Nat) : SameRun s (s.resync t) := by
  unfold State.resync
  extract_lets _ u x d y len carry queue v
  have hu : SameRun s u := .setStream ..
  have hv : SameRun u v := .ite (.rollback ..) (.refl u)
  exact .ite hu (.ite (hu.trans ((SameRun.unlinkDraft ..).trans (.raiseSampler ..))) ((hu.trans hv).trans (.putStream ..)))

end

end Sys2Proof.Machine
end

section
/-! PROOF. The choose and commit phases (O49): what each leaves of the sequencer's record, and the next step that the choose phase makes. -/

namespace Sys2Proof.Machine

section
/-! The commit (R228, R239, R298, R330). -/

variable {s t : State}

theorem SameRun.emitTokens (s : State) (x : Stream) (st step acc first : Nat) (l : List Nat) (done : Bool) (len : Nat) :
    SameRun s (s.emitTokens x st step acc first l done len) := by
  unfold State.emitTokens
  extract_lets r n u
  have hu : SameRun s u := .foldl (fun _ _ => .emit ..) _ _
  exact .ite (hu.trans (.emit ..)) hu

theorem SameRun.settle (s : State) (t : Step) (e : BatchEntry) (logits : List (List Word)) : SameRun s (s.settle t e logits) := by
  refine .ite (.refl s) (.ite (.putStream ..) ?_)
  split
  · next m r _ _ =>
    dsimp only
    generalize verify _ 0 _ = v
    obtain ⟨acc, chosen, ok⟩ := v
    dsimp only
    have counted : ∀ y, SameRun s ((s.putStream e.stream y).count .smpl 0 0x07C acc) := fun y => (SameRun.putStream ..).trans (.count ..)
    split
    · refine SameRun.trans ?_ (.setStream ..)
      exact .ite ((counted _).trans (.raiseSampler ..)) (counted _)
    · refine SameRun.trans ?_ (.emitTokens ..)
      exact .ite ((counted _).trans (.raiseSampler ..)) (counted _)
  · exact .refl s

theorem SameRun.kvCommit (s : State) (e : BatchEntry) : SameRun s (s.kvCommit e) := by
  unfold State.kvCommit
  dsimp only
  refine SameRun.trans (SameRun.trans ?_ (.backup ..)) (.foldl (fun _ _ => .scan ..) _ _)
  refine SameRun.trans (.ite (.setStream s e.stream _) (.refl s)) (.ite (.insertBlocks ..) (.refl _))

theorem SameRun.freshInterval (s : State) : SameRun s s.freshInterval := .foldl (fun _ _ => .setStack ..) _ _

theorem SameRun.setReg (s : State) (b : Blk) (i o : Nat) (v : Word) : SameRun s (s.setReg b i o v) := ⟨State.setReg_seq .., State.setReg_coresMode ..⟩

theorem SameRun.gateBerth (s : State) (b : Nat) : SameRun s (s.gateBerth b) := by
  refine SameRun.trans (t := s.setBerth b _) ⟨rfl, rfl⟩ (.ite ?_ (.refl _))
  exact ((SameRun.setReg ..).trans (.setReg ..)).trans (.setReg ..)

theorem SameRun.gateAll (s : State) : SameRun s s.gateAll := .foldl (fun s _ => .ite (.refl s) (.gateBerth ..)) _ _

/-- R228: the sequencer's record but for the step chosen next, and the mode of the cores, are the same. -/
structure SameStep (s t : State) : Prop where
  seq : t.seq = { s.seq with next := t.seq.next }
  mode : t.coresMode = s.coresMode

theorem SameRun.step (h : SameRun s t) : SameStep s t := ⟨by rw [h.seq], h.mode⟩

theorem SameStep.trans {u : State} (h : SameStep s t) (h' : SameStep t u) : SameStep s u :=
  ⟨h'.seq.trans (by rw [h.seq]), h'.mode.trans h.mode⟩

theorem SameStep.ite {u : State} {p : Prop} [Decidable p] (h : SameStep s t) (h' : SameStep s u) : SameStep s (if p then t else u) := by
  split
  · exact h
  · exact h'

theorem SameStep.holdNow (s : State) (l : List Nat) (c : Nat) : SameStep s (s.holdNow l c) := by
  obtain ⟨m, n, e⟩ := holdNow_only s l c
  rw [e]
  exact ⟨rfl, rfl⟩

/-- R327, R330: an image slot changes and its streams are held. -/
theorem SameStep.setImage_holdNow (s : State) (img : Nat) (x : ImageSt) (l : List Nat) (c : Nat) : SameStep s ((s.setImage img x).holdNow l c) :=
  SameStep.trans (t := s.setImage img x) ⟨rfl, rfl⟩ (.holdNow ..)

theorem SameStep.msiFault (s : State) : SameStep s s.msiFault := ⟨rfl, rfl⟩

theorem SameStep.holdBad (s : State) (img : Nat) : SameStep s (s.holdBad img) := by
  have held : ∀ x, SameStep s ((s.setImage img x).holdNow (s.streamsOf img) 2) := fun _ => .setImage_holdNow ..
  exact .ite (SameRun.refl s).step (.ite (held _) (.trans (held _) (.msiFault _)))

theorem SameStep.dueSwap (s : State) (img : Nat) : SameStep s (s.dueSwap img) := .ite (.setImage_holdNow ..) (SameRun.refl s).step

theorem SameStep.settleStop (s : State) : SameStep s s.settleStop := by
  refine .ite ?_ (SameRun.refl s).step
  have h : SameStep s s.gateAll.holdStop := (SameRun.gateAll s).step.trans (.holdNow ..)
  dsimp only
  generalize s.gateAll.holdStop = u at h ⊢
  exact h.trans ⟨rfl, rfl⟩

end

section
/-! The batch that the choose phase makes (R230, R233). -/

variable {s : State}

/-- R230, R233: an entry has at most 64 inputs and 8 drafts, and a token for each of them. -/
structure BatchEntry.Fits (e : BatchEntry) : Prop where
  nin : e.nin ≤ 64
  ndraft : e.ndraft ≤ 8
  tokens : e.tokens.length = e.nin + e.ndraft

theorem takeIn_spec (a : State × Nat × List BatchEntry) (i : Nat) :
    SameRun a.1 (takeIn a i).1 ∧ ∃ l, (takeIn a i).2.2 = a.2.2 ++ l ∧ l.length ≤ 1 ∧ ∀ e ∈ l, e.Fits := by
  obtain ⟨s, budget, es⟩ := a
  have nothing : ∃ l, es = es ++ l ∧ l.length ≤ 1 ∧ ∀ e ∈ l, e.Fits := ⟨[], by simp, by simp, by simp⟩
  unfold takeIn
  dsimp only
  split
  · exact ⟨.refl s, nothing⟩
  · have hm := SameRun.matchBlocks s i 64
    generalize s.matchBlocks i 64 = t at hm ⊢
    generalize hd : (!(t.stream i).drafts.isEmpty && !bit (t.stream i).scfg 6 && (t.stream i).carry && (t.stream i).queue.length == 1 &&
      min 64 (min (t.stream i).queue.length budget) == 1) = draftable
    have hu : SameRun s (if draftable = true then t else t.setStream i { t.stream i with drafts := [] }) := hm.trans (.ite (.refl t) (.setStream ..))
    generalize (if draftable = true then t else t.setStream i { t.stream i with drafts := [] }) = u at hu ⊢
    split
    · exact ⟨hu.trans (.status ..), nothing⟩
    · next v hv =>
      refine ⟨(hu.trans (.reserve hv)).trans (.setStream ..), _, rfl, le_rfl, ?_⟩
      intro e he
      rw [List.mem_singleton] at he
      subst he
      refine ⟨min_le_left .., ?_, ?_⟩ <;> dsimp only
      · split
        · omega
        · omega
      · simp only [List.length_append, List.length_take]
        split <;> omega

theorem takeAll_spec (l : List Nat) (a : State × Nat × List BatchEntry) :
    SameRun a.1 (l.foldl takeIn a).1 ∧ ∃ es, (l.foldl takeIn a).2.2 = a.2.2 ++ es ∧ es.length ≤ l.length ∧ ∀ e ∈ es, e.Fits := by
  induction l generalizing a with
  | nil => exact ⟨.refl _, [], by simp, le_rfl, by simp⟩
  | cons i l ih =>
    obtain ⟨h, es, he, hn, hf⟩ := takeIn_spec a i
    obtain ⟨h', es', he', hn', hf'⟩ := ih (takeIn a i)
    refine ⟨h.trans h', es ++ es', by rw [List.foldl_cons, he', he, List.append_assoc], by simp only [List.length_append, List.length_cons]; omega, ?_⟩
    exact fun e h => (List.mem_append.1 h).elim (hf e) (hf' e)

end

end Sys2Proof.Machine
end

section
/-! PROOF. Errors that a phase of the sequencer reports (O49): what the folds over table reads and over flagged berths change and which bits they set. -/

namespace Sys2Proof.Machine

variable {s t u : State}

/-- R283, R303: from `s` to `t` errors have been raised, and nothing but registers and the fault handler's record changed. -/
structure Reported (s t : State) : Prop where
  rest : t = { s with regs := t.regs, flt := t.flt }
  wf : Sparse.wf regReset s.regs = true → Sparse.wf regReset t.regs = true
  keep : Sparse.wf regReset s.regs = true → ∀ {b i n}, s.errSet b i n = true → t.errSet b i n = true

theorem Reported.refl (s : State) : Reported s s := ⟨rfl, id, fun _ _ _ _ h => h⟩

theorem Reported.trans (h : Reported s t) (h' : Reported t u) : Reported s u :=
  ⟨h'.rest.trans (by rw [h.rest]), h'.wf ∘ h.wf, fun w _ _ _ e => h'.keep (h.wf w) (h.keep w e)⟩

theorem Reported.ite {p : Prop} [Decidable p] (h : Reported s t) (h' : Reported s u) : Reported s (if p then t else u) := by
  split
  · exact h
  · exact h'

theorem Reported.foldl {α : Type} {f : State → α → State} (hf : ∀ s a, Reported s (f s a)) (l : List α) (s : State) : Reported s (l.foldl f s) :=
  foldl_rel Reported.refl Reported.trans hf l s

theorem Reported.raise (s : State) (b : Blk) (i n : Nat) : Reported s (s.raise b i n) := by
  refine ⟨?_, wf_raise, fun w _ _ _ h => errSet_raise_mono w h⟩
  obtain ⟨m, f, e⟩ := raise_only s b i n
  rw [e]

/-- A bit that one step of a fold sets stands at the end. -/
theorem Reported.foldl_sets {α : Type} {f : State → α → State} (hf : ∀ s a, Reported s (f s a)) (hw : Sparse.wf regReset s.regs = true) {a : α}
    {l : List α} (ha : a ∈ l) {b : Blk} {i n : Nat} (set : ∀ t, Reported s t → (f t a).errSet b i n = true) : (l.foldl f s).errSet b i n = true := by
  obtain ⟨l₁, l₂, rfl⟩ := List.append_of_mem ha
  rw [List.foldl_append, List.foldl_cons]
  have h := Reported.foldl hf l₁ s
  exact (Reported.foldl hf l₂ _).keep ((hf ..).wf (h.wf hw)) (set _ h)

theorem errSet_raise_self {b : Blk} {i n : Nat} {c : ErrClass} (h : Sparse.wf regReset s.regs = true) (hc : errClass b i n = some c) (hn : n < 32) :
    (s.raise b i n).errSet b i n = true := by
  obtain ⟨m, f, e, hs⟩ := raise_any h hc hn
  rw [e]
  exact hs

-- what the pagers read

theorem Reported.tableRead (s : State) (k : Nat) (e : EccOutcome) : Reported s (s.tableRead k e) := by
  cases e with
  | clean => exact .refl s
  | corrected => exact .raise s .kvpg k 0
  | uncorrectable => exact .raise s .kvpg k 1

theorem Reported.tableReads (s : State) (l : List (Stack × EccOutcome)) : Reported s (s.tableReads l) := .foldl (fun _ _ => .tableRead ..) l s

theorem tablesLost_iff {l : List (Stack × EccOutcome)} : tablesLost l = true ↔ ∃ e ∈ l, e.2 = .uncorrectable := by
  simp [tablesLost]

/-- R283: a pager that cannot read its tables sets its error. -/
theorem tableReads_errSet {l : List (Stack × EccOutcome)} (hw : Sparse.wf regReset s.regs = true) {e : Stack × EccOutcome} (he : e ∈ l)
    (hu : e.2 = .uncorrectable) : (s.tableReads l).errSet .kvpg e.1.val 1 = true := by
  refine Reported.foldl_sets (fun _ _ => .tableRead ..) hw he fun t ht => ?_
  rw [hu]
  exact errSet_raise_self (ht.wf hw) rfl (by omega)

-- the berths that the prepare phase reports

/-- R227, R303: an error of the samplers of the berths that a list of logical berths names. -/
def State.flagged (s : State) (l : List (Fin 80)) (n : Nat) : State := l.foldl (fun s b => match s.physOf b.val with
  | some p => s.raise .smpl p n
  | none => s) s

theorem Reported.flagged (s : State) (l : List (Fin 80)) (n : Nat) : Reported s (s.flagged l n) := by
  refine .foldl (fun s b => ?_) l s
  split
  · exact .raise ..
  · exact .refl s

theorem Reported.physOf (h : Reported s t) (l : Nat) : t.physOf l = s.physOf l := by rw [h.rest]; rfl

theorem flagged_errSet {l : List (Fin 80)} {n : Nat} {c : ErrClass} (hw : Sparse.wf regReset s.regs = true) {b : Fin 80} (hb : b ∈ l) {p : Nat}
    (hp : s.physOf b.val = some p) (hc : errClass .smpl p n = some c) (hn : n < 32) : (s.flagged l n).errSet .smpl p n = true := by
  refine Reported.foldl_sets (fun s b => ?_) hw hb fun t ht => ?_
  · split
    · exact .raise ..
    · exact .refl s
  · rw [ht.physOf, hp]
    exact errSet_raise_self (ht.wf hw) hc hn

end Sys2Proof.Machine
end

section
/-! PROOF. The choose phase (O49): the order of a batch, and the step that is chosen next. -/

namespace Sys2Proof.Machine

section
/-! The order of a batch (R230). -/

theorem Sparse.length_insert_le {α : Type} (m : List (Nat × α)) (k : Nat) (v : α) : (Sparse.insert m k v).length ≤ m.length + 1 := by
  fun_induction Sparse.insert m k v <;> simp_all only [List.length_cons, List.length_nil] <;> omega

theorem Sparse.length_insert_pos {α : Type} (m : List (Nat × α)) (k : Nat) (v : α) : 0 < (Sparse.insert m k v).length := by
  fun_induction Sparse.insert m k v <;> exact Nat.succ_pos _

/-- R230: entries by stream, as `inOrder` sorts them, after the entries of `a`. -/
theorem byStream_spec (l : List BatchEntry) (a : List (Nat × BatchEntry)) (ha : ∀ e ∈ a, e.2.Fits) (hl : ∀ e ∈ l, e.Fits) :
    let b := l.foldl (fun a e => Sparse.insert a e.stream e) a
    b.length ≤ a.length + l.length ∧ (a ≠ [] ∨ l ≠ [] → b ≠ []) ∧ ∀ e ∈ b, e.2.Fits := by
  induction l generalizing a with
  | nil => exact ⟨le_rfl, fun h => h.resolve_right (· rfl), ha⟩
  | cons e l ih =>
    have hmem : ∀ x ∈ Sparse.insert a e.stream e, x.2.Fits := fun x hx =>
      (Sparse.mem_insert hx).elim (fun h => h ▸ hl e List.mem_cons_self) (ha x)
    obtain ⟨hn, hne, hf⟩ := ih _ hmem fun x hx => hl x (List.mem_cons_of_mem _ hx)
    have hle := Sparse.length_insert_le a e.stream e
    refine ⟨?_, fun _ => hne (.inl (List.ne_nil_of_length_pos (Sparse.length_insert_pos ..))), hf⟩
    rw [List.length_cons]
    exact hn.trans (by omega)

theorem length_withBases (b : Nat) (l : List BatchEntry) : (withBases b l).length = l.length := by
  induction l generalizing b with
  | nil => rfl
  | cons e l ih => rw [withBases, List.length_cons, List.length_cons, ih]

theorem withBases_fits {b : Nat} {l : List BatchEntry} (h : ∀ e ∈ l, e.Fits) : ∀ e ∈ withBases b l, e.Fits := by
  induction l generalizing b with
  | nil => exact h
  | cons e l ih =>
    obtain ⟨he, hl⟩ := List.forall_mem_cons.1 h
    exact List.forall_mem_cons.2 ⟨⟨he.nin, he.ndraft, he.tokens⟩, ih hl⟩

theorem inOrder_spec {l : List BatchEntry} (hne : l ≠ []) (hl : ∀ e ∈ l, e.Fits) :
    1 ≤ (inOrder l).length ∧ (inOrder l).length ≤ l.length ∧ ∀ e ∈ inOrder l, e.Fits := by
  obtain ⟨hn, h1, hf⟩ := byStream_spec l [] (by simp) hl
  unfold inOrder
  rw [length_withBases, List.length_map]
  refine ⟨List.length_pos_iff.2 (h1 (.inr hne)), by simpa using hn, withBases_fits fun e he => ?_⟩
  obtain ⟨x, hx, rfl⟩ := List.mem_map.1 he
  exact hf x hx

end

section
/-! The next step (R233). -/

variable {s t : State}

theorem next_none_of_chooses (h : s.chooses = true) : s.seq.next = none := by
  unfold State.chooses at h
  simp only [Bool.and_eq_true, Option.isNone_iff_eq_none] at h
  exact h.1.2

/-- R230, R233: a next step as the choose phase makes it, after the step of id `id`. -/
structure Step.Chosen (id : Nat) (u : Step) : Prop where
  id : u.id = id + 1
  prepared : u.prepared = false
  copy : u.copy = none
  some_entry : 1 ≤ u.entries.length
  most : u.entries.length ≤ 64
  fits : ∀ e ∈ u.entries, e.Fits

/-- R233: what the choose phase makes of a state in which no step is chosen. -/
structure Chooses (s t : State) : Prop where
  running : t.seq.running = s.seq.running
  stepId : t.seq.stepId = s.seq.stepId
  mode : t.coresMode = s.coresMode
  next : ∀ u, t.seq.next = some u → u.Chosen s.seq.stepId

theorem SameRun.chooses (h : SameRun s t) (hs : s.seq.next = none) : Chooses s t :=
  ⟨by rw [h.seq], by rw [h.seq], h.mode, fun u hu => by rw [h.seq, hs] at hu; cases hu⟩

theorem choosePhase_idle (tables : List (Stack × EccOutcome)) (h : s.chooses = false) : exec (.choosePhase tables) s = .next s :=
  congrArg Host.Outcome.next (if_pos (by rw [h]; rfl))

theorem choosePhase_lost {tables : List (Stack × EccOutcome)} (h : s.chooses = true) (hl : tablesLost tables = true) :
    exec (.choosePhase tables) s = .next (s.tableReads tables) := by
  refine congrArg Host.Outcome.next ((if_neg ?_).trans (if_pos hl))
  rw [h]
  simp

theorem choosePhase_spec {tables : List (Stack × EccOutcome)} (h : s.chooses = true) (hl : tablesLost tables = false) :
    ∃ t, exec (.choosePhase tables) s = .next t ∧ Chooses s t := by
  refine ⟨_, congrArg Host.Outcome.next ((if_neg (by rw [h]; simp)).trans (if_neg (by rw [hl]; simp))), ?_⟩
  extract_lets t live u v ready
  have hv : SameRun s v := ((SameRun.tableReads s tables).trans (.foldl (fun _ _ => .applyConfig ..) live t)).trans (.foldl (fun _ _ => .checkLink ..) live u)
  have hs := next_none_of_chooses h
  split
  · exact hv.chooses hs
  next img _ =>
  extract_lets progs cands
  obtain ⟨hw, es, he, hn, hf⟩ := takeAll_spec cands (v.drawn, ((progs.getLast?).map (fun p => p.2.capacity)).getD 0, [])
  have hc : cands.length ≤ 64 := List.length_take_le ..
  have hv' : SameRun s v.drawn := hv.trans ⟨rfl, rfl⟩
  generalize cands.foldl takeIn _ = r at hw he ⊢
  obtain ⟨w, _, l⟩ := r
  have hw : SameRun s w := hv'.trans hw
  rw [List.nil_append] at he
  dsimp only at he ⊢
  subst he
  split
  · exact hw.chooses hs
  next hne =>
  obtain ⟨h1, h64, hfit⟩ := inOrder_spec (by simpa using hne) hf
  refine ⟨?_, ?_, ?_, ?_⟩
  · show w.seq.running = _
    rw [hw.seq]
  · show w.seq.stepId = _
    rw [hw.seq]
  · exact hw.mode
  · intro u hu
    obtain rfl := Option.some.inj hu
    exact ⟨congrArg (· + 1) (congrArg Seq.stepId hw.seq), rfl, rfl, h1, h64.trans (hn.trans hc), hfit⟩

end

end Sys2Proof.Machine
end

section
/-! PROOF. The prepare phase (O49): what the reported berths set, that the records do not depend on them, and that a step's inputs change store dies
and its own streams alone. -/

namespace Sys2Proof.Machine

section
/-! The retained inputs go to store dies (R227). -/

variable {s t u : State}

/-- R83, R198, R227: from `s` to `t` the contents of store dies have changed, with their waiting reads and activation counts. -/
structure StoresWritten (s t : State) : Prop where
  inv : Inv s → Inv t
  rest : t = { s with berths := t.berths }
  berth : Inv s → ∀ b, t.berth b = { s.berth b with store := (t.berth b).store, entries := (t.berth b).entries, activations := (t.berth b).activations }

theorem StoresWritten.refl (s : State) : StoresWritten s s := ⟨id, rfl, fun _ _ => rfl⟩

theorem StoresWritten.trans (h : StoresWritten s t) (h' : StoresWritten t u) : StoresWritten s u :=
  ⟨h'.inv ∘ h.inv, h'.rest.trans (by rw [h.rest]), fun hi b => (h'.berth (h.inv hi) b).trans (by rw [h.berth hi b])⟩

theorem StoresWritten.storeWrite (s : State) (b off : Nat) (data : List Byte) : StoresWritten s (s.storeWrite b off data) := by
  refine ⟨fun hi => hi.storeWrite b off data, rfl, fun hi d => ?_⟩
  obtain ⟨-, hb, ho⟩ := storeWrite_spec hi b off data
  by_cases hd : d = b
  · subst hd
    rw [hb]
  · rw [ho d hd]

theorem StoresWritten.lbPut (s : State) (lb off : Nat) (data : List Byte) : StoresWritten s (s.lbPut lb off data) := by
  unfold State.lbPut
  split
  · exact .storeWrite ..
  · exact .refl s

theorem StoresWritten.lbMirror (s : State) (lb off : Nat) (data : List Byte) : StoresWritten s (s.lbMirror lb off data) :=
  (StoresWritten.lbPut ..).trans (.lbPut ..)

theorem StoresWritten.writeInputs (s : State) (t : Step) (lb : Nat) : StoresWritten s (s.writeInputs t lb) := by
  unfold State.writeInputs
  dsimp only
  split
  · exact .lbMirror ..
  · exact ((StoresWritten.lbMirror ..).trans (.lbMirror ..)).trans (.lbMirror ..)

theorem StoresWritten.writeAll (s : State) (t : Step) (l : List Nat) : StoresWritten s (l.foldl (fun s lb => s.writeInputs t lb) s) :=
  foldl_rel StoresWritten.refl StoresWritten.trans (fun s lb => .writeInputs s t lb) l s

end

section
/-! The inputs leave their queues, and the records of a batch (R227, R291). -/

variable {s t : State}

/-- R227: taking the inputs of a batch changes its own streams alone. -/
theorem takeInputs_spec (l : List BatchEntry) (s : State) : ∃ ss, l.foldl State.takeInputs s = { s with streams := ss } ∧
    ∀ i, (∀ e ∈ l, e.stream ≠ i) → ({ s with streams := ss } : State).stream i = s.stream i := by
  induction l generalizing s with
  | nil => exact ⟨s.streams, rfl, fun _ _ => rfl⟩
  | cons e l ih =>
    obtain ⟨ss, h, hs⟩ := ih (s.takeInputs e)
    refine ⟨ss, h, fun i hne => (hs i fun x hx => hne x (List.mem_cons_of_mem _ hx)).trans ?_⟩
    exact State.stream_setStream_other (Ne.symm (hne e List.mem_cons_self))

theorem masksFor_regs (m : List (Nat × Word)) (f : Flt) (g : Gram) (q : Nat) (l : List Word) :
    ({ s with regs := m, flt := f } : State).masksFor g q l = s.masksFor g q l := by
  induction l generalizing q with
  | nil => rfl
  | cons d l ih =>
    show (if (s.maskOf g q).testBit d.toNat then _ :: State.masksFor _ g (s.gramNext g q d.toNat) l else _) = _
    rw [ih]
    rfl

/-- R291: a sampling record does not depend on registers or on reported errors. -/
theorem Reported.withRecord (h : Reported s t) (e : BatchEntry) : t.withRecord e = s.withRecord e := by
  rw [h.rest]
  unfold State.withRecord State.sampleRecord
  simp only [masksFor_regs]
  rfl

theorem Reported.inv (h : Reported s t) (hi : Inv s) : Inv t := by
  rw [h.rest]
  exact { hi with regs := h.wf hi.regs }

end

section
/-! The phase (R227). -/

variable {s : State}

theorem preparePhase_none (bad rec tab corr : List (Fin 80)) (h : s.seq.next = none) : exec (.preparePhase bad rec tab corr) s = .next s := by
  refine congrArg Host.Outcome.next ?_
  rw [h]

theorem preparePhase_waits (bad rec tab corr : List (Fin 80)) {t : Step} (h : s.seq.next = some t) (hw : t.prepared = true ∨ s.flt.phase ≠ .idle) :
    exec (.preparePhase bad rec tab corr) s = .next s := by
  refine congrArg Host.Outcome.next ?_
  rw [h]
  exact if_pos (by simpa using hw)

/-- R227, R303: the errors of a step that could not be prepared. -/
def State.unprepared (s : State) (bad rec tab corr : List (Fin 80)) : State :=
  (((if bad.isEmpty then s else s.raise .schd 0 1).flagged rec 5).flagged tab 1).flagged corr 0

theorem preparePhase_bad {bad rec tab corr : List (Fin 80)} {t : Step} (h : s.seq.next = some t) (hp : t.prepared = false) (hi : s.flt.phase = .idle)
    (hb : bad ≠ [] ∨ rec ≠ [] ∨ tab ≠ []) : exec (.preparePhase bad rec tab corr) s = .next (s.unprepared bad rec tab corr) := by
  refine congrArg Host.Outcome.next ?_
  rw [h]
  refine (if_neg (by simp [hp, hi])).trans (if_pos ?_)
  simpa [or_assoc, imp_iff_not_or] using hb

theorem unprepared_spec (hw : Sparse.wf regReset s.regs = true) (bad rec tab corr : List (Fin 80)) :
    let v := s.unprepared bad rec tab corr
    Reported s v ∧ (bad ≠ [] → v.errSet .schd 0 1 = true) ∧ (∀ b ∈ rec, ∀ p, s.physOf b.val = some p → v.errSet .smpl p 5 = true) ∧
      ∀ b ∈ tab, ∀ p, s.physOf b.val = some p → v.errSet .smpl p 1 = true := by
  unfold State.unprepared
  have ht : Reported s (if bad.isEmpty then s else s.raise .schd 0 1) := .ite (.refl s) (.raise ..)
  have hbad : bad ≠ [] → (if bad.isEmpty then s else s.raise .schd 0 1).errSet .schd 0 1 = true := fun hb => by
    rw [if_neg (by simpa using hb)]
    exact errSet_raise_self hw rfl (by omega)
  generalize (if bad.isEmpty then s else s.raise .schd 0 1) = t at ht hbad
  have hu := Reported.flagged t rec 5
  have hv := Reported.flagged (t.flagged rec 5) tab 1
  have hx := Reported.flagged ((t.flagged rec 5).flagged tab 1) corr 0
  have wt := ht.wf hw
  refine ⟨((ht.trans hu).trans hv).trans hx, fun hb => ?_, fun b hb p hp => ?_, fun b hb p hp => ?_⟩
  · exact (hu.trans (hv.trans hx)).keep wt (hbad hb)
  · exact (hv.trans hx).keep (hu.wf wt) (flagged_errSet wt hb ((ht.physOf _).trans hp) rfl (by omega))
  · exact hx.keep (hv.wf (hu.wf wt)) (flagged_errSet (hu.wf wt) hb (((ht.trans hu).physOf _).trans hp) rfl (by omega))

/-- R227, R291: a step with its sampling records. -/
def State.withRecords (s : State) (t : Step) : Step := { t with prepared := true, entries := t.entries.map s.withRecord }

theorem preparePhase_good (corr : List (Fin 80)) {t : Step} (h : s.seq.next = some t) (hp : t.prepared = false) (hi : s.flt.phase = .idle) :
    let v := s.flagged corr 0
    let u := v.withRecords t
    let w := (List.range 80).foldl (fun s lb => s.writeInputs u lb) (u.entries.foldl State.takeInputs v)
    exec (.preparePhase [] [] [] corr) s = .next { w with seq := { w.seq with next := some u } } := by
  refine congrArg Host.Outcome.next ?_
  rw [h]
  exact if_neg (by simp [hp, hi])

/-- R227: what a step that is prepared changes. -/
theorem preparePhase_spec (hinv : Inv s) (corr : List (Fin 80)) {t : Step} (h : s.seq.next = some t) (hp : t.prepared = false)
    (hi : s.flt.phase = .idle) : ∃ ss bs, exec (.preparePhase [] [] [] corr) s = .next { s with
        regs := (s.flagged corr 0).regs, flt := (s.flagged corr 0).flt, streams := ss, berths := bs
        seq := { s.seq with next := some (s.withRecords t) } } ∧
      (∀ b, let x := ({ s with berths := bs } : State).berth b
        x = { s.berth b with store := x.store, entries := x.entries, activations := x.activations }) ∧
      ∀ i, (∀ e ∈ t.entries, e.stream ≠ i) → ({ s with streams := ss } : State).stream i = s.stream i := by
  rw [preparePhase_good corr h hp hi]
  have hv := Reported.flagged s corr 0
  have hg := hv.inv hinv
  generalize s.flagged corr 0 = v at hv hg ⊢
  have hu : v.withRecords t = s.withRecords t := congrArg (fun l => { t with prepared := true, entries := l }) (List.map_congr_left fun e _ => hv.withRecord e)
  dsimp only
  rw [hu]
  obtain ⟨ss, he, hs⟩ := takeInputs_spec (s.withRecords t).entries v
  rw [he]
  have hw := StoresWritten.writeAll { v with streams := ss } (s.withRecords t) (List.range 80)
  generalize (List.range 80).foldl _ _ = w at hw ⊢
  refine ⟨ss, w.berths, ?_, fun b => ?_, fun i hne => ?_⟩
  · rw [hw.rest, hv.rest]
  · exact hw.berth { hg with } b |>.trans (by rw [hv.rest]; rfl)
  · refine (hs i fun e he => ?_).trans (by rw [hv.rest]; rfl)
    obtain ⟨x, hx, rfl⟩ := List.mem_map.1 he
    exact hne x hx

end

end Sys2Proof.Machine
end

section
/-! PROOF. The commit of a step, and the phases together (O49). -/

namespace Sys2Proof.Machine

section
/-! The commit (R228, R239, R283, R330). -/

variable {s : State} {logits : List (List (List Word))} {tables : List (Stack × EccOutcome)}

theorem stepCommit_waits (h : s.seq.cur = none ∨ s.seq.finished = false ∨ s.flt.phase ≠ .idle ∨ s.flt.msgs ≠ []) :
    exec (.stepCommit logits tables) s = .next s := by
  refine congrArg Host.Outcome.next ?_
  split
  · rfl
  next t ht =>
  refine if_pos ?_
  simpa [ht, imp_iff_not_or, or_assoc] using h

/-- R228, R239: the last barrier has released, and no fault is reported or handled. -/
structure State.Commits (s : State) (t : Step) : Prop where
  cur : s.seq.cur = some t
  finished : s.seq.finished = true
  idle : s.flt.phase = .idle
  clear : s.flt.msgs = []

theorem stepCommit_lost {t : Step} (h : s.Commits t) (hl : tablesLost tables = true) :
    exec (.stepCommit logits tables) s = .next (s.tableReads tables) := by
  refine congrArg Host.Outcome.next ?_
  rw [h.cur]
  exact (if_neg (by simp [h.finished, h.idle, h.clear])).trans (if_pos hl)

/-- R228, R462: the step of the sequencer's record `q` is over and the cores idle. -/
def State.endsStep (s : State) (q : Seq) : State :=
  { s with seq := { q with cur := none, finished := false }, coresMode := .idle, flt := { s.flt with aborted := false } }

/-- R330: a copy step before the last has committed. -/
def State.copied (s : State) (q : Seq) (t : Step) (layer : Nat) : State :=
  (s.endsStep q).setImage t.image { s.image t.image with copyNext := layer + 1, copyTurn := true }

theorem stepCommit_copy {t : Step} (h : s.Commits t) (hl : tablesLost tables = false) {layer : Nat} (hc : t.copy = some layer) {m : Manifest}
    (hm : (s.image t.image).stagedManifest = some m) (hn : layer + 1 < m.layers.length) (ho : s.cool.st ≠ .orderly) :
    exec (.stepCommit logits tables) s = .next ((s.tableReads tables).copied s.seq t layer) := by
  have hr := (Reported.tableReads s tables).rest
  refine congrArg Host.Outcome.next ?_
  rw [h.cur]
  refine (if_neg (by simp [h.finished, h.idle, h.clear])).trans ((if_neg (by simp [hl])).trans ?_)
  rw [hc]
  generalize s.tableReads tables = v at hr ⊢
  have him : v.image t.image = s.image t.image := by rw [hr]; rfl
  have hcopy : (v.endsStep s.seq).copyCommitted t.image layer = v.copied s.seq t layer := by
    refine if_pos ?_
    show layer + 1 < match (v.image t.image).stagedManifest with | some m => m.layers.length | none => 0
    rw [him, hm]
    exact hn
  show ((v.endsStep s.seq).copyCommitted t.image layer).settleStop = _
  rw [hcopy]
  refine if_neg fun hs => ho ?_
  rw [hr] at hs
  exact hs.1

/-- R239: the results of a step's streams. -/
def State.settleAll (s : State) (t : Step) (logits : List (List (List Word))) : State :=
  ((List.range t.entries.length).zip t.entries).foldl (fun s e => s.settle t e.2 (logits.getD e.1 [])) s

/-- R270, R275, R300: what the pagers and the draft links do after a step, and since when its streams are ready. -/
def State.streamsCommit (s : State) (t : Step) : State :=
  let s := t.entries.foldl (fun s e => if (s.stream e.stream).state = .free then s else s.kvCommit e) s.freshInterval
  let s := t.entries.foldl (fun s e => s.resync e.stream) s
  t.entries.foldl (fun s e => s.putStream e.stream { s.stream e.stream with readySince := s.stamp.toNat }) s

theorem SameRun.settleAll (s : State) (t : Step) (logits : List (List (List Word))) : SameRun s (s.settleAll t logits) :=
  .foldl (fun _ _ => .settle ..) _ s

theorem SameRun.streamsCommit (s : State) (t : Step) : SameRun s (s.streamsCommit t) :=
  (((SameRun.freshInterval s).trans (.foldl (fun s _ => .ite (.refl s) (.kvCommit ..)) _ _)).trans (.foldl (fun _ _ => .resync ..) _ _)).trans
    (.foldl (fun _ _ => .putStream ..) _ _)

/-- R327, R330, R433: after a commit, bad shards, a swap asked for and an orderly stop take effect. -/
theorem SameStep.after (s : State) (img : Nat) : SameStep s ((s.holdBad img).dueSwap img).settleStop :=
  ((SameStep.holdBad s img).trans (.dueSwap ..)).trans (.settleStop _)

theorem stepCommit_step {t : Step} (h : s.Commits t) (hl : tablesLost tables = false) (hc : t.copy = none) :
    let v := (s.tableReads tables).settleAll t logits
    exec (.stepCommit logits tables) s = .next ((((v.endsStep v.seq).streamsCommit t).holdBad t.image).dueSwap t.image).settleStop := by
  refine congrArg Host.Outcome.next ?_
  rw [h.cur]
  refine (if_neg (by simp [h.finished, h.idle, h.clear])).trans ((if_neg (by simp [hl])).trans ?_)
  rw [hc]
  rfl

/-- R228, R239: the step is over and the cores idle, and the count of replays stays. -/
theorem stepCommit_ends {t : Step} (h : s.Commits t) (hl : tablesLost tables = false) (hc : t.copy = none) :
    ∃ u, exec (.stepCommit logits tables) s = .next u ∧ u.seq.cur = none ∧ u.seq.finished = false ∧ u.seq.replay = s.seq.replay ∧
      u.coresMode = .idle := by
  refine ⟨_, stepCommit_step h hl hc, ?_⟩
  have hv : SameRun s ((s.tableReads tables).settleAll t logits) := (SameRun.tableReads ..).trans (.settleAll ..)
  generalize (s.tableReads tables).settleAll t logits = v at hv ⊢
  have hu := (SameRun.streamsCommit (v.endsStep v.seq) t).step.trans (.after _ t.image)
  generalize ((((v.endsStep v.seq).streamsCommit t).holdBad t.image).dueSwap t.image).settleStop = u at hu ⊢
  rw [hu.seq, ← hv.seq]
  exact ⟨rfl, rfl, rfl, hu.mode⟩

end

section
/-! The phases together. -/

theorem not_lost {tables : List (Stack × EccOutcome)} (h : ∀ e ∈ tables, e.2 ≠ .uncorrectable) : tablesLost tables = false := by
  rw [Bool.eq_false_iff, Ne, tablesLost_iff]
  exact fun ⟨e, he, hu⟩ => h e he hu

/-- R283: what a phase leaves that a pager's tables stop. -/
theorem tableReads_lost {s : State} (hw : Sparse.wf regReset s.regs = true) (tables : List (Stack × EccOutcome)) :
    ∃ m f, s.tableReads tables = { s with regs := m, flt := f } ∧
      ∀ e ∈ tables, e.2 = .uncorrectable → ({ s with regs := m } : State).errSet .kvpg e.1.val 1 = true :=
  ⟨_, _, (Reported.tableReads s tables).rest, fun _ he hu => errSet_of (tableReads_errSet hw he hu) rfl⟩

/-- R330: a copy step that is not the last moves its slot to the next layer; clean tables report nothing. -/
theorem copied_only (s : State) (tables : List (Stack × EccOutcome)) (t : Step) (layer : Nat) : ∃ m f,
    (s.tableReads tables).copied s.seq t layer = ({ s with
      regs := m, seq := { s.seq with cur := none, finished := false }, coresMode := .idle, flt := { f with aborted := false } } : State).setImage
        t.image { s.image t.image with copyNext := layer + 1, copyTurn := true } ∧ (tables = [] → m = s.regs ∧ f = s.flt) := by
  have hr := (Reported.tableReads s tables).rest
  refine ⟨(s.tableReads tables).regs, (s.tableReads tables).flt, ?_, by rintro rfl; exact ⟨rfl, rfl⟩⟩
  generalize s.tableReads tables = v at hr ⊢
  rw [hr]
  rfl

/-- Settles O49: choose and commit keep the sequencer's record but for the step that they make or end (`SameRun`, `SameStep`), prepare writes store
dies alone (`StoresWritten`), and what a phase could not read or write is reported (`Reported`). -/
theorem stepPhases : Obligations.StepPhases := by
  intro s hi tables
  have hlost := tableReads_lost hi.regs tables
  refine ⟨choosePhase_idle tables, fun hc hl => ?_, fun hc hl => ?_, preparePhase_none, fun bad rec tab corr t ht => ⟨?_, ?_, ?_⟩,
    fun logits => ⟨stepCommit_waits, fun hc hf hp hm hl => ?_, fun t hc hf hp hm ho hl => ⟨fun layer m hcopy hman hn => ?_, ?_⟩⟩⟩
  · obtain ⟨m, f, he, hset⟩ := hlost
    exact ⟨m, f, (choosePhase_lost hc (tablesLost_iff.2 hl)).trans (congrArg _ he), hset⟩
  · obtain ⟨t, he, h⟩ := choosePhase_spec hc (not_lost hl)
    refine ⟨t, he, h.running, h.stepId, h.mode, ?_⟩
    cases hn : t.seq.next with
    | none => trivial
    | some u =>
      have hu := h.next u hn
      exact ⟨hu.id, hu.prepared, hu.copy, hu.some_entry, hu.most, fun e he => ⟨(hu.fits e he).nin, (hu.fits e he).ndraft, (hu.fits e he).tokens⟩⟩
  · exact preparePhase_waits bad rec tab corr ht
  · intro hp hidle hb
    obtain ⟨hr, h1, h2, h3⟩ := unprepared_spec hi.regs bad rec tab corr
    exact ⟨_, _, (preparePhase_bad ht hp hidle hb).trans (congrArg _ hr.rest), fun h => errSet_of (h1 h) rfl,
      fun b hb p hp => errSet_of (h2 b hb p hp) rfl, fun b hb p hp => errSet_of (h3 b hb p hp) rfl⟩
  · intro hp hidle
    obtain ⟨ss, bs, he, hberth, hstream⟩ := preparePhase_spec hi corr ht hp hidle
    refine ⟨_, _, ss, bs, he, fun b hb p hp => ?_, ?_, hberth, hstream⟩
    · exact errSet_of (flagged_errSet hi.regs hb hp (c := .corrected) rfl (by omega)) rfl
    · rintro rfl
      exact ⟨rfl, rfl⟩
  · obtain ⟨t, ht⟩ := Option.ne_none_iff_exists'.1 hc
    obtain ⟨m, f, he, hset⟩ := hlost
    exact ⟨m, f, (stepCommit_lost ⟨ht, hf, hp, hm⟩ (tablesLost_iff.2 hl)).trans (congrArg _ he), hset⟩
  · obtain ⟨m', f, he, hclean⟩ := copied_only s tables t layer
    exact ⟨m', f, (stepCommit_copy ⟨hc, hf, hp, hm⟩ (not_lost hl) hcopy hman hn ho).trans (congrArg _ he), hclean⟩
  · exact stepCommit_ends ⟨hc, hf, hp, hm⟩ (not_lost hl)

end

end Sys2Proof.Machine
end

section
/-! PROOF. The pagers' commands (O47): waiting insertions, the removal of nodes, changes of LOC, the copies under way and READ_PAGE. -/

namespace Sys2Proof.Machine

section
/-! Insertions that wait (R279), at the pager that deals with their block (log entry 42). -/

variable {s : State} {k : Stack} {tb : EccOutcome} {st : Nat} {rest : List Nat}

theorem insertResume_none (h : (s.stack k.val).inserts = []) : exec (.prefixInsertResume k tb) s = .next s := by
  refine congrArg Host.Outcome.next ?_
  dsimp only
  rw [h]

theorem insertResume_lost (h : (s.stack k.val).inserts ≠ []) (ht : tb = .uncorrectable) :
    exec (.prefixInsertResume k tb) s = .next (s.tableRead k.val tb) := by
  obtain ⟨st, rest, hl⟩ := List.exists_cons_of_ne_nil h
  refine congrArg Host.Outcome.next ?_
  dsimp only
  rw [hl]
  exact if_pos ht

theorem insertResume_tries (h : (s.stack k.val).inserts = st :: rest) (ht : tb ≠ .uncorrectable) :
    let v := s.tableRead k.val tb
    let r := (v.setStack k.val { s.stack k.val with inserts := [] }).insertBlock st
    let t := r.1.setStack k.val { r.1.stack k.val with inserts := rest }
    let i := ((t.stream st).chain.getD []).length
    exec (.prefixInsertResume k tb) s = .next (match r.2 with
      | .waits => v
      | .stop => t
      | .done => if (t.stream st).kvlen < 64 * (i + 1) then t
        else if t.blockPager st i = k.val then t.setStack k.val { t.stack k.val with inserts := st :: rest } else t.insertBlocks st 16384) := by
  intro v r
  refine congrArg Host.Outcome.next ?_
  dsimp only
  rw [h]
  refine (if_neg ht).trans ?_
  show (match r with | (_, .waits) => v | (u, .done) => _ | (u, .stop) => _) = _
  obtain ⟨u, c⟩ := r
  cases c <;> rfl

end

section
/-! The node that a pager removes (R280). -/

variable {α : Type} {f : α → Nat} {l : List α} {a : α}

theorem least_eq_none : least f l = none ↔ l = [] := by
  cases l with
  | nil => simp [least]
  | cons b t =>
    cases h : least f t with
    | none => simp [least, h]
    | some c =>
      simp only [least, h]
      split_ifs <;> simp

theorem least_some (h : least f l = some a) : a ∈ l ∧ ∀ b ∈ l, f a ≤ f b := by
  induction l generalizing a with
  | nil => cases h
  | cons c t ih =>
    simp only [least] at h
    split at h
    next hn =>
      cases h
      simp [least_eq_none.1 hn]
    next b hb =>
      obtain ⟨hmem, hle⟩ := ih hb
      split_ifs at h with hc <;> cases h
      · exact ⟨List.mem_cons_self, List.forall_mem_cons.2 ⟨le_rfl, fun x hx => hc.trans (hle x hx)⟩⟩
      · exact ⟨List.mem_cons_of_mem c hmem, List.forall_mem_cons.2 ⟨by omega, hle⟩⟩

variable {s : State} {k : Stack} {tb : EccOutcome}

theorem nodeRemoval_idle (h : s.poolLow k.val = false ∨ ∀ n ∈ s.nodes, s.children n.dpa ≠ 0) : exec (.nodeRemoval k tb) s = .next s := by
  refine congrArg Host.Outcome.next ?_
  rcases h with hp | hn
  · exact if_neg (by simp [hp])
  · have hl : s.nodes.filter (fun n => s.children n.dpa = 0) = [] := by simpa [List.filter_eq_nil_iff] using hn
    rw [hl]
    exact ite_self s

theorem nodeRemoval_removes (hp : s.poolLow k.val = true) (hn : ∃ n ∈ s.nodes, s.children n.dpa = 0) :
    ∃ n ∈ s.nodes, s.children n.dpa = 0 ∧
      (∀ m ∈ s.nodes, s.children m.dpa = 0 → s.nodeWord n.dpa 0x18 ≤ s.nodeWord m.dpa 0x18) ∧
      exec (.nodeRemoval k tb) s =
        .next (if tb = .uncorrectable then s.tableRead k.val tb else (s.tableRead k.val tb).removeNode n) := by
  cases hl : least (fun n => s.nodeWord n.dpa 0x18) (s.nodes.filter (fun n => s.children n.dpa = 0)) with
  | none =>
    obtain ⟨n, hmem, hc⟩ := hn
    exact absurd hc (by simpa using List.filter_eq_nil_iff.1 (least_eq_none.1 hl) n hmem)
  | some n =>
    obtain ⟨hmem, hle⟩ := least_some hl
    simp only [List.mem_filter, decide_eq_true_eq] at hmem hle
    refine ⟨n, hmem.1, hmem.2, fun m hm hc => hle m ⟨hm, hc⟩, congrArg Host.Outcome.next ((if_pos hp).trans ?_)⟩
    rw [hl]

end

section
/-! Changes of LOC (R261, R274, R275). -/

variable {s : State} {k : Stack} {tb : EccOutcome} {d : Nat × Nat}

theorem locChange_idle (h : s.seq.cur ≠ none ∨ s.dueSwitch k.val = none) : exec (.locChange k tb) s = .next s := by
  refine congrArg Host.Outcome.next ?_
  rcases h with hc | hd
  · obtain ⟨t, ht⟩ := Option.ne_none_iff_exists'.1 hc
    rw [ht]
  · rw [hd]
    split
    · contradiction
    · rfl

theorem locChange_runs (hc : s.seq.cur = none) (hd : s.dueSwitch k.val = some d) :
    exec (.locChange k tb) s =
      .next (if tb = .uncorrectable then s.tableRead k.val tb else (s.tableRead k.val tb).switchLoc k.val d) := by
  refine congrArg Host.Outcome.next ?_
  rw [hc, hd]

/-- The state in which a change of LOC has left the pager's list. -/
def State.switchTaken (s : State) (k : Nat) (d : Nat × Nat) : State :=
  s.setStack k { s.stack k with demotions := (s.stack k).demotions.filter (fun f => f.1 ≠ d.1), switches := (s.stack k).switches + 1 }

/-- That state with the frame free that held the page. -/
def State.switchFreed (s : State) (k : Nat) (d : Nat × Nat) : State :=
  let t := s.switchTaken k d
  t.freeFrame (d.1 / 2 ^ 26) (t.frameOf (d.1 / 2 ^ 26) (bits (s.loc (d.1 / 2 ^ 26) (d.1 % 2 ^ 26)) 25 0))

theorem switchLoc_drop (k : Nat) (h : d.2 = 0) :
    let lb := d.1 / 2 ^ 26
    let line := d.1 % 2 ^ 26
    let w := s.loc lb line
    let gone := (s.switchFreed k d).setIxWord lb line 0x44 (putBits (putBits w 27 26 2) 29 29 0)
    s.switchLoc k d = (if bit w 29 then gone.dropCopy (gone.copyDpa lb line) else gone).count .kvpg k 0x074 1 := if_pos h

theorem switchLoc_demote (k : Nat) (h : d.2 = 2) :
    let lb := d.1 / 2 ^ 26
    let line := d.1 % 2 ^ 26
    s.switchLoc k d = ((s.switchFreed k d).setIxWord lb line 0x44 (putBits (s.loc lb line) 27 26 1 ||| flag true 29)).count .kvpg k 0x070 1 :=
  (if_neg (by omega)).trans (if_pos h)

theorem switchLoc_return (k : Nat) (h0 : d.2 ≠ 0) (h2 : d.2 ≠ 2) :
    let lb := d.1 / 2 ^ 26
    let line := d.1 % 2 ^ 26
    let t := s.switchTaken k d
    s.switchLoc k d = t.setIxWord lb line 0x44 (putBits (putBits (s.loc lb line) 27 26 0) 25 0 (t.frameLine lb (d.2 / 8))) :=
  (if_neg h0).trans (if_neg h2)

end

section
/-! The copies under way (R204, R209, R275). -/

variable {s : State} {k : Stack} {e : EccOutcome} {d : Nat × Nat} {lb line b : Nat}

theorem demotionCopyDone_idle (h : (s.stack k.val).demotions.find? (fun d => d.2 = 1 || d.2 = 3) = none) :
    exec (.demotionCopyDone k e) s = .next s := by
  refine congrArg Host.Outcome.next ?_
  rw [h]

theorem demotionCopyDone_runs (h : (s.stack k.val).demotions.find? (fun d => d.2 = 1 || d.2 = 3) = some d) :
    let t := s.copyRead (d.1 / 2 ^ 26) (d.1 % 2 ^ 26) d.2 e
    exec (.demotionCopyDone k e) s =
      .next (if e = .uncorrectable then t else (t.copyDone (d.1 / 2 ^ 26) (d.1 % 2 ^ 26) d.2).getD t) := by
  refine congrArg Host.Outcome.next ?_
  rw [h]

theorem copyRead_clean (s : State) (lb line v : Nat) : s.copyRead lb line v .clean = s := rfl

/-- A demoted page goes to a free place of the device part (log entry 25), and stays where there is none. -/
theorem copyDone_demoted (s : State) (lb line : Nat) :
    (s.copyDone lb line 1).getD s = (s.place 64 33792 (Config.copyPlace s.draws)).elim s (s.pageOut lb line) := by
  rw [State.copyDone, if_pos rfl]
  cases s.place 64 33792 (Config.copyPlace s.draws) <;> rfl

/-- A page that returns goes to a free frame, and stays where there is none. -/
theorem copyDone_returned (s : State) (lb line : Nat) :
    (s.copyDone lb line 3).getD s = (s.takeFrame lb 1).elim s (pageIn lb line) := by
  rw [State.copyDone, if_neg (by decide), if_pos rfl]
  cases s.takeFrame lb 1 <;> rfl

variable (hb : s.physOf lb = some b)

include hb

theorem copyRead_corrected (v : Nat) : s.copyRead lb line v .corrected =
    if v = 1 then s.lineCorrected b (bits (s.loc lb line) 25 0) else s.correctUnit (dpaStack (s.copyDpa lb line)) := by
  unfold State.copyRead
  rw [hb]

theorem copyRead_lost (v : Nat) : s.copyRead lb line v .uncorrectable =
    let a := s.copyDpa lb line
    if v = 1 then (s.lineLost b (bits (s.loc lb line) 25 0)).raise .stor b 1
    else (s.tierLost (dpaStack a) (dpaOffset a)).raise .hbmc (dpaStack a) 1 := by
  unfold State.copyRead
  rw [hb]

end

section
/-! READ_PAGE (R212, R282, R283). -/

variable {s : State} {k : Stack} {tb e : EccOutcome} {unit : Nat} {id : Nat} {rest : List Nat} {p : Packet} {lb c b d n : Nat}

/-- R282: the logical berth and the index line of the page that a READ_PAGE names; a reserved OP names none (log entry 72). -/
def State.pageLine (s : State) (a : Nat) : Option (Nat × Nat) :=
  let sh := s.kvShape (s.stream (a / 2 ^ 4 % 256)).image
  let h := a / 2 ^ 12 % 16
  let l := a / 2 ^ 16 % 256
  let j := a / 2 ^ 24 % 2 ^ 13
  if a % 16 = 1 ∧ h < sh.heads ∧ l < sh.layers then
    match s.homeHere sh h j with
    | some lb => (s.column sh lb (a / 2 ^ 4 % 256) h j).map (fun c => (lb, c + l))
    | none => none
  else none

/-- R282: the page is in the store die: its bytes from line `at_` on, as the die reads them. -/
def State.readStored (s : State) (p : Packet) (e : EccOutcome) (unit lb at_ off : Nat) : State :=
  match e, s.physOf lb with
  | .uncorrectable, some b => ((s.lineLost b (at_ + (off + unit % p.h.len.toNat) / 128)).raise .stor b 1).respond p []
  | .corrected, some b => (s.lineCorrected b (at_ + off / 128)).respond p (s.lbRead lb (at_ * 128 + off) p.h.len.toNat)
  | _, _ => s.respond p (s.lbRead lb (at_ * 128 + off) p.h.len.toNat)

/-- R212, R282: the page is in the slower tier: the bytes of its copy from DPA `d` on, as the stack reads them. -/
def State.readCopied (s : State) (p : Packet) (e : EccOutcome) (unit d : Nat) : State :=
  let u := d + unit % p.h.len.toNat / 64 * 64
  if d < s.hostLimit then (s.raise .hbmc (dpaStack d) 2).respond p []
  else if s.dpaRetired d p.h.len.toNat then ((s.logTierError (dpaStack d) (dpaOffset d)).raise .hbmc (dpaStack d) 1).respond p []
  else match e with
    | .uncorrectable => ((s.tierLost (dpaStack u) (dpaOffset u)).raise .hbmc (dpaStack u) 1).respond p []
    | .corrected => (s.correctUnit (dpaStack d)).respond p (Memory.read s.hbm d p.h.len.toNat)
    | .clean => s.respond p (Memory.read s.hbm d p.h.len.toNat)

/-- R282: what a page of an index line answers, by its tier. -/
def State.readLine (s : State) (k : Nat) (p : Packet) (e : EccOutcome) (unit off lb ix : Nat) : State :=
  if 2 ≤ s.locTier lb ix then (s.raise .kvpg k 2).respond p []
  else if s.locTier lb ix = 0 then s.readStored p e unit lb (bits (s.loc lb ix) 25 0) off
  else s.readCopied p e unit (s.copyDpa lb ix + off)

theorem pageLine_some {a : Nat} (hk : a % 16 = 1) (hh : a / 2 ^ 12 % 16 < (s.kvShape (s.stream (a / 2 ^ 4 % 256)).image).heads)
    (hl : a / 2 ^ 16 % 256 < (s.kvShape (s.stream (a / 2 ^ 4 % 256)).image).layers)
    (hlb : s.homeHere (s.kvShape (s.stream (a / 2 ^ 4 % 256)).image) (a / 2 ^ 12 % 16) (a / 2 ^ 24 % 2 ^ 13) = some lb)
    (hc : s.column (s.kvShape (s.stream (a / 2 ^ 4 % 256)).image) lb (a / 2 ^ 4 % 256) (a / 2 ^ 12 % 16) (a / 2 ^ 24 % 2 ^ 13) = some c) :
    s.pageLine a = some (lb, c + a / 2 ^ 16 % 256) := by
  unfold State.pageLine
  refine (if_pos ⟨hk, hh, hl⟩).trans ?_
  rw [hlb]
  dsimp only
  rw [hc]
  rfl

theorem readLine_stored {unit off ix : Nat} (h : s.locTier lb ix = 0) :
    s.readLine n p e unit off lb ix = s.readStored p e unit lb (bits (s.loc lb ix) 25 0) off := (if_neg (by omega)).trans (if_pos h)

theorem readLine_copied {unit off ix : Nat} (h : s.locTier lb ix = 1) :
    s.readLine n p e unit off lb ix = s.readCopied p e unit (s.copyDpa lb ix + off) := (if_neg (by omega)).trans (if_neg (by omega))

theorem readStored_corrected (hb : s.physOf lb = some b) (p : Packet) (unit at_ off : Nat) : s.readStored p .corrected unit lb at_ off =
    (s.lineCorrected b (at_ + off / 128)).respond p (s.lbRead lb (at_ * 128 + off) p.h.len.toNat) := by
  unfold State.readStored
  rw [hb]

theorem readStored_lost (hb : s.physOf lb = some b) (p : Packet) (unit at_ off : Nat) : s.readStored p .uncorrectable unit lb at_ off =
    ((s.lineLost b (at_ + (off + unit % p.h.len.toNat) / 128)).raise .stor b 1).respond p [] := by
  unfold State.readStored
  rw [hb]

theorem readCopied_reached (hd : s.hostLimit ≤ d) (hr : s.dpaRetired d p.h.len.toNat = false) :
    let u := d + unit % p.h.len.toNat / 64 * 64
    s.readCopied p e unit d = match e with
      | .uncorrectable => ((s.tierLost (dpaStack u) (dpaOffset u)).raise .hbmc (dpaStack u) 1).respond p []
      | .corrected => (s.correctUnit (dpaStack d)).respond p (Memory.read s.hbm d p.h.len.toNat)
      | .clean => s.respond p (Memory.read s.hbm d p.h.len.toNat) := by
  refine (if_neg (Nat.not_lt.2 hd)).trans ((if_neg (by simp [hr])).trans ?_)
  cases e <;> rfl

theorem readPage_none (h : (s.stack k.val).pager = []) : exec (.readPage k tb e unit) s = .next s := by
  refine congrArg Host.Outcome.next ?_
  dsimp only
  rw [h]

variable (h : (s.stack k.val).pager = id :: rest) (hp : s.served? id = some p)

include h hp

theorem readPage_lost : exec (.readPage k .uncorrectable e unit) s =
    .next (((s.setStack k.val { s.stack k.val with pager := rest }).raise .kvpg k.val 1).respond p []) := by
  refine congrArg Host.Outcome.next ?_
  dsimp only
  rw [h]
  show (match s.served? id with | none => _ | some p => _) = _
  rw [hp]
  rfl

theorem readPage_reads :
    let t := s.setStack k.val { s.stack k.val with pager := rest }
    let a := p.h.addr.toNat
    exec (.readPage k .clean e unit) s = .next (match t.pageLine a with
      | none => (t.raise .kvpg k.val 2).respond p []
      | some (lb, ix) => t.readLine k.val p e unit (a / 2 ^ 37 % 2 ^ 10 * 64) lb ix) := by
  refine congrArg Host.Outcome.next ?_
  dsimp only
  rw [h]
  show (match s.served? id with | none => _ | some p => _) = _
  rw [hp]
  rfl

end

/-- Settles O47: an insertion by what its block comes to, a removal by the least LASTUSE (`least_some`), a change of LOC and a copy by their values
in the pager's list, and READ_PAGE by the page's index line and tier. -/
theorem pagerCommands : Obligations.PagerCommands := by
  intro s k tb e unit _ x v
  refine ⟨⟨by rintro rfl; rfl, by rintro rfl; rfl, by rintro rfl; rfl⟩, insertResume_none, insertResume_lost,
    fun _ _ => insertResume_tries, nodeRemoval_idle, nodeRemoval_removes, locChange_idle, fun hc hd ht => ?_,
    fun d hc hd ht => ⟨fun h => ?_, fun h => ?_, fun h0 h2 => ?_⟩,
    demotionCopyDone_idle, fun d b h hb => ?_, readPage_none, fun id rest p h hp ht => ht ▸ readPage_lost h hp, fun id rest p lb c h hp ht => ?_⟩
  · obtain ⟨d, hd⟩ := Option.ne_none_iff_exists'.1 hd
    rw [locChange_runs hc hd, if_pos ht]
  · rw [locChange_runs hc hd, if_neg ht, switchLoc_drop k.val h]
    rfl
  · rw [locChange_runs hc hd, if_neg ht, switchLoc_demote k.val h]
    rfl
  · rw [locChange_runs hc hd, if_neg ht, switchLoc_return k.val h0 h2]
    rfl
  · intro lb line a out back
    have run := demotionCopyDone_runs (e := e) h
    have hout (t : State) : (t.copyDone lb line 1).getD t = out t := by
      rw [copyDone_demoted]
      dsimp only [out]
      cases t.place 64 33792 (Config.copyPlace t.draws) <;> rfl
    have hback (t : State) : (t.copyDone lb line 3).getD t = back t := by
      rw [copyDone_returned]
      dsimp only [back]
      cases t.takeFrame lb 1 <;> rfl
    refine ⟨fun he h1 => ?_, fun he h1 => ?_, fun he h1 => ?_, fun he h3 => ?_, fun he h3 => ?_, fun he h3 => ?_⟩ <;> subst he
    · rw [run, if_neg (by decide), copyRead_clean, h1, hout]
    · rw [run, if_neg (by decide), h1, copyRead_corrected hb, if_pos rfl, hout]
    · rw [run, if_pos rfl, h1, copyRead_lost hb, if_pos rfl]
    · rw [run, if_neg (by decide), copyRead_clean, h3, hback]
    · rw [run, if_neg (by decide), h3, copyRead_corrected hb, if_neg (by decide), hback]
    · rw [run, if_pos rfl, h3, copyRead_lost hb, if_neg (by decide)]
  · subst ht
    have run := readPage_reads (e := e) (unit := unit) h hp
    intro t a n st head l j off sh line d u answer
    refine ⟨fun hn => run.trans ?_, fun hk hh hl hlb hc => ?_⟩
    · rw [show t.pageLine a = none from if_neg hn]
    · have read : exec (.readPage k .clean e unit) s = .next (t.readLine k.val p e unit off lb (c + l)) := by
        rw [run, pageLine_some hk hh hl hlb hc]
      have stored (h0 : t.locTier lb (c + l) = 0) : exec (.readPage k .clean e unit) s = .next (t.readStored p e unit lb line off) :=
        read.trans (congrArg _ (readLine_stored h0))
      have copied (h1 : t.locTier lb (c + l) = 1) : exec (.readPage k .clean e unit) s = .next (t.readCopied p e unit d) :=
        read.trans (congrArg _ (readLine_copied h1))
      refine ⟨fun h0 he => ?_, fun b h0 he hb => ?_, fun b h0 he hb => ?_, fun h1 hd hr he => ?_, fun h1 hd hr he => ?_,
        fun h1 hd hr he => ?_, fun h2 => read.trans (congrArg _ (if_pos h2))⟩ <;> subst he
      · exact stored h0
      · exact (stored h0).trans (congrArg _ (readStored_corrected hb ..))
      · exact (stored h0).trans (congrArg _ (readStored_lost hb ..))
      all_goals exact (copied h1).trans (congrArg _ (readCopied_reached hd hr))

end Sys2Proof.Machine
end

section
/-! PROOF. The registers of the samplers (O48): streams that start anew in a grammar, the errors that a check reports, and the statement from these. -/

namespace Sys2Proof.Machine

section
/-! Streams start anew (R294). -/

variable {s : State}

/-- A stream that is not FREE reads as written, whatever the form of the list (`Inv` says nothing of it). -/
theorem stream_setStream_live {i : Nat} {x : Stream} (h : x.state ≠ .free) : (s.setStream i x).stream i = x :=
  Sparse.get_set_new s.streams (by rintro rfl; exact h rfl)

/-- R294: a stream's automaton at the start of the image bound to its slot `g`. -/
def State.begun (s : State) (g i : Nat) : Stream := { s.stream i with grammar := s.startOf g }

theorem stream_setStream_begun {g i j : Nat} (h : (s.stream j).state ≠ .free) :
    (s.setStream i (s.begun g i)).stream j = if j = i then s.begun g j else s.stream j := by
  split
  next e => exact e ▸ stream_setStream_live (x := s.begun g j) h
  next e => exact State.stream_setStream_other e

theorem foldl_begun (g : Nat) (l : List Nat) (s : State) :
    ∃ ss, l.foldl (fun s i => s.setStream i (s.begun g i)) s = { s with streams := ss } ∧
      ∀ j, (s.stream j).state ≠ .free → ({ s with streams := ss } : State).stream j = if j ∈ l then s.begun g j else s.stream j := by
  induction l generalizing s with
  | nil => exact ⟨s.streams, rfl, fun _ _ => rfl⟩
  | cons i l ih =>
    obtain ⟨ss, e, hs⟩ := ih (s.setStream i (s.begun g i))
    refine ⟨ss, e, fun j hj => ?_⟩
    have first := stream_setStream_begun (g := g) (i := i) hj
    have live : ((s.setStream i (s.begun g i)).stream j).state ≠ .free := by
      rw [first]
      split <;> exact hj
    have again : (s.setStream i (s.begun g i)).begun g j = s.begun g j := by
      show ({ (s.setStream i (s.begun g i)).stream j with grammar := s.startOf g } : Stream) = _
      rw [first]
      split <;> rfl
    refine (hs j live).trans ?_
    rw [again, first]
    by_cases hl : j ∈ l <;> simp [hl]

theorem restart_begun (s : State) (g : Nat) :
    ∃ ss, s.restart g = { s with streams := ss, seq := (s.restart g).seq } ∧ ∀ j, (s.stream j).state ≠ .free →
      ({ s with streams := ss } : State).stream j =
        if j ∈ s.liveStreams.filter (fun i => gslotOf (s.stream i).scfg = g) then s.begun g j else s.stream j := by
  obtain ⟨ss, e, hs⟩ := foldl_begun g (s.liveStreams.filter (fun i => gslotOf (s.stream i).scfg = g)) s
  refine ⟨ss, ?_, hs⟩
  show ({ List.foldl (fun s i => s.setStream i (s.begun g i)) s _ with seq := (s.restart g).seq } : State) = _
  rw [e]

theorem restart_regs (s : State) (g : Nat) : (s.restart g).regs = s.regs := by
  obtain ⟨_, e, -⟩ := restart_begun s g
  rw [e]

theorem restart_grammarChecks (s : State) (g : Nat) : (s.restart g).grammarChecks = s.grammarChecks := by
  obtain ⟨_, e, -⟩ := restart_begun s g
  rw [e]

/-- R294: every live stream of the slot is begun, and no other live stream changes. -/
theorem restart_stream {g j : Nat} (hl : j ∈ s.liveStreams) (hj : (s.stream j).state ≠ .free) : (s.restart g).stream j =
    if bits (s.stream j).scfg 11 8 = g then { s.stream j with grammar := s.startOf g } else s.stream j := by
  obtain ⟨ss, e, hs⟩ := restart_begun s g
  rw [e]
  refine (hs j hj).trans ?_
  simp only [List.mem_filter, hl, true_and, decide_eq_true_eq]
  rfl

/-- R294, R307: slot `g` holds the value `w`, the slots under check are `c`, and the streams of the slot begin. -/
theorem setRegI_restart (hw : Sparse.wf regReset s.regs = true) (g : Nat) (w : Word) (c : List Nat) :
    let t := ({ s.setRegI .smpl 0 0x074 g w with grammarChecks := c } : State).restart g
    t.regI .smpl 0 0x074 g = w ∧ t.grammarChecks = c ∧ ∀ j ∈ s.liveStreams, (s.stream j).state ≠ .free →
      t.stream j = if bits (s.stream j).scfg 11 8 = g then
        { s.stream j with grammar := if bit w 31 then (s.gram (bits w 27 0 * 4096)).start else 0 } else s.stream j := by
  obtain ⟨m, e, -, hreg⟩ := setRegI_reads .smpl 0 0x074 g w hw
  rw [e]
  have hstart : ({ s with regs := m, grammarChecks := c } : State).startOf g =
      if bit w 31 then (s.gram (bits w 27 0 * 4096)).start else 0 := by
    unfold State.startOf State.slotBound State.slotDpa
    rw [show ({ s with regs := m, grammarChecks := c } : State).regI .smpl 0 0x074 g = w from hreg]
    rfl
  refine ⟨?_, restart_grammarChecks .., fun j hl hj => hstart ▸ restart_stream (s := { s with regs := m, grammarChecks := c }) hl hj⟩
  unfold State.regI at hreg ⊢
  rwa [restart_regs]

end

section
/-! What errors leave of a grammar's check, and the errors that it reports (R303, R529). -/

variable {s t : State}

theorem Reported.raiseSampler (s : State) (n : Nat) : Reported s (s.raiseSampler n) := .foldl (fun _ _ => .raise ..) _ s

theorem Reported.readsCorrected (s : State) (l : List Nat) : Reported s (s.readsCorrected l) := .foldl (fun _ _ => .raise ..) _ s

theorem Reported.withChecks (h : Reported s t) (c : List Nat) : Reported { s with grammarChecks := c } { t with grammarChecks := c } :=
  ⟨by rw [h.rest], h.wf, h.keep⟩

theorem Reported.dark (h : Reported s t) (b : Nat) : t.dark b = s.dark b := by rw [h.rest]; rfl

/-- R529: a check reads no register but through HOST_LIMIT. -/
theorem Reported.gramOk (h : Reported s t) (hl : t.hostLimit = s.hostLimit) (a : Nat) : t.gramOk a = s.gramOk a := by
  have part (d n : Nat) : t.inDevicePart d n = s.inDevicePart d n := by unfold State.inDevicePart; rw [hl]
  unfold State.gramOk
  simp only [part]
  rw [h.rest]
  rfl

theorem readsCorrected_reg (l : List Nat) {b : Blk} {i o : Nat} (ho : o < 0x1000) (h : o ∉ errOffsets) (hf : regKey b i o ≠ 0x5054) :
    (s.readsCorrected l).reg b i o = s.reg b i o :=
  foldl_same (fun t => t.reg b i o) (fun _ _ => raise_reg_at ho h hf) _ s

theorem readsCorrected_slot (l : List Nat) (g : Nat) : (s.readsCorrected l).regI .smpl 0 0x074 g = s.regI .smpl 0 0x074 g :=
  foldl_same (fun t => t.regI .smpl 0 0x074 g) (fun _ _ => raise_regI (by decide)) _ s

theorem readsCorrected_hostLimit (l : List Nat) : (s.readsCorrected l).hostLimit = s.hostLimit := by
  unfold State.hostLimit State.split
  rw [readsCorrected_reg l (by decide) (by decide) (by decide), readsCorrected_reg l (by decide) (by decide) (by decide)]

theorem readsCorrected_errSet (hw : Sparse.wf regReset s.regs = true) {l : List Nat} {b : Nat} (hb : b ∈ l) (hd : s.dark b = false) :
    (s.readsCorrected l).errSet .smpl b 0 = true :=
  Reported.foldl_sets (fun _ _ => .raise ..) hw (List.mem_filter.2 ⟨hb, by simp [hd]⟩) fun _ ht => errSet_raise_self (ht.wf hw) rfl (by decide)

theorem raiseSampler_errSet (hw : Sparse.wf regReset s.regs = true) {n : Nat} {c : ErrClass} (hc : ∀ b, errClass .smpl b n = some c) (hn : n < 32)
    {b : Nat} (hb : b < 84) (hd : s.dark b = false) : (s.raiseSampler n).errSet .smpl b n = true :=
  Reported.foldl_sets (fun _ _ => .raise ..) hw (List.mem_filter.2 ⟨List.mem_range.2 hb, by simp [hd]⟩)
    fun _ ht => errSet_raise_self (ht.wf hw) (hc b) hn

end

section
/-! The value of a grammar slot (R307). -/

theorem bit_valid (w : Word) : bit (w ||| flag true 31) 31 = true := by
  simp [bit, flag, field]

theorem bits_valid (w : Word) : bits (w ||| flag true 31) 27 0 = bits w 27 0 := by
  unfold bits
  have high : (flag true 31).toNat % 2 ^ (27 + 1 - 0) = 0 := by decide
  rw [BitVec.toNat_or, Nat.pow_zero, Nat.div_one, Nat.div_one, Nat.or_mod_two_pow, high, Nat.or_zero]

end

section
/-! The commands (R294–R296, R303, R305, R306, R529). -/

variable {s : State} {slot : Fin 16} {bad : Bool} {corr : List Berth}

theorem samplerWrites_refused (b : Berth) (v : Word) (h : s.pageWrites .smpl b.val = false) :
    exec (.grammarBind b v) s = .next s ∧ exec (.sgstateReset b v) s = .next s ∧ exec (.spcntClear b v) s = .next s ∧
      exec (.penEnWrite b v) s = .next s := by
  refine ⟨?_, ?_, ?_, ?_⟩ <;> exact congrArg Host.Outcome.next (if_neg (by simp [h]))

theorem writeGbase_spec (hw : Sparse.wf regReset s.regs = true) (v : Word) :
    let g := bits (s.reg .smpl 0 0x070) 3 0
    (s.writeGbase v).regI .smpl 0 0x074 g = field (bits v 27 0) 0 ∧
    (s.writeGbase v).grammarChecks = s.grammarChecks.filter (· ≠ g) ++ (if bits v 27 0 = 0 then [] else [g]) ∧
    ∀ j ∈ s.liveStreams, (s.stream j).state ≠ .free → (s.writeGbase v).stream j =
      if bits (s.stream j).scfg 11 8 = g then { s.stream j with grammar := 0 } else s.stream j := by
  intro g
  have e : s.writeGbase v = ({ s.setRegI .smpl 0 0x074 g (field (bits v 27 0) 0) with
      grammarChecks := s.grammarChecks.filter (· ≠ g) ++ (if bits v 27 0 = 0 then [] else [g]) } : State).restart g := by
    -- `rfl` here would have the kernel compare the register file with the one before the write.
    unfold State.writeGbase
    dsimp only
    rw [State.setRegI_grammarChecks]
    split
    · rw [List.append_nil]
    · rfl
  obtain ⟨hreg, hc, hs⟩ := setRegI_restart hw g (field (bits v 27 0) 0)
    (s.grammarChecks.filter (· ≠ g) ++ (if bits v 27 0 = 0 then [] else [g]))
  rw [bit_field_lt (lt_trans (bits_lt ..) (by decide))] at hs
  rw [e]
  exact ⟨hreg, hc, hs⟩

theorem writeSgstate_eq (s : State) (v : Word) : s.writeSgstate v =
    if bit v 31 then s.setStream s.smplSel { s.stream s.smplSel with gramReset := true } else s := by
  unfold State.writeSgstate
  cases bit v 31 <;> rfl

theorem writeSpcnt_eq (s : State) (v : Word) : s.writeSpcnt v =
    if bit v 31 then s.setStream s.smplSel { s.stream s.smplSel with clearCounts := true } else s := by
  unfold State.writeSpcnt
  cases bit v 31 <;> rfl

theorem writeScfg_eq (s : State) (v : Word) :
    let i := s.smplSel
    let g := bits v 11 8
    let mask := bit v 7 && (s.slotBound g || decide (g ∈ s.grammarChecks))
    let pen := bit v 6 && ((s.stream i).penSince || decide (s.penalised < 32))
    s.writeScfg v = (s.setRegI .smpl 0 0x044 i (field g 8 ||| flag mask 7 ||| flag pen 6 ||| field (bits v 5 0) 0)).setStream i
      { s.stream i with penSince := pen } := by
  unfold State.writeScfg
  simp only [List.contains_eq_mem]
  rfl

theorem grammarCheckDone_idle (h : slot.val ∉ s.grammarChecks) : exec (.grammarCheckDone slot bad corr) s = .next s :=
  congrArg Host.Outcome.next (if_neg (by simpa using h))

/-- R529: the state in which the check of a slot has ended, its corrected reads reported. -/
def State.checkEnded (s : State) (slot : Nat) (corr : List Berth) : State :=
  { s.readsCorrected (corr.map (fun b => b.val)) with grammarChecks := s.grammarChecks.filter (· ≠ slot) }

theorem checkEnded_reported (s : State) (slot : Nat) (corr : List Berth) :
    Reported { s with grammarChecks := s.grammarChecks.filter (· ≠ slot) } (s.checkEnded slot corr) :=
  (Reported.readsCorrected s _).withChecks _

/-- R529: the check of a slot ends as the slot and the image stand before it: the errors it reports touch neither. -/
theorem grammarCheckDone_ends (h : slot.val ∈ s.grammarChecks) :
    let u := s.checkEnded slot.val corr
    let w := s.regI .smpl 0 0x074 slot.val
    exec (.grammarCheckDone slot bad corr) s = .next (if !bad && s.gramOk (bits w 27 0 * 4096) then
      (u.setRegI .smpl 0 0x074 slot.val (w ||| flag true 31)).restart slot.val else u.raiseSampler 2) := by
  intro u w
  have hr : Reported s (s.readsCorrected (corr.map (fun b => b.val))) := .readsCorrected ..
  have hu : ({ s.readsCorrected (corr.map (fun b => b.val)) with
      grammarChecks := (s.readsCorrected (corr.map (fun b => b.val))).grammarChecks.filter (· ≠ slot.val) } : State) = u := by
    rw [show (s.readsCorrected (corr.map (fun b => b.val))).grammarChecks = s.grammarChecks from by rw [hr.rest]]
    rfl
  have hw : u.regI .smpl 0 0x074 slot.val = w := readsCorrected_slot ..
  have hg (a : Nat) : u.gramOk a = s.gramOk a := hr.gramOk (readsCorrected_hostLimit _) a
  refine congrArg Host.Outcome.next ((if_pos (by simpa using h)).trans ?_)
  dsimp only
  rw [hu, hw, State.slotDpa, hw, hg]

theorem grammarCheckDone_binds (hw : Sparse.wf regReset s.regs = true) (h : slot.val ∈ s.grammarChecks)
    (hg : s.gramOk (bits (s.regI .smpl 0 0x074 slot.val) 27 0 * 4096) = true) :
    ∃ t, exec (.grammarCheckDone slot false corr) s = .next t ∧ t.grammarChecks = s.grammarChecks.filter (· ≠ slot.val) ∧
      t.regI .smpl 0 0x074 slot.val = s.regI .smpl 0 0x074 slot.val ||| flag true 31 ∧
      ∀ j ∈ s.liveStreams, (s.stream j).state ≠ .free → t.stream j = if bits (s.stream j).scfg 11 8 = slot.val then
        { s.stream j with grammar := (s.gram (bits (s.regI .smpl 0 0x074 slot.val) 27 0 * 4096)).start } else s.stream j := by
  have hu := checkEnded_reported s slot.val corr
  obtain ⟨hreg, hc, hs⟩ := setRegI_restart (hu.wf hw) slot.val (s.regI .smpl 0 0x074 slot.val ||| flag true 31)
    (s.checkEnded slot.val corr).grammarChecks
  rw [bit_valid, bits_valid] at hs
  refine ⟨_, (grammarCheckDone_ends h).trans (congrArg _ (if_pos (by rw [hg]; rfl))), hc.trans (by rw [hu.rest]), hreg, ?_⟩
  have live : (s.checkEnded slot.val corr).liveStreams = s.liveStreams := by rw [hu.rest]; rfl
  have stream (j : Nat) : (s.checkEnded slot.val corr).stream j = s.stream j := by rw [hu.rest]; rfl
  have gram (a : Nat) : (s.checkEnded slot.val corr).gram a = s.gram a := by rw [hu.rest]; rfl
  simp only [live, stream, gram] at hs
  exact hs

theorem grammarCheckDone_fails (hw : Sparse.wf regReset s.regs = true) (h : slot.val ∈ s.grammarChecks)
    (hb : bad = true ∨ s.gramOk (bits (s.regI .smpl 0 0x074 slot.val) 27 0 * 4096) = false) :
    ∃ m f, exec (.grammarCheckDone slot bad corr) s =
        .next { s with grammarChecks := s.grammarChecks.filter (· ≠ slot.val), regs := m, flt := f } ∧
      (∀ d, d < 84 → s.dark d = false → ({ s with regs := m } : State).errSet .smpl d 2 = true) ∧
      ∀ d ∈ corr, s.dark d.val = false → ({ s with regs := m } : State).errSet .smpl d.val 0 = true := by
  have hu := checkEnded_reported s slot.val corr
  have ht := hu.trans (.raiseSampler _ 2)
  refine ⟨((s.checkEnded slot.val corr).raiseSampler 2).regs, ((s.checkEnded slot.val corr).raiseSampler 2).flt,
    (grammarCheckDone_ends h).trans ?_, fun d hd hk => ?_, fun d hd hk => ?_⟩
  · rw [if_neg (by rcases hb with hb | hb <;> simp [hb])]
    exact congrArg Host.Outcome.next ht.rest
  · exact raiseSampler_errSet (n := 2) (hu.wf hw) (fun _ => rfl) (by decide) hd ((hu.dark d).trans hk)
  · exact (Reported.raiseSampler _ 2).keep (hu.wf hw) (readsCorrected_errSet hw (List.mem_map_of_mem hd) hk)

end

/-- Settles O48: a binding and a check that passes restart the live streams of the slot (`restart_stream`), one that fails only reports errors
(`Reported`), and the selected stream's registers by their definitions. -/
theorem samplerRegisters : Obligations.SamplerRegisters := by
  intro s b v slot hi w
  refine ⟨samplerWrites_refused b v, fun hp => ?_, fun h _ _ => grammarCheckDone_idle h,
    fun corr h => ⟨grammarCheckDone_binds hi.regs h, fun _ => grammarCheckDone_fails hi.regs h⟩⟩
  intro i x g
  have run (t : State) : Host.Outcome.next (if s.pageWrites .smpl b.val then t else s) = (.next t : Res) := by rw [hp]; rfl
  exact ⟨⟨_, run _, writeGbase_spec hi.regs v⟩, (run _).trans (congrArg _ (writeSgstate_eq s v)),
    (run _).trans (congrArg _ (writeSpcnt_eq s v)), (run _).trans (congrArg _ (writeScfg_eq s v))⟩

end Sys2Proof.Machine
end

section
/-! PROOF. The resets of a host port, its link and its readiness (O42). -/

namespace Sys2Proof.Machine

section
/-! A reset of a port stops its channels and its rings (R323, R385). -/

variable {s : State} {p : HostPort}

/-- R323: a port's reset stops a channel that is enabled or has a job. -/
def State.resetHits (s : State) (p : HostPort) (c : Nat) : Prop :=
  bit (s.regI .ltr (portIx p) 0x04C (c % 16)) 31 = true ∨ (s.chan c).job ≠ none

/-- R323: one channel of a port's reset. -/
def State.stopChannel (p : HostPort) (s : State) (c : Nat) : State :=
  let x := s.chan c
  if bit (s.regI .ltr (portIx p) 0x04C (c % 16)) 31 || x.job.isSome then s.setChan c { x with stopped := true, job := none } else s

/-- R323: what a port's reset leaves of a channel. -/
def State.channelReset (s : State) (p : HostPort) (c : Nat) : ChannelSt :=
  if bit (s.regI .ltr (portIx p) 0x04C (c % 16)) 31 || (s.chan c).job.isSome then { s.chan c with stopped := true, job := none } else s.chan c

theorem channelReset_hit {c : Nat} (h : s.resetHits p c) : s.channelReset p c = { s.chan c with stopped := true, job := none } :=
  if_pos (by simpa [State.resetHits, Option.isSome_iff_ne_none] using h)

theorem channelReset_miss {c : Nat} (h : ¬s.resetHits p c) : s.channelReset p c = s.chan c :=
  if_neg (by simpa [State.resetHits, Option.isSome_iff_ne_none] using h)

theorem stopChannel_spec (p : HostPort) (s : State) (a : Nat) :
    ∃ m, s.stopChannel p a = { s with chans := m } ∧ ∀ c, ({ s with chans := m } : State).chan c = if c = a then s.channelReset p c else s.chan c := by
  unfold State.stopChannel
  dsimp only
  by_cases h : (bit (s.regI .ltr (portIx p) 0x04C (a % 16)) 31 || (s.chan a).job.isSome) = true
  · rw [if_pos h]
    refine ⟨_, rfl, fun c => ?_⟩
    by_cases hc : c = a
    · subst hc
      rw [if_pos rfl, State.channelReset, if_pos h]
      exact Sparse.get_set_new s.chans (fun e => by simpa using congrArg ChannelSt.stopped e)
    · rw [if_neg hc]
      exact State.chan_setChan_other hc
  · rw [if_neg h]
    refine ⟨s.chans, rfl, fun c => ?_⟩
    split
    next e => rw [e, State.channelReset, if_neg h]
    next => rfl

/-- A channel that has been stopped stays as it is. -/
theorem channelReset_again {m : List (Nat × ChannelSt)} {c : Nat} (h : ({ s with chans := m } : State).chan c = s.channelReset p c) :
    ({ s with chans := m } : State).channelReset p c = s.channelReset p c := by
  have hr : ∀ i, ({ s with chans := m } : State).regI .ltr (portIx p) 0x04C i = s.regI .ltr (portIx p) 0x04C i := fun _ => rfl
  rw [State.channelReset, h, hr, State.channelReset]
  split_ifs <;> rfl

theorem foldl_stopChannel (p : HostPort) (l : List Nat) (s : State) :
    ∃ m, l.foldl (State.stopChannel p) s = { s with chans := m } ∧
      ∀ c, ({ s with chans := m } : State).chan c = if c ∈ l then s.channelReset p c else s.chan c := by
  induction l generalizing s with
  | nil => exact ⟨s.chans, rfl, fun _ => by simp⟩
  | cons a l ih =>
    obtain ⟨m, e, ha⟩ := stopChannel_spec p s a
    obtain ⟨n, e', hl⟩ := ih { s with chans := m }
    refine ⟨n, by rw [List.foldl_cons, e, e'], fun c => (hl c).trans ?_⟩
    have first := ha c
    by_cases hc : c = a
    · rw [if_pos hc] at first
      rw [channelReset_again first, first]
      simp [hc]
    · rw [if_neg hc] at first
      have : ({ s with chans := m } : State).channelReset p c = s.channelReset p c := by
        rw [State.channelReset, first]
        rfl
      rw [this, first]
      simp [hc]

theorem mem_portChannels {c : Nat} : c ∈ (List.range 16).map (fun c => portIx p * 16 + c) ↔ c / 16 = portIx p := by
  rw [List.mem_map]
  constructor
  · rintro ⟨i, hi, rfl⟩
    have := List.mem_range.1 hi
    omega
  · intro h
    exact ⟨c % 16, List.mem_range.2 (Nat.mod_lt _ (by decide)), by omega⟩

theorem foldl_settleSlot (l : List Nat) (s : State) : ∃ i, l.foldl State.settleSlot s = { s with images := i } :=
  foldl_rel (R := fun s t => ∃ i, t = { s with images := i }) (fun s => ⟨s.images, rfl⟩) (by rintro s _ _ ⟨i, rfl⟩ ⟨j, rfl⟩; exact ⟨j, rfl⟩)
    settleSlot_only l s

theorem stopChannels_spec (s : State) (p : HostPort) :
    ∃ m i, s.stopChannels p = { s with chans := m, images := i } ∧
      ∀ c, ({ s with chans := m } : State).chan c = if c / 16 = portIx p then s.channelReset p c else s.chan c := by
  obtain ⟨m, e, hm⟩ := foldl_stopChannel p ((List.range 16).map (fun c => portIx p * 16 + c)) s
  obtain ⟨i, e'⟩ := foldl_settleSlot (((List.range 16).map (fun c => portIx p * 16 + c)).filterMap (fun c => (s.chan c).job.map descImage))
    { s with chans := m }
  refine ⟨m, i, (congrArg (List.foldl State.settleSlot · _) e).trans e', fun c => ?_⟩
  rw [hm c]
  exact if_congr mem_portChannels rfl rfl

/-- R323, R385: how a port's reset leaves the channels and the rings: `s` stands before it, `t` after it. -/
def State.PortStopped (s : State) (p : HostPort) (t : State) : Prop :=
  (∀ c, c < 32 → (c / 16 = portIx p ∧ s.resetHits p c → t.chan c = { s.chan c with stopped := true, job := none }) ∧
    (¬(c / 16 = portIx p ∧ s.resetHits p c) → t.chan c = s.chan c)) ∧
  bit (t.reg .cxlp (portIx p) 0x04C) 31 = false ∧ bit (t.reg .cxlp (portIx p) 0x054) 31 = false

theorem portStopped_spec (hr : Sparse.wf regReset s.regs = true) (p : HostPort) :
    ∃ m c i, (s.stopChannels p).disableRings p = { s with regs := m, chans := c, images := i } ∧ Sparse.wf regReset m = true ∧
      s.PortStopped p { s with regs := m, chans := c, images := i } := by
  obtain ⟨c, i, e, hc⟩ := stopChannels_spec s p
  obtain ⟨m, e', hm, hrq, hout⟩ := disableRings_spec (s := { s with chans := c, images := i }) (p := p) hr
  refine ⟨m, c, i, by rw [e, e'], hm, fun k _ => ⟨fun h => ?_, fun h => ?_⟩, hrq, hout⟩
  · exact (hc k).trans ((if_pos h.1).trans (channelReset_hit h.2))
  · refine (hc k).trans ?_
    split
    next hp => exact channelReset_miss fun hk => h ⟨hp, hk⟩
    next => rfl

/-- R385: an FLR leaves link, decoder and CXL.mem. -/
theorem flr_spec (hr : Sparse.wf regReset s.regs = true) (p : HostPort) :
    ∃ m c i, exec (.flr p) s = .next (({ s with regs := m, chans := c, images := i } : State).setPort p { s.port p with resp := .none }) ∧
      s.PortStopped p { s with regs := m, chans := c, images := i } := by
  obtain ⟨m, c, i, e, -, h⟩ := portStopped_spec hr p
  refine ⟨m, c, i, congrArg Host.Outcome.next ?_, h⟩
  dsimp only
  rw [e]
  cases p <;> rfl

end

section
/-! A conventional reset takes the link out of L0 and the decoder out of its commitment (R377, R385, R392). -/

variable {s : State} {p : HostPort}

/-- R385: where a conventional reset takes the link. -/
def resetLink : PortResetCause → LinkState
  | .perst => .reset
  | .hotReset => .training
  | .linkDown => .down

/-- R392: a link that leaves L0 sets LINK_DOWN and keeps its time; the rings stand as they stood. -/
theorem linkTo_leaves (hr : Sparse.wf regReset s.regs = true) (p : HostPort) {l : LinkState} (hl : l ≠ .l0) :
    ∃ m f, s.linkTo p l = ({ s with regs := m, flt := f } : State).setPort p { s.port p with
        link := l, width := 0, speed := 0, downSince := if (s.port p).link = .l0 then s.stamp else (s.port p).downSince } ∧
      ((s.port p).link = .l0 → ({ s with regs := m } : State).errSet .cxlp (portIx p) 3 = true) ∧
      ∀ o, o = 0x04C ∨ o = 0x054 → ({ s with regs := m } : State).reg .cxlp (portIx p) o = s.reg .cxlp (portIx p) o := by
  unfold State.linkTo
  dsimp only
  by_cases h : (s.port p).link = .l0
  · obtain ⟨m, f, e, hset⟩ := raise_cxlp (s := s) (p := p) (n := 3) hr (by decide)
    refine ⟨m, f, ?_, fun _ => hset, fun o ho => ?_⟩
    · rw [if_pos ⟨h, hl⟩, if_pos h, e]
      cases p <;> rfl
    · have hkeep := get_ringRegs_raise (s := s) (p := p) (n := 3) ho
      rwa [e] at hkeep
  · exact ⟨s.regs, s.flt, by rw [if_neg (fun hc => h hc.1), if_neg h], fun hc => absurd hc h, fun _ _ => rfl⟩

/-- R385: a reset whose cause reaches the link takes it to the state of that cause. -/
theorem conventionalReset_eq {cause : PortResetCause} {u : State} (hu : (s.stopChannels p).disableRings p = u)
    (h : cause = .perst ∨ (u.port p).leftReset = true) :
    exec (.conventionalReset p cause) s =
      let v := u.linkTo p (resetLink cause)
      let x := v.port p
      .next (v.setPort p { x with decoder := false, locked := false, commitError := false, rangeMoved := x.taken
                                  cfgReady := x.cfgReady && cause != .perst, leftReset := x.leftReset && cause != .perst, resp := .none }) := by
  subst hu
  refine congrArg Host.Outcome.next ?_
  cases cause with
  | perst => rfl
  | hotReset => simp only [show _ = true from h.resolve_left nofun, if_true, resetLink]
  | linkDown => simp only [show _ = true from h.resolve_left nofun, if_true, resetLink]

theorem conventionalReset_spec {cause : PortResetCause} (hr : Sparse.wf regReset s.regs = true) (h : cause = .perst ∨ (s.port p).leftReset = true) :
    let x := s.port p
    ∃ m f c i, exec (.conventionalReset p cause) s = .next (({ s with regs := m, flt := f, chans := c, images := i } : State).setPort p { x with
        link := resetLink cause, width := 0, speed := 0, downSince := if x.link = .l0 then s.stamp else x.downSince
        decoder := false, locked := false, commitError := false, rangeMoved := x.taken
        cfgReady := x.cfgReady && cause != .perst, leftReset := x.leftReset && cause != .perst, resp := .none }) ∧
      s.PortStopped p { s with regs := m, chans := c, images := i } ∧
      (x.link = .l0 → ({ s with regs := m } : State).errSet .cxlp (portIx p) 3 = true) := by
  intro x
  obtain ⟨g, c, i, e, hg, hch, hrq, hout⟩ := portStopped_spec hr p
  have hx : ({ s with regs := g, chans := c, images := i } : State).port p = x := by cases p <;> rfl
  obtain ⟨m, f, e', hset, hkeep⟩ := linkTo_leaves (s := { s with regs := g, chans := c, images := i }) hg p
    (l := resetLink cause) (by cases cause <;> decide)
  rw [hx] at e' hset
  refine ⟨m, f, c, i, ?_, ⟨hch, ?_, ?_⟩, hset⟩
  · rw [conventionalReset_eq e (by rwa [hx])]
    dsimp only
    rw [e', State.port_setPort, setPort_comm]
  · rw [show ({ s with regs := m, chans := c, images := i } : State).reg .cxlp (portIx p) 0x04C = _ from hkeep _ (.inl rfl)]
    exact hrq
  · rw [show ({ s with regs := m, chans := c, images := i } : State).reg .cxlp (portIx p) 0x054 = _ from hkeep _ (.inr rfl)]
    exact hout

end

section
/-! The first second of a port (R372, R388). -/

variable {s : State} {p : HostPort}

theorem past40_iff : s.past40 = true ↔ s.stage ∈ [.bist, .clearing, .optical, .ready] := by
  simp [State.past40, or_assoc]

/-- R372: port A may leave reset; port B unless it is held off, or has to wait for 120 ms after port A. -/
theorem strapsLet_iff : s.strapsLet p = true ↔ p = .a ∨ (s.straps.getLsbD 0 = false ∧
    (s.straps.getLsbD 2 = false ∨ ∃ t, s.portA.leftAt = some t ∧ 25500000 ≤ (s.stamp - t).toNat)) := by
  cases p with
  | a => simp [State.strapsLet]
  | b => cases h : s.portA.leftAt <;> simp [State.strapsLet, h]

theorem portLeavesReset_eq : exec (.portLeavesReset p) s = .next (
    if (s.port p).link = .reset ∧ s.portDead p = false ∧ s.stage ∈ [.bist, .clearing, .optical, .ready] ∧ s.strapsLet p = true
    then s.setPort p { s.port p with link := .training, leftReset := true, pageReady := true, leftAt := some s.stamp } else s) :=
  congrArg Host.Outcome.next (if_congr (by simp only [Bool.and_eq_true, decide_eq_true_eq, Bool.not_eq_true', past40_iff, and_assoc]) rfl rfl)

theorem cfgReady_eq : exec (.cfgReady p) s = .next (
    if (s.port p).leftReset = true ∧ s.past40 = true ∧ s.stage ≠ .bist then s.setPort p { s.port p with cfgReady := true } else s) :=
  congrArg Host.Outcome.next (if_congr (by simp only [Bool.and_eq_true, bne_iff_ne, and_assoc]) rfl rfl)

end

/-- Settles O42: both resets stop channels and rings (`portStopped_spec`); the conventional one also takes the link away (`linkTo_leaves`). -/
theorem portResets : Obligations.PortResets := by
  intro s p cause width speed hi x hit stopped may link
  refine ⟨flr_spec hi.regs p, fun h => ?_, fun h hd hs hm => ?_, fun h => ?_, fun hl h0 hd => ?_, fun hl hs => ?_, fun h => ?_⟩
  · have hn : link = resetLink cause := by cases cause <;> rfl
    rw [hn]
    exact conventionalReset_spec hi.regs h
  · rw [portLeavesReset_eq, if_pos ⟨h, hd, hs, strapsLet_iff.2 hm⟩]
  · rw [portLeavesReset_eq, if_neg]
    rintro ⟨hl, hd, hs, hm⟩
    rcases h with h | h | h | h
    · exact h hl
    · exact absurd (hd.symm.trans h) nofun
    · exact h hs
    · exact h (strapsLet_iff.1 hm)
  · exact congrArg Host.Outcome.next (if_pos (by simp [hd, show (s.port p).leftReset = true from hl, show (s.port p).link ≠ .l0 from h0]))
  · rw [cfgReady_eq, if_pos ⟨hl, past40_iff.2 (by rcases hs with h | h | h <;> simp [h]), by rcases hs with h | h | h <;> simp [h]⟩]
  · rw [cfgReady_eq, if_neg]
    rintro ⟨hl, -, hs⟩
    exact h.elim (fun h => absurd (hl.symm.trans h) nofun) hs

end Sys2Proof.Machine
end

section
/-! PROOF. Image slots (O41): the slots' commands, copy steps and the re-hash. -/

namespace Sys2Proof.Machine

section
/-! The commands of the selected slot (R313, R323, R324, R329, R330). -/

variable {s : State} {p : HostPort}

theorem openLoad_eq (hw : s.pageWrites .ltr (portIx p) = true) :
    let w := s.regI .ltr 0 0x070 s.islot
    exec (.openLoad p) s = if (s.image s.islot).st = .empty
      then .next (s.setImage s.islot { st := .loading, bkpEn := bit w 31, bkpBase := if bit w 31 then bits w 27 0 * 4096 else 0 })
      else .next (s.answerSlot s.islot resultWrongState) :=
  (congrArg Host.Outcome.next (if_pos hw)).trans (apply_ite ..)

theorem commit_eq (hw : s.pageWrites .ltr (portIx p) = true) : exec (.commit p) s = .next s.commitSlot := congrArg Host.Outcome.next (if_pos hw)

theorem commit_loading (hw : s.pageWrites .ltr (portIx p) = true) (h : (s.image s.islot).st = .loading) :
    let x := s.image s.islot
    exec (.commit p) s = if s.complete x.manifest x.progs x.present then .next (s.setImage s.islot { x with st := .ready, result := 0 })
      else .next (s.answerSlot s.islot resultMissing) := by
  rw [commit_eq hw, State.commitSlot]
  simp only [h]
  exact apply_ite ..

theorem commit_staging (hw : s.pageWrites .ltr (portIx p) = true) (h : (s.image s.islot).st = .staging) :
    let x := s.image s.islot
    exec (.commit p) s = if s.complete x.stagedManifest x.stagedProgs x.stagedPresent then .next (s.setImage s.islot { x with st := .staged, result := 0 })
      else .next (s.answerSlot s.islot resultMissing) := by
  rw [commit_eq hw, State.commitSlot]
  simp only [h]
  exact apply_ite ..

theorem commit_wrong (hw : s.pageWrites .ltr (portIx p) = true) (hl : (s.image s.islot).st ≠ .loading) (hs : (s.image s.islot).st ≠ .staging) :
    exec (.commit p) s = .next (s.answerSlot s.islot resultWrongState) := by
  rw [commit_eq hw, State.commitSlot]
  cases h : (s.image s.islot).st
  case loading => exact absurd h hl
  case staging => exact absurd h hs
  all_goals rfl

theorem unload_asks (hw : s.pageWrites .ltr (portIx p) = true) (h : (s.image s.islot).st = .loading ∨
      (((s.image s.islot).st = .ready ∨ (s.image s.islot).st = .failed) ∧ s.streamsOf s.islot = [])) :
    exec (.unload p) s = .next ((s.setImage s.islot { s.image s.islot with unloadAsked := true, result := 0 }).settleSlot s.islot) := by
  refine congrArg Host.Outcome.next ((if_pos hw).trans (if_pos ?_))
  rcases h with h | ⟨h | h, hs⟩
  · simp only [h]
  · simp only [h, hs, List.isEmpty_nil]
  · simp only [h, hs, List.isEmpty_nil]

theorem unload_wrong (hw : s.pageWrites .ltr (portIx p) = true) (h : (s.image s.islot).st = .empty ∨ (s.image s.islot).st = .staging ∨
      (s.image s.islot).st = .staged ∨ (s.image s.islot).st = .swapping ∨
      (((s.image s.islot).st = .ready ∨ (s.image s.islot).st = .failed) ∧ s.streamsOf s.islot ≠ [])) :
    exec (.unload p) s = .next (s.answerSlot s.islot resultWrongState) := by
  refine congrArg Host.Outcome.next ((if_pos hw).trans (if_neg ?_))
  rcases h with h | h | h | h | ⟨h | h, hs⟩
  · simp [h]
  · simp [h]
  · simp [h]
  · simp [h]
  · simp [h, hs]
  · simp [h, hs]

theorem abandon_eq (hw : s.pageWrites .ltr (portIx p) = true) :
    let x := s.image s.islot
    exec (.abandon p) s = if x.st = .staging ∨ x.st = .staged
      then .next ((s.setImage s.islot { x with abandonAsked := true, result := 0 }).settleSlot s.islot)
      else .next (s.answerSlot s.islot resultWrongState) :=
  (congrArg Host.Outcome.next (if_pos hw)).trans (apply_ite ..)

theorem openStage_eq (hw : s.pageWrites .ltr (portIx p) = true) :
    let x := s.image s.islot
    let base := bits (s.regI .ltr 0 0x06C s.islot) 27 0 * 4096
    exec (.openStage p) s = if x.st = .ready ∨ x.st = .failed then
        (if s.regionThere base 49152 = true ∧ clearOf base 49152 s.regions = true then .next (s.setImage s.islot
          { x with st := .staging, stageBase := base, stagedManifest := none, stagedProgs := [], stagedPresent := [], result := 0 })
        else .next (s.answerSlot s.islot resultNoFit))
      else .next (s.answerSlot s.islot resultWrongState) :=
  (congrArg Host.Outcome.next (if_pos hw)).trans
    ((apply_ite ..).trans (if_congr Iff.rfl ((apply_ite ..).trans (if_congr (Bool.and_eq_true_iff) rfl rfl)) rfl))

theorem swap_wrong (hw : s.pageWrites .ltr (portIx p) = true) (h : (s.image s.islot).st ≠ .staged) :
    exec (.swap p) s = .next (s.answerSlot s.islot resultWrongState) :=
  congrArg Host.Outcome.next ((if_pos hw).trans (if_neg h))

/-- R330: a swap starts at once unless a step of the slot's image runs. -/
theorem swap_starts (hw : s.pageWrites .ltr (portIx p) = true) (h : (s.image s.islot).st = .staged) (hc : ∀ t, s.seq.cur = some t → t.image ≠ s.islot) :
    exec (.swap p) s = .next ((s.answerSlot s.islot 0).startSwap s.islot) := by
  refine congrArg Host.Outcome.next ((if_pos hw).trans ((if_pos h).trans ?_))
  have hseq : (s.answerSlot s.islot 0).seq = s.seq := rfl
  rw [hseq]
  cases e : s.seq.cur with
  | none => rfl
  | some t => exact if_neg (hc t e)

theorem swap_waits {t : Step} (hw : s.pageWrites .ltr (portIx p) = true) (h : (s.image s.islot).st = .staged) (hc : s.seq.cur = some t)
    (ht : t.image = s.islot) :
    exec (.swap p) s = .next ((s.answerSlot s.islot 0).setImage s.islot { s.image s.islot with result := 0, swapAsked := true }) := by
  refine congrArg Host.Outcome.next ((if_pos hw).trans ((if_pos h).trans ?_))
  have hseq : (s.answerSlot s.islot 0).seq = s.seq := rfl
  have himage : (s.answerSlot s.islot 0).image s.islot = { s.image s.islot with result := 0 } :=
    image_setImage_new fun e => by simpa [h] using congrArg ImageSt.st e
  rw [hseq, himage]
  simp only [hc, ht, if_true]

end

section
/-! Copy steps (R330). -/

variable {s : State}

theorem copyStep_idle (h : ∀ k, k < 8 → (s.image k).st ≠ .swapping) : exec .copyStep s = .next s := by
  have hn : (List.range 8).find? (fun i => (s.image i).st == .swapping) = none := by
    simpa [List.find?_eq_none] using h
  refine congrArg Host.Outcome.next ?_
  rw [hn]

/-- The first slot that is SWAPPING is the one whose copy step is prepared. -/
theorem find_swapping {n : Nat} (hn : n < 8) (before : ∀ k, k < n → (s.image k).st ≠ .swapping) (h : (s.image n).st = .swapping) :
    (List.range 8).find? (fun i => (s.image i).st == .swapping) = some n := by
  rw [List.find?_range_eq_some]
  exact ⟨by simp [h], List.mem_range.2 hn, fun j hj => by simpa using before j hj⟩

theorem copyStep_prepares {n : Nat} {m : Manifest} (hn : n < 8) (before : ∀ k, k < n → (s.image k).st ≠ .swapping) (h : (s.image n).st = .swapping)
    (hm : (s.image n).stagedManifest = some m) (hc : s.seq.cur = none) (hnext : s.seq.next = none) (hs : s.stage = .ready) (he : s.flt.exec = true)
    (hp : s.flt.phase = .idle) (hcool : s.cool.st = .normal) :
    let t : Step := { id := s.seq.stepId + 1, image := n, prog := m.nprog, copy := some (s.image n).copyNext, entries := [], prepared := true }
    let u := (List.range 80).foldl (fun s lb => s.writeInputs t lb) s
    exec .copyStep s = .next { u with seq := { u.seq with next := some t } } := by
  intro t u
  refine congrArg Host.Outcome.next ?_
  rw [find_swapping hn before h]
  refine (if_neg (by simp [hc, hnext, hs, he, hp, hcool])).trans ?_
  split
  next h => exact absurd (hm.symm.trans h) nofun
  next l h =>
    obtain rfl : m = l := Option.some.inj (hm.symm.trans h)
    dsimp only [t, u]

end

section
/-! The re-hash (R326, R327, R335). -/

variable {s : State} {b : Option (Fin 80)} {slot : ImageSlot} {bad : List Nat} {m : Manifest}

/-- R326: the shards that a pass over a slot finds wrong. -/
def State.shardsFound (s : State) (x : ImageSt) (m : Manifest) (b : Option (Fin 80)) : List Nat := (s.passOver x m b).filter (s.shardWrong m)

/-- R327: the program parts that a pass of a berth finds wrong, of those that the slot holds. -/
def partsFound (x : ImageSt) (b : Option (Fin 80)) (bad : List Nat) : List Nat :=
  if b.isSome then bad.filter (fun n => (lookup x.progs n).isSome && !x.progLost.contains n) else []

/-- R326: a slot after a pass that found nothing wrong: the passes that were clean, or the time at which all of them were. -/
def State.afterClean (s : State) (x : ImageSt) (m : Manifest) (b : Option (Fin 80)) : ImageSt :=
  let me := (b.map Fin.val).getD 80
  let clean := x.passClean.filter (· ≠ me) ++ [me]
  if (List.range 80).all clean.contains && ((s.passOver x m none).isEmpty || clean.contains 80) then { x with good := s.stamp, passClean := [] }
  else { x with passClean := clean }

/-- R326, R327: a slot after a pass that found shards or program parts wrong. -/
def afterFound (x : ImageSt) (found parts : List Nat) : ImageSt :=
  { x with rehashBad := x.rehashBad.filter (fun k => !found.contains k) ++ found, progBad := x.progBad.filter (fun n => !parts.contains n) ++ parts
           passClean := [] }

theorem rehashPass_off (h : bits (s.regI .ltr 0 0x074 slot.val) 15 0 = 0 ∨
      ((s.image slot.val).st ≠ .ready ∧ (s.image slot.val).st ≠ .staging ∧ (s.image slot.val).st ≠ .staged)) :
    exec (.rehashPass b slot bad) s = .next s := by
  refine congrArg Host.Outcome.next (if_pos ?_)
  rcases h with h | ⟨h1, h2, h3⟩
  · simp [h]
  · simp [h1, h2, h3]

/-- R326, R327: a pass over a slot in service, by what it finds. -/
theorem rehashPass_on (hst : (s.image slot.val).st = .ready ∨ (s.image slot.val).st = .staging ∨ (s.image slot.val).st = .staged)
    (hint : bits (s.regI .ltr 0 0x074 slot.val) 15 0 ≠ 0) (hm : (s.image slot.val).manifest = some m) :
    let x := s.image slot.val
    let found := s.shardsFound x m b
    let parts := partsFound x b bad
    exec (.rehashPass b slot bad) s = .next (if found = [] ∧ parts = [] then s.setImage slot.val (s.afterClean x m b)
      else (s.setImage slot.val (afterFound x found parts)).raise .ltr 0 3) := by
  intro x found parts
  refine congrArg Host.Outcome.next ((if_neg ?_).trans ?_)
  · rcases hst with h | h | h <;> simp [h, hint]
  · split
    next h => exact absurd (hm.symm.trans h) nofun
    next n h =>
      obtain rfl : m = n := Option.some.inj (hm.symm.trans h)
      exact if_congr (by simp only [Bool.and_eq_true, List.isEmpty_iff]; rfl) rfl rfl

theorem rehashPass_found (hr : Sparse.wf regReset s.regs = true)
    (hst : (s.image slot.val).st = .ready ∨ (s.image slot.val).st = .staging ∨ (s.image slot.val).st = .staged)
    (hint : bits (s.regI .ltr 0 0x074 slot.val) 15 0 ≠ 0) (hm : (s.image slot.val).manifest = some m)
    (h : s.shardsFound (s.image slot.val) m b ≠ [] ∨ partsFound (s.image slot.val) b bad ≠ []) :
    let x := s.image slot.val
    ∃ g f, exec (.rehashPass b slot bad) s =
        .next { s.setImage slot.val (afterFound x (s.shardsFound x m b) (partsFound x b bad)) with regs := g, flt := f } ∧
      ({ s with regs := g } : State).errSet .ltr 0 3 = true := by
  intro x
  obtain ⟨g, f, e, hset⟩ := raise_any (s := s.setImage slot.val (afterFound x (s.shardsFound x m b) (partsFound x b bad))) (b := .ltr) (i := 0) (n := 3)
    hr rfl (by decide)
  refine ⟨g, f, ?_, hset⟩
  rw [rehashPass_on hst hint hm, if_neg (by tauto), e]

theorem mem_shardsFound {x : ImageSt} {k : Nat} : k ∈ s.shardsFound x m b ↔ k ∈ s.ownShards m ∧ k ∈ x.present ∧ ∃ z, s.shard? m k = some z ∧
    (match b with | some b => z.streamed = false ∧ z.berth = b.val | none => z.streamed = true) ∧ sha256 (s.shardBytes m z) ≠ z.digest := by
  unfold State.shardsFound State.passOver State.shardWrong
  rw [List.mem_filter, List.mem_filter]
  cases h : s.shard? m k with
  | none => simp
  | some z => cases b <;> simp [and_assoc]

end

/-- Settles O41: each command of a slot by the slot's state, a copy step by the first slot that is SWAPPING, a re-hash pass by what it finds. -/
theorem slotCommands : Obligations.SlotCommands := by
  intro s p b bad m hi hw i x w wrong
  refine ⟨openLoad_eq hw, ?_, unload_asks hw, unload_wrong hw, abandon_eq hw, openStage_eq hw, swap_wrong hw, fun h hc => ?_, fun t h hc ht => ?_,
    fun t h hc ht => swap_waits hw h hc ht, fun n before hn => copyStep_prepares hn before,
    copyStep_idle, fun slot => ?_, fun y k => mem_shardsFound⟩
  · split
    next h => exact commit_loading hw h
    next h => exact commit_staging hw h
    next hl hs => exact commit_wrong hw hl hs
  · exact swap_starts hw h fun t ht => absurd (hc.symm.trans ht) nofun
  · exact swap_starts hw h fun u hu => Option.some.inj (hc.symm.trans hu) ▸ ht
  · intro y found parts me clean
    refine ⟨rehashPass_off, fun hst hint hm => ⟨fun hf hp => ?_, rehashPass_found hi.regs hst hint hm⟩⟩
    exact (rehashPass_on hst hint hm).trans (congrArg _ (if_pos ⟨hf, hp⟩))

end Sys2Proof.Machine
end

section
/-! PROOF. The Lighter's channels and copies (O39): descriptors, bursts, completion and CHANNEL_ENABLE. -/

namespace Sys2Proof.Machine

section
/-! A channel reads its next descriptor (R315, R316, R319, R320). -/

variable {s : State} {p : HostPort} {ch : Channel} {host : Option (List Word)}

/-- R315: the words of a channel's descriptors. -/
def State.descWords (s : State) (p : HostPort) (ch : Channel) : Nat := if chShort (s.chReg p ch 0x04C) then 8 else 16

theorem map_getD_range {l : List Word} {n : Nat} (h : l.length = n) : (List.range n).map (fun i => l.getD i 0) = l := by
  subst h
  refine List.ext_getElem (by simp) fun i _ hi => ?_
  simp [List.getElem?_eq_getElem hi]

theorem readDesc_host {words : List Word} (h : bit (s.chReg p ch 0x04C) 30 = false) (hl : words.length = s.descWords p ch) :
    s.readDesc p ch (some words) = some words := by
  refine (if_neg (by simp [h])).trans ?_
  exact congrArg some (map_getD_range hl)

theorem readDesc_tier (h : bit (s.chReg p ch 0x04C) 30 = true) (hin : s.inDevicePart (s.descAddr p ch) (4 * s.descWords p ch) = true)
    (hr : s.dpaRetired (s.descAddr p ch) (4 * s.descWords p ch) = false) :
    s.readDesc p ch host = some ((List.range (s.descWords p ch)).map (fun i => Memory.word s.hbm (s.descAddr p ch + 4 * i))) :=
  (if_pos h).trans (if_pos (by rw [Bool.and_eq_true, Bool.not_eq_true']; exact ⟨hin, hr⟩))

theorem readDesc_none (h : bit (s.chReg p ch 0x04C) 30 = false ∨ s.inDevicePart (s.descAddr p ch) (4 * s.descWords p ch) = false ∨
      s.dpaRetired (s.descAddr p ch) (4 * s.descWords p ch) = true) : s.readDesc p ch none = none := by
  by_cases ht : bit (s.chReg p ch 0x04C) 30 = true
  · refine (if_pos ht).trans (if_neg fun hc => ?_)
    rw [Bool.and_eq_true, Bool.not_eq_true'] at hc
    rcases h with h | h | h
    · exact absurd (ht.symm.trans h) nofun
    · exact absurd (hc.1.symm.trans h) nofun
    · exact absurd (h.symm.trans hc.2) nofun
  · exact if_neg ht

/-- R315: a channel that takes descriptors: it is enabled and runs, and has none in progress. -/
structure State.Polls (s : State) (p : HostPort) (ch : Channel) : Prop where
  enabled : bit (s.chReg p ch 0x04C) 31 = true
  running : (s.chan (chanIx p ch)).stopped = false
  free : (s.chan (chanIx p ch)).job = none

/-- R320: a descriptor that has been read is taken if the Lighter owns it. -/
theorem descriptorPoll_read (h : s.Polls p ch) {l : List Word} (hl : s.readDesc p ch host = some l) :
    exec (.descriptorPoll p ch host) s = if bit (l.getD 0 0) 31 then .next (s.setChan (chanIx p ch) { s.chan (chanIx p ch) with
        job := some { jobOf (chShort (s.chReg p ch 0x04C)) l with addr := s.descAddr p ch, inTier := bit (s.chReg p ch 0x04C) 30 } }) else .next s := by
  refine (congrArg Host.Outcome.next ((if_neg ?_).trans ?_)).trans (apply_ite ..)
  · simp [h.enabled, h.running, h.free]
  · rw [hl]

/-- R319: a failed read of a descriptor stops its channel and sets RING. -/
theorem descriptorPoll_failed (hr : Sparse.wf regReset s.regs = true) (h : s.Polls p ch) (hl : s.readDesc p ch host = none) :
    ∃ m f, exec (.descriptorPoll p ch host) s =
        .next (({ s with regs := m, flt := f } : State).setChan (chanIx p ch) { s.chan (chanIx p ch) with stopped := true }) ∧
      ({ s with regs := m } : State).errSet .ltr (portIx p) 1 = true := by
  obtain ⟨g, f0, e, hg⟩ : ∃ g f0, (if (bit (s.chReg p ch 0x04C) 30 && decide (s.descAddr p ch < s.hostLimit)) = true
      then s.raise .hbmc (dpaStack (s.descAddr p ch)) 2 else s) = { s with regs := g, flt := f0 } ∧ Sparse.wf regReset g = true := by
    split
    · exact raise_wf _ _ _ hr
    · exact ⟨s.regs, s.flt, rfl, hr⟩
  obtain ⟨m, f, e', hset⟩ := raise_any (b := .ltr) (i := portIx p) (n := 1)
    (s := ({ s with regs := g, flt := f0 } : State).setChan (chanIx p ch) { s.chan (chanIx p ch) with stopped := true }) hg rfl (by decide)
  refine ⟨m, f, congrArg Host.Outcome.next ((if_neg ?_).trans ?_), hset⟩
  · simp [h.enabled, h.running, h.free]
  · rw [hl]
    dsimp only
    rw [e, e']
    rfl

end

section
/-! Copies (R211, R212, R317, R318). -/

variable {s : State} {p : HostPort} {ch : Channel} {j : Job}

theorem onJob_eq {kind : Nat} {f : Job → State} (hj : (s.chan (chanIx p ch)).job = some j) (hk : j.kind = kind) (hs : j.started = false) :
    s.onJob p ch kind f = f j := by
  unfold State.onJob
  rw [hj]
  exact if_pos ⟨hk, hs⟩

theorem copy_starts {a : Nat} (hj : (s.chan (chanIx p ch)).job = some j) (hs : j.started = false)
    (ha : j.kind = 1 ∧ a = descDst j ∨ j.kind = 2 ∧ a = descSrc j) :
    exec (if j.kind = 1 then .copyIn p ch else .copyOut p ch) s = .next (s.startCopy p ch j a) := by
  rcases ha with ⟨hk, rfl⟩ | ⟨hk, rfl⟩
  · rw [if_pos hk]
    exact congrArg Host.Outcome.next (onJob_eq hj hk hs)
  · rw [if_neg (by omega)]
    exact congrArg Host.Outcome.next (onJob_eq hj hk hs)

/-- R212: a copy that touches a host part is refused, and HOSTPART is set. -/
theorem startCopy_hostPart (hr : Sparse.wf regReset s.regs = true) {a : Nat} (h : a < s.hostLimit) :
    ∃ m f, s.startCopy p ch j a = ({ s with regs := m, flt := f } : State).setJob p ch (overWith j .refusedPart) ∧
      ({ s with regs := m } : State).errSet .hbmc (dpaStack a) 2 = true := by
  obtain ⟨m, f, e, hset⟩ := raise_any (s := s) (b := .hbmc) (i := dpaStack a) (n := 2) hr rfl (by decide)
  refine ⟨m, f, ?_, hset⟩
  rw [State.startCopy, State.copyRefused, if_pos h, Option.elim_some, if_pos rfl, e]

theorem startCopy_devicePart {a : Nat} (h : s.hostLimit ≤ a) :
    s.startCopy p ch j a = if tierBytes < a + j.len then s.setJob p ch (overWith j .badDesc) else s.setJob p ch { j with started := true } := by
  rw [State.startCopy, State.copyRefused, if_neg (by omega)]
  split <;> rfl

end

section
/-! Bursts of a copy (R215, R317). -/

variable {s : State} {p : HostPort} {ch : Channel} {j : Job} {host : Option (List Byte)} {e : EccOutcome} {unit : Nat}

theorem lighterFree_iff {a : Nat} : s.lighterFree a = true ↔ (s.stack (dpaStack a)).lighter.length < 8 := decide_eq_true_iff

/-- R317: the bytes of a burst of a copy at `a`: none spans a 4 KiB page. -/
def copyBurst (j : Job) (a : Nat) : Nat := min (4096 - a % 4096) (j.len - j.moved)

/-- R317: a descriptor that has moved `n` bytes more. -/
def movedOn (j : Job) (n : Nat) : Job := { j with moved := j.moved + n, finished := decide (j.len ≤ j.moved + n) }

theorem burst_copyIn (hj : (s.chan (chanIx p ch)).job = some j) (hs : j.started = true) (hf : j.finished = false) (hk : j.kind = 1) :
    exec (.lighterBurst p ch host e unit) s = .next (s.burstIn p ch j host) := by
  refine congrArg Host.Outcome.next ?_
  simp only [hj, hs, hf, hk, Bool.not_true, Bool.or_self, Bool.false_eq_true, if_false]

theorem burst_copyOut (hj : (s.chan (chanIx p ch)).job = some j) (hs : j.started = true) (hf : j.finished = false) (hk : j.kind = 2) :
    exec (.lighterBurst p ch host e unit) s = .next (s.burstOut p ch j e unit) := by
  refine congrArg Host.Outcome.next ?_
  simp only [hj, hs, hf, hk, Bool.not_true, Bool.or_self, Bool.false_eq_true, if_false]

theorem burstIn_waits (h : 8 ≤ (s.stack (dpaStack (descDst j + j.moved))).lighter.length) : s.burstIn p ch j host = s :=
  if_pos (by rw [Bool.not_eq_true', ← Bool.not_eq_true, lighterFree_iff]; omega)

theorem burstIn_moves (h : (s.stack (dpaStack (descDst j + j.moved))).lighter.length < 8) :
    let a := descDst j + j.moved
    s.burstIn p ch j none = s.setJob p ch (overWith j .srcErr) ∧
    ∀ data : List Byte, s.burstIn p ch j (some data) =
      if data.length < copyBurst j a then s.setJob p ch (overWith j .srcErr) else if s.dpaRetired a (copyBurst j a) then s.setJob p ch (overWith j .dstErr)
      else (s.toBuffer a (.toTier a (data.take (copyBurst j a)))).setJob p ch (movedOn j (copyBurst j a)) := by
  have free : ¬(!s.lighterFree (descDst j + j.moved)) = true := by simp [lighterFree_iff, h]
  exact ⟨if_neg free, fun data => if_neg free⟩

theorem burstOut_waits (h : 8 ≤ (s.stack (dpaStack (descSrc j + j.moved))).lighter.length) : s.burstOut p ch j e unit = s :=
  if_pos (by rw [Bool.not_eq_true', ← Bool.not_eq_true, lighterFree_iff]; omega)

theorem burstOut_retired (h : (s.stack (dpaStack (descSrc j + j.moved))).lighter.length < 8)
    (hr : s.dpaRetired (descSrc j + j.moved) (copyBurst j (descSrc j + j.moved)) = true) :
    s.burstOut p ch j e unit = s.setJob p ch (overWith j .dstErr) :=
  (if_neg (by simp [lighterFree_iff, h])).trans (if_pos hr)

/-- R317: the state in which the bytes that a COPY_OUT has read stand in a Lighter buffer on their way to host memory. -/
def State.outBuffered (s : State) (p : HostPort) (j : Job) : State :=
  let a := descSrc j + j.moved
  s.toBuffer a (.toHost (hostKey p (descDst j + j.moved)) (Memory.read s.hbm a (copyBurst j a)))

/-- R215, R317: a COPY_OUT's burst from pages that are not retired, by what the stack delivers; `u` is the unit that it corrects or loses. -/
theorem burstOut_reads (h : (s.stack (dpaStack (descSrc j + j.moved))).lighter.length < 8)
    (hr : s.dpaRetired (descSrc j + j.moved) (copyBurst j (descSrc j + j.moved)) = false) :
    let a := descSrc j + j.moved
    let n := copyBurst j a
    let u := a + unit % n / 64 * 64
    s.burstOut p ch j e unit = match e with
      | .clean => (s.outBuffered p j).setJob p ch (movedOn j n)
      | .corrected => ((s.correctUnit (dpaStack u)).toBuffer a (.toHost (hostKey p (descDst j + j.moved)) (Memory.read s.hbm a n))).setJob p ch (movedOn j n)
      | .uncorrectable => ((s.tierLost (dpaStack u) (dpaOffset u)).raise .hbmc (dpaStack u) 1).setJob p ch (overWith j .dstErr) := by
  refine (if_neg (by simp [lighterFree_iff, h])).trans ((if_neg (Bool.not_eq_true _ ▸ hr)).trans ?_)
  cases e <;> rfl

theorem burstOut_corrected (hw : Sparse.wf regReset s.regs = true) (h : (s.stack (dpaStack (descSrc j + j.moved))).lighter.length < 8)
    (hr : s.dpaRetired (descSrc j + j.moved) (copyBurst j (descSrc j + j.moved)) = false) :
    let n := copyBurst j (descSrc j + j.moved)
    let u := descSrc j + j.moved + unit % n / 64 * 64
    ∃ m f, s.burstOut p ch j .corrected unit = (({ s with regs := m, flt := f } : State).outBuffered p j).setJob p ch (movedOn j n) ∧
      ({ s with regs := m } : State).errSet .hbmc (dpaStack u) 0 = true := by
  intro n u
  obtain ⟨m, f, e, hset⟩ := correctUnit_spec hw (dpaStack u)
  refine ⟨m, f, ?_, hset⟩
  rw [burstOut_reads h hr]
  dsimp only
  rw [e]
  rfl

theorem burstOut_lost (hw : Sparse.wf regReset s.regs = true) (h : (s.stack (dpaStack (descSrc j + j.moved))).lighter.length < 8)
    (hr : s.dpaRetired (descSrc j + j.moved) (copyBurst j (descSrc j + j.moved)) = false) :
    let u := descSrc j + j.moved + unit % copyBurst j (descSrc j + j.moved) / 64 * 64
    ∃ m f, s.burstOut p ch j .uncorrectable unit =
        ({ s.unitLost (dpaStack u) (dpaOffset u) with regs := m, flt := f } : State).setJob p ch (overWith j .dstErr) ∧
      ({ s with regs := m } : State).errSet .hbmc (dpaStack u) 1 = true := by
  intro u
  obtain ⟨g, e, hg⟩ := logTierError_wf hw (dpaStack u) (dpaOffset u)
  obtain ⟨m, f, e', hset⟩ := raise_any (s := ({ s with regs := g } : State).unitLost (dpaStack u) (dpaOffset u)) (b := .hbmc) (i := dpaStack u) (n := 1)
    hg rfl (by decide)
  refine ⟨m, f, ?_, hset⟩
  rw [burstOut_reads h hr]
  dsimp only
  rw [State.tierLost, e, e']
  rfl

end

section
/-! Completion (R316, R320, R321, R322). -/

variable {s u : State} {p : HostPort} {ch : Channel} {j : Job}

/-- R321: what completion finds in memory: for a long descriptor no Lighter buffer is left. -/
def State.settled (s : State) (j : Job) : State := if j.short then s else s.flushBuffers

theorem settled_only (s : State) (j : Job) : ∃ d h g, s.settled j = { s with tier := d, hbm := h, hostMem := g } := by
  unfold State.settled
  split
  · exact ⟨s.tier, s.hbm, s.hostMem, rfl⟩
  · exact flushBuffers_only s

/-- R321, R324: the code with which a descriptor completes: `c` is that of its transfer. -/
def completionCode (j : Job) (c : Nat) (bad : Bool) : Nat :=
  if c = 0 ∧ bad = true ∧ j.short = false ∧ (j.kind ≤ 2 ∨ j.kind = 4 ∨ j.kind = 5) then codeNat .dstErr else c

/-- R320, R321, R322: a descriptor whose transfer has ended is written back, and its channel goes on. -/
def State.closeJob (s : State) (p : HostPort) (ch : Channel) (j : Job) : State :=
  let k := chanIx p ch
  let w := s.chReg p ch 0x04C
  let t := (s.writeBack p j).setChan k { s.chan k with job := none, next := if j.renewed then (s.chan k).next else ((s.chan k).next + 1) % 2 ^ chLog2 w }
  let t := t.setRegI .ltr (portIx p) 0x054 ch.val (s.chReg p ch 0x054 + 1)
  let t := if j.code = 0 then t else t.raise .ltr (portIx p) 0
  let t := if bit (dword j 0) 4 then t.msi (portIx p) (bits w 10 0) else t
  t.settleSlot (descImage j)

theorem descriptorComplete_closes {bad : Bool} (hj : (s.chan (chanIx p ch)).job = some j) (hf : j.finished = true) (hd : s.jobDraining j = false) :
    let r := if (j.kind = 4 ∨ j.kind = 5) ∧ j.code = 0 then (s.settled j).shardArrived j else (s.settled j, j.code)
    exec (.descriptorComplete p ch bad) s = .next (r.1.closeJob p ch { j with code := completionCode j r.2 bad, sum := sha256 j.data }) := by
  refine congrArg Host.Outcome.next ?_
  simp only [hj, hf, hd, Bool.not_true, Bool.or_self, Bool.false_eq_true, if_false]
  rfl

/-- R323: a slot that is to be neither emptied nor abandoned stays as it is. -/
theorem settleSlot_none {i : Nat} (hu : (s.image i).unloadAsked = false) (ha : (s.image i).abandonAsked = false) : s.settleSlot i = s := by
  unfold State.settleSlot
  simp [hu, ha]

/-- R316, R320: bytes that the Lighter writes at a word of where it read a descriptor; a retired page takes none. -/
def State.putBack (s : State) (p : HostPort) (j : Job) (i : Nat) (data : List Byte) : State :=
  let a := j.addr + 4 * i
  if j.inTier then (if s.dpaRetired a data.length then s else { s with hbm := Memory.write s.hbm a data })
  else { s with hostMem := Memory.write s.hostMem (hostKey p a) data }

theorem putBack_only (s : State) (p : HostPort) (j : Job) (i : Nat) (data : List Byte) :
    ∃ h g, s.putBack p j i data = { s with hbm := h, hostMem := g } := by
  unfold State.putBack
  dsimp only
  split_ifs <;> exact ⟨_, _, rfl⟩

/-- R321: SUM where a descriptor has one, then word 7, then OWN. -/
theorem writeBack_eq (s : State) (p : HostPort) (j : Job) : s.writeBack p j =
    (((if j.kind = 4 ∨ j.kind = 5 then (if j.short then s else s.putBack p j 8 j.sum) else s).putBack p j 7 (leBytes j.code 4)).putBack p j 0
      (leBytes (putBits (dword j 0) 31 31 0).toNat 4)) := rfl

/-- R316, R320, R321: writing a descriptor back changes memory alone. -/
theorem writeBack_only (s : State) (p : HostPort) (j : Job) : ∃ h g, s.writeBack p j = { s with hbm := h, hostMem := g } := by
  obtain ⟨h, g, e⟩ : ∃ h g, (if j.kind = 4 ∨ j.kind = 5 then (if j.short then s else s.putBack p j 8 j.sum) else s) =
      ({ s with hbm := h, hostMem := g } : State) := by
    split
    · split
      · exact ⟨s.hbm, s.hostMem, rfl⟩
      · exact putBack_only ..
    · exact ⟨s.hbm, s.hostMem, rfl⟩
  rw [writeBack_eq, e]
  obtain ⟨h', g', e'⟩ := putBack_only { s with hbm := h, hostMem := g } p j 7 (leBytes j.code 4)
  rw [e']
  exact putBack_only ..

/-- R320, R321, R322: a completed descriptor's channel has no job and has advanced; besides its memory only registers, messages and its
interrupt's count differ. -/
theorem closeJob_spec (hr : Sparse.wf regReset s.regs = true) (hu : (s.image (descImage j)).unloadAsked = false)
    (ha : (s.image (descImage j)).abandonAsked = false) :
    let k := chanIx p ch
    let w := s.chReg p ch 0x04C
    ∃ m f, s.closeJob p ch j = ({ s.writeBack p j with
        regs := m, flt := f, msix := if bit (dword j 0) 4 then (s.msi (portIx p) (bits w 10 0)).msix else s.msix } : State).setChan k
          { s.chan k with job := none, next := if j.renewed then (s.chan k).next else ((s.chan k).next + 1) % 2 ^ chLog2 w } ∧
      (j.code ≠ 0 → ({ s with regs := m } : State).errSet .ltr (portIx p) 0 = true) := by
  intro k w
  obtain ⟨h, g, e⟩ := writeBack_only s p j
  obtain ⟨y, hy⟩ : ∃ y : ChannelSt, y = { s.chan k with job := none, next := if j.renewed then (s.chan k).next else ((s.chan k).next + 1) % 2 ^ chLog2 w } :=
    ⟨_, rfl⟩
  obtain ⟨m0, e0, hm0⟩ := setRegI_wf (s := ({ s with hbm := h, hostMem := g } : State).setChan k y) .ltr (portIx p) 0x054 ch.val
    (s.chReg p ch 0x054 + 1) hr
  obtain ⟨m, f, e1, hset⟩ : ∃ m f, (if j.code = 0 then ({ ({ s with hbm := h, hostMem := g } : State).setChan k y with regs := m0 } : State)
      else ({ ({ s with hbm := h, hostMem := g } : State).setChan k y with regs := m0 } : State).raise .ltr (portIx p) 0) =
        { ({ s with hbm := h, hostMem := g } : State).setChan k y with regs := m, flt := f } ∧
      (j.code ≠ 0 → ({ s with regs := m } : State).errSet .ltr (portIx p) 0 = true) := by
    split
    next hc => exact ⟨m0, s.flt, rfl, fun hn => absurd hc hn⟩
    next =>
      obtain ⟨m, f, e1, hset⟩ := raise_any (s := ({ ({ s with hbm := h, hostMem := g } : State).setChan k y with regs := m0 } : State)) (b := .ltr)
        (i := portIx p) (n := 0) hm0 rfl (by decide)
      exact ⟨m, f, e1, fun _ => hset⟩
  refine ⟨m, f, ?_, hset⟩
  unfold State.closeJob
  dsimp only
  rw [e, show chanIx p ch = k from rfl, show s.chReg p ch 0x04C = w from rfl, ← hy, e0, e1]
  split
  · exact settleSlot_none hu ha
  · exact settleSlot_none hu ha

end

section
/-! The Lighter's copies, command by command. -/

variable {s : State} {p : HostPort} {ch : Channel} {j : Job}

/-- R321: word 7 of a descriptor, then its OWN, are written where it was read. -/
theorem descriptorComplete_copy {bad : Bool} (hi : Inv s) (hj : (s.chan (chanIx p ch)).job = some j) (hf : j.finished = true) (hk : j.kind ≤ 2)
    (hu : (s.image (descImage j)).unloadAsked = false) (ha : (s.image (descImage j)).abandonAsked = false) :
    let k := chanIx p ch
    let w := s.chReg p ch 0x04C
    let code := completionCode j j.code bad
    ∃ m f, exec (.descriptorComplete p ch bad) s = .next (({ (s.settled j).writeBack p { j with code := code, sum := sha256 j.data } with
        regs := m, flt := f, msix := if bit (dword j 0) 4 then (s.msi (portIx p) (bits w 10 0)).msix else s.msix } : State).setChan k
          { s.chan k with job := none, next := if j.renewed then (s.chan k).next else ((s.chan k).next + 1) % 2 ^ chLog2 w }) ∧
      (code ≠ 0 → ({ s with regs := m } : State).errSet .ltr (portIx p) 0 = true) := by
  intro k w code
  have hd : s.jobDraining j = false := by
    unfold State.jobDraining
    rw [show (j.kind == 4) = false from by simp; omega]
    rfl
  obtain ⟨d, h, g, e⟩ := settled_only s j
  obtain ⟨m, f, e', hset⟩ := closeJob_spec (s := s.settled j) (p := p) (ch := ch) (j := { j with code := code, sum := sha256 j.data })
    (by rw [e]; exact hi.regs) (by rw [e]; exact hu) (by rw [e]; exact ha)
  refine ⟨m, f, ?_, fun hc => errSet_of (hset hc) rfl⟩
  rw [descriptorComplete_closes hj hf hd, if_neg (by omega)]
  refine congrArg Host.Outcome.next (e'.trans ?_)
  rw [e]
  rfl

theorem channelEnable_eq {v : Word} (hw : s.pageWrites .ltr (portIx p) = true) :
    let c := bits (s.reg .ltr (portIx p) 0x040) 3 0
    let y := s.chan (portIx p * 16 + c)
    let t := s.setRegI .ltr (portIx p) 0x04C c (v &&& 0xE0FFF7FF#32)
    exec (.channelEnable p v) s = .next (if bit v 31 = true ∧ bit (s.regI .ltr (portIx p) 0x04C c) 31 = false then
      t.setChan (portIx p * 16 + c) { y with next := 0, stopped := false, job := y.job.map (fun j => { j with renewed := true }) } else t) :=
  congrArg Host.Outcome.next ((if_pos hw).trans (if_congr (by simp) rfl rfl))

end

/-- Settles O39: a poll by what its read returns, a copy by where its range lies, a burst by its buffer, its pages and its units, a completion
by `closeJob_spec`. -/
theorem lighterCopies : Obligations.LighterCopies := by
  intro s p ch words data bad v e unit hi k x cfg at_ nw has takes
  refine ⟨fun he hs hf => ?_, fun j a hj hs ha => ?_, fun j hj hs hf => ⟨fun hk => ?_, fun hk h => ?_⟩, fun j hj hf hk hu ha => ?_,
    flushBuffers_only s, channelEnable_eq⟩
  · have polls : s.Polls p ch := ⟨he, hs, hf⟩
    exact ⟨fun ht hl => descriptorPoll_read polls (readDesc_host ht hl), fun ht hin hr h => descriptorPoll_read polls (readDesc_tier ht hin hr),
      fun h => descriptorPoll_failed hi.regs polls (readDesc_none h)⟩
  · intro c
    have hc : exec c s = .next (s.startCopy p ch j a) := copy_starts hj hs ha
    refine ⟨fun h => ?_, fun h => ?_⟩
    · obtain ⟨m, f, h', hset⟩ := startCopy_hostPart (p := p) (ch := ch) (j := j) hi.regs h
      exact ⟨m, f, hc.trans (congrArg _ h'), hset⟩
    · rw [hc, startCopy_devicePart h]
      exact apply_ite ..
  · intro a n
    have run := fun host => burst_copyIn (host := host) (e := e) (unit := unit) hj hs hf hk
    refine ⟨fun h host => (run host).trans (congrArg _ (burstIn_waits h)), fun h => ?_⟩
    obtain ⟨hnone, hsome⟩ := burstIn_moves (p := p) (ch := ch) h
    refine ⟨(run none).trans (congrArg _ hnone), (run (some data)).trans ((congrArg _ (hsome data)).trans ?_)⟩
    exact (apply_ite ..).trans (if_congr Iff.rfl rfl (apply_ite ..))
  · intro a n u out
    have run := fun e => burst_copyOut (host := h) (e := e) (unit := unit) hj hs hf hk
    refine ⟨fun h => (run e).trans (congrArg _ (burstOut_waits h)), fun h => ⟨fun hr => (run e).trans (congrArg _ (burstOut_retired h hr)), fun hr => ?_⟩⟩
    refine ⟨(run .clean).trans (congrArg _ (burstOut_reads h hr)), ?_, ?_⟩
    · obtain ⟨m, f, h', hset⟩ := burstOut_corrected (p := p) (ch := ch) (unit := unit) hi.regs h hr
      exact ⟨m, f, (run .corrected).trans (congrArg _ h'), hset⟩
    · obtain ⟨m, f, h', hset⟩ := burstOut_lost (p := p) (ch := ch) (unit := unit) hi.regs h hr
      exact ⟨m, f, (run .uncorrectable).trans (congrArg _ h'), hset⟩
  · intro code u put
    have hcode : completionCode j j.code bad = code := if_congr (by simp [hk]) rfl rfl
    obtain ⟨m, f, h', hset⟩ := descriptorComplete_copy (bad := bad) hi hj hf hk hu ha
    rw [hcode] at h' hset
    refine ⟨m, f, h'.trans ?_, hset⟩
    have hput : (s.settled j).writeBack p { j with code := code, sum := sha256 j.data } =
        put (put u 7 (leBytes code 4)) 0 (leBytes (putBits (j.words.getD 0 0) 31 31 0).toNat 4) := by
      rw [writeBack_eq, if_neg (show ¬(j.kind = 4 ∨ j.kind = 5) by omega)]
      rfl
    rw [hput]
    rfl

end Sys2Proof.Machine
end

section
/-! PROOF. The descriptors of a package (O40): MANIFEST, SHARD, PEER_SHARD and PROGRAM. -/

namespace Sys2Proof.Machine

section
/-! A job is written beside operations that leave the channels (R317). -/

variable {s t : State} {p : HostPort} {ch : Channel}

theorem setJob_of_chans (h : t.chans = s.chans) (j : Job) :
    t.setJob p ch j = t.setChan (chanIx p ch) { s.chan (chanIx p ch) with job := some j } := by
  unfold State.setJob State.chan
  rw [h]

theorem setChan_chans (h : t.chans = s.chans) (k : Nat) (x : ChannelSt) : (t.setChan k x).chans = (s.setChan k x).chans :=
  congrArg (fun l => Sparse.set (fun _ => ({} : ChannelSt)) l k x) h

theorem raise_chans (s : State) (b : Blk) (i n : Nat) : (s.raise b i n).chans = s.chans := (KI.raise s b i n).2

theorem placeShard_chans (s : State) (d : ShardPlace) (off : Nat) (refill : Bool) (data : List Byte) :
    (s.placeShard d off refill data).chans = s.chans := by
  refine (foldl_same State.chans (f := fun s a => s.toBuffer a (.toTier a data)) (fun _ _ => rfl) _ _).trans ?_
  dsimp only
  split
  · rfl
  · split
    · rfl
    · unfold State.pagerWrite
      split_ifs
      · rfl
      · rfl
      · exact raise_chans ..

theorem unmark_chans (s : State) (d : ShardPlace) : (s.unmark d).chans = s.chans := by
  unfold State.unmark
  dsimp only
  split <;> rfl

end

section
/-! A slot that takes no package refuses its descriptors (R313, R323). -/

variable {s : State} {p : HostPort} {ch : Channel} {j : Job}

/-- R313: a slot in which a package's descriptors end with NOT_LOADING, whatever they name. -/
def State.takesNone (s : State) (i : Nat) : Prop := (s.image i).st = .empty ∨ (s.image i).st = .swapping ∨ (s.image i).st = .failed

theorem shardPlace_refused (h : s.takesNone (descImage j)) : s.shardPlace j = .inl .notLoading := by
  refine if_pos ?_
  rcases h with h | h | h <;> rw [h] <;> rfl

theorem manifest_refused {bytes : List Byte} (hj : (s.chan (chanIx p ch)).job = some j) (hs : j.started = false) (hk : j.kind = 3)
    (h : s.takesNone (descImage j)) : exec (.manifest p ch bytes) s = .next (s.setJob p ch (overWith j .notLoading)) := by
  refine congrArg Host.Outcome.next ((onJob_eq hj hk hs).trans (if_pos ?_))
  rcases h with h | h | h <;> rw [h] <;> rfl

theorem program_refused {bytes : List Byte} (hj : (s.chan (chanIx p ch)).job = some j) (hs : j.started = false) (hk : j.kind = 6)
    (h : s.takesNone (descImage j)) : exec (.program p ch bytes) s = .next (s.setJob p ch (overWith j .notLoading)) := by
  refine congrArg Host.Outcome.next ((onJob_eq hj hk hs).trans (if_pos ?_))
  rcases h with h | h | h <;> rw [h] <;> rfl

end

section
/-! A slot that is LOADING (R56, R57, R314, R324). -/

variable {s : State} {p : HostPort} {ch : Channel} {j : Job} {bytes : List Byte}

/-- R313: a slot that loads a package and is to be neither emptied nor abandoned. -/
structure State.Loads (s : State) (i : Nat) : Prop where
  loading : (s.image i).st = .loading
  kept : (s.image i).unloadAsked = false
  going : (s.image i).abandonAsked = false

/-- R314: a manifest is kept if its rules accept it; a bad signature sets SIG_FAIL. -/
theorem manifest_loads (hr : Sparse.wf regReset s.regs = true) (hj : (s.chan (chanIx p ch)).job = some j) (hs : j.started = false) (hk : j.kind = 3)
    (h : s.Loads (descImage j)) (hm : (s.image (descImage j)).manifest = none) (hd : s.dark 72 = false) (hl : j.len ≤ bytes.length) :
    let x := s.image (descImage j)
    let r := s.acceptManifest (descImage j) false (bytes.take j.len)
    ∃ m f, exec (.manifest p ch bytes) s = .next ((r.2.elim { s with regs := m, flt := f }
        (fun y => ({ s with regs := m, flt := f } : State).setImage (descImage j) { x with manifest := some y })).setChan (chanIx p ch)
          { s.chan (chanIx p ch) with job := some { overWith j r.1 with moved := j.len } }) ∧
      (if r.1 = .sigBad then ({ s with regs := m } : State).errSet .secu 0 1 = true else m = s.regs ∧ f = s.flt) := by
  intro x r
  obtain ⟨m, f, e, hset⟩ : ∃ m f, (if r.1 = .sigBad then s.raise .secu 0 1 else s) = { s with regs := m, flt := f } ∧
      (if r.1 = .sigBad then ({ s with regs := m } : State).errSet .secu 0 1 = true else m = s.regs ∧ f = s.flt) := by
    split
    · exact raise_any hr rfl (by decide)
    · exact ⟨s.regs, s.flt, rfl, rfl, rfl⟩
  refine ⟨m, f, congrArg Host.Outcome.next ((onJob_eq hj hk hs).trans ((if_neg ?_).trans ((if_neg ?_).trans ((if_neg ?_).trans ((if_neg ?_).trans ?_))))),
    hset⟩
  · simp [h.loading, h.kept, h.going]
  · simp [hd]
  · omega
  · simp [h.loading, hm]
  · have hst : ((s.image (descImage j)).st == .staging) = false := by rw [h.loading]; rfl
    simp only [hst]
    change State.setJob (match r.2 with | none => _ | some m => _) _ _ _ = _
    rw [e]
    cases r.2 <;> rfl

/-- R56, R57, R324: a PROGRAM in a slot that is LOADING, by its digest and its checks. -/
theorem program_loads (hj : (s.chan (chanIx p ch)).job = some j) (hs : j.started = false) (hk : j.kind = 6) (h : s.Loads (descImage j))
    (he : s.flt.exec = true) (hl : j.len ≤ bytes.length) {m : Manifest} {capacity y : Nat} {digest : List Byte}
    (hm : (s.image (descImage j)).manifest = some m) (hp : m.progs[descIndex j]? = some (j.len, capacity, y, digest)) :
    let x := s.image (descImage j)
    let data := bytes.take j.len
    exec (.program p ch bytes) s = .next (if sha256 data ≠ digest then s.setJob p ch (overWith j .digestBad)
      else match loadFault data s.opticalBerths s.moduleCount with
        | some f => (s.drawn.reportLoad (descImage j) (descIndex j) f).setJob p ch
            { overWith j .ok with code := 1 + Config.refusedProgramCode s.draws % 10 }
        | none => (s.setImage (descImage j) { x with progs := Sparse.insert x.progs (descIndex j) (programOf data capacity)
                                                     progLost := x.progLost.filter (· ≠ descIndex j) }).setJob p ch { overWith j .ok with moved := j.len }) := by
  intro x data
  have hst : (s.image (descImage j)).st = .loading := h.loading
  have staging : ((s.image (descImage j)).st == .staging) = false := by rw [hst]; rfl
  have reload : ((s.image (descImage j)).st == .ready || (s.image (descImage j)).st == .staged) = false := by rw [hst]; rfl
  refine congrArg Host.Outcome.next ((onJob_eq hj hk hs).trans ((if_neg ?_).trans ?_))
  · simp [hst, h.kept, h.going]
  · simp only [staging, reload, Bool.false_and, Bool.false_eq_true, if_false]
    split
    next hn => exact absurd (hm.symm.trans hn) nofun
    next n hn =>
      obtain rfl : m = n := Option.some.inj (hm.symm.trans hn)
      rw [hp]
      refine (if_neg (not_not_intro rfl)).trans ((if_neg (by omega)).trans (if_congr Iff.rfl rfl ?_))
      rw [he]
      rfl

end

section
/-! The start of a SHARD and of a PEER_SHARD (R317, R323, R324, R325). -/

variable {s : State} {p : HostPort} {ch : Channel} {j : Job} {d : ShardPlace} {reply : Option (List Byte)}

theorem shard_eq (hj : (s.chan (chanIx p ch)).job = some j) (hs : j.started = false) (hk : j.kind = 4) :
    exec (.shard p ch) s = .next (if s.shardBusy (chanIx p ch) j then s else match s.shardPlace j with
      | .inl c => s.setJob p ch (overWith j c)
      | .inr d => s.setJob p ch { j with started := true, place := some d }) :=
  congrArg Host.Outcome.next (onJob_eq hj hk hs)

theorem shard_waits (hj : (s.chan (chanIx p ch)).job = some j) (hs : j.started = false) (hk : j.kind = 4) (hb : s.shardBusy (chanIx p ch) j = true) :
    exec (.shard p ch) s = .next s :=
  (shard_eq hj hs hk).trans (congrArg _ (if_pos hb))

theorem shard_refused (hj : (s.chan (chanIx p ch)).job = some j) (hs : j.started = false) (hk : j.kind = 4) (hb : s.shardBusy (chanIx p ch) j = false)
    {c : DescCode} (hp : s.shardPlace j = .inl c) : exec (.shard p ch) s = .next (s.setJob p ch (overWith j c)) := by
  rw [shard_eq hj hs hk, hb, hp]
  rfl

theorem shard_starts (hj : (s.chan (chanIx p ch)).job = some j) (hs : j.started = false) (hk : j.kind = 4) (hb : s.shardBusy (chanIx p ch) j = false)
    (hp : s.shardPlace j = .inr d) : exec (.shard p ch) s = .next (s.setJob p ch { j with started := true, place := some d }) := by
  rw [shard_eq hj hs hk, hb, hp]
  rfl

/-- R325: a PEER_SHARD that its channel holds takes what a pull credit brings where it has a place, and else finds one first. -/
theorem peerShard_eq (hj : (s.chan (chanIx p ch)).job = some j) (hk : j.kind = 5) (hf : j.finished = false) :
    exec (.peerShard p ch reply) s = .next (match j.place with
      | some d => s.pullShard p ch j d reply
      | none => if s.shardBusy (chanIx p ch) j then s else match s.shardPlace j with
        | .inl c => s.setJob p ch (overWith j c)
        | .inr d => s.pullShard p ch j d reply) := by
  refine congrArg Host.Outcome.next ?_
  rw [hj]
  exact if_neg (by simp [hk, hf])

theorem peerShard_waits (hj : (s.chan (chanIx p ch)).job = some j) (hk : j.kind = 5) (hf : j.finished = false) (hp : j.place = none)
    (hb : s.shardBusy (chanIx p ch) j = true) : exec (.peerShard p ch reply) s = .next s := by
  rw [peerShard_eq hj hk hf, hp, hb]
  rfl

theorem peerShard_refused (hj : (s.chan (chanIx p ch)).job = some j) (hk : j.kind = 5) (hf : j.finished = false) (hp : j.place = none)
    (hb : s.shardBusy (chanIx p ch) j = false) {c : DescCode} (hc : s.shardPlace j = .inl c) :
    exec (.peerShard p ch reply) s = .next (s.setJob p ch (overWith j c)) := by
  rw [peerShard_eq hj hk hf, hp, hb, hc]
  rfl

/-- R317, R325, R353: what another module serves is taken while the optical port of the shard's berth is up. -/
theorem peerShard_pulls (hj : (s.chan (chanIx p ch)).job = some j) (hk : j.kind = 5) (hf : j.finished = false)
    (hp : j.place = some d ∨ (j.place = none ∧ s.shardBusy (chanIx p ch) j = false ∧ s.shardPlace j = .inr d))
    (hm : bits (j.words.getD 2 0) 15 0 ≠ s.moduleIndex) :
    exec (.peerShard p ch reply) s = .next (s.takeBurst p ch j d false
      (if (opticalPort s (opticalLink d.shard.berth true)).isSome then reply else none) .targetLost) := by
  have served : s.peerServes j d reply = reply := if_pos hm
  have pulled : s.pullShard p ch j d reply = s.takeBurst p ch j d false
      (if (opticalPort s (opticalLink d.shard.berth true)).isSome then reply else none) .targetLost := by
    rw [State.pullShard, served]
  rw [peerShard_eq hj hk hf, ← pulled]
  rcases hp with hp | ⟨hp, hb, hd⟩
  · rw [hp]
  · rw [hp, hb, hd]
    rfl

end

section
/-! Bursts of a shard (R216, R317, R320, R323, R324). -/

variable {s : State} {p : HostPort} {ch : Channel} {j : Job} {d : ShardPlace} {refill : Bool} {source : Option (List Byte)} {c : DescCode}

theorem burst_shard {host : Option (List Byte)} {e : EccOutcome} {unit : Nat} (hj : (s.chan (chanIx p ch)).job = some j) (hs : j.started = true)
    (hf : j.finished = false) (hk : j.kind = 4) (hp : j.place = some d) :
    exec (.lighterBurst p ch host e unit) s = .next (s.takeBurst p ch j d (!descByPager j) host .srcErr) := by
  refine congrArg Host.Outcome.next ?_
  simp only [hj, hs, hf, hk, Bool.not_true, Bool.or_self, Bool.false_eq_true, if_false, State.burstShard, hp]

/-- R323: a shard for a store die has a berth that serves it. -/
def State.hasBerth (s : State) (d : ShardPlace) : Prop := d.inStore = true → s.physOf d.shard.berth ≠ none

theorem takeBurst_lost (h : ¬s.hasBerth d) : s.takeBurst p ch j d refill source c = s.setJob p ch (overWith j .targetLost) :=
  if_pos (by simpa [State.hasBerth] using h)

theorem takeBurst_bound (h : s.hasBerth d) : s.takeBurst p ch j d refill source c =
    if s.shardWaits d j.moved refill then s else match source with
      | none => s.setJob p ch (overWith j c)
      | some l => if l.length < shardBurst d j then s.setJob p ch (overWith j c)
        else if s.shardRetired d j.moved (shardBurst d j) then s.setJob p ch (overWith j .dstErr)
        else ((s.placeShard d j.moved refill (l.take (shardBurst d j))).unmark d).setJob p ch
          { j with started := true, place := some d, moved := j.moved + shardBurst d j, data := j.data ++ l.take (shardBurst d j)
                   finished := decide (j.len ≤ j.moved + shardBurst d j) } :=
  if_neg fun hn => h hn.1 hn.2

/-- R324: the bytes of a burst on their way, their shard not present, and the job that has moved them. -/
theorem placed_setJob (n : Nat) (l : List Byte) (y : Job) : ((s.placeShard d n refill l).unmark d).setJob p ch y =
    ((s.placeShard d n refill l).unmark d).setChan (chanIx p ch) { s.chan (chanIx p ch) with job := some y } :=
  setJob_of_chans ((unmark_chans ..).trans (placeShard_chans ..)) y

/-- R317, R320, R323, R324: a burst by the berth, the buffers, what the source returned and the pages it goes to. -/
theorem takeBurst_spec {r : Res} (hr : r = .next (s.takeBurst p ch j d refill source c)) :
    let has := fun (t : State) (j : Job) => (Host.Outcome.next (t.setChan (chanIx p ch) { s.chan (chanIx p ch) with job := some j }) : Res)
    let n := shardBurst d j
    (¬s.hasBerth d → r = has s (overWith j .targetLost)) ∧
    (s.hasBerth d → s.shardWaits d j.moved refill = true → r = .next s) ∧
    (s.hasBerth d → s.shardWaits d j.moved refill = false →
      (source = none → r = has s (overWith j c)) ∧
      (∀ l, source = some l → r = if l.length < n then has s (overWith j c) else if s.shardRetired d j.moved n then has s (overWith j .dstErr)
        else has ((s.placeShard d j.moved refill (l.take n)).unmark d)
          { j with started := true, place := some d, moved := j.moved + n, data := j.data ++ l.take n, finished := decide (j.len ≤ j.moved + n) })) := by
  subst hr
  refine ⟨fun h => congrArg _ (takeBurst_lost h), fun h hw => congrArg _ ((takeBurst_bound h).trans (if_pos hw)), fun h hw => ?_⟩
  rw [takeBurst_bound h, if_neg (by simp [hw])]
  refine ⟨fun hs => by rw [hs]; rfl, fun l hs => ?_⟩
  rw [hs]
  dsimp only
  rw [placed_setJob]
  exact (apply_ite ..).trans (if_congr Iff.rfl rfl (apply_ite ..))

/-- R199, R317: the places of a resident shard of a slot without a backup region lie in its store die alone. -/
theorem shardDpas_resident {m : Manifest} (hm : (s.image d.slot).manifest = some m) (hg : d.staging = false) (hs : d.shard.streamed = false)
    (hb : (s.image d.slot).bkpEn = false) (off : Nat) : s.shardDpas d off = [] := by
  unfold State.shardDpas
  simp only [hg, hm, hs, hb, Bool.false_eq_true, if_false, List.append_nil]

theorem placeShard_resident {m : Manifest} {b : Nat} (hm : (s.image d.slot).manifest = some m) (hg : d.staging = false) (hs : d.shard.streamed = false)
    (hb : (s.image d.slot).bkpEn = false) (hp : s.physOf d.shard.berth = some b) (off : Nat) (data : List Byte) :
    s.placeShard d off refill data = if refill
      then s.setBerth b { s.berth b with refill := (s.berth b).refill ++ [(d.shard.place * 128 + off, data)] }
      else s.pagerWrite b (d.shard.place * 128 + off) data := by
  have hin : d.inStore = true := by simp [ShardPlace.inStore, hg, hs]
  have same : ∀ t : State, t.images = s.images → t.shardDpas d off = [] := fun t ht => by
    have himage : t.image d.slot = s.image d.slot := congrArg (Sparse.get _ · _) ht
    exact shardDpas_resident (himage ▸ hm) hg hs (himage ▸ hb) off
  unfold State.placeShard
  simp only [hin, hp, Bool.not_true, Bool.false_eq_true, if_false]
  rw [same _ ?_]
  · rfl
  · unfold State.pagerWrite
    split_ifs
    · rfl
    · rfl
    · exact (KI.raise ..).1

theorem pagerWrite_inPools (hi : Inv s) {b off : Nat} {data : List Byte} (h : off + data.length ≤ 0x3E00000 * 128) :
    s.StoreBecomes b (Memory.write (s.berth b).store off data) (s.pagerWrite b off data) := by
  rw [State.pagerWrite, if_pos (by simpa [inPools] using h)]
  exact storeWrite_spec hi b off data

end

section
/-! Completion of a shard (R321, R324). -/

variable {s : State} {p : HostPort} {ch : Channel} {j : Job} {d : ShardPlace}

/-- R324: what a shard's arrival leaves: its slot's record of what is present; channels and their configuration stand. -/
theorem shardArrived_leaves (hi : Inv s) (ch : Channel) (p : HostPort) (hp : j.place = some d) (he : (s.image d.slot).st ≠ .empty) :
    let x := s.image d.slot
    let u := ((s.settled j).shardArrived j).1
    let is := fun (l : List Nat) => l.filter (· ≠ d.index) ++ (if sha256 j.data = d.shard.digest then [d.index] else [])
    u.image d.slot = (if d.staging then { x with stagedPresent := is x.stagedPresent } else { x with present := is x.present }) ∧
      u.chans = s.chans ∧ u.chReg p ch 0x04C = s.chReg p ch 0x04C ∧ Sparse.wf regReset u.regs = true := by
  intro x u is
  obtain ⟨g, h, m, e⟩ := settled_only s j
  have himage : (s.settled j).image d.slot = x := by rw [e]; rfl
  have good : Inv (s.settled j) := by
    unfold State.settled
    split
    · exact hi
    · exact (good_flushBuffers (good_self hi)).inv
  obtain ⟨hpresent, hchans⟩ := shardArrived_spec (s := s.settled j) hp (by rwa [himage])
  rw [himage] at hpresent
  exact ⟨hpresent, hchans.trans (by rw [e]), (KC.shardArrived (s.settled j) j (portIx p) ch.val).trans (by rw [e]; rfl),
    (good_shardArrived (good_self good)).inv.regs⟩

/-- R322: closing a job leaves the slots, and the other channels. -/
theorem closeJob_leaves (hr : Sparse.wf regReset s.regs = true) (hu : (s.image (descImage j)).unloadAsked = false)
    (ha : (s.image (descImage j)).abandonAsked = false) :
    let y := s.chan (chanIx p ch)
    (s.closeJob p ch j).images = s.images ∧ (s.closeJob p ch j).chans = (s.setChan (chanIx p ch)
      { y with job := none, next := if j.renewed then y.next else (y.next + 1) % 2 ^ chLog2 (s.chReg p ch 0x04C) }).chans := by
  intro y
  obtain ⟨m, f, e, -⟩ := closeJob_spec (p := p) (ch := ch) hr hu ha
  obtain ⟨h, g, hback⟩ := writeBack_only s p j
  rw [e, hback]
  exact ⟨rfl, rfl⟩

/-- R324: the right digest makes a shard present, and another leaves it absent. -/
theorem descriptorComplete_shard {bad : Bool} (hi : Inv s) (hj : (s.chan (chanIx p ch)).job = some j) (hk : j.kind = 4 ∨ j.kind = 5)
    (hf : j.finished = true) (hc : j.code = 0) (hd : s.jobDraining j = false) (hp : j.place = some d) (hslot : d.slot = descImage j)
    (he : (s.image d.slot).st ≠ .empty) (hu : (s.image d.slot).unloadAsked = false) (ha : (s.image d.slot).abandonAsked = false) :
    let x := s.image d.slot
    let y := s.chan (chanIx p ch)
    ∃ t, exec (.descriptorComplete p ch bad) s = .next t ∧
      (let is := fun (l : List Nat) => l.filter (· ≠ d.index) ++ (if sha256 j.data = d.shard.digest then [d.index] else [])
       t.image d.slot = if d.staging then { x with stagedPresent := is x.stagedPresent } else { x with present := is x.present }) ∧
      t.chans = (s.setChan (chanIx p ch) { y with job := none, next := if j.renewed then y.next else (y.next + 1) % 2 ^ chLog2 (s.chReg p ch 0x04C) }).chans := by
  intro x y
  obtain ⟨himage, hchans, hcfg, hr⟩ := shardArrived_leaves hi ch p hp he
  have run := descriptorComplete_closes (bad := bad) hj hf hd
  dsimp only at himage run
  rw [if_pos ⟨hk, hc⟩] at run
  generalize (s.settled j).shardArrived j = r at run himage hchans hcfg hr
  have asked : (r.1.image (descImage j)).unloadAsked = false ∧ (r.1.image (descImage j)).abandonAsked = false := by
    rw [← hslot, himage]
    split <;> exact ⟨hu, ha⟩
  obtain ⟨hi', hc'⟩ := closeJob_leaves (p := p) (ch := ch) (j := { j with code := completionCode j r.2 bad, sum := sha256 j.data }) hr asked.1 asked.2
  have hchan : r.1.chan (chanIx p ch) = y := congrArg (Sparse.get _ · _) hchans
  rw [hcfg, hchan] at hc'
  exact ⟨_, run, (congrArg (Sparse.get _ · _) hi').trans himage, hc'.trans (setChan_chans hchans ..)⟩

end

/-- Settles O40: a refusal by the slot's state, a start by `shardPlace`, a burst by `takeBurst_spec`, a completion by the arrived digest. -/
theorem packageDescriptors : Obligations.PackageDescriptors := by
  intro s p ch bytes j d b e unit hi k x has n bound burst hj
  refine ⟨fun hs => ⟨fun h => ⟨fun hk => manifest_refused hj hs hk h, fun hk hb => shard_refused hj hs hk hb (shardPlace_refused h),
      fun hk hf hp hb y => peerShard_refused hj hk hf hp hb (shardPlace_refused h), fun hk => program_refused hj hs hk h⟩,
      fun hk hst hu ha hm hd hl => manifest_loads hi.regs hj hs hk ⟨hst, hu, ha⟩ hm hd hl, shard_waits hj hs, shard_starts hj hs, ?_⟩,
    fun hk hs hf hp h => takeBurst_spec (burst_shard hj hs hf hk hp), fun hk hf hp hm h => takeBurst_spec (peerShard_pulls hj hk hf hp hm),
    fun hk hf hp hb h => peerShard_waits hj hk hf hp hb, ?_, ?_⟩
  · intro hk hst hu ha he hl m capacity y digest hm hp
    rw [program_loads hj hs hk ⟨hst, hu, ha⟩ he hl hm hp]
    refine (apply_ite ..).trans (if_congr Iff.rfl rfl ?_)
    cases loadFault (bytes.take j.len) s.opticalBerths s.moduleCount <;> rfl
  · intro m hm hg hslot hp hs hb off
    rw [show x = s.image d.slot from congrArg s.image hslot.symm] at hm hb
    exact ⟨placeShard_resident hm hg hs hb hp off bytes, fun hl => placeShard_resident (refill := false) hm hg hs hb hp off bytes ▸ pagerWrite_inPools hi hl⟩
  · intro hk hf hc hd hp hslot he hu ha bad
    rw [show x = s.image d.slot from congrArg s.image hslot.symm] at he hu ha ⊢
    exact descriptorComplete_shard hi hj hk hf hc hd hp hslot he hu ha

end Sys2Proof.Machine
end

section
/-! PROOF. The mailbox of a host port (O43): the six commands by the port's readiness and the module's stage. -/

namespace Sys2Proof.Machine

section
/-! A mailbox command (R390). -/

variable {s : State} {p : HostPort} {f : State → State}

theorem mailbox_ready (hl : (s.port p).link = .l0) (hc : (s.port p).cfgReady = true) (hr : s.stage = .ready) : s.mailbox p f = f s :=
  (if_neg (by simp [hl, hc])).trans (if_pos hr)

theorem mailbox_busy (hl : (s.port p).link = .l0) (hc : (s.port p).cfgReady = true) (hr : s.stage ≠ .ready) :
    s.mailbox p f = s.setPort p { s.port p with resp := .busy } :=
  (if_neg (by simp [hl, hc])).trans (if_neg hr)

theorem mailbox_silent (h : (s.port p).link ≠ .l0 ∨ (s.port p).cfgReady = false) : s.mailbox p f = s := if_pos h

/-- R390: the mailbox commands that wait for the module to be ready. -/
def waitingCommands (p : HostPort) (handles : List Nat) (config : List Byte) : List Instr :=
  [.getEventRecords p, .clearEventRecords p handles, .getHealthInfo p, .getAlertConfiguration p, .setAlertConfiguration p config]

theorem waitingCommand_runs {handles : List Nat} {config : List Byte} :
    ∀ i ∈ waitingCommands p handles config, ∃ f, exec i s = .next (s.mailbox p f) := by
  intro i hi
  simp only [waitingCommands, List.mem_cons, List.not_mem_nil, or_false] at hi
  rcases hi with rfl | rfl | rfl | rfl | rfl <;> exact ⟨_, rfl⟩

theorem identify_answers (hl : (s.port p).link = .l0) (hc : (s.port p).cfgReady = true) :
    exec (.identifyMemoryDevice p) s =
      .next (s.drawn.setPort p { s.port p with resp := .identify (s.rangeSize p) (Config.mailboxPayload s.draws) }) :=
  congrArg Host.Outcome.next (if_neg (by simp [hl, hc]))

theorem identify_silent (h : (s.port p).link ≠ .l0 ∨ (s.port p).cfgReady = false) : exec (.identifyMemoryDevice p) s = .next s :=
  congrArg Host.Outcome.next (if_pos h)

/-- R370: the record of events without those named. -/
theorem filter_not_contains (handles : List Nat) (l : List EventRec) :
    l.filter (fun e => !handles.contains e.handle) = l.filter (fun e => e.handle ∉ handles) := by
  refine List.filter_congr fun e _ => ?_
  simp

end

/-- Settles O43: Identify on its own, the other five by what `State.mailbox` does at a ready, a waiting and a silent port. -/
theorem mailbox : Obligations.Mailbox := by
  intro s p handles config x five
  have runs : ∀ i ∈ five, ∃ f, exec i s = .next (s.mailbox p f) := waitingCommand_runs
  refine ⟨fun hl hc => ⟨⟨_, identify_answers hl hc⟩, fun hr => ⟨?_, ?_, ⟨Config.mailboxPayload s.draws, ?_⟩, ?_, ?_⟩, fun hr i hi => ?_⟩, fun h i hi => ?_⟩
  · exact congrArg Host.Outcome.next (mailbox_ready hl hc hr)
  · exact congrArg Host.Outcome.next ((mailbox_ready hl hc hr).trans (by rw [filter_not_contains]))
  · exact congrArg Host.Outcome.next (mailbox_ready hl hc hr)
  · exact congrArg Host.Outcome.next (mailbox_ready hl hc hr)
  · exact congrArg Host.Outcome.next (mailbox_ready hl hc hr)
  · obtain ⟨f, e⟩ := runs i hi
    rw [e, mailbox_busy hl hc hr]
  · rcases List.mem_cons.1 hi with rfl | hi
    · exact identify_silent h
    · obtain ⟨f, e⟩ := runs i hi
      rw [e, mailbox_silent h]

end Sys2Proof.Machine
end

section
/-! PROOF. Host accesses (O38): the part that a port presents, a link error met, a read answered or refused, and a write. -/

namespace Sys2Proof.Machine

section
/-! Writes of registers that hold no error leave the errors. -/

variable {s t : State}

theorem Reported.setReg (s : State) (b : Blk) (i : Nat) {o : Nat} (v : Word) (ho : o < 0x1000) (h : o ∉ errOffsets) : Reported s (s.setReg b i o v) :=
  ⟨rfl, fun w => Sparse.wf_set _ w, fun _ {c} {j} {_} e => (congrArg (fun r : ErrRegs => r.sts.getLsbD _) (errRegs_setReg (i := j) (b := c) ho h)).trans e⟩

/-- The same, where a port's record was written before. -/
theorem Reported.setPort {p : HostPort} {x : Port} (h : Reported (s.setPort p x) t) : t = ({ s with regs := t.regs, flt := t.flt } : State).setPort p x :=
  h.rest.trans (setPort_regs_flt ..)

end

section
/-! The part that a port presents (R374, R391), and what an access meets (R376, R392, R395). -/

variable {s : State} {p q : HostPort} {offset : Nat}

theorem hostDpa_none (h : (s.port p).decoder = false ∨ s.presented p = none ∨ (s.presented p = some q ∧ s.partSize q < offset / 64 * 64 + 64)) :
    s.hostDpa p offset = none := by
  unfold State.hostDpa
  rcases h with h | h | ⟨h, h'⟩
  · cases s.presented p <;> simp [h]
  · simp [h]
  · simp only [h, decide_eq_false (Nat.not_le.2 h'), Bool.and_false, Bool.false_eq_true, if_false]

theorem hostDpa_some (hq : s.presented p = some q) (hd : (s.port p).decoder = true) (h : offset / 64 * 64 + 64 ≤ s.partSize q) :
    s.hostDpa p offset = some (s.partBase q + offset / 64 * 64) := by
  unfold State.hostDpa
  simp [hq, hd, h]

/-- R392: an access that meets an error of its link reports it, and one that meets none changes nothing. -/
theorem linkErred_spec (hr : Sparse.wf regReset s.regs = true) (p : HostPort) (y : Bool) :
    ∃ m f, s.linkErred p y = ({ s with regs := m, flt := f } : State).setPort p { s.port p with aer := if y then (s.port p).aer + 1 else (s.port p).aer } ∧
      Sparse.wf regReset m = true ∧ (y = false → m = s.regs ∧ f = s.flt) ∧ (y = true → ({ s with regs := m } : State).errSet .cxlp (portIx p) 0 = true) := by
  cases y with
  | false => exact ⟨s.regs, s.flt, (setPort_self s p).symm, hr, fun _ => ⟨rfl, rfl⟩, nofun⟩
  | true =>
    have hw : Sparse.wf regReset (s.setPort p { s.port p with aer := (s.port p).aer + 1 }).regs = true := by simpa using hr
    have h : Reported _ (s.linkErred p true) := .raise _ .cxlp (portIx p) 0
    exact ⟨_, _, h.setPort, h.wf hw, nofun, fun _ => errSet_of (errSet_raise_self hw rfl (by decide)) rfl⟩

theorem dpaRetired_setPort (m : List (Nat × Word)) (f : Flt) (x : Port) (a n : Nat) :
    (({ s with regs := m, flt := f } : State).setPort p x).dpaRetired a n = s.dpaRetired a n := by cases p <;> rfl

theorem hbm_setPort (m : List (Nat × Word)) (f : Flt) (x : Port) : (({ s with regs := m, flt := f } : State).setPort p x).hbm = s.hbm := by cases p <;> rfl

theorem Reported.logRefused (s : State) (p : HostPort) (a : Nat) : Reported s (s.logRefused p a) := by
  unfold State.logRefused
  exact (Reported.ite (.refl s) ((Reported.setReg s _ _ _ (by decide) (by decide)).trans (.setReg _ _ _ _ (by decide) (by decide)))).trans (.raise ..)

/-- R376, R395: a refused read answers nothing, sets MEM_UE, and adds a report and a record. -/
theorem refuseRead_spec (hr : Sparse.wf regReset s.regs = true) (p : HostPort) (a : Nat) :
    ∃ m f, s.refuseRead p a = ({ s with regs := m, flt := f } : State).setPort p { s.port p with
        rdata := none, aer := (s.port p).aer + 1, eventNext := (s.port p).eventNext + 1
        events := (s.port p).events ++ [{ handle := (s.port p).eventNext, dpa := a, stamp := s.stamp }] } ∧
      ({ s with regs := m } : State).errSet .cxlp (portIx p) 1 = true ∧
      ∀ n, s.errSet .cxlp (portIx p) n = true → ({ s with regs := m } : State).errSet .cxlp (portIx p) n = true := by
  have h : Reported s (s.logRefused p a) := .logRefused ..
  have hset : (s.logRefused p a).errSet .cxlp (portIx p) 1 = true := by
    refine errSet_raise_self ?_ rfl (by decide)
    split
    · exact hr
    · exact Sparse.wf_set _ (Sparse.wf_set _ hr)
  have keep := fun n => h.keep hr (b := .cxlp) (i := portIx p) (n := n)
  unfold State.refuseRead
  obtain ⟨m, f, e⟩ : ∃ m f, s.logRefused p a = { s with regs := m, flt := f } := ⟨_, _, h.rest⟩
  rw [e] at hset keep ⊢
  refine ⟨m, f, ?_, hset, keep⟩
  cases p <;> rfl

end

section
/-! The accesses (R375, R376). -/

variable {s : State} {p : HostPort} {offset : BitVec 40} {a : Nat} {data : List Byte} {e : EccOutcome}

theorem hostMemRead_refused (y : Bool) (hi : Inv s) (ha : s.hostDpa p offset.toNat = some a) (h : s.dpaRetired a 64 = true ∨ e = .uncorrectable) :
    ∃ m f, exec (.hostMemRead p offset e y) s = .next (({ s with regs := m, flt := f } : State).setPort p { s.port p with
          rdata := none, aer := (if y then (s.port p).aer + 1 else (s.port p).aer) + 1, eventNext := (s.port p).eventNext + 1
          events := (s.port p).events ++ [{ handle := (s.port p).eventNext, dpa := a, stamp := s.stamp }] }) ∧
        ({ s with regs := m } : State).errSet .cxlp (portIx p) 1 = true ∧ (y = true → ({ s with regs := m } : State).errSet .cxlp (portIx p) 0 = true) := by
  obtain ⟨m, f, hl, hw, -, hset⟩ := linkErred_spec hi.regs p y
  obtain ⟨m', f', hr, h1, keep⟩ := refuseRead_spec (s := s.linkErred p y) (by rw [hl]; simpa using hw) p a
  refine ⟨m', f', ?_, errSet_of h1 rfl, fun hy => errSet_of (keep 0 ?_) rfl⟩
  · have hdone : exec (.hostMemRead p offset e y) s = .next ((s.linkErred p y).refuseRead p a) := by
      show execHostMemRead p offset e y s = _
      unfold execHostMemRead
      rw [ha]
      refine congrArg Host.Outcome.next (if_pos ?_)
      rw [hl, dpaRetired_setPort]
      simpa using h
    rw [hdone, hr, hl]
    cases p <;> rfl
  · rw [hl]
    exact errSet_of (hset hy) (by simp)

theorem hostMemRead_answered (y : Bool) (ha : s.hostDpa p offset.toNat = some a) (hd : s.dpaRetired a 64 = false) (he : e ≠ .uncorrectable)
    (same : (s.linkErred p y).dpaRetired a 64 = s.dpaRetired a 64) :
    exec (.hostMemRead p offset e y) s = .next (
      let u := if e = .corrected then (s.linkErred p y).correctUnit (dpaStack a) else s.linkErred p y
      u.setPort p { u.port p with rdata := some (Memory.read u.hbm a 64) }) := by
  show execHostMemRead p offset e y s = _
  unfold execHostMemRead
  rw [ha]
  exact congrArg Host.Outcome.next (if_neg (by simp [same, hd, he]))

theorem hostMemRead_clean (y : Bool) (hi : Inv s) (ha : s.hostDpa p offset.toNat = some a) (hd : s.dpaRetired a 64 = false) :
    ∃ m f, exec (.hostMemRead p offset .clean y) s = .next (({ s with regs := m, flt := f } : State).setPort p { s.port p with
          aer := if y then (s.port p).aer + 1 else (s.port p).aer, rdata := some (Memory.read s.hbm a 64) }) ∧
      (y = false → m = s.regs ∧ f = s.flt) ∧ (y = true → ({ s with regs := m } : State).errSet .cxlp (portIx p) 0 = true) := by
  obtain ⟨m, f, hl, -, hnone, hset⟩ := linkErred_spec hi.regs p y
  refine ⟨m, f, (hostMemRead_answered (e := .clean) y ha hd nofun (by rw [hl, dpaRetired_setPort])).trans ?_, hnone, hset⟩
  rw [if_neg nofun, hl]
  cases p <;> rfl

theorem hostMemRead_corrected (y : Bool) (hi : Inv s) (ha : s.hostDpa p offset.toNat = some a) (hd : s.dpaRetired a 64 = false) :
    ∃ m f, exec (.hostMemRead p offset .corrected y) s = .next (({ s with regs := m, flt := f } : State).setPort p { s.port p with
          aer := if y then (s.port p).aer + 1 else (s.port p).aer, rdata := some (Memory.read s.hbm a 64) }) ∧
      ({ s with regs := m } : State).errSet .hbmc (dpaStack a) 0 = true := by
  obtain ⟨m, f, hl, hw, -⟩ := linkErred_spec hi.regs p y
  obtain ⟨m', f', hc, hset⟩ := correctUnit_spec (s := s.linkErred p y) (by rw [hl]; simpa using hw) (dpaStack a)
  refine ⟨m', f', (hostMemRead_answered (e := .corrected) y ha hd nofun (by rw [hl, dpaRetired_setPort])).trans ?_, errSet_of hset rfl⟩
  rw [if_pos rfl, hc, hl]
  cases p <;> rfl

/-- R375, R376: a write stores its 64 bytes, and none at a retired page. -/
theorem hostMemWrite_spec (y : Bool) (hi : Inv s) (ha : s.hostDpa p offset.toNat = some a) :
    ∃ m f, exec (.hostMemWrite p offset data y) s = .next (({ s with
        regs := m, flt := f, hbm := if s.dpaRetired a 64 then s.hbm else Memory.write s.hbm a (data.take 64) } : State).setPort p
          { s.port p with aer := if y then (s.port p).aer + 1 else (s.port p).aer }) ∧
      (y = false → m = s.regs ∧ f = s.flt) ∧ (y = true → ({ s with regs := m } : State).errSet .cxlp (portIx p) 0 = true) := by
  obtain ⟨m, f, hl, -, hnone, hset⟩ := linkErred_spec hi.regs p y
  refine ⟨m, f, ?_, hnone, hset⟩
  show execHostMemWrite p offset data y s = _
  unfold execHostMemWrite
  rw [ha, hl]
  refine congrArg Host.Outcome.next ?_
  dsimp only
  rw [dpaRetired_setPort]
  cases s.dpaRetired a 64 <;> cases p <;> rfl

theorem hostAccess_faults (y : Bool) (ha : s.hostDpa p offset.toNat = none) :
    exec (.hostMemRead p offset e y) s = .fault .hostAccess ∧ exec (.hostMemWrite p offset data y) s = .fault .hostAccess := by
  show execHostMemRead p offset e y s = _ ∧ execHostMemWrite p offset data y s = _
  unfold execHostMemRead execHostMemWrite
  rw [ha]
  exact ⟨rfl, rfl⟩

end

/-- Settles O38: an access by the address that its port's part gives it, a read by its outcome and its page, a write by its page. -/
theorem hostAccesses : Obligations.HostAccesses := by
  intro s p q offset data e y hi off a x aer seen
  refine ⟨fun h => hostAccess_faults y (hostDpa_none h), fun hq hd hs => ?_⟩
  have ha : s.hostDpa p offset.toNat = some a := hostDpa_some hq hd hs
  obtain ⟨m, f, hwrite, hnone, hset⟩ := hostMemWrite_spec (data := data) y hi ha
  refine ⟨fun hr => ⟨hostMemRead_clean y hi ha hr, hostMemRead_corrected y hi ha hr, m, f, ?_, hnone, hset⟩, fun hr => ⟨m, f, ?_, hnone, hset⟩,
    hostMemRead_refused y hi ha⟩
  · simpa only [hr, Bool.false_eq_true, if_false] using hwrite
  · simpa only [hr, if_true] using hwrite

end Sys2Proof.Machine
end

section
/-! PROOF. SECU (O60): attestation by the index that is left and its tree, tokens, the seal, the rollback count, and firmware copies. -/

namespace Sys2Proof.Machine

section
/-! A report is signed, or waits for its index or its tree (R475–R478). -/

variable {s : State} {n : List Byte}

/-- R475, R477, R479: SECU's record once it has signed a report over nonce `n` with its lowest index. -/
def State.signed (s : State) (n : List Byte) : Secu :=
  let u := s.secu
  let i := u.blockNext
  { u with
    blockNext := i + 1, waiting := none
    building := u.building || (decide (768 ≤ i % 1024) && decide (u.bottom = i / 1024 + 1))
    report := s.reportBytes n i ++ Config.identitySign i (s.reportBytes n i) ++ s.flash.identity ++ s.flash.cert }

theorem signWaiting_none (h : s.secu.waiting = none) : s.signWaiting = s := by
  unfold State.signWaiting
  rw [h]

/-- R477: without the index's tree, the request waits for it. -/
theorem signWaiting_treeless (hn : s.secu.waiting = some n) (hi : s.secu.blockNext < s.secu.blockEnd) (ht : s.secu.bottom ≤ s.secu.blockNext / 1024) :
    s.signWaiting = { s with secu := { s.secu with building := true } } := by
  unfold State.signWaiting
  rw [hn]
  exact (if_neg (Nat.not_le.2 hi)).trans (if_pos ht)

/-- R477: signing changes SECU's record alone; the next tree is begun where the leaf index has reached its last quarter. -/
theorem growTree_eq (u : Secu) (i : Nat) : ({ s with secu := u } : State).growTree i =
    { s with secu := { u with building := u.building || (decide (768 ≤ i % 1024) && decide (u.bottom = i / 1024 + 1)) } } := by
  unfold State.growTree
  by_cases h : 768 ≤ i % 1024 ∧ u.bottom = i / 1024 + 1
  · exact (if_pos h).trans (by simp [h])
  · rw [not_and_or] at h
    refine (if_neg (not_and_or.2 h)).trans ?_
    rcases h with h | h <;> simp [h]

theorem signWaiting_signs (hn : s.secu.waiting = some n) (hi : s.secu.blockNext < s.secu.blockEnd) (ht : s.secu.blockNext / 1024 < s.secu.bottom) :
    s.signWaiting = { s with secu := s.signed n } := by
  unfold State.signWaiting
  rw [hn]
  refine (if_neg (Nat.not_le.2 hi)).trans ((if_neg (Nat.not_le.2 ht)).trans ?_)
  exact growTree_eq _ _

end

section
/-! ATTESTATION_REQUEST (R390, R478, R481). -/

variable {s : State} {n : List Byte}

theorem attestation_early (h : s.fwStarted = false) : exec (.attestationRequest n) s = .next s :=
  congrArg Host.Outcome.next (if_pos (by simp [h]))

theorem attestation_busy (h : s.fwStarted = true) (hb : s.stage ≠ .ready ∨ s.secu.waiting ≠ none) :
    exec (.attestationRequest n) s = .next { s with mctpBusy := true } :=
  congrArg Host.Outcome.next ((if_neg (by simp [h])).trans (if_pos (by simpa [Option.isSome_iff_ne_none] using hb)))

/-- R390: a request that SECU takes up. -/
theorem attestation_taken (h : s.fwStarted = true) (hr : s.stage = .ready) (hw : s.secu.waiting = none) :
    exec (.attestationRequest n) s = .next (
      let s : State := { s with mctpBusy := false }
      if s.secu.noSign then s
      else if s.rpmbGone then s.raise .secu 0 2
      else if s.secu.blockNext < s.secu.blockEnd then ({ s with secu := { s.secu with waiting := some n } } : State).signWaiting
      else s.reserveBlock n) :=
  congrArg Host.Outcome.next ((if_neg (by simp [h])).trans (if_neg (by simp [hr, hw])))

/-- R476–R478: what becomes of a request that SECU takes up before debug level 2. -/
theorem attestation_serves (hi : Inv s) (h : s.fwStarted = true) (hr : s.stage = .ready) (hw : s.secu.waiting = none) (hs : s.secu.noSign = false) :
    let u := s.secu
    let x := exec (.attestationRequest n) s
    if s.rpmbGone = true then ∃ m f, x = .next { s with mctpBusy := false, regs := m, flt := f } ∧ ({ s with regs := m } : State).errSet .secu 0 2 = true
    else if u.blockNext < u.blockEnd then
      if u.bottom ≤ u.blockNext / 1024 then x = .next { s with mctpBusy := false, secu := { u with waiting := some n, building := true } }
      else x = .next { s with mctpBusy := false, secu := s.signed n }
    else if 2 ^ 30 ≤ s.flash.nextFree then ∃ m f, x = .next { s with mctpBusy := false, regs := m, flt := f } ∧ ({ s with regs := m } : State).errSet .secu 0 3 = true
    else x = .next { s with mctpBusy := false, secu := { u with waiting := some n, reserving := true } } := by
  intro u x
  have hx : x = _ := attestation_taken h hr hw
  have raised : ∀ k, k < 5 → ∃ m f, ({ s with mctpBusy := false } : State).raise .secu 0 k = { s with mctpBusy := false, regs := m, flt := f } ∧
      ({ s with regs := m } : State).errSet .secu 0 k = true := by
    intro k hk
    obtain ⟨m, f, e, hset⟩ := raise_any (s := { s with mctpBusy := false }) (b := .secu) (i := 0) (n := k) hi.regs (if_pos hk) (by omega)
    exact ⟨m, f, e, errSet_of hset rfl⟩
  dsimp only at hx
  rw [if_neg (by simp [hs])] at hx
  split
  next hg => 
    obtain ⟨m, f, e, hset⟩ := raised 2 (by decide)
    exact ⟨m, f, hx.trans (congrArg _ ((if_pos hg).trans e)), hset⟩
  next hg =>
    replace hx := hx.trans (congrArg _ (if_neg hg))
    split
    next hb =>
      replace hx := hx.trans (congrArg _ (if_pos hb))
      split
      next ht => exact hx.trans (congrArg _ (signWaiting_treeless rfl hb ht))
      next ht => exact hx.trans (congrArg _ (signWaiting_signs rfl hb (Nat.not_le.1 ht)))
    next hb =>
      replace hx := hx.trans (congrArg _ (if_neg hb))
      split
      next hf =>
        obtain ⟨m, f, e, hset⟩ := raised 3 (by decide)
        exact ⟨m, f, hx.trans (congrArg _ ((if_pos hf).trans e)), hset⟩
      next hf => exact hx.trans (congrArg _ (if_neg hf))

end

section
/-! INDEX_RESERVATION_ACK and BOTTOM_TREE_READY (R476, R477). -/

variable {s : State}

/-- R476: the state in which the reserved block of 64 indices has been granted. -/
def State.granted (s : State) : State :=
  { s with flash := { s.flash with nextFree := s.flash.nextFree + 64 }
           secu := { s.secu with reserving := false, blockNext := s.flash.nextFree, blockEnd := s.flash.nextFree + 64 } }

theorem reservationAck_idle (ok : Bool) (h : s.secu.reserving = false) : exec (.indexReservationAck ok) s = .next s :=
  congrArg Host.Outcome.next (if_pos (by simp [h]))

theorem reservationAck_grants (h : s.secu.reserving = true) (hg : s.rpmbGone = false) : exec (.indexReservationAck true) s = .next s.granted.signWaiting :=
  congrArg Host.Outcome.next ((if_neg (by simp [h])).trans (if_pos (by simp [hg])))

theorem reservationAck_fails {ok : Bool} (hi : Inv s) (h : s.secu.reserving = true) (hf : ok = false ∨ s.rpmbGone = true) :
    ∃ k m f, (k = s.flash.nextFree ∨ k = s.flash.nextFree + 64) ∧ exec (.indexReservationAck ok) s = .next { s with
        draws := s.draws + 1, flash := { s.flash with nextFree := k }, secu := { s.secu with reserving := false, waiting := none }, regs := m, flt := f } ∧
      ({ s with regs := m } : State).errSet .secu 0 2 = true := by
  obtain ⟨k, hk⟩ : ∃ k, k = if Config.reservationStuck s.draws then s.flash.nextFree + 64 else s.flash.nextFree := ⟨_, rfl⟩
  obtain ⟨m, f, e, hset⟩ := raise_any (b := .secu) (i := 0) (n := 2) (s := { s with
    draws := s.draws + 1, flash := { s.flash with nextFree := k }, secu := { s.secu with reserving := false, waiting := none } }) hi.regs rfl (by decide)
  refine ⟨k, m, f, ?_, ?_, errSet_of hset rfl⟩
  · rw [hk]
    split
    · exact .inr rfl
    · exact .inl rfl
  · rw [← e, hk]
    refine congrArg Host.Outcome.next ((if_neg (by simp [h])).trans (if_neg ?_))
    rcases hf with hf | hf <;> simp [hf]

theorem bottomTreeReady_runs (h : s.secu.building = true) :
    exec .bottomTreeReady s = .next ({ s with secu := { s.secu with building := false, bottom := s.secu.bottom + 1 } } : State).signWaiting :=
  congrArg Host.Outcome.next (if_pos h)

end

section
/-! Tokens, the seal, the rollback count and firmware copies (R470–R472, R480–R482). -/

variable {s : State}

theorem debugToken_spec (hi : Inv s) (t : List Byte) :
    if s.fwStarted = false ∨ s.secu.sealed = true then exec (.debugToken t) s = .next s
    else if s.tokenGood t = true then exec (.debugToken t) s = .next { s with draws := s.draws + 1, secu := { s.secu with
      debug := max s.secu.debug (tokenLevel t), nonce := Config.nonce s.draws, noSign := s.secu.noSign || max s.secu.debug (tokenLevel t) == 2 } }
    else ∃ m f, exec (.debugToken t) s = .next { s with regs := m, flt := f } ∧ ({ s with regs := m } : State).errSet .secu 0 1 = true := by
  split
  next h => exact congrArg Host.Outcome.next (if_pos (by simpa using h))
  next h =>
    have open_ : ¬(!s.fwStarted || s.secu.sealed) = true := by simpa using h
    split
    next hg => exact congrArg Host.Outcome.next ((if_neg open_).trans (if_pos hg))
    next hg =>
      obtain ⟨m, f, e, hset⟩ := raise_any (b := .secu) (i := 0) (n := 1) hi.regs rfl (by decide)
      exact ⟨m, f, congrArg Host.Outcome.next ((if_neg open_).trans ((if_neg hg).trans e)), hset⟩

theorem seal_eq (v : Word) :
    exec (.seal v) s = if s.fwStarted = true ∧ bit v 0 = true then .next { s with secu := { s.secu with sealed := true } } else .next s := by
  refine (congrArg Host.Outcome.next (if_congr ?_ rfl rfl)).trans (apply_ite ..)
  simp

/-- R471: the rollback count rises to the running SVN and never falls. -/
theorem svnCommit_eq (v : Word) : exec (.svnCommit v) s =
    if s.fwStarted = true ∧ bit v 31 = true then .next { s with fuses := { s.fuses with rollback := max s.fuses.rollback s.secu.svn } } else .next s := by
  show Host.Outcome.next (s.writeSvn v) = _
  unfold State.writeSvn
  by_cases h : s.fwStarted = true ∧ bit v 31 = true
  · rw [if_pos h]
    by_cases hl : s.fuses.rollback < s.secu.svn
    · rw [if_pos (by simp [h, hl]), max_eq_right hl.le]
    · rw [if_neg (by simp [hl]), max_eq_left (Nat.not_lt.1 hl)]
  · rw [if_neg h, if_neg (by simpa using fun a b => absurd ⟨a, b⟩ h)]

theorem firmwareUpdate_spec (c : List Byte) (done : Bool) :
    let b := !(s.secu.running.getD s.flash.preferB)
    if s.fwStarted = false ∧ s.stage ≠ .recovery then exec (.firmwareUpdate c done) s = .next s
    else exec (.firmwareUpdate c done) s = .next { s with flash := { s.flash with
      copyA := if b then s.flash.copyA else c
      copyB := if b then c else s.flash.copyB
      preferB := if done = true ∧ s.copyGood c = true then b else s.flash.preferB } } := by
  intro b
  split
  next h => exact congrArg Host.Outcome.next (if_pos (by simp [h]))
  next h =>
    have may : ¬(!(s.fwStarted || s.stage == .recovery)) = true := by
      simpa [← Bool.not_eq_false, not_and_or, imp_iff_not_or, or_comm] using h
    refine congrArg Host.Outcome.next ((if_neg may).trans ?_)
    have written : s.writeCopy b c = { s with flash := { s.flash with copyA := if b then s.flash.copyA else c, copyB := if b then c else s.flash.copyB } } := by
      unfold State.writeCopy
      cases b <;> rfl
    show (if (done && (s.writeCopy b c).copyGood c) = true then ({ s.writeCopy b c with flash := { (s.writeCopy b c).flash with preferB := b } } : State)
      else s.writeCopy b c) = _
    rw [show (s.writeCopy b c).copyGood c = s.copyGood c from rfl, written]
    by_cases hg : done = true ∧ s.copyGood c = true
    · exact (if_pos (by simpa using hg)).trans (by rw [if_pos hg])
    · exact (if_neg (by simpa using hg)).trans (by rw [if_neg hg])

end

/-- Settles O60: a request by the index that is left and its tree, an acknowledgement by whether the write took effect, each other command by its
condition. -/
theorem attestationAndFirmware : Obligations.AttestationAndFirmware := by
  intro s hi u
  refine ⟨fun n => ?_, fun ok => ⟨reservationAck_idle ok, ?_, ?_, reservationAck_fails hi⟩, ⟨fun h => ?_, fun h hw => ?_⟩, debugToken_spec hi,
    seal_eq, svnCommit_eq, firmwareUpdate_spec⟩
  · exact ⟨attestation_early, attestation_busy, fun h hr hw hs => (attestation_taken h hr hw).trans (congrArg _ (if_pos hs)), attestation_serves hi⟩
  · rintro h rfl hg hw
    exact (reservationAck_grants h hg).trans (congrArg _ (signWaiting_none hw))
  · rintro h rfl hg n hn
    have below : s.granted.secu.blockNext < s.granted.secu.blockEnd := Nat.lt_add_of_pos_right (by decide)
    by_cases ht : u.bottom ≤ s.flash.nextFree / 1024
    · exact ⟨_, (reservationAck_grants h hg).trans (congrArg _ (signWaiting_treeless hn below ht)), by rw [if_pos ht]; rfl⟩
    · exact ⟨_, (reservationAck_grants h hg).trans (congrArg _ (signWaiting_signs hn below (Nat.not_le.1 ht))), by rw [if_neg ht]; exact ⟨rfl, rfl, rfl⟩⟩
  · exact congrArg Host.Outcome.next (if_neg (by simpa using h))
  · exact (bottomTreeReady_runs h).trans (congrArg _ (signWaiting_none hw))

end Sys2Proof.Machine
end

section
/-! PROOF. The sudden stop, and hot spots (O57): samples, faulty pairs, requests and the trip. -/

namespace Sys2Proof.Machine

section
/-! What a sudden stop leaves (R435). -/

variable {s : State}

/-- R435: both halves at divisor 16 and every berth gated. -/
def State.slowed (s : State) : State := ((s.retarget.setDivisor .west 16).setDivisor .east 16).gateAll

theorem Paced.slowed (s : State) : Paced s s.slowed :=
  (((Paced.retarget s).trans (.setDivisor ..)).trans (.setDivisor ..)).trans (.gateAll _)

theorem setDivisor_both (u : State) (d : Nat) :
    ((u.setDivisor .west d).setDivisor .east d).west.now = d ∧ ((u.setDivisor .west d).setDivisor .east d).east.now = d := by
  have hwest := congrArg HalfSt.now (setDivisor_half u .west d).1
  obtain ⟨hother, heast⟩ := (setDivisor_half (u.setDivisor .west d) .east d).symm
  generalize u.setDivisor .west d = v at *
  generalize v.setDivisor .east d = w at *
  exact ⟨(congrArg HalfSt.now hother).trans hwest, congrArg HalfSt.now heast⟩

theorem slowed_halves (s : State) : s.slowed.west.now = 16 ∧ s.slowed.east.now = 16 := by
  obtain ⟨hw, he⟩ := setDivisor_both s.retarget 16
  unfold State.slowed
  rw [(gateAll_halves _).1, (gateAll_halves _).2]
  exact ⟨hw, he⟩

theorem slowed_asleep (hr : Sparse.wf regReset s.regs = true) (hb : Sparse.wf (fun _ => ({} : BerthSt)) s.berths = true) {b : Nat} (h : b < 84)
    (hd : s.dark b = false) : s.slowed.awake b = false := by
  obtain ⟨m, bs, w, e, heq, hr', hb', -, hkeep⟩ := (((Paced.retarget s).trans (.setDivisor _ .west 16)).trans (.setDivisor _ .east 16)).out hr hb
  refine gateAll_asleep (by rw [heq]; exact hr') (by rw [heq]; exact hb') h ?_
  exact (congrArg (· == Role.dark) (hkeep b).2).trans hd

theorem suddenStop_stopped (h : s.cool.st ≠ .normal) (h' : s.cool.st ≠ .orderly) : s.suddenStop = s := if_neg (by simp [h, h'])

/-- R435: what holds of a module stopped suddenly that was `s` before. -/
structure State.StopsTo (s t : State) : Prop where
  cool : t.cool = { s.cool with st := .sudden, gated := false, good28 := 0 }
  west : t.west.now = 16
  east : t.east.now = 16
  asleep : ∀ b, b < 84 → s.dark b = false → t.awake b = false
  hbm : t.hbm = s.hbm
  store : ∀ b, (t.berth b).store = (s.berth b).store
  raised : t.errSet .tray 0 5 = true
  regs : Sparse.wf regReset t.regs = true

/-- R384, R435: an error of TRAY with the interrupt that it sends. -/
theorem trayStopped_spec {u : State} (hr : Sparse.wf regReset u.regs = true) :
    ∃ m f x, (u.raise .tray 0 5).msiFault = { u with regs := m, flt := f, msix := x } ∧ Sparse.wf regReset m = true ∧
      ({ u with regs := m } : State).errSet .tray 0 5 = true := by
  obtain ⟨m, f, e, hset, hm⟩ := raise_sets (b := .tray) (i := 0) (n := 5) hr rfl (by decide)
  obtain ⟨x, hx⟩ := msiFault_only (u.raise .tray 0 5)
  exact ⟨m, f, x, by rw [hx, e], hm, hset⟩

theorem beginStop_berth (hb : Sparse.wf (fun _ => ({} : BerthSt)) s.berths = true) (b : Nat) :
    (s.beginStop.berth b).role = (s.berth b).role ∧ (s.beginStop.berth b).store = (s.berth b).store := by
  obtain ⟨-, -, -, -, -, -, -, hberth⟩ := abortRun_keeps hb (s.flt.phase == .abort)
  obtain ⟨l, e⟩ := hberth b
  have e : s.beginStop.berth b = { s.berth b with entries := l } := e
  rw [e]
  exact ⟨rfl, rfl⟩

theorem suddenStop_stops (hi : Inv s) (h : s.cool.st = .normal ∨ s.cool.st = .orderly) : s.StopsTo s.suddenStop := by
  obtain ⟨hregs, hhbm, hcool, hberths, -⟩ := abortRun_keeps (s := s) hi.berths (s.flt.phase == .abort)
  have hr : Sparse.wf regReset s.beginStop.regs = true := hregs.symm ▸ hi.regs
  have hb := beginStop_berth (s := s) hi.berths
  obtain ⟨hwest, heast⟩ := slowed_halves s.beginStop
  have hasleep := fun b hlt hd => slowed_asleep hr hberths (b := b) hlt ((congrArg (· == Role.dark) (hb b).1).trans hd)
  obtain ⟨m, bs, w, e, heq, hm, -, -, hkeep⟩ := (Paced.slowed s.beginStop).out hr hberths
  have hc : s.beginStop.slowed.cool = { s.cool with st := .sudden, gated := false, good28 := 0 } :=
    (congrArg State.cool heq).trans (congrArg (fun c : Cool => { c with st := .sudden, gated := false, good28 := 0 }) hcool)
  have hh : s.beginStop.slowed.hbm = s.hbm := (congrArg State.hbm heq).trans hhbm
  have hm' : Sparse.wf regReset s.beginStop.slowed.regs = true := (congrArg State.regs heq).symm ▸ hm
  have hstop : s.suddenStop = ((s.beginStop.slowed.holdStop).raise .tray 0 5).msiFault := if_pos h
  generalize s.beginStop.slowed = u at *
  obtain ⟨l, n, hheld⟩ := holdNow_only u u.liveStreams 3
  obtain ⟨m', f', x, hraise, hw, hset⟩ := trayStopped_spec (u := { u with streams := l, seq := { u.seq with next := n } }) hm'
  rw [hstop, State.holdStop, hheld, hraise]
  exact ⟨hc, hwest, heast, hasleep, hh, fun b => (hkeep b).1.trans (hb b).2, errSet_of hset rfl, hw⟩

end

section
/-! The thermal request of a half (R414, R432). -/

variable {s t : State} {h : Half}

theorem askThermal_spec (s : State) (h : Half) (d : Nat) :
    ∃ m, s.askThermal h d = ({ s with regs := m } : State).setHalf h { s.half h with thermal := d } ∧
      ∀ b i n, ({ s with regs := m } : State).errSet b i n = s.errSet b i n := by
  obtain ⟨m, e, hkeep, -⟩ := retarget_keeps (s.setHalf h { s.half h with thermal := d })
  refine ⟨m, ?_, fun b i n => (errSet_regs rfl).trans ((hkeep b i n).trans (errSet_regs (by simp)))⟩
  unfold State.askThermal
  rw [e]
  cases h <;> rfl

/-- R432: what the junction limit makes of a half, whose sites read as those of `u`. -/
def State.limited (s u : State) (h : Half) : HalfSt := if 840 ≤ u.hottest h then { s.half h with thermal := 16 } else s.half h

theorem limitHeat_spec (s : State) (h : Half) :
    ∃ m, s.limitHeat h = ({ s with regs := m } : State).setHalf h (s.limited s h) ∧ ∀ b i n, ({ s with regs := m } : State).errSet b i n = s.errSet b i n := by
  unfold State.limitHeat State.limited
  split
  · exact askThermal_spec s h 16
  · exact ⟨s.regs, by cases h <;> rfl, fun _ _ _ => rfl⟩

theorem Reported.siteReading (h : Reported s t) (i k : Nat) : t.siteReading i k = s.siteReading i k := by rw [h.rest]; rfl

theorem Reported.hottest (h : Reported s t) (w : Half) : t.hottest w = s.hottest w := by rw [h.rest]; rfl

/-- R432: errors reported at a site that was written, and the junction limit after them. -/
theorem Reported.limitHeat {k : Nat} {y : SiteSt} (hr : Reported (s.setSite k y) t) (h : Half) :
    ∃ m, t.limitHeat h = (({ s with regs := m, flt := t.flt } : State).setSite k y).setHalf h (s.limited (s.setSite k y) h) ∧
      ∀ b i n, ({ s with regs := m } : State).errSet b i n = t.errSet b i n := by
  obtain ⟨m, e, hkeep⟩ := limitHeat_spec t h
  refine ⟨m, ?_, fun b i n => (errSet_regs rfl).trans (hkeep b i n)⟩
  rw [e]
  unfold State.limited
  rw [hr.hottest, hr.rest]
  cases h <;> rfl

end

section
/-! The sites (R429, R432, R439). -/

variable {s : State} {i : Fin 100} {k : Fin 4}

/-- R429: the site does not exist there, or its basin does not regulate. -/
def State.siteOff (s : State) (i : Fin 100) (k : Fin 4) : Prop :=
  siteCount i.val ≤ k.val ∨ (s.basin i.val).latched = true ∨ (s.basin i.val).regulating = false

theorem sample_off (d r : BitVec 12) (h : s.siteOff i k) : exec (.thermalSiteSample i k d r) s = .next s :=
  congrArg Host.Outcome.next (if_pos (by simpa [State.siteOff, or_assoc] using h))

theorem sample_spec (hi : Inv s) (d r : BitVec 12) (h : ¬s.siteOff i k) :
    let n := i.val * 4 + k.val
    let x := s.site n
    let y := { x with diode := d, ro := r }
    ∃ m f, exec (.thermalSiteSample i k d r) s = .next ((({ s with regs := m, flt := f } : State).setSite n y).setHalf (thermHalf i.val)
        (s.limited (s.setSite n y) (thermHalf i.val))) ∧
      (differs y 40 = true → differs x 40 = false → ({ s with regs := m } : State).errSet .thrm i.val 0 = true) ∧
      (s.siteReading i.val k.val < 760 → 760 ≤ (s.setSite n y).siteReading i.val k.val → ({ s with regs := m } : State).errSet .thrm i.val 2 = true) := by
  intro n x y
  obtain ⟨u, hu⟩ : ∃ u, u = if differs y 40 && !differs x 40 then (s.setSite n y).raise .thrm i.val 0 else s.setSite n y := ⟨_, rfl⟩
  obtain ⟨v, hv⟩ : ∃ v, v = if !decide (760 ≤ s.siteReading i.val k.val) && decide (760 ≤ u.siteReading i.val k.val) then u.raise .thrm i.val 2 else u :=
    ⟨_, rfl⟩
  have h1 : Reported (s.setSite n y) u := hu ▸ .ite (.raise ..) (.refl _)
  have h2 : Reported u v := hv ▸ .ite (.raise ..) (.refl _)
  obtain ⟨m, e, hkeep⟩ := (h1.trans h2).limitHeat (thermHalf i.val)
  have hw : Sparse.wf regReset (s.setSite n y).regs = true := hi.regs
  refine ⟨m, v.flt, ?_, fun hy hx => ?_, fun hx hy => ?_⟩
  · rw [← e, hv, hu]
    exact congrArg Host.Outcome.next (if_neg (by simpa [State.siteOff, or_assoc] using h))
  · refine (hkeep ..).trans (h2.keep (h1.wf hw) ?_)
    rw [hu, if_pos (by simp [hy, hx])]
    exact errSet_raise_self hw rfl (by decide)
  · refine (hkeep ..).trans ?_
    rw [hv, if_pos (by rw [h1.siteReading]; simp [hx, hy])]
    exact errSet_raise_self (h1.wf hw) rfl (by decide)

theorem pairFault_off (h : s.siteOff i k ∨ (s.site (i.val * 4 + k.val)).faulty = true ∨ differs (s.site (i.val * 4 + k.val)) 120 = false) :
    exec (.pairFault i k) s = .next s := by
  refine congrArg Host.Outcome.next (if_pos ?_)
  simp only [State.siteOff, Bool.or_eq_true, decide_eq_true_eq, Bool.not_eq_true'] at h ⊢
  tauto

theorem pairFault_spec (hi : Inv s) (h : ¬s.siteOff i k) (hf : (s.site (i.val * 4 + k.val)).faulty = false)
    (hd : differs (s.site (i.val * 4 + k.val)) 120 = true) :
    let n := i.val * 4 + k.val
    let y := { s.site n with faulty := true }
    ∃ m f, exec (.pairFault i k) s = .next ((({ s with regs := m, flt := f } : State).setSite n y).setHalf (thermHalf i.val)
        (s.limited (s.setSite n y) (thermHalf i.val))) ∧ ({ s with regs := m } : State).errSet .thrm i.val 1 = true := by
  intro n y
  have hw : Sparse.wf regReset (s.setSite n y).regs = true := hi.regs
  obtain ⟨m, e, hkeep⟩ := (Reported.raise (s.setSite n y) .thrm i.val 1).limitHeat (thermHalf i.val)
  refine ⟨m, ((s.setSite n y).raise .thrm i.val 1).flt, ?_, (hkeep ..).trans (errSet_raise_self hw rfl (by decide))⟩
  rw [← e]
  refine congrArg Host.Outcome.next (if_neg ?_)
  simp only [State.siteOff, not_or, Nat.not_le, Bool.not_eq_true, Bool.not_eq_false, Bool.or_eq_true, decide_eq_true_eq, Bool.not_eq_true'] at h ⊢
  tauto

theorem trip_off (h : s.siteOff i k ∨ s.siteReading i.val k.val < 920) : exec (.trip i k) s = .next s :=
  congrArg Host.Outcome.next (if_pos (by simpa [State.siteOff, or_assoc] using h))

theorem trip_runs (h : ¬s.siteOff i k) (ht : 920 ≤ s.siteReading i.val k.val) : exec (.trip i k) s = .next (s.suddenStop.raise .thrm i.val 3) :=
  congrArg Host.Outcome.next (if_neg (by simpa [State.siteOff, or_assoc, ht] using h))

/-- R432, R435: a trip stops a module that was not stopped. -/
theorem trip_stops (hi : Inv s) (h : ¬s.siteOff i k) (ht : 920 ≤ s.siteReading i.val k.val) (hs : s.cool.st = .normal ∨ s.cool.st = .orderly) :
    ∃ t, exec (.trip i k) s = .next t ∧ t.cool.st = .sudden ∧ t.west.now = 16 ∧ t.east.now = 16 ∧ t.errSet .thrm i.val 3 = true := by
  have hstop := suddenStop_stops hi hs
  have hset := errSet_raise_self (b := .thrm) (i := i.val) (n := 3) hstop.regs rfl (by decide)
  have hrest := (Reported.raise s.suddenStop .thrm i.val 3).rest
  refine ⟨_, trip_runs h ht, ?_, ?_, ?_, hset⟩
  · rw [hrest]; exact congrArg Cool.st hstop.cool
  · rw [hrest]; exact hstop.west
  · rw [hrest]; exact hstop.east

theorem trip_stopped (hi : Inv s) (h : ¬s.siteOff i k) (ht : 920 ≤ s.siteReading i.val k.val) (hn : s.cool.st ≠ .normal) (ho : s.cool.st ≠ .orderly) :
    ∃ m f, exec (.trip i k) s = .next { s with regs := m, flt := f } ∧ ({ s with regs := m } : State).errSet .thrm i.val 3 = true := by
  obtain ⟨m, f, e, hset⟩ := raise_any (b := .thrm) (i := i.val) (n := 3) hi.regs rfl (by decide)
  exact ⟨m, f, (trip_runs h ht).trans (by rw [suddenStop_stopped hn ho, e]), hset⟩

theorem stepRequest_spec (s : State) (h : Half) :
    if s.hottest h < 760 then exec (.thermalStepRequest h) s = .next s
    else ∃ m, exec (.thermalStepRequest h) s = .next (({ s with regs := m } : State).setHalf h
      { s.half h with thermal := if 840 ≤ s.hottest h then 16 else max (s.half h).thermal (divUp (s.half h).now) }) := by
  split
  next hc => exact congrArg Host.Outcome.next ((if_neg (by omega)).trans (if_neg (by omega)))
  next hw =>
    obtain ⟨m, e, -⟩ := askThermal_spec s h (if 840 ≤ s.hottest h then 16 else max (s.half h).thermal (divUp (s.half h).now))
    refine ⟨m, congrArg Host.Outcome.next (Eq.trans ?_ e)⟩
    rw [apply_ite (s.askThermal h)]
    exact if_congr Iff.rfl rfl (if_pos (by omega))

theorem stepRelease_spec (s : State) (h : Half) :
    if s.hottest h < 720 then ∃ m, exec (.thermalStepRelease h) s = .next (({ s with regs := m } : State).setHalf h
      { s.half h with thermal := divDown (s.half h).thermal })
    else exec (.thermalStepRelease h) s = .next s := by
  split
  next hc =>
    obtain ⟨m, e, -⟩ := askThermal_spec s h (divDown (s.half h).thermal)
    exact ⟨m, congrArg Host.Outcome.next ((if_pos hc).trans e)⟩
  next hw => exact congrArg Host.Outcome.next (if_neg hw)

end

/-- Settles O57: a site's commands by whether the site stands and what it reads, a half's by its hottest site. -/
theorem hotSpots : Obligations.HotSpots := by
  intro s hi limited
  refine ⟨fun i k => ⟨fun d r => ⟨sample_off d r, sample_spec hi d r⟩, pairFault_off, pairFault_spec hi, trip_off,
    fun h ht => ⟨trip_stops hi h ht, trip_stopped hi h ht⟩⟩, fun h => ⟨stepRequest_spec s h, stepRelease_spec s h⟩⟩

end Sys2Proof.Machine
end

section
/-! PROOF. Coolant (O56): readings, the thermal cap, the orderly and the sudden stop, and what ends them. -/

namespace Sys2Proof.Machine

section
/-! The divisors that are requested stand while divisors change (R414, R416). -/

variable {s t u : State}

/-- R414: from one state to the other what the requesters ask for stays, whatever divisors the halves have. -/
structure SameRequests (s t : State) : Prop where
  stepping : t.fuses.stepping = s.fuses.stepping
  cool : t.cool = s.cool
  half : ∀ h, ∃ d, t.half h = { s.half h with now := d }
  floor : ∀ h, bits (t.reg .schd (halfInst h) 0x040) 25 21 = bits (s.reg .schd (halfInst h) 0x040) 25 21

theorem SameRequests.refl (s : State) : SameRequests s s := ⟨rfl, rfl, fun _ => ⟨_, rfl⟩, fun _ => rfl⟩

theorem SameRequests.trans (h : SameRequests s t) (h' : SameRequests t u) : SameRequests s u := by
  refine ⟨h'.stepping.trans h.stepping, h'.cool.trans h.cool, fun w => ?_, fun w => (h'.floor w).trans (h.floor w)⟩
  obtain ⟨d, e⟩ := h.half w
  obtain ⟨d', e'⟩ := h'.half w
  exact ⟨d', by rw [e', e]⟩

theorem SameRequests.ite {p : Prop} [Decidable p] (h : SameRequests s t) (h' : SameRequests s u) : SameRequests s (if p then t else u) := by
  split
  · exact h
  · exact h'

theorem SameRequests.targetDiv (h : SameRequests s t) (w : Half) : t.targetDiv w = s.targetDiv w := by
  have requests : ∀ w, t.divRequests w = s.divRequests w := by
    intro w
    obtain ⟨d, e⟩ := h.half w
    unfold State.divRequests State.stopped
    rw [e, h.floor, h.cool]
  unfold State.targetDiv State.ownTarget
  simp only [requests, h.stepping]

/-- A register other than a half's DIV leaves the requests. -/
theorem SameRequests.setReg (s : State) {b : Blk} {i o : Nat} (v : Word) (h : ∀ w, regKey b i o ≠ regKey .schd (halfInst w) 0x040) :
    SameRequests s (s.setReg b i o v) :=
  ⟨rfl, rfl, fun w => ⟨(s.half w).now, by cases w <;> rfl⟩, fun w => congrArg (bits · 25 21) (State.reg_setReg_other (Ne.symm (h w)))⟩

theorem schd_key_below (w : Half) : regKey .schd (halfInst w) 0x040 < 0x6000 := by cases w <;> decide

theorem SameRequests.seeRail (s : State) (n mv : Nat) : SameRequests s (s.seeRail n mv) := by
  have other : ∀ o w, regKey .bsn n o ≠ regKey .schd (halfInst w) 0x040 := fun o w => (lt_of_lt_of_le (schd_key_below w) (bsn_key_above n o)).ne'
  exact .ite (((SameRequests.setReg s _ (other _)).trans (.setReg _ _ (other _))).trans (.setReg _ _ (other _))) (.refl s)

theorem SameRequests.setBerth (s : State) (b : Nat) (x : BerthSt) : SameRequests s (s.setBerth b x) :=
  ⟨rfl, rfl, fun w => ⟨(s.half w).now, by cases w <;> rfl⟩, fun _ => rfl⟩

theorem SameRequests.setLdiv (s : State) (b d : Nat) : SameRequests s (s.setLdiv b d) := (SameRequests.setBerth ..).trans (.seeRail ..)

theorem SameRequests.setNow (s : State) (h : Half) (d : Nat) : SameRequests s (s.setHalf h { s.half h with now := d }) := by
  refine ⟨by simp, by simp, fun w => ?_, fun w => by simp⟩
  cases h <;> cases w <;> exact ⟨_, rfl⟩

theorem SameRequests.count (s : State) (h : Half) : SameRequests s (s.count .schd (halfInst h) 0x044 1) :=
  .setReg s _ fun w => by cases h <;> cases w <;> decide

theorem SameRequests.setDivisor (s : State) (h : Half) (d : Nat) : SameRequests s (s.setDivisor h d) := by
  refine ((SameRequests.setNow s h d).trans (.count _ h)).trans ?_
  exact foldl_rel SameRequests.refl SameRequests.trans (fun u b => .ite (.ite (.setLdiv ..) (.refl _)) (.ite (.refl _) (.setLdiv ..))) _ _

theorem SameRequests.retarget (hr : Sparse.wf regReset s.regs = true) : SameRequests s s.retarget := by
  have one : ∀ (u : State) (w : Half) (a b : Nat), Sparse.wf regReset u.regs = true →
      SameRequests u (u.setReg .schd (halfInst w) 0x040 (putBits (putBits (u.reg .schd (halfInst w) 0x040) 31 26 a) 20 16 b)) := by
    intro u w a b hu
    refine ⟨rfl, rfl, fun x => ⟨(u.half x).now, by cases x <;> rfl⟩, fun x => ?_⟩
    by_cases hx : x = w
    · subst hx
      rw [State.reg_setReg hu, bits_putBits_other _ _ (.inr (by decide)), bits_putBits_other _ _ (.inl (by decide))]
    · rw [State.reg_setReg_other (by cases x <;> cases w <;> first | exact absurd rfl hx | decide)]
  exact (one s .west _ _ hr).trans (one _ .east _ _ (Sparse.wf_set _ hr))

/-- R436: one half takes the divisor that is requested. -/
def State.takeTarget (s : State) (h : Half) : State := if s.targetDiv h = (s.half h).now then s else s.setDivisor h (s.targetDiv h)

theorem takeTarget_spec (s : State) (h : Half) :
    SameRequests s (s.takeTarget h) ∧ ((s.takeTarget h).half h).now = s.targetDiv h ∧ (s.takeTarget h).half (otherHalf h) = s.half (otherHalf h) := by
  unfold State.takeTarget
  split
  next e => exact ⟨.refl s, e.symm, rfl⟩
  next =>
    have hsame := SameRequests.setDivisor s h (s.targetDiv h)
    obtain ⟨hself, hother⟩ := setDivisor_half s h (s.targetDiv h)
    generalize s.setDivisor h (s.targetDiv h) = v at *
    exact ⟨hsame, congrArg HalfSt.now hself, hother⟩

theorem restoreDivisors_eq (s : State) : s.restoreDivisors = (s.retarget.takeTarget .west).takeTarget .east :=
  show [Half.west, Half.east].foldl State.takeTarget s.retarget = _ by rw [List.foldl_cons, List.foldl_cons, List.foldl_nil]

/-- R436: the halves' divisors after a sudden stop, and what requested them. -/
theorem restoreDivisors_spec (hr : Sparse.wf regReset s.regs = true) : SameRequests s s.restoreDivisors ∧
    ∀ h, (s.restoreDivisors.half h).now = s.targetDiv h := by
  have h0 := SameRequests.retarget hr
  obtain ⟨h1, hwest, -⟩ := takeTarget_spec s.retarget .west
  obtain ⟨h2, heast, hkeep⟩ := takeTarget_spec (s.retarget.takeTarget .west) .east
  rw [restoreDivisors_eq]
  refine ⟨(h0.trans h1).trans h2, fun h => ?_⟩
  cases h with
  | west => exact (congrArg HalfSt.now hkeep).trans (hwest.trans (h0.targetDiv _))
  | east => exact heast.trans ((h0.trans h1).targetDiv _)

end

section
/-! The thermal cap (R431, R442). -/

variable {s t : State}

theorem Inv.withCool (hi : Inv s) (c : Cool) : Inv { s with cool := c } := { hi with }

theorem Reported.cool (h : Reported s t) : t.cool = s.cool := by rw [h.rest]

/-- R431: what the readings allow is read from TRAY's own state. -/
theorem capTarget_congr (hc : t.cool = s.cool) (hr : t.reg .tray 0 0x04C = s.reg .tray 0 0x04C) : t.capTarget = s.capTarget := by
  unfold State.capTarget State.outMax
  rw [hc, hr]

theorem capTarget_raise (s : State) (n : Nat) : (s.raise .tray 0 n).capTarget = s.capTarget :=
  capTarget_congr (Reported.raise ..).cool (raise_reg_at (by decide) (by decide) (by decide))

theorem errSet_setCap (s : State) (v : Word) (b : Blk) (i n : Nat) : (s.setReg .tray 0 0x048 v).errSet b i n = s.errSet b i n := by
  refine errSet_setReg fun e => ?_
  have := pageBase_mod b i
  have hk : regKey .tray 0 0x048 % 0x1000 = 0x48 := by decide
  omega

theorem capNow_falls (s : State) :
    ∃ m, s.capNow false = { s with regs := m, cool := { s.cool with cap := min s.cool.cap s.capTarget } } ∧
      ∀ b i n, ({ s with regs := m } : State).errSet b i n = s.errSet b i n := by
  have hcap : (if s.capTarget ≤ s.cool.cap then s.capTarget else s.cool.cap) = min s.cool.cap s.capTarget := by
    rw [min_comm]
    rfl
  refine ⟨(s.capNow false).regs, ?_, fun b i n => (errSet_regs rfl).trans (errSet_setCap { s with cool := _ } _ b i n)⟩
  rw [← hcap]
  rfl

theorem capNow_rises (s : State) :
    ∃ m, s.capNow true = { s with regs := m, cool := { s.cool with cap := min s.capTarget (s.cool.cap + 100) } } ∧
      (Sparse.wf regReset s.regs = true → Sparse.wf regReset m = true) := by
  have hcap : (if s.capTarget ≤ s.cool.cap then s.capTarget else min s.capTarget (s.cool.cap + 100)) = min s.capTarget (s.cool.cap + 100) := by
    split <;> omega
  refine ⟨(s.capNow true).regs, ?_, Sparse.wf_set _⟩
  rw [← hcap]
  rfl

end

section
/-! The tray's readings (R427, R428, R433–R435, R523). -/

variable {s : State}

/-- R427: a call for an orderly stop that has not been taken, or is settled, leaves the module. -/
theorem settleStop_waits (h : s.cool.st ≠ .orderly) : s.settleStop = s := if_neg fun e => h e.1

theorem flowAlertN_runs (a : Bool) (h : s.powered = true) : exec (.flowAlertN a) s = .next
    (let s := { s with cool := { s.cool with alertPin := a, good28 := if a then 0 else s.cool.good28 } }
     if a then s.suddenStop else s) := congrArg Host.Outcome.next (if_neg (by simp [h]))

theorem flowAlertN_stopped (h : s.powered = true) (hn : s.cool.st ≠ .normal) (ho : s.cool.st ≠ .orderly) :
    exec (.flowAlertN true) s = .next { s with cool := { s.cool with alertPin := true, good28 := 0 } } :=
  (flowAlertN_runs true h).trans (congrArg Host.Outcome.next (suddenStop_stopped hn ho))

/-- R435: what a sudden stop leaves, as the statement names it. -/
def State.StopSeen (s t : State) : Prop :=
  t.cool.st = .sudden ∧ t.west.now = 16 ∧ t.east.now = 16 ∧ (∀ b, b < 84 → s.dark b = false → t.awake b = false) ∧
    t.hbm = s.hbm ∧ (∀ b, (t.berth b).store = (s.berth b).store) ∧ t.errSet .tray 0 5 = true

theorem State.StopsTo.seen {t : State} {c : Cool} (h : State.StopsTo { s with cool := c } t) : s.StopSeen t :=
  ⟨congrArg Cool.st h.cool, h.west, h.east, h.asleep, h.hbm, h.store, h.raised⟩

theorem flowAlertN_stops (hi : Inv s) (h : s.powered = true) (hs : s.cool.st = .normal ∨ s.cool.st = .orderly) :
    ∃ t, exec (.flowAlertN true) s = .next t ∧ s.StopSeen t ∧ t.cool.alertPin = true := by
  have hstop := suddenStop_stops (hi.withCool { s.cool with alertPin := true, good28 := 0 }) hs
  exact ⟨_, flowAlertN_runs true h, hstop.seen, congrArg Cool.alertPin hstop.cool⟩

/-- R428, R523: what TRAY keeps of one reading, before its levels. -/
def Cool.taking (c : Cool) (r : TrayReading) (valid : Bool) : Cool :=
  let f := bits (r.flow.setWidth 32) 9 0
  if valid then { c with flow := f, inlet := r.inlet.toInt, outlet := r.outlet.toInt, recent := (f :: c.recent).take 20, invalid := 0, linkLost := false }
  else { c with invalid := c.invalid + 1, recent := (0 :: c.recent).take 20 }

theorem Cool.taking_keeps (c : Cool) (r : TrayReading) (v : Bool) :
    (c.taking r v).st = c.st ∧ (c.taking r v).cap = c.cap := by
  cases v <;> exact ⟨rfl, rfl⟩

theorem trayRead_runs (r : TrayReading) (h : s.polls = true) :
    let valid := readingValid r && !(s.basin 99).latched
    let u : State := { s with cool := countLevels (s.cool.taking r valid) }
    exec (.trayRead r) s = .next ((((if valid && decide (2 * bits (r.flow.setWidth 32) 9 0 < s.cool.recent.foldl max 0) then u.suddenStop
      else u).raiseLevels s.cool).capNow false).settleStop) := congrArg Host.Outcome.next (if_neg (by simp [h]))

theorem Reported.raiseLevels (s : State) (c : Cool) : Reported s (s.raiseLevels c) := (Reported.ite (.raise ..) (.refl s)).trans (.ite (.raise ..) (.refl _))

theorem raiseLevels_low {c : Cool} (hw : Sparse.wf regReset s.regs = true) (h : s.cool.low = true) (h' : c.low = false) :
    (s.raiseLevels c).errSet .tray 0 0 = true := by
  unfold State.raiseLevels
  rw [if_pos (show (s.cool.low && !c.low) = true by rw [h, h']; rfl)]
  exact (Reported.ite (.raise _ .tray 0 1) (.refl _)).keep (wf_raise hw) (errSet_raise_self hw rfl (by decide))

theorem raiseLevels_inlet {c : Cool} (hw : Sparse.wf regReset s.regs = true) (h : s.cool.inletOut = true) (h' : c.inletOut = false) :
    (s.raiseLevels c).errSet .tray 0 1 = true := by
  have hfirst : Reported s (if s.cool.low && !c.low then s.raise .tray 0 0 else s) := .ite (.raise ..) (.refl s)
  unfold State.raiseLevels
  dsimp only
  rw [if_pos (by rw [hfirst.cool]; simp [h, h'])]
  exact errSet_raise_self (hfirst.wf hw) rfl (by decide)

theorem capTarget_raiseLevels (s : State) (c : Cool) : (s.raiseLevels c).capTarget = s.capTarget := by
  unfold State.raiseLevels
  dsimp only
  split <;> split <;> simp only [capTarget_raise]

/-- R433–R435: a flow below half the highest of the last twenty. -/
theorem trayRead_stops (hi : Inv s) (r : TrayReading) (hp : s.polls = true) (hs : s.cool.st = .normal)
    (h : (readingValid r && !(s.basin 99).latched) = true ∧ 2 * bits (r.flow.setWidth 32) 9 0 < s.cool.recent.foldl max 0) :
    ∃ t, exec (.trayRead r) s = .next t ∧ s.StopSeen t := by
  have hstop := suddenStop_stops (hi.withCool (countLevels (s.cool.taking r (readingValid r && !(s.basin 99).latched))))
    (.inl ((Cool.taking_keeps ..).1.trans hs))
  have hrun := trayRead_runs r hp
  dsimp only at hrun
  rw [if_pos (by simpa using h)] at hrun
  generalize State.suddenStop _ = u at *
  obtain ⟨hcool, hwest, heast, hasleep, hhbm, hstore, hraised, hregs⟩ := hstop
  have hlevels := Reported.raiseLevels u s.cool
  have hset := hlevels.keep hregs hraised
  have hrest := hlevels.rest
  generalize u.raiseLevels s.cool = v at *
  obtain ⟨m, e, hkeep⟩ := capNow_falls v
  have hsudden : v.cool.st = .sudden := by rw [hrest]; exact congrArg Cool.st hcool
  rw [e, settleStop_waits (by rw [hsudden]; decide)] at hrun
  refine ⟨_, hrun, hsudden, ?_, ?_, ?_, ?_, ?_, (errSet_regs rfl).trans ((hkeep ..).trans hset)⟩ <;> rw [hrest]
  exacts [hwest, heast, hasleep, hhbm, hstore]

/-- R428, R431, R441: a reading in the normal state that halves no flow. -/
theorem trayRead_levels (hi : Inv s) (r : TrayReading) (hp : s.polls = true) (hs : s.cool.st = .normal)
    (h : ¬((readingValid r && !(s.basin 99).latched) = true ∧ 2 * bits (r.flow.setWidth 32) 9 0 < s.cool.recent.foldl max 0)) :
    let d := countLevels (s.cool.taking r (readingValid r && !(s.basin 99).latched))
    ∃ m g, exec (.trayRead r) s = .next { s with
        regs := m, flt := g, cool := { d with cap := min s.cool.cap ({ s with cool := d } : State).capTarget } } ∧
      (d.low = true → s.cool.low = false → ({ s with regs := m } : State).errSet .tray 0 0 = true) ∧
      (d.inletOut = true → s.cool.inletOut = false → ({ s with regs := m } : State).errSet .tray 0 1 = true) := by
  intro d
  obtain ⟨hst, hcap⟩ := Cool.taking_keeps s.cool r (readingValid r && !(s.basin 99).latched)
  have hw : Sparse.wf regReset ({ s with cool := d } : State).regs = true := hi.regs
  have hlevels := Reported.raiseLevels { s with cool := d } s.cool
  have hlow := raiseLevels_low (s := { s with cool := d }) (c := s.cool) hw
  have hinlet := raiseLevels_inlet (s := { s with cool := d }) (c := s.cool) hw
  have htarget := capTarget_raiseLevels { s with cool := d } s.cool
  have hrun := trayRead_runs r hp
  dsimp only at hrun
  rw [if_neg (by simpa using h)] at hrun
  change exec (.trayRead r) s = .next (((State.raiseLevels { s with cool := d } s.cool).capNow false).settleStop) at hrun
  generalize State.raiseLevels { s with cool := d } s.cool = v at *
  obtain ⟨m, e, hkeep⟩ := capNow_falls v
  have hc : v.cool = d := hlevels.cool
  have hd : d.st = .normal ∧ d.cap = s.cool.cap := ⟨hst.trans hs, hcap⟩
  refine ⟨m, v.flt, ?_, fun a b => (errSet_regs rfl).trans ((hkeep ..).trans (hlow a b)), fun a b => (errSet_regs rfl).trans ((hkeep ..).trans (hinlet a b))⟩
  rw [hrun, e, settleStop_waits (by rw [show v.cool.st = .normal from (congrArg Cool.st hc).trans hd.1]; decide), htarget, hc, hd.2, hlevels.rest]

/-- R428: after ten readings that are not valid. -/
theorem linkLost_spec (hi : Inv s) :
    if s.polls = true ∧ s.cool.linkLost = false ∧ 10 ≤ s.cool.invalid then ∃ m g, exec .linkLost s = .next { s with
        regs := m, flt := g, cool := { s.cool with linkLost := true, cap := min s.cool.cap ({ s with cool := { s.cool with linkLost := true } } : State).capTarget } } ∧
      ({ s with regs := m } : State).errSet .tray 0 3 = true
    else exec .linkLost s = .next s := by
  split
  next h =>
    have hw : Sparse.wf regReset ({ s with cool := { s.cool with linkLost := true } } : State).regs = true := hi.regs
    have hrep := Reported.raise { s with cool := { s.cool with linkLost := true } } .tray 0 3
    have hset := errSet_raise_self (b := .tray) (i := 0) (n := 3) hw rfl (by decide)
    have htarget := capTarget_raise { s with cool := { s.cool with linkLost := true } } 3
    have hrun : exec .linkLost s = .next ((State.raise { s with cool := { s.cool with linkLost := true } } .tray 0 3).capNow false) :=
      congrArg Host.Outcome.next (if_pos (by simpa [and_assoc] using h))
    generalize State.raise _ .tray 0 3 = v at *
    obtain ⟨m, e, hkeep⟩ := capNow_falls v
    refine ⟨m, v.flt, ?_, (errSet_regs rfl).trans ((hkeep ..).trans hset)⟩
    rw [hrun, e, htarget, hrep.cool, hrep.rest]
  next h => exact congrArg Host.Outcome.next (if_neg (by simpa [and_assoc] using h))

/-- R430, R431: P60 and T60 come once a second. -/
theorem forecast_spec (hi : Inv s) (p60 : Nat) (t60 : Int) (h : s.stage = .ready) :
    let cap := min ({ s with cool := { s.cool with t60 := some t60 } } : State).capTarget (s.cool.cap + 100)
    ∃ m g, exec (.forecast p60 t60) s = .next { s with regs := m, flt := g, cool := { s.cool with t60 := some t60, cap := cap } } ∧
      bits (({ s with regs := m } : State).reg .tray 0 0x048) 31 16 = min p60 65535 ∧
      (cap < p60 → ({ s with regs := m } : State).errSet .tray 0 2 = true) ∧ (p60 ≤ cap → g = s.flt) := by
  intro cap
  obtain ⟨m, e, hm⟩ := capNow_rises { s with cool := { s.cool with t60 := some t60 } }
  have hrun : exec (.forecast p60 t60) s = .next
      (let u := (State.capNow { s with cool := { s.cool with t60 := some t60 } } true)
       let u := u.setReg .tray 0 0x048 (putBits (u.reg .tray 0 0x048) 31 16 (min p60 65535))
       if u.cool.cap < p60 then u.raise .tray 0 2 else u) := congrArg Host.Outcome.next (if_neg (not_not.2 h))
  rw [e] at hrun
  replace hm := hm hi.regs
  obtain ⟨v, hv⟩ : ∃ v : State, v = ({ s with regs := m, cool := { s.cool with t60 := some t60, cap := cap } } : State).setReg .tray 0 0x048
    (putBits (({ s with regs := m } : State).reg .tray 0 0x048) 31 16 (min p60 65535)) := ⟨_, rfl⟩
  have hw : Sparse.wf regReset v.regs = true := hv ▸ Sparse.wf_set _ hm
  have hread : bits (v.reg .tray 0 0x048) 31 16 = min p60 65535 := by
    rw [hv, State.reg_setReg (s := { s with regs := m, cool := { s.cool with t60 := some t60, cap := cap } }) hm, bits_putBits _ _ (by decide)]
    exact Nat.mod_eq_of_lt (by omega)
  have hrest : v = { s with regs := v.regs, cool := { s.cool with t60 := some t60, cap := cap } } := by rw [hv]; rfl
  have hrun : exec (.forecast p60 t60) s = .next (if cap < p60 then v.raise .tray 0 2 else v) := hv ▸ hrun
  by_cases hover : cap < p60
  · rw [if_pos hover] at hrun
    have hrep := Reported.raise v .tray 0 2
    refine ⟨(v.raise .tray 0 2).regs, (v.raise .tray 0 2).flt, ?_, ?_, fun _ => errSet_raise_self hw rfl (by decide), fun hle => absurd hover (Nat.not_lt.2 hle)⟩
    · rw [hrun, hrep.rest, hrest]
    · exact (congrArg (bits · 31 16) (raise_reg_at (by decide) (by decide) (by decide))).trans hread
  · rw [if_neg hover] at hrun
    exact ⟨v.regs, s.flt, hrun.trans (congrArg Host.Outcome.next hrest), hread, fun h => absurd h hover, fun _ => rfl⟩

end

section
/-! The stops and what ends them (R433–R438). -/

variable {s : State}

/-- R433, R434: the orderly stop as it is taken. -/
def Cool.orderly (c : Cool) : Cool :=
  { c with st := .orderly, flowStop := decide (100 < c.below18), inletStop := decide (1000 < c.hot38), gated := false }

theorem orderlyStop_runs (h : s.cool.st = .normal ∧ s.powered = true ∧ stopCalled s.cool = true) :
    exec .orderlyStop s = .next ((State.raise { s with cool := s.cool.orderly } .tray 0 4).settleStop) := congrArg Host.Outcome.next (if_pos h)

theorem orderlyStop_waits (hi : Inv s) (h : s.cool.st = .normal ∧ s.powered = true ∧ stopCalled s.cool = true)
    (hr : s.coresMode = .run ∨ s.seq.finished = true) :
    ∃ m g, exec .orderlyStop s = .next { s with cool := s.cool.orderly, regs := m, flt := g } ∧ ({ s with regs := m } : State).errSet .tray 0 4 = true := by
  obtain ⟨m, g, e, hset⟩ := raise_any (s := { s with cool := s.cool.orderly }) (b := .tray) (i := 0) (n := 4) hi.regs rfl (by decide)
  refine ⟨m, g, (orderlyStop_runs h).trans ?_, hset⟩
  rw [e]
  refine congrArg Host.Outcome.next (if_neg fun ⟨_, _, hrun, hfin⟩ => ?_)
  rcases hr with hr | hr
  · exact hrun hr
  · exact absurd (hr.symm.trans hfin) (by decide)

theorem orderlyStop_gates (hi : Inv s) (h : s.cool.st = .normal ∧ s.powered = true ∧ stopCalled s.cool = true)
    (hr : s.coresMode ≠ .run) (hf : s.seq.finished = false) :
    ∃ t, exec .orderlyStop s = .next t ∧ t.cool = { s.cool.orderly with gated := true } ∧ t.errSet .tray 0 4 = true ∧
      ∀ b, b < 84 → s.dark b = false → t.awake b = false := by
  have hw : Sparse.wf regReset ({ s with cool := s.cool.orderly } : State).regs = true := hi.regs
  have hset := errSet_raise_self (b := .tray) (i := 0) (n := 4) hw rfl (by decide)
  have hrep := Reported.raise { s with cool := s.cool.orderly } .tray 0 4
  have hrun := orderlyStop_runs h
  generalize State.raise _ .tray 0 4 = u at *
  have hc : u.cool = s.cool.orderly := hrep.cool
  have hb : Sparse.wf (fun _ => ({} : BerthSt)) u.berths = true := by rw [hrep.rest]; exact hi.berths
  have hdark : ∀ b, u.dark b = s.dark b := fun b => by rw [hrep.rest]; rfl
  have hcond : u.cool.st = .orderly ∧ u.cool.gated = false ∧ u.coresMode ≠ .run ∧ u.seq.finished = false := by
    rw [hc, hrep.rest]
    exact ⟨rfl, rfl, hr, hf⟩
  have hasleep := fun b hlt hd => gateAll_asleep (hrep.wf hw) hb (b := b) hlt ((hdark b).trans hd)
  obtain ⟨m, bs, w, e, heq, -, -, herr, -⟩ := (Paced.gateAll u).out (hrep.wf hw) hb
  have hgated : u.gateAll.cool = u.cool := by rw [heq]
  have hsettle : u.settleStop = { u.gateAll.holdStop with cool := { u.gateAll.holdStop.cool with gated := true } } := if_pos hcond
  have hraised := (herr .tray 0 4).trans hset
  generalize u.gateAll = v at *
  obtain ⟨l, n, hheld⟩ := holdNow_only v v.liveStreams 3
  rw [State.holdStop, hheld] at hsettle
  rw [hsettle] at hrun
  exact ⟨_, hrun, congrArg (fun c : Cool => { c with gated := true }) (hgated.trans hc), errSet_of hraised rfl, hasleep⟩

theorem orderlyResume_spec (s : State) :
    if s.cool.st = .orderly ∧ resumeReady s.cool = true then ∃ t, exec .orderlyResume s = .next t ∧
      t.cool = { s.cool with st := .normal, flowStop := false, inletStop := false, gated := false, below18 := 0, hot38 := 0 } ∧ t.berths = s.berths
    else exec .orderlyResume s = .next s := by
  split
  next h =>
    obtain ⟨m, e⟩ := liftStop_only
      { s with cool := { s.cool with st := .normal, flowStop := false, inletStop := false, gated := false, below18 := 0, hot38 := 0 } }
    exact ⟨_, congrArg Host.Outcome.next ((if_pos h).trans e), rfl, rfl⟩
  next h => exact congrArg Host.Outcome.next (if_neg h)

theorem coolantRecovery_spec (hi : Inv s) :
    if s.cool.st = .sudden ∧ s.cool.alertPin = false ∧ s.cool.linkLost = false ∧ 100 < s.cool.good28 then
      ∃ t, exec .coolantRecovery s = .next t ∧ t.cool = { s.cool with st := .normal } ∧
        ∀ h, (t.half h).now = ({ s with cool := { s.cool with st := .normal } } : State).targetDiv h
    else exec .coolantRecovery s = .next s := by
  split
  next h =>
    obtain ⟨hsame, hnow⟩ := restoreDivisors_spec (s := { s with cool := { s.cool with st := .normal } }) hi.regs
    have hrun : exec .coolantRecovery s = .next ((State.restoreDivisors { s with cool := { s.cool with st := .normal } }).liftStop) :=
      congrArg Host.Outcome.next (if_pos h)
    generalize State.restoreDivisors { s with cool := { s.cool with st := .normal } } = u at *
    obtain ⟨m, e⟩ := liftStop_only u
    exact ⟨_, hrun.trans (congrArg Host.Outcome.next e), hsame.cool, fun w => Eq.trans (by cases w <;> rfl) (hnow w)⟩
  next h => exact congrArg Host.Outcome.next (if_neg h)

/-- R399, R436, R441: the rail is dropped, or waits where the plate cannot be told. -/
theorem railDrop_spec (s : State) :
    if s.cool.st ≠ .sudden then exec .railDrop s = .next s
    else if s.plateLost = true ∧ (List.range 100).all (fun n => (s.basin n).inpkg) = false then
      exec .railDrop s = .next { s with cool := { s.cool with st := .waitDrop }, alert := true }
    else ∃ m, exec .railDrop s = .next {
        regs := m, pending := s.pending, draws := s.draws, countFrom := s.draws, fuses := s.fuses, flash := s.flash, hostMem := s.hostMem, msix := s.msix
        cool := { st := .dropped } } ∧ ({ s with regs := m } : State).errSet .tray 0 6 = true := by
  split
  next h => exact congrArg Host.Outcome.next (if_pos h)
  next h =>
    split
    next hp => exact congrArg Host.Outcome.next ((if_neg h).trans (if_pos (by simpa only [Bool.and_eq_true, Bool.not_eq_true'] using hp)))
    next hp =>
      obtain ⟨w, hw⟩ : ∃ w : State, w = { s.wiped with cool := { st := .dropped } } := ⟨_, rfl⟩
      have hwf : Sparse.wf regReset w.regs = true := hw ▸ rfl
      have hrun : exec .railDrop s = .next (w.setErrRegs .tray 0 ((w.errRegs .tray 0).record 6 false s.stamp)) :=
        hw ▸ congrArg Host.Outcome.next ((if_neg h).trans (if_neg (by simpa only [Bool.and_eq_true, Bool.not_eq_true'] using hp)))
      refine ⟨(w.setErrRegs .tray 0 ((w.errRegs .tray 0).record 6 false s.stamp)).regs, hrun.trans (congrArg Host.Outcome.next (hw ▸ rfl)), ?_⟩
      exact (congrArg (fun r => r.sts.getLsbD 6) (errRegs_setErrRegs hwf)).trans (record_sts _ 6 false _ (by decide))

end

/-- Settles O56: the tray's readings by what they say of the flow, the stops by the state that they find. -/
theorem coolantStops : Obligations.CoolantStops := by
  intro s hi c stops
  refine ⟨fun a => ⟨fun h => congrArg Host.Outcome.next (if_pos (by simp [h])), fun h ha => ?_, fun h ha hn ho => ?_, fun h ha hs => ?_⟩,
    fun r => ⟨fun h => congrArg Host.Outcome.next (if_pos (by simp [h])), fun hp hs => ?_⟩, linkLost_spec hi,
    fun p60 t60 => ⟨fun h => congrArg Host.Outcome.next (if_pos h), forecast_spec hi p60 t60⟩,
    ⟨fun h => congrArg Host.Outcome.next (if_neg h), orderlyStop_waits hi, orderlyStop_gates hi⟩, orderlyResume_spec s, coolantRecovery_spec hi, railDrop_spec s⟩
  · subst ha
    exact flowAlertN_runs false h
  · subst ha
    exact flowAlertN_stopped h hn ho
  · subst ha
    exact flowAlertN_stops hi h hs
  · intro valid f d
    split
    next h => exact trayRead_stops hi r hp hs h
    next h => exact trayRead_levels hi r hp hs h

end Sys2Proof.Machine
end

section
/-! PROOF. Wakes and power (O54): the ramp of a wake, gating, zones, and the power controller. -/

namespace Sys2Proof.Machine

section
/-! Wakes (R410, R419). -/

variable {s : State} {b : Berth}

/-- R410: a berth at the begin of its ramp. -/
def BerthSt.ramping (x : BerthSt) : BerthSt := { x with gated := false, waking := true, wakeWait := none, ldiv := 16 }

/-- R410: a wake above its goal goes on. -/
theorem endWake_above {n : Nat} (h : s.wakeGoal n < (s.berth n).ldiv) : s.endWake n = s :=
  if_neg (by simp [Nat.not_le.2 h])

theorem endWake_done {n : Nat} (hb : Sparse.wf (fun _ => ({} : BerthSt)) s.berths = true) (hw : (s.berth n).waking = true)
    (hn : (s.berth n).wakeWait = none) (h : (s.berth n).ldiv ≤ s.wakeGoal n) :
    (s.endWake n).berth n = { s.berth n with waking := false, ldiv := s.wakeGoal n } := by
  obtain ⟨u, hu⟩ : ∃ u, u = s.setBerth n { s.berth n with waking := false, ldiv := s.wakeGoal n } := ⟨_, rfl⟩
  have hrun : s.endWake n = (u.seeRail n (u.setpoint n)).liftStop := hu ▸ if_pos (by simp [hw, hn, h])
  have hberth : u.berth n = { s.berth n with waking := false, ldiv := s.wakeGoal n } := hu ▸ State.berth_setBerth hb
  obtain ⟨m, e⟩ := seeRail_only u n (u.setpoint n)
  obtain ⟨l, e'⟩ := liftStop_only { u with regs := m }
  rw [hrun, e, e']
  exact hberth

/-- R410: a command begins the ramp of berth `b`; `slow` says that its zone stayed loaded. -/
def State.Ramps (s : State) (b : Berth) (c : Instr) (slow : Bool) : Prop :=
  ∃ m f t, exec c s = .next t ∧ (slow = true → ({ s with regs := m } : State).errSet .bsn b.val 5 = true) ∧
    (s.wakeGoal b.val < 16 → t = { s.setBerth b.val (s.berth b.val).ramping with regs := m, flt := f }) ∧
    (16 ≤ s.wakeGoal b.val → t.berth b.val = { s.berth b.val with gated := false, waking := false, wakeWait := none, ldiv := s.wakeGoal b.val })

theorem ramps_of (hi : Inv s) {c : Instr} {slow : Bool} (h : exec c s = .next (s.beginRamp b.val slow)) : s.Ramps b c slow := by
  obtain ⟨u, hu⟩ : ∃ u, u = s.setBerth b.val (s.berth b.val).ramping := ⟨_, rfl⟩
  obtain ⟨v, hv⟩ : ∃ v, v = if slow then u.raise .bsn b.val 5 else u := ⟨_, rfl⟩
  have hrun : exec c s = .next (v.endWake b.val) := by rw [hv, hu]; exact h
  have hrep : Reported u v := hv ▸ .ite (.raise ..) (.refl u)
  have hgoal : v.wakeGoal b.val = s.wakeGoal b.val := by rw [hrep.rest, hu]; rfl
  have hregs : Sparse.wf regReset u.regs = true := hu ▸ hi.regs
  have hvb : v.berths = u.berths := by rw [hrep.rest]
  have hub : Sparse.wf (fun _ => ({} : BerthSt)) u.berths = true := hu ▸ Sparse.wf_set _ hi.berths
  have hberth : v.berth b.val = (s.berth b.val).ramping :=
    (congrArg (fun m => Sparse.get (fun _ => ({} : BerthSt)) m b.val) hvb).trans (hu ▸ State.berth_setBerth hi.berths)
  refine ⟨v.regs, v.flt, _, hrun, fun hs => ?_, fun hlt => ?_, fun hge => ?_⟩
  · refine errSet_of (s := v) ?_ rfl
    rw [hv, if_pos hs]
    exact errSet_raise_self hregs rfl (by decide)
  · rw [endWake_above (by rw [hgoal, hberth]; exact hlt), ← hu]
    exact hrep.rest
  · rw [endWake_done (hvb ▸ hub) (by rw [hberth]; rfl) (by rw [hberth]; rfl) (by rw [hgoal, hberth]; exact hge), hgoal, hberth]
    rfl

theorem wake_off (sum : Nat) (h : s.mayWake b.val = false ∨ (s.berth b.val).gated = false ∨ (s.berth b.val).waking = true) :
    exec (.wake b sum) s = .next s := congrArg Host.Outcome.next (if_pos (by simpa [or_assoc] using h))

theorem wake_spec (hi : Inv s) (sum : Nat) (hm : s.mayWake b.val = true) (hg : (s.berth b.val).gated = true) (hw : (s.berth b.val).waking = false) :
    if zoneLoaded sum = true then exec (.wake b sum) s = .next (s.setBerth b.val { s.berth b.val with waking := true, wakeWait := some 0 })
    else s.Ramps b (.wake b sum) false := by
  have hrun : exec (.wake b sum) s = .next (if zoneLoaded sum then s.setBerth b.val { s.berth b.val with waking := true, wakeWait := some 0 }
    else s.beginRamp b.val false) := congrArg Host.Outcome.next (if_neg (by simp [hm, hg, hw]))
  split
  next hz => rw [hrun, if_pos hz]
  next hz => exact ramps_of hi (by rw [hrun, if_neg hz])

theorem wakeStep_off (sum : Nat) (h : (s.berth b.val).waking = false ∨ s.mayWake b.val = false) : exec (.wakeStep b sum) s = .next s :=
  congrArg Host.Outcome.next (if_pos (by simpa using h))

theorem wakeStep_runs (sum : Nat) (hw : (s.berth b.val).waking = true) (hm : s.mayWake b.val = true) :
    exec (.wakeStep b sum) s = .next (match (s.berth b.val).wakeWait with
      | some n =>
        if !zoneLoaded sum then s.beginRamp b.val false
        else if 100 ≤ n + 1 then s.beginRamp b.val true
        else s.setBerth b.val { s.berth b.val with wakeWait := some (n + 1) }
      | none => (s.setLdiv b.val (rampNext (s.wakeGoal b.val) (s.berth b.val).ldiv)).endWake b.val) :=
  congrArg Host.Outcome.next (if_neg (by simp [hw, hm]))

/-- R410: a check of the zone before the ramp. -/
theorem wakeStep_waits (hi : Inv s) (sum : Nat) (hw : (s.berth b.val).waking = true) (hm : s.mayWake b.val = true) (n : Nat)
    (hn : (s.berth b.val).wakeWait = some n) :
    if zoneLoaded sum = false then s.Ramps b (.wakeStep b sum) false
    else if 99 ≤ n then s.Ramps b (.wakeStep b sum) true
    else exec (.wakeStep b sum) s = .next (s.setBerth b.val { s.berth b.val with wakeWait := some (n + 1) }) := by
  have hrun := wakeStep_runs sum hw hm
  rw [hn] at hrun
  dsimp only at hrun
  split
  next hz => exact ramps_of hi (by rw [hrun, if_pos (by simpa using hz)])
  next hz =>
    rw [if_neg (by simpa using hz)] at hrun
    split
    next h => exact ramps_of hi (by rw [hrun, if_pos (by omega)])
    next h => rw [hrun, if_neg (by omega)]

/-- R410: a hold of the ramp. -/
theorem wakeStep_holds (hi : Inv s) (sum : Nat) (hw : (s.berth b.val).waking = true) (hm : s.mayWake b.val = true)
    (hn : (s.berth b.val).wakeWait = none) :
    let x := s.berth b.val
    let goal := s.wakeGoal b.val
    if goal < rampNext goal x.ldiv then ∃ m, exec (.wakeStep b sum) s = .next { s.setBerth b.val { x with ldiv := rampNext goal x.ldiv } with regs := m }
    else ∃ t, exec (.wakeStep b sum) s = .next t ∧ t.berth b.val = { x with waking := false, ldiv := goal } := by
  intro x goal
  obtain ⟨u, hu⟩ : ∃ u, u = s.setBerth b.val { x with ldiv := rampNext goal x.ldiv } := ⟨_, rfl⟩
  obtain ⟨m, e⟩ := seeRail_only u b.val (u.setpoint b.val)
  have hrun := wakeStep_runs sum hw hm
  rw [hn] at hrun
  replace hrun : exec (.wakeStep b sum) s = .next (State.endWake { u with regs := m } b.val) := by rw [← e, hu]; exact hrun
  have hberth : ({ u with regs := m } : State).berth b.val = { x with ldiv := rampNext goal x.ldiv } := hu ▸ State.berth_setBerth hi.berths
  have hgoal : ({ u with regs := m } : State).wakeGoal b.val = goal := hu ▸ rfl
  split
  next h => exact ⟨m, by rw [hrun, endWake_above (by rw [hgoal, hberth]; exact h), hu]⟩
  next h =>
    refine ⟨_, hrun, ?_⟩
    rw [endWake_done (hu ▸ Sparse.wf_set _ hi.berths) (by rw [hberth]; exact hw) (by rw [hberth]; exact hn) (by rw [hgoal, hberth]; exact Nat.le_of_not_lt h),
      hgoal, hberth]

end

section
/-! Gating (R404, R412, R530). -/

variable {s : State}

/-- R404, R409: a berth whose cores are clock-gated. -/
def BerthSt.asleep (x : BerthSt) : BerthSt := { x with gated := true, waking := false, wakeWait := none, ldiv := 16 }

theorem seeRail_schd (s : State) (n mv : Nat) (w : Half) : (s.seeRail n mv).reg .schd (halfInst w) 0x040 = s.reg .schd (halfInst w) 0x040 := by
  have hk : ∀ o, regKey .schd (halfInst w) 0x040 ≠ regKey .bsn n o := fun o => (lt_of_lt_of_le (schd_key_below w) (bsn_key_above n o)).ne
  unfold State.seeRail
  split
  · rw [State.reg_setReg_other (hk _), State.reg_setReg_other (hk _), State.reg_setReg_other (hk _)]
  · rfl

theorem gateBerth_spec (hb : Sparse.wf (fun _ => ({} : BerthSt)) s.berths = true) (b : Nat) :
    ∃ m bs, s.gateBerth b = { s with regs := m, berths := bs } ∧ Sparse.wf (fun _ => ({} : BerthSt)) bs = true ∧
      ({ s with berths := bs } : State).berth b = (s.berth b).asleep ∧ (∀ y, y ≠ b → ({ s with berths := bs } : State).berth y = s.berth y) ∧
      ∀ w, ({ s with regs := m } : State).reg .schd (halfInst w) 0x040 = s.reg .schd (halfInst w) 0x040 := by
  obtain ⟨m, e⟩ := seeRail_only (s.setBerth b (s.berth b).asleep) b 650
  refine ⟨m, _, e, Sparse.wf_set _ hb, State.berth_setBerth hb, fun y hy => State.berth_setBerth_other hy, fun w => ?_⟩
  have := seeRail_schd (s.setBerth b (s.berth b).asleep) b 650 w
  rw [e] at this
  exact this

/-- R412: a berth that the idle time of its half gates. -/
@[reducible] def State.idles (s : State) (b : Nat) : Prop :=
  (s.berth b).role = .inService ∧ bits (s.reg .schd (halfInst (halfOf b)) 0x040) 7 0 ≠ 0 ∧ s.awake b = true

theorem idleGating_fold {l : List Nat} (hl : l.Nodup) (hb : Sparse.wf (fun _ => ({} : BerthSt)) s.berths = true) :
    ∃ m bs, l.foldl (fun s b => if s.idles b then s.gateBerth b else s) s = { s with regs := m, berths := bs } ∧
      ∀ y, ({ s with berths := bs } : State).berth y = if y ∈ l ∧ s.idles y then (s.berth y).asleep else s.berth y := by
  induction l generalizing s with
  | nil => exact ⟨s.regs, s.berths, rfl, fun y => (if_neg (by simp)).symm⟩
  | cons a l ih =>
    obtain ⟨ha, hl⟩ := List.nodup_cons.1 hl
    obtain ⟨m, bs, e, hbs, hself, hother, hreg⟩ : ∃ m bs, (if s.idles a then s.gateBerth a else s) = { s with regs := m, berths := bs } ∧
        Sparse.wf (fun _ => ({} : BerthSt)) bs = true ∧
        ({ s with berths := bs } : State).berth a = (if s.idles a then (s.berth a).asleep else s.berth a) ∧
        (∀ y, y ≠ a → ({ s with berths := bs } : State).berth y = s.berth y) ∧
        ∀ w, ({ s with regs := m } : State).reg .schd (halfInst w) 0x040 = s.reg .schd (halfInst w) 0x040 := by
      split
      · exact gateBerth_spec hb a
      · exact ⟨s.regs, s.berths, rfl, hb, rfl, fun _ _ => rfl, fun _ => rfl⟩
    obtain ⟨m', bs', e', hfold⟩ := ih hl (s := { s with regs := m, berths := bs }) hbs
    refine ⟨m', bs', by rw [List.foldl_cons, e, e'], fun y => (hfold y).trans ?_⟩
    by_cases hy : y = a
    · subst hy
      rw [if_neg fun h => ha h.1]
      refine hself.trans (if_congr ?_ rfl rfl)
      simp
    · have hsame : ({ s with regs := m, berths := bs } : State).berth y = s.berth y := hother y hy
      have hidles : ({ s with regs := m, berths := bs } : State).idles y ↔ s.idles y := by
        unfold State.idles State.awake
        rw [hsame, show ({ s with regs := m, berths := bs } : State).reg .schd (halfInst (halfOf y)) 0x040 = _ from hreg (halfOf y)]
      exact if_congr (by simp [hy, hidles]) (congrArg BerthSt.asleep hsame) hsame

theorem idleGating_spec (hi : Inv s) :
    if s.stage ≠ .ready ∨ s.seq.cur ≠ none ∨ s.flt.phase ≠ .idle then exec .idleGating s = .next s
    else ∃ m bs, exec .idleGating s = .next { s with regs := m, berths := bs } ∧ ∀ y, y < 84 → ({ s with berths := bs } : State).berth y =
      if s.idles y then (s.berth y).asleep else s.berth y := by
  have hcur : s.seq.cur.isSome = true ↔ s.seq.cur ≠ none := by rw [Option.isSome_iff_ne_none]
  split
  next h => exact congrArg Host.Outcome.next (if_pos (by rwa [hcur]))
  next h =>
    obtain ⟨m, bs, e, hfold⟩ := idleGating_fold (s := s) (List.nodup_range (n := 84)) hi.berths
    refine ⟨m, bs, congrArg Host.Outcome.next ((if_neg (by rwa [hcur])).trans e), fun y hy => (hfold y).trans (if_congr ?_ rfl rfl)⟩
    simp [hy]

/-- R412, R530: a berth out of service after its BIST. -/
def BerthSt.tested (x : BerthSt) (ok : Bool) : BerthSt :=
  { x with role := if ok then x.role else .retired, storeOk := ok, store := [], held := [], holdSignal := false, badLines := [], rowErrors := [] }

theorem spareBist_spec (hi : Inv s) (b : Berth) (ok : Bool) :
    if ((s.berth b.val).role = .spare ∨ (s.berth b.val).role = .retired) ∧ s.awake b.val = true then
      ∃ m bs, exec (.spareBist b ok) s = .next { s with regs := m, berths := bs } ∧
        ({ s with berths := bs } : State).berth b.val = ((s.berth b.val).tested ok).asleep
    else exec (.spareBist b ok) s = .next s := by
  split
  next h =>
    obtain ⟨m, bs, e, -, hself, -⟩ := gateBerth_spec (s := s.setBerth b.val ((s.berth b.val).tested ok)) (Sparse.wf_set _ hi.berths) b.val
    exact ⟨m, bs, congrArg Host.Outcome.next ((if_pos h).trans e), hself.trans (congrArg BerthSt.asleep (State.berth_setBerth hi.berths))⟩
  next h => exact congrArg Host.Outcome.next (if_neg h)

end

section
/-! Zones (R411). -/

variable {s : State}

theorem retarget_setHalf (s : State) (h : Half) (x : HalfSt) :
    ∃ m, (s.setHalf h x).retarget = ({ s with regs := m } : State).setHalf h x ∧ (Sparse.wf regReset s.regs = true → Sparse.wf regReset m = true) := by
  obtain ⟨m, e, -, hm⟩ := retarget_keeps (s.setHalf h x)
  exact ⟨m, e.trans (by cases h <;> rfl), fun w => hm (by cases h <;> exact w)⟩

/-- R411: the zones of a half with a further step for one of them. -/
def HalfSt.overloaded (y : HalfSt) (z : Nat) : HalfSt := { y with zones := Sparse.insert y.zones z (max (divUp y.now) ((lookup y.zones z).getD 4)) }

theorem zoneOc_spec (hi : Inv s) (z : Fin 6) (hp : s.powered = true) :
    ∃ m f, exec (.zoneOc z) s = .next (({ s with regs := m, flt := f } : State).setHalf (zoneHalf z.val) ((s.half (zoneHalf z.val)).overloaded z.val)) ∧
      ∀ n ∈ zoneBasins z.val, (s.basin n).latched = false → ({ s with regs := m } : State).errSet .bsn n 4 = true := by
  obtain ⟨m, e, hm⟩ := retarget_setHalf s (zoneHalf z.val) ((s.half (zoneHalf z.val)).overloaded z.val)
  obtain ⟨u, hu⟩ : ∃ u, u = (s.setHalf (zoneHalf z.val) ((s.half (zoneHalf z.val)).overloaded z.val)).retarget := ⟨_, rfl⟩
  have hbasin : ∀ n, u.basin n = s.basin n := fun n => by rw [hu, e]; cases zoneHalf z.val <;> rfl
  have hw : Sparse.wf regReset u.regs = true := by rw [hu, e]; cases zoneHalf z.val <;> exact hm hi.regs
  have hrun : exec (.zoneOc z) s = .next (((zoneBasins z.val).filter (fun n => !(u.basin n).latched)).foldl (fun s n => s.raise .bsn n 4) u) :=
    hu ▸ congrArg Host.Outcome.next (if_neg (by simp [hp]))
  have hrep := Reported.foldl (fun s n => Reported.raise s .bsn n 4) ((zoneBasins z.val).filter (fun n => !(u.basin n).latched)) u
  have hset : ∀ n ∈ zoneBasins z.val, (s.basin n).latched = false →
      (((zoneBasins z.val).filter (fun n => !(u.basin n).latched)).foldl (fun s n => s.raise .bsn n 4) u).errSet .bsn n 4 = true := by
    intro n hn hl
    exact Reported.foldl_sets (fun s n => Reported.raise s .bsn n 4) hw (List.mem_filter.2 ⟨hn, by rw [hbasin, hl]; rfl⟩)
      fun t ht => errSet_raise_self (ht.wf hw) rfl (by decide)
  generalize ((zoneBasins z.val).filter (fun n => !(u.basin n).latched)).foldl (fun s n => s.raise .bsn n 4) u = v at *
  refine ⟨v.regs, v.flt, ?_, fun n hn hl => errSet_of (hset n hn hl) rfl⟩
  rw [hrun, hrep.rest, hu, e]
  cases zoneHalf z.val <;> rfl

theorem zoneOcRelease_spec (s : State) (z : Fin 6) :
    ∃ m, exec (.zoneOcRelease z) s = .next (({ s with regs := m } : State).setHalf (zoneHalf z.val)
      { s.half (zoneHalf z.val) with zones := (s.half (zoneHalf z.val)).zones.filter (fun e => e.1 ≠ z.val) }) := by
  obtain ⟨m, e, -⟩ := retarget_setHalf s (zoneHalf z.val)
    { s.half (zoneHalf z.val) with zones := (s.half (zoneHalf z.val)).zones.filter (fun e => e.1 ≠ z.val) }
  exact ⟨m, congrArg Host.Outcome.next e⟩

end

section
/-! The power controller (R415). -/

variable {s t u : State} {h : Half}

/-- R415: what one sample of the power controller may change. -/
structure Controlled (s t : State) : Prop where
  rest : t = { s with regs := t.regs, west := t.west, east := t.east, powerSteps := t.powerSteps }
  average : t.reg .schd 0 0x064 = s.reg .schd 0 0x064

theorem Controlled.refl (s : State) : Controlled s s := ⟨rfl, rfl⟩

theorem Controlled.trans (h : Controlled s t) (h' : Controlled t u) : Controlled s u := ⟨h'.rest.trans (by rw [h.rest]), h'.average.trans h.average⟩

theorem Controlled.ite {p : Prop} [Decidable p] (h : Controlled s t) (h' : Controlled s u) : Controlled s (if p then t else u) := by
  split
  · exact h
  · exact h'

theorem Controlled.retarget (s : State) : Controlled s s.retarget := by
  have one : ∀ (u : State) (w : Half) (v : Word), Controlled u (u.setReg .schd (halfInst w) 0x040 v) := fun u w v =>
    ⟨rfl, State.reg_setReg_other (by cases w <;> decide)⟩
  exact (one s .west _).trans (one _ .east _)

theorem Controlled.setHalf (s : State) (h : Half) (x : HalfSt) : Controlled s (s.setHalf h x) := by cases h <;> exact ⟨rfl, rfl⟩

theorem Controlled.askPower (s : State) (h : Half) (d : Nat) : Controlled s (s.askPower h d) := (Controlled.setHalf ..).trans (.retarget _)

theorem Controlled.setSteps (s : State) (l : List PowerStep) : Controlled s { s with powerSteps := l } := ⟨rfl, rfl⟩

theorem Controlled.powerUp (s : State) (h : Half) (n : Nat) : Controlled s (s.powerUp h n) := .ite (.refl s) ((Controlled.setSteps ..).trans (.askPower ..))

theorem askPower_halves (s : State) (h : Half) (d : Nat) :
    (s.askPower h d).half h = { s.half h with power := d, pace := 0 } ∧ (s.askPower h d).half (otherHalf h) = s.half (otherHalf h) ∧
      (s.askPower h d).powerSteps = s.powerSteps := by
  obtain ⟨m, e, -⟩ := retarget_setHalf s h { s.half h with power := d, pace := 0 }
  unfold State.askPower
  rw [e]
  cases h <;> exact ⟨rfl, rfl, rfl⟩

theorem powerUp_half (s : State) (h : Half) (n : Nat) :
    (s.powerUp h n).half h = (if 10 ≤ (s.half h).pace ∧ (s.half h).power < divUp (max (s.half h).power (s.half h).now) then
      { s.half h with power := divUp (max (s.half h).power (s.half h).now), pace := 0 } else s.half h) ∧
    (s.powerUp h n).half (otherHalf h) = s.half (otherHalf h) := by
  unfold State.powerUp
  dsimp only
  split
  next hoff => exact ⟨(if_neg (by omega)).symm, rfl⟩
  next hon =>
    obtain ⟨hself, hother, -⟩ := askPower_halves { s with powerSteps :=
      { half := h, before := (s.half h).power, div := divUp (max (s.half h).power (s.half h).now), power := n, drop := none } :: s.powerSteps } h
      (divUp (max (s.half h).power (s.half h).now))
    rw [hself, hother, if_pos (by omega)]
    cases h <;> exact ⟨rfl, rfl⟩

/-- R415: a half ten microseconds on. -/
def HalfSt.paced (x : HalfSt) : HalfSt := { x with pace := min 10 (x.pace + 1) }

/-- R415: the state in which a sample is weighed: the average is stored, and the steps that have taken effect have their drops. -/
def State.sampled (s : State) (p : PowerSample) : State :=
  State.recordDrops { s.setReg .schd 0 0x064 (putBits (s.reg .schd 0 0x064) 15 0 (min p.total1ms 65535)) with west := s.west.paced, east := s.east.paced } p.total100us

/-- R415: what a sample asks for. -/
def State.weigh (s : State) (p : PowerSample) : State :=
  if s.effCap < p.total100us then s.powerUp (if p.east100us ≤ p.west100us then .west else .east) p.total100us
  else match s.powerSteps with
    | [] => s
    | e :: rest => match e.drop with
      | none => s
      | some d => if 100 * (p.total1ms + d) < 98 * s.effCap ∧ 10 ≤ (s.half e.half).pace then ({ s with powerSteps := rest }).askPower e.half e.before else s

theorem powerControl_runs (p : PowerSample) (h : s.stage = .ready) : exec (.powerControlSample p) s = .next ((s.sampled p).weigh p) :=
  congrArg Host.Outcome.next (if_neg (not_not.2 h))

theorem sampled_half (s : State) (p : PowerSample) (h : Half) : (s.sampled p).half h = (s.half h).paced := by cases h <;> rfl

theorem sampled_effCap (s : State) (p : PowerSample) : (s.sampled p).effCap = s.effCap :=
  congrArg (fun w => min (min (bits w 15 0) 2200) (min (if s.inPackage then 1300 else 2200) s.cool.cap))
    (show (s.sampled p).reg .schd 0 0x060 = s.reg .schd 0 0x060 from State.reg_setReg_other (by decide))

theorem sampled_average (hi : Inv s) (p : PowerSample) : bits ((s.sampled p).reg .schd 0 0x064) 15 0 = min p.total1ms 65535 := by
  have h : (s.sampled p).reg .schd 0 0x064 = putBits (s.reg .schd 0 0x064) 15 0 (min p.total1ms 65535) := State.reg_setReg hi.regs
  rw [h, bits_putBits _ _ (by decide)]
  exact Nat.mod_eq_of_lt (by omega)

theorem Controlled.weigh (s : State) (p : PowerSample) : Controlled s (s.weigh p) := by
  refine .ite (.powerUp ..) ?_
  split
  · exact .refl s
  · split
    · exact .refl s
    · exact .ite ((Controlled.setSteps ..).trans (.askPower ..)) (.refl s)

/-- R415: above the cap the half with more power asks. -/
theorem weigh_above (s : State) (p : PowerSample) (h : s.effCap < p.total100us) :
    s.weigh p = s.powerUp (if p.east100us ≤ p.west100us then .west else .east) p.total100us := if_pos h

/-- R415: below it the newest step is taken back where its drop fits. -/
theorem weigh_below (s : State) (p : PowerSample) {e : PowerStep} {rest : List PowerStep} {d : Nat} (h : ¬s.effCap < p.total100us)
    (hs : s.powerSteps = e :: rest) (hd : e.drop = some d) :
    s.weigh p = if 100 * (p.total1ms + d) < 98 * s.effCap ∧ 10 ≤ (s.half e.half).pace then ({ s with powerSteps := rest }).askPower e.half e.before else s := by
  unfold State.weigh
  rw [if_neg h, hs]
  dsimp only
  rw [hd]

theorem sampled_steps (p : PowerSample) {e : PowerStep} {rest : List PowerStep} {d : Nat} (hs : s.powerSteps = e :: rest) (hd : e.drop = some d) :
    ∃ l, (s.sampled p).powerSteps = e :: l ∧ l.length = rest.length := by
  have hrun : ∃ f : PowerStep → PowerStep, (s.sampled p).powerSteps = s.powerSteps.map f ∧ f e = e := ⟨_, rfl, if_neg (by simp [hd])⟩
  obtain ⟨f, hmap, he⟩ := hrun
  exact ⟨rest.map f, by rw [hmap, hs, List.map_cons, he], List.length_map _⟩

theorem powerControl_spec (hi : Inv s) (p : PowerSample) (hr : s.stage = .ready) :
    ∃ m w e l, exec (.powerControlSample p) s = .next { s with regs := m, west := w, east := e, powerSteps := l } ∧
      bits (({ s with regs := m } : State).reg .schd 0 0x064) 15 0 = min p.total1ms 65535 ∧
      let t := ({ s with west := w, east := e } : State)
      if s.effCap < p.total100us then
        let h := if p.east100us ≤ p.west100us then Half.west else Half.east
        let y := s.half h
        t.half (otherHalf h) = (s.half (otherHalf h)).paced ∧
        t.half h = if 9 ≤ y.pace ∧ y.power < divUp (max y.power y.now) then { y with power := divUp (max y.power y.now), pace := 0 } else y.paced
      else ∀ st rest d, s.powerSteps = st :: rest → st.drop = some d →
        if 100 * (p.total1ms + d) < 98 * s.effCap ∧ 9 ≤ (s.half st.half).pace then (t.half st.half).power = st.before ∧ l.length = rest.length
        else t.half st.half = (s.half st.half).paced := by
  have hc := Controlled.weigh (s.sampled p) p
  have hhalf : ∀ h, ({ s with west := ((s.sampled p).weigh p).west, east := ((s.sampled p).weigh p).east } : State).half h =
    ((s.sampled p).weigh p).half h := fun h => by cases h <;> rfl
  have hpace : ∀ h, (10 ≤ ((s.half h).paced).pace) ↔ 9 ≤ (s.half h).pace := fun h => by simp only [HalfSt.paced]; omega
  refine ⟨_, _, _, _, (powerControl_runs p hr).trans (congrArg Host.Outcome.next hc.rest), ?_, ?_⟩
  · exact (congrArg (bits · 15 0) hc.average).trans (sampled_average hi p)
  · intro t
    split
    next hcap =>
      intro h y
      obtain ⟨hself, hother⟩ := powerUp_half (s.sampled p) h p.total100us
      rw [hhalf, hhalf, weigh_above _ _ (by rwa [sampled_effCap]), hself, hother, sampled_half, sampled_half]
      exact ⟨rfl, if_congr (and_congr (hpace h) Iff.rfl) rfl rfl⟩
    next hcap =>
      intro st rest d hs hd
      obtain ⟨l, hl, hlen⟩ := sampled_steps p hs hd
      have hfit := and_congr (Iff.refl (100 * (p.total1ms + d) < 98 * s.effCap)) (hpace st.half)
      rw [hhalf, weigh_below _ _ (by rwa [sampled_effCap]) hl hd, sampled_effCap, sampled_half]
      split
      next h =>
        rw [if_pos (hfit.2 h)]
        obtain ⟨hself, -, hsteps⟩ := askPower_halves { s.sampled p with powerSteps := l } st.half st.before
        exact ⟨congrArg HalfSt.power hself, (congrArg List.length hsteps).trans hlen⟩
      next h =>
        rw [if_neg fun e => h (hfit.1 e)]
        exact sampled_half ..

end

/-- Settles O54: a wake by its berth's state, the gatings by their conditions, a sample by the cap. -/
theorem wakesAndPower : Obligations.WakesAndPower := by
  refine ⟨by decide, fun s b hi => ?_⟩
  refine ⟨fun sum => ⟨wake_off sum, wake_spec hi sum, wakeStep_off sum, fun hw hm => ⟨wakeStep_waits hi sum hw hm, wakeStep_holds hi sum hw hm⟩⟩,
    idleGating_spec hi, spareBist_spec hi b, fun z => ⟨fun hp => congrArg Host.Outcome.next (if_pos (by simp [hp])), zoneOc_spec hi z, zoneOcRelease_spec s z⟩,
    fun p => ⟨fun h => congrArg Host.Outcome.next (if_pos h), powerControl_spec hi p⟩⟩

end Sys2Proof.Machine
end

section
/-! PROOF. Optical ports (O50): admission, the partner's check, loss, and the forwarding window. -/

namespace Sys2Proof.Machine

section
/-! What a port's record and the module's address decide (R346, R354). -/

variable {s t : State} {y z : Nat} {x : ZPort}

/-- An error leaves each register that no page's errors occupy. -/
theorem raise_reg_off {b c : Blk} {i k n o : Nat} (ho : o < 0x1000) (h : o ∉ errOffsets) (h' : o ≠ 0x54) :
    (s.raise b i n).reg c k o = s.reg c k o := by
  refine raise_reg_at ho h fun e => h' ?_
  have hk := regKey_mod (b := c) (i := k) ho
  omega

theorem zport_of (h : t.zports = s.zports) : t.zport y = s.zport y := by unfold State.zport; rw [h]

theorem reg_of {b : Blk} {i o : Nat} (h : t.regs = s.regs) : t.reg b i o = s.reg b i o := by unfold State.reg; rw [h]

theorem dark_of (h : t.berths = s.berths) : t.dark y = s.dark y := by unfold State.dark State.berth; rw [h]

/-- R226: the program that the current step runs depends on the sequence and the images. -/
theorem curProg_of (hs : t.seq = s.seq) (hi : t.images = s.images) : t.curProg = s.curProg := by
  unfold State.curProg State.image
  rw [hs, hi]

/-- R354: a port's fence depends on its record and on registers of ZLNK. -/
theorem fenced_congr (hz : t.zport y = s.zport y) (hc : t.reg .zlnk y 0x04C = s.reg .zlnk y 0x04C) (ha : t.reg .zlnk 0 0x080 = s.reg .zlnk 0 0x080)
    (ht : t.reg .zlnk 0 0x084 = s.reg .zlnk 0 0x084) : t.fenced y = s.fenced y := by
  unfold State.fenced State.address
  rw [hz, hc, ha, ht]

theorem portOpen_congr (hd : t.dark y = s.dark y) (hz : t.zport y = s.zport y) (hf : t.fenced y = s.fenced y) : t.portOpen y = s.portOpen y := by
  unfold State.portOpen portLive
  rw [hd, hz, hf]

theorem zport_raise {b : Blk} {i n : Nat} : (s.raise b i n).zport y = s.zport y := zport_of (by rw [(Reported.raise s b i n).rest])

theorem portOpen_raise {b : Blk} {i n : Nat} : (s.raise b i n).portOpen y = s.portOpen y := by
  have hz : (s.raise b i n).zport y = s.zport y := zport_raise
  refine portOpen_congr (dark_of ?_) hz (fenced_congr hz ?_ ?_ ?_)
  · rw [(Reported.raise s b i n).rest]
  all_goals exact raise_reg_off (by decide) (by decide) (by decide)

theorem portOpen_setZport_other (h : y ≠ z) : (s.setZport z x).portOpen y = s.portOpen y :=
  portOpen_congr (dark_of rfl) (State.zport_setZport_other h) (fenced_congr (State.zport_setZport_other h) (reg_of rfl) (reg_of rfl) (reg_of rfl))

theorem mem_livePorts {r : Nat} : y ∈ livePorts s r ↔ y < 84 ∧ s.portOpen y = true ∧ (s.zport y).role = r := by
  simp [livePorts]

/-- R364: the port that stands in is another open port of the role. -/
theorem standIn_spec (h : s.standIn z = some y) : y ≠ z ∧ s.portOpen y = true ∧ (s.zport y).role = (s.zport z).role := by
  obtain ⟨l, hl⟩ : ∃ l, l = (livePorts s (s.zport z).role).filter (fun y => z < y) ++ (livePorts s (s.zport z).role).filter (fun y => y < z) := ⟨_, rfl⟩
  have hmem : y ∈ l := by
    unfold State.standIn at h
    dsimp only at h
    rw [← hl] at h
    split at h
    next a t e =>
      have ha : a ∈ l.filter (fun y => halfOf y = halfOf z) := e ▸ List.mem_cons_self
      exact Option.some.inj h ▸ List.mem_of_mem_filter ha
    next => exact List.mem_of_mem_head? h
  rw [hl] at hmem
  simp only [List.mem_append, List.mem_filter, mem_livePorts, decide_eq_true_eq] at hmem
  have hlive := hmem.elim And.left And.left
  exact ⟨fun e => by omega, hlive.2⟩

end

section
/-! Admission (R344, R345). -/

variable {s : State} {z : Berth}

theorem zport_setZport_st {n : Nat} {x : ZPort} (h : x.st ≠ .down) : (s.setZport n x).zport n = x :=
  zport_setZport_new fun e => h (congrArg ZPort.st e)

/-- A port's record is written whatever registers and faults the state has. -/
theorem setZport_put (s : State) (n : Nat) (x : ZPort) (h : x.st ≠ .down) :
    ∃ zs, (∀ m f, ({ s with regs := m, flt := f } : State).setZport n x = { s with regs := m, flt := f, zports := zs }) ∧
      ({ s with zports := zs } : State).zport n = x ∧ ∀ y, y ≠ n → ({ s with zports := zs } : State).zport y = s.zport y :=
  ⟨_, fun _ _ => rfl, zport_setZport_st h, fun _ hy => State.zport_setZport_other hy⟩

/-- R345: a port that a wave moves. -/
@[reducible] def State.admitted (s : State) (v z : Nat) : Prop :=
  (s.zport z).st = .listen ∧ (s.zport z).role ≠ 15 ∧ roleWave (s.zport z).role = v ∧ s.dark z = false

theorem zport_train {x : ZPort} {n : Nat} : (s.setZport n { x with st := .train }).zport n = { x with st := .train } :=
  zport_setZport_st ZState.noConfusion

theorem admission_fold (v : Nat) {l : List Nat} (hl : l.Nodup) :
    ∃ zs, l.foldl (fun s z => if s.admitted v z then s.setZport z { s.zport z with st := .train } else s) s = { s with zports := zs } ∧
      ∀ y, ({ s with zports := zs } : State).zport y = if y ∈ l ∧ s.admitted v y then { s.zport y with st := .train } else s.zport y := by
  induction l generalizing s with
  | nil => exact ⟨s.zports, rfl, fun y => (if_neg (by simp)).symm⟩
  | cons a l ih =>
    obtain ⟨ha, hl⟩ := List.nodup_cons.1 hl
    obtain ⟨zs, e, hself, hother⟩ : ∃ zs, (if s.admitted v a then s.setZport a { s.zport a with st := .train } else s) = { s with zports := zs } ∧
        ({ s with zports := zs } : State).zport a = (if s.admitted v a then { s.zport a with st := .train } else s.zport a) ∧
        ∀ y, y ≠ a → ({ s with zports := zs } : State).zport y = s.zport y := by
      split
      · exact ⟨_, rfl, zport_train, fun y hy => State.zport_setZport_other hy⟩
      · exact ⟨s.zports, rfl, rfl, fun _ _ => rfl⟩
    obtain ⟨zs', e', hfold⟩ := ih hl (s := { s with zports := zs })
    refine ⟨zs', by rw [List.foldl_cons, e, e'], fun y => (hfold y).trans ?_⟩
    by_cases hy : y = a
    · subst hy
      rw [if_neg fun h => ha h.1]
      refine hself.trans (if_congr ?_ rfl rfl)
      simp
    · have hsame := hother y hy
      have hadm : ({ s with zports := zs } : State).admitted v y ↔ s.admitted v y := by
        unfold State.admitted
        rw [hsame]
        rfl
      exact if_congr (by simp [hy, hadm]) (congrArg (fun x : ZPort => { x with st := .train }) hsame) hsame

theorem admissionWave_spec (s : State) (v : Fin 14) :
    if s.stage ≠ .optical ∧ s.stage ≠ .ready then exec (.admissionWave v) s = .next s
    else ∃ zs, exec (.admissionWave v) s = .next { s with zports := zs } ∧ ∀ y, y < 84 →
      ({ s with zports := zs } : State).zport y = if s.admitted v.val y then { s.zport y with st := .train } else s.zport y := by
  split
  next h => exact congrArg Host.Outcome.next (if_pos (by simpa using h))
  next h =>
    obtain ⟨zs, e, hfold⟩ := admission_fold (s := s) v.val (List.nodup_range (n := 84))
    refine ⟨zs, congrArg Host.Outcome.next ((if_neg (by simpa using h)).trans e), fun y hy => (hfold y).trans (if_congr ?_ rfl rfl)⟩
    simp [hy]

/-- R343, R346: what the module says of a port, whose retired lane is `r`. -/
def State.saidOf (s : State) (z : Nat) (r : Option Nat) : CtlMsg := .ident {
  addr := BitVec.ofNat 15 (s.address.getD 0), role := BitVec.ofNat 4 (s.zport z).role, index := BitVec.ofNat 3 (s.zport z).index
  tenant := (s.reg .zlnk 0 0x084).setWidth 16, retired := r.map (Fin.ofNat 8) }

/-- R344: a port enters CHECK and its IDENT leaves. -/
theorem checks_spec (s : State) (n : Nat) (r : Option Nat) :
    let x : ZPort := { s.zport n with st := .check, retired := r, unacked := 0, waiting := [] }
    ∃ zs, (s.setZport n x).sendIdent n = { s with zports := zs, portOut := s.portOut ++ [(n, s.saidOf n r)] } ∧
      ({ s with zports := zs } : State).zport n = { x with unacked := 1 } := by
  intro x
  have hz : (s.setZport n x).zport n = x := zport_setZport_st ZState.noConfusion
  have hsaid : CtlMsg.ident ((s.setZport n x).identOf n) = s.saidOf n r := by
    unfold State.identOf
    rw [hz]
    rfl
  have hsend : (s.setZport n x).sendIdent n = ({ s.setZport n x with portOut := s.portOut ++ [(n, s.saidOf n r)] } : State).setZport n { x with unacked := 1 } := by
    unfold State.sendIdent State.sendCtl
    dsimp only
    rw [hsaid, hz, if_neg (by simp [crossesFence, State.saidOf]), if_neg (by simp [x])]
    rfl
  exact ⟨_, hsend, zport_setZport_st (s := s.setZport n x) ZState.noConfusion⟩

theorem laneLock_spec (s : State) (z : Berth) :
    let x := s.zport z.val
    let w := s.reg .zlnk z.val 0x04C
    if x.st = .train ∧ s.dark z.val = false then
      let r := if bit w 3 then some (bits w 2 0) else none
      ∃ zs, exec (.laneLock z) s = .next { s with zports := zs, portOut := s.portOut ++ [(z.val, s.saidOf z.val r)] } ∧
        ({ s with zports := zs } : State).zport z.val = { x with st := .check, retired := r, unacked := 1, waiting := [] }
    else exec (.laneLock z) s = .next s := by
  intro x w
  split
  next h =>
    intro r
    obtain ⟨zs, e, hz⟩ := checks_spec s z.val r
    exact ⟨zs, congrArg Host.Outcome.next ((if_pos h).trans e), hz⟩
  next h => exact congrArg Host.Outcome.next (if_neg h)

theorem checkRetry_spec (s : State) (z : Berth) :
    let x := s.zport z.val
    if x.st = .miscabled then ∃ zs, exec (.checkRetry z) s = .next { s with zports := zs, portOut := s.portOut ++ [(z.val, s.saidOf z.val x.retired)] } ∧
        ({ s with zports := zs } : State).zport z.val = { x with st := .check, unacked := 1, waiting := [] }
    else exec (.checkRetry z) s = .next s := by
  intro x
  split
  next h =>
    obtain ⟨zs, e, hz⟩ := checks_spec s z.val x.retired
    exact ⟨zs, congrArg Host.Outcome.next ((if_pos h).trans e), hz⟩
  next h => exact congrArg Host.Outcome.next (if_neg h)

theorem partnerOk_of {t : State} {n : Nat} {p : PartnerIdent} (ha : t.address = s.address) (hz : t.zport n = s.zport n) : t.partnerOk n p = s.partnerOk n p := by
  unfold State.partnerOk
  rw [ha, hz]

/-- R346: the check of a partner does not read the delay. -/
theorem partnerOk_delay (s : State) (z : Nat) (v : Word) (p : PartnerIdent) : (s.setReg .zlnk z 0x050 v).partnerOk z p = s.partnerOk z p := by
  have ha : (s.setReg .zlnk z 0x050 v).address = s.address := by
    unfold State.address
    rw [State.reg_setReg_other fun e => ?_]
    have h1 := regKey_mod (b := .zlnk) (i := 0) (o := 0x080) (by decide)
    have h2 := regKey_mod (b := .zlnk) (i := z) (o := 0x050) (by decide)
    omega
  exact partnerOk_of ha (zport_of (State.setReg_zports ..))

theorem ident_off (p : PartnerIdent) (d : BitVec 16) (h : (s.zport z.val).st ≠ .check ∨ s.dark z.val = true) : exec (.ident z p d) s = .next s :=
  congrArg Host.Outcome.next (if_pos h)

/-- R360: a port that has come UP with a partner. -/
def ZPort.joined (x : ZPort) (p : PartnerIdent) : ZPort :=
  { x with st := .up, partner := some p, base := 0, unacked := 0, rseq := 0, waiting := [], flitFails := 0, held := [], credits := fullCredits }

theorem ident_runs (p : PartnerIdent) (d : BitVec 16) (hc : (s.zport z.val).st = .check) (hd : s.dark z.val = false) :
    exec (.ident z p d) s = .next
      (let u := s.setReg .zlnk z.val 0x050 (field d.toNat 0)
       if u.partnerOk z.val p then u.setZport z.val ((s.zport z.val).joined p)
       else (u.setZport z.val { s.zport z.val with st := .miscabled, partner := some p }).raise .zlnk z.val 4) :=
  congrArg Host.Outcome.next (if_neg (by simp [hc, hd]))

/-- R346, R357, R360: IDENT in CHECK. -/
theorem ident_spec (hi : Inv s) (p : PartnerIdent) (d : BitVec 16) (hc : (s.zport z.val).st = .check) (hd : s.dark z.val = false) :
    let x := s.zport z.val
    ∃ m f zs, exec (.ident z p d) s = .next { s with regs := m, flt := f, zports := zs } ∧ ({ s with regs := m } : State).reg .zlnk z.val 0x050 = field d.toNat 0 ∧
      if s.partnerOk z.val p = true then f = s.flt ∧ ({ s with zports := zs } : State).zport z.val = x.joined p
      else ({ s with regs := m } : State).errSet .zlnk z.val 4 = true ∧
        ({ s with zports := zs } : State).zport z.val = { x with st := .miscabled, partner := some p } := by
  intro x
  have hrun := ident_runs p d hc hd
  have hread := State.reg_setReg (b := .zlnk) (inst := z.val) (off := 0x050) (v := field d.toNat 0) hi.regs
  have hok := partnerOk_delay s z.val (field d.toNat 0) p
  obtain ⟨m, e, hm⟩ := setReg_wf .zlnk z.val 0x050 (field d.toNat 0) hi.regs
  dsimp only at hrun
  rw [hok, e] at hrun
  rw [e] at hread
  split
  next h =>
    obtain ⟨zs, hput, hz, -⟩ := setZport_put s z.val (x.joined p) ZState.noConfusion
    exact ⟨m, s.flt, zs, (hrun.trans (congrArg Host.Outcome.next (if_pos h))).trans (congrArg Host.Outcome.next (hput m s.flt)), hread, rfl, hz⟩
  next h =>
    obtain ⟨zs, hput, hz, -⟩ := setZport_put s z.val { x with st := .miscabled, partner := some p } ZState.noConfusion
    rw [if_neg h, hput m s.flt] at hrun
    obtain ⟨m', f, hraise, hset⟩ := raise_any (s := { s with regs := m, zports := zs }) (b := .zlnk) (i := z.val) (n := 4) hm rfl (by decide)
    have hkept : (State.raise { s with regs := m, zports := zs } .zlnk z.val 4).reg .zlnk z.val 0x050 = _ := raise_reg_off (by decide) (by decide) (by decide)
    rw [hraise] at hrun hkept
    exact ⟨m', f, zs, hrun, hkept.trans hread, errSet_of hset rfl, hz⟩

end

section
/-! A port leaves UP (R362, R364). -/

variable {s t u : State} {z : Nat}

/-- R362: a port that has left UP. -/
def ZPort.lost (x : ZPort) : ZPort :=
  { x with st := .train, partner := none, base := 0, unacked := 0, rseq := 0, waiting := [], flitFails := 0, held := [], credits := [] }

/-- R364: the port that stands in for a lost one. -/
def ZPort.standBy (x : ZPort) (r : Option Nat) : ZPort := { x with remap := r }

/-- R362: a port that trains, without partner or credits, goes on so. -/
structure Trains (z : Nat) (s t : State) : Prop where
  keep : (s.zport z).st = .train ∧ (s.zport z).partner = none ∧ (s.zport z).credits = [] →
    (t.zport z).st = .train ∧ (t.zport z).partner = none ∧ (t.zport z).credits = []

theorem Trains.same (h : t.zport z = s.zport z) : Trains z s t := ⟨fun hs => h ▸ hs⟩

theorem Trains.trans (h : Trains z s t) (h' : Trains z t u) : Trains z s u := ⟨h'.keep ∘ h.keep⟩

theorem Trains.raise (s : State) (b : Blk) (i n : Nat) : Trains z s (s.raise b i n) := .same zport_raise

theorem Trains.sliceFailed (s : State) (b : Bool) : Trains z s { s with sliceFailed := b } := .same (zport_of rfl)

theorem Trains.failRequest (s : State) (p : Packet) : Trains z s (s.failRequest p) := by
  obtain ⟨d, e, -⟩ := failRequest_only s p
  exact .same (zport_of (by rw [e]))

theorem Trains.reroute (s : State) (p : Packet) : Trains z s (s.reroute p) := by
  unfold State.reroute
  split
  · exact .same (zport_of rfl)
  · exact ((Trains.same (s := s) (t := s.dropPacket p.id) (zport_of rfl)).trans (.raise _ .zlnk p.target 6)).trans (.failRequest _ p)

/-- What leaves by a port changes its window alone. -/
theorem zport_sendCtl_train {y : Nat} {m : CtlMsg} (h : (s.zport z).st = .train) : ∃ a w, (s.sendCtl y m).zport z = { s.zport z with unacked := a, waiting := w } := by
  by_cases hy : z = y
  · subst hy
    have hnew : ∀ (u : State) a w, (u.setZport z { s.zport z with unacked := a, waiting := w }).zport z = { s.zport z with unacked := a, waiting := w } :=
      fun u a w => zport_setZport_st fun e => ZState.noConfusion (h.symm.trans e)
    unfold State.sendCtl
    dsimp only
    split
    · exact ⟨_, _, rfl⟩
    · split
      · exact ⟨_, _, hnew ..⟩
      · exact ⟨_, _, hnew ..⟩
  · exact ⟨_, _, zport_sendCtl_other hy⟩

theorem Trains.sendUp (s : State) (m : SliceMsg) : Trains z s (s.sendUp m) := by
  refine ⟨fun h => ?_⟩
  unfold State.sendUp State.sendEdge
  split
  · split
    · obtain ⟨a, w, e⟩ := zport_sendCtl_train h.1
      rw [e]
      exact h
    · exact h
  · exact h

/-- R362: a port that leaves UP, before its packets take other ways. -/
def State.losing (s : State) (z : Nat) : State := (s.setZport z (s.zport z).lost).raise .zlnk z 2

theorem losing_spec (hw : Sparse.wf regReset s.regs = true) (z : Nat) :
    ∃ m f zs, s.losing z = { s with regs := m, flt := f, zports := zs } ∧ ({ s with regs := m } : State).errSet .zlnk z 2 = true ∧
      ({ s with zports := zs } : State).zport z = (s.zport z).lost ∧ ∀ y, y ≠ z → ({ s with zports := zs } : State).zport y = s.zport y := by
  obtain ⟨zs, hput, hz, hother⟩ := setZport_put s z (s.zport z).lost ZState.noConfusion
  obtain ⟨m, f, hraise, hset⟩ := raise_any (s := { s with zports := zs }) (b := .zlnk) (i := z) (n := 2) hw rfl (by decide)
  exact ⟨m, f, zs, (congrArg (State.raise · .zlnk z 2) (hput s.regs s.flt)).trans hraise, errSet_of hset rfl, hz, hother⟩

theorem zport_losing (s : State) (z : Nat) : (s.losing z).zport z = (s.zport z).lost := zport_raise.trans (zport_setZport_st ZState.noConfusion)

/-- R364: the packets of a lost port have gone other ways, and another port stands in. -/
def State.standingIn (s : State) (z : Nat) : State :=
  let s := (s.packets.filter (leavesBy z)).foldl State.reroute s
  s.setZport z ((s.zport z).standBy (s.standIn z))

theorem leaveUp_runs (h : (s.zport z).st = .up) :
    let u := ((s.losing z).packets.filter (leavesBy z)).foldl State.reroute (s.losing z)
    s.leaveUp z = if u.scheduledOver z then
      (State.raise { (s.losing z).standingIn z with sliceFailed := ((s.losing z).standingIn z).sliceFailed || (u.standIn z).isNone } .zlnk z 3).sendUp .fault
      else (s.losing z).standingIn z := if_neg (not_not.2 h)

theorem Trains.standingIn (s : State) (z : Nat) : Trains z s (s.standingIn z) := by
  have hfold : Trains z s ((s.packets.filter (leavesBy z)).foldl State.reroute s) := foldl_rel (fun _ => .same rfl) .trans (fun s p => .reroute s p) _ s
  refine ⟨fun hs => ?_⟩
  obtain ⟨hst, hp, hc⟩ := hfold.keep hs
  unfold State.standingIn
  dsimp only
  generalize (s.packets.filter (leavesBy z)).foldl State.reroute s = u at *
  rw [zport_setZport_st (x := (u.zport z).standBy (u.standIn z)) fun e => ZState.noConfusion (hst.symm.trans e)]
  exact ⟨hst, hp, hc⟩

theorem leaveUp_trains (h : (s.zport z).st = .up) :
    ((s.leaveUp z).zport z).st = .train ∧ ((s.leaveUp z).zport z).partner = none ∧ ((s.leaveUp z).zport z).credits = [] := by
  have hlost := zport_losing s z
  have hstands := (Trains.standingIn (s.losing z) z).keep (by rw [hlost]; exact ⟨rfl, rfl, rfl⟩)
  rw [leaveUp_runs h]
  dsimp only
  split
  · exact (((Trains.sliceFailed ..).trans (.raise ..)).trans (.sendUp ..)).keep hstands
  · exact hstands

/-- R364: the slots of the running program cross a lost port as they did before. -/
theorem scheduledOver_losing (s : State) (z : Nat) : (s.losing z).scheduledOver z = s.scheduledOver z := by
  have hremap : ∀ y, ((s.losing z).zport y).remap = (s.zport y).remap := by
    intro y
    by_cases hy : y = z
    · subst hy
      rw [zport_losing]
      rfl
    · exact congrArg ZPort.remap (zport_raise.trans (State.zport_setZport_other hy))
  have hrest : (s.losing z).coresMode = s.coresMode ∧ (s.losing z).curProg = s.curProg ∧ (s.losing z).seq = s.seq := by
    unfold State.losing
    rw [(Reported.raise (s.setZport z (s.zport z).lost) .zlnk z 2).rest]
    exact ⟨rfl, curProg_of rfl rfl, rfl⟩
  obtain ⟨hmode, hprog, hseq⟩ := hrest
  unfold State.scheduledOver
  simp only [hmode, hprog, hseq, hremap]

/-- R362: loss of a port with no traffic on it. -/
theorem leaveUp_quiet (hi : Inv s) (h : (s.zport z).st = .up) (hp : ∀ p ∈ s.packets, leavesBy z p = false) (hs : s.scheduledOver z = false) :
    ∃ m f zs, s.leaveUp z = { s with regs := m, flt := f, zports := zs } ∧ ({ s with regs := m } : State).errSet .zlnk z 2 = true ∧
      ∃ r, ({ s with zports := zs } : State).zport z = (s.zport z).lost.standBy r ∧
        ∀ y, r = some y → y ≠ z ∧ s.portOpen y = true ∧ (s.zport y).role = (s.zport z).role := by
  have hover := (scheduledOver_losing s z).trans hs
  have hopen : ∀ y, y ≠ z → (s.losing z).portOpen y = s.portOpen y := fun y hy => portOpen_raise.trans (portOpen_setZport_other hy)
  obtain ⟨m, f, zs, e, hset, hz, hother⟩ := losing_spec hi.regs z
  have hrun := leaveUp_runs h
  unfold State.standingIn at hrun
  rw [e] at hrun hover hopen
  dsimp only at hrun
  rw [List.filter_eq_nil_iff.2 fun p hmem => by simp [hp p hmem], List.foldl_nil, hover, if_neg Bool.false_ne_true] at hrun
  obtain ⟨r, hr⟩ : ∃ r, r = State.standIn { s with regs := m, flt := f, zports := zs } z := ⟨_, rfl⟩
  have hzu : ({ s with regs := m, flt := f, zports := zs } : State).zport z = (s.zport z).lost := hz
  obtain ⟨zs', hput, hz', -⟩ := setZport_put { s with zports := zs } z ((s.zport z).lost.standBy r) ZState.noConfusion
  refine ⟨m, f, zs', ?_, hset, r, hz', fun y hy => ?_⟩
  · rw [hrun, ← hr, hzu]
    exact hput m f
  · obtain ⟨hne, ho, hrole⟩ := standIn_spec (hr.symm.trans hy)
    have hy : ({ s with regs := m, flt := f, zports := zs } : State).zport y = s.zport y := hother y hne
    exact ⟨hne, (hopen y hne).symm.trans ho, by rw [← hy, hrole, hzu]; rfl⟩

end

section
/-! What a port receives (R339, R354, R363). -/

variable {s : State} {z : Berth} {n : Nat} {f : State → State}

theorem fromPort_closed (h : portLive s z.val = false) : s.fromPort z.val n f = s := if_pos (by simp [h])

theorem fromPort_fenced (hi : Inv s) (h : portLive s z.val = true) (hf : s.fenced z.val = true) :
    ∃ m g, s.fromPort z.val n f = { s.received z.val n with regs := m, flt := g } ∧ ({ s with regs := m } : State).errSet .zlnk z.val 5 = true := by
  obtain ⟨p, o, e⟩ := received_only s z.val n
  obtain ⟨m, g, hraise, hset⟩ := raise_any (s := s.received z.val n) (b := .zlnk) (i := z.val) (n := 5) (by rw [e]; exact hi.regs) rfl (by decide)
  exact ⟨m, g, ((if_neg (by simp [h])).trans (if_pos hf)).trans hraise, errSet_of hset rfl⟩

theorem fromPort_open (h : portLive s z.val = true) (hf : s.fenced z.val = false) : s.fromPort z.val n f = f (s.received z.val n) :=
  (if_neg (by simp [h])).trans (if_neg (by simp [hf]))

theorem goingDown_spec (hi : Inv s) (z : Berth) :
    if portLive s z.val = false then exec (.goingDown z) s = .next s
    else if s.fenced z.val = true then ∃ m f, exec (.goingDown z) s = .next { s.received z.val 1 with regs := m, flt := f } ∧
      ({ s with regs := m } : State).errSet .zlnk z.val 5 = true
    else exec (.goingDown z) s = exec (.lossOfSignal z) (s.received z.val 1) := by
  split
  next h => exact congrArg Host.Outcome.next (fromPort_closed h)
  next h =>
    rw [Bool.not_eq_false] at h
    split
    next hf =>
      obtain ⟨m, g, e, hset⟩ := fromPort_fenced hi (n := 1) (f := fun s => s.leaveUp z.val) h hf
      exact ⟨m, g, congrArg Host.Outcome.next e, hset⟩
    next hf => exact congrArg Host.Outcome.next (fromPort_open h (Bool.not_eq_true _ ▸ hf))

theorem berHigh_spec (hi : Inv s) (z : Berth) :
    if portLive s z.val = false then exec (.berHigh z) s = .next s
    else ∃ m f, exec (.berHigh z) s = .next { s with regs := m, flt := f } ∧ ({ s with regs := m } : State).errSet .zlnk z.val 8 = true := by
  split
  next h => exact congrArg Host.Outcome.next (if_neg (by simp [h]))
  next h =>
    obtain ⟨m, g, e, hset⟩ := raise_any (s := s) (b := .zlnk) (i := z.val) (n := 8) hi.regs rfl (by decide)
    exact ⟨m, g, congrArg Host.Outcome.next ((if_pos (Bool.not_eq_false _ ▸ h)).trans e), hset⟩

/-- R363: the packets that the module still holds are discarded. -/
theorem forwardWindowEnd_spec (h : s.forwarding = true) :
    ∃ t, exec .forwardWindowEnd s = .next t ∧ t.forwarding = false ∧ ((∀ p ∈ s.packets, p.h.dst.toNat ≠ dstOptical) → t = { s with forwarding := false }) := by
  refine ⟨_, congrArg Host.Outcome.next (if_neg (by simp [h])), ?_, fun hp => ?_⟩
  · refine foldl_same State.forwarding (fun t p => ?_) _ _
    obtain ⟨d, e, -⟩ := failRequest_only (t.dropPacket p.id) p
    rw [e]
    rfl
  · rw [List.filter_eq_nil_iff.2 fun p hmem => by simpa using hp p hmem]
    rfl

end

/-- Settles O50: each event of a port by the state in which it finds the port. -/
theorem opticalPorts : Obligations.OpticalPorts := by
  intro s z hi x w said
  refine ⟨rfl, rfl, fun _ => rfl, rfl, admissionWave_spec s, laneLock_spec s z, checkRetry_spec s z, fun p d => ⟨ident_off p d, ident_spec hi p d⟩,
    ⟨fun h => congrArg Host.Outcome.next (if_pos h), fun h => ⟨_, rfl, leaveUp_trains h⟩, fun h hp hs => ?_⟩, goingDown_spec hi z, berHigh_spec hi z,
    fun h => congrArg Host.Outcome.next (if_pos (by simp [h])), forwardWindowEnd_spec⟩
  obtain ⟨m, f, zs, e, hset, hr⟩ := leaveUp_quiet hi h hp hs
  exact ⟨m, f, zs, congrArg Host.Outcome.next e, hset, hr⟩

end Sys2Proof.Machine
end

section
/-! PROOF. Optical traffic (O51): what a port receives and acknowledges, packets, generation changes and the barrier's messages. -/

namespace Sys2Proof.Machine

section
/-! What a port has received in order (R339). -/

variable {s t : State} {y z n : Nat}

/-- R339, R354: from one state to the other an unfenced port in UP has acknowledged what it received. -/
structure Heard (z : Nat) (s t : State) : Prop where
  rest : t = { s with zports := t.zports, portOut := t.portOut }
  self : ∃ r a w, t.zport z = { s.zport z with rseq := r, flitFails := 0, unacked := a, waiting := w } ∧
    ((s.zport z).unacked < 4095 → (s.zport z).waiting = [] → a = (s.zport z).unacked + 1 ∧ w = [])
  other : ∀ y, y ≠ z → t.zport y = s.zport y

theorem live_up (h : portLive s z = true) : (s.zport z).st = .up := by
  unfold portLive at h
  simp only [Bool.and_eq_true, beq_iff_eq] at h
  exact h.2

/-- R339: a flit that leaves while the window has room. -/
theorem received_room (hu : (s.zport z).st = .up) (ha : (s.zport z).unacked < 4095) (hw : (s.zport z).waiting = []) (n : Nat) :
    ∃ zs, s.received z n = { s with zports := zs, portOut := s.portOut ++ [(z, .ack ((((s.zport z).rseq + n) % 4096 + 4095) % 4096))] } ∧
      ({ s with zports := zs } : State).zport z =
        { s.zport z with rseq := ((s.zport z).rseq + n) % 4096, flitFails := 0, unacked := (s.zport z).unacked + 1 } ∧
      ∀ y, y ≠ z → ({ s with zports := zs } : State).zport y = s.zport y := by
  have hst : ∀ (x : ZPort), x.st = (s.zport z).st → x.st ≠ .down := fun x hx e => ZState.noConfusion (hu.symm.trans (hx.symm.trans e))
  obtain ⟨zs, hput, hz, hother⟩ := setZport_put s z { s.zport z with rseq := ((s.zport z).rseq + n) % 4096, flitFails := 0 } (hst _ rfl)
  obtain ⟨zs', hput', hz', hother'⟩ := setZport_put { s with zports := zs } z
    { s.zport z with rseq := ((s.zport z).rseq + n) % 4096, flitFails := 0, unacked := (s.zport z).unacked + 1 } (hst _ rfl)
  refine ⟨zs', ?_, hz', fun y hy => (hother' y hy).trans (hother y hy)⟩
  unfold State.received
  dsimp only
  rw [show s.setZport z { s.zport z with rseq := ((s.zport z).rseq + n) % 4096, flitFails := 0 } = { s with zports := zs } from hput s.regs s.flt]
  unfold State.sendCtl
  dsimp only
  rw [hz, if_neg (by simp [crossesFence]), if_neg (by simp [hw]; omega)]
  exact congrArg (fun u : State => { u with portOut := s.portOut ++ [(z, CtlMsg.ack ((((s.zport z).rseq + n) % 4096 + 4095) % 4096))] }) (hput' s.regs s.flt)

theorem heard_received (hu : (s.zport z).st = .up) (n : Nat) : Heard z s (s.received z n) := by
  by_cases hroom : (s.zport z).unacked < 4095 ∧ (s.zport z).waiting = []
  · obtain ⟨zs, e, hz, hother⟩ := received_room hu hroom.1 hroom.2 n
    rw [e]
    exact ⟨rfl, ⟨_, _, _, hz, fun _ _ => ⟨rfl, hroom.2⟩⟩, hother⟩
  · have hst : ∀ (x : ZPort), x.st = (s.zport z).st → x.st ≠ .down := fun x hx e => ZState.noConfusion (hu.symm.trans (hx.symm.trans e))
    obtain ⟨zs, hput, hz, hother⟩ := setZport_put s z { s.zport z with rseq := ((s.zport z).rseq + n) % 4096, flitFails := 0 } (hst _ rfl)
    obtain ⟨zs', hput', hz', hother'⟩ := setZport_put { s with zports := zs } z
      { s.zport z with rseq := ((s.zport z).rseq + n) % 4096, flitFails := 0,
                       waiting := insCtl (.ack ((((s.zport z).rseq + n) % 4096 + 4095) % 4096)) (s.zport z).waiting } (hst _ rfl)
    have e : s.received z n = { s with zports := zs' } := by
      unfold State.received
      dsimp only
      rw [show s.setZport z { s.zport z with rseq := ((s.zport z).rseq + n) % 4096, flitFails := 0 } = { s with zports := zs } from hput s.regs s.flt]
      unfold State.sendCtl
      dsimp only
      rw [hz, if_neg (by simp [crossesFence]), if_pos (by rw [not_and_or, not_lt] at hroom; exact hroom)]
      exact hput' s.regs s.flt
    rw [e]
    exact ⟨rfl, ⟨_, _, _, hz', fun ha hw => absurd ⟨ha, hw⟩ hroom⟩, fun y hy => (hother' y hy).trans (hother y hy)⟩

theorem Heard.role (h : Heard z s t) (y : Nat) : (t.zport y).role = (s.zport y).role := by
  by_cases hy : y = z
  · obtain ⟨r, a, w, e, -⟩ := h.self
    rw [hy, e]
  · rw [h.other y hy]

theorem Heard.regs (h : Heard z s t) : t.regs = s.regs := by rw [h.rest]

theorem Heard.gen (h : Heard z s t) : t.gen = s.gen := by rw [h.rest]

theorem Heard.opens (h : Heard z s t) (y : Nat) : t.portOpen y = s.portOpen y ∧ t.fenced y = s.fenced y := by
  by_cases hy : y = z
  · obtain ⟨r, a, w, e, -⟩ := h.self
    have hf : t.fenced z = s.fenced z := by
      unfold State.fenced State.address
      rw [e, reg_of h.regs, reg_of h.regs, reg_of h.regs]
    have hd : t.dark z = s.dark z := dark_of (by rw [h.rest])
    rw [hy]
    refine ⟨?_, hf⟩
    unfold State.portOpen portLive
    rw [hf, hd, e]
  · have hf := fenced_congr (h.other y hy) (reg_of h.regs) (reg_of h.regs) (reg_of h.regs)
    exact ⟨portOpen_congr (dark_of (by rw [h.rest])) (h.other y hy) hf, hf⟩

theorem Heard.openPorts (h : Heard z s t) : t.openPorts = s.openPorts := congrArg (fun f => List.filter f (List.range 84)) (funext fun y => (h.opens y).1)

theorem Heard.parentRole (h : Heard z s t) : t.parentRole = s.parentRole := by rw [h.rest]; rfl

theorem Heard.childRoles (h : Heard z s t) : t.childRoles = s.childRoles := by rw [h.rest]; rfl

theorem Heard.only (h : Heard z s t) {u : State} {v : GenSt} (hu : ∃ p o, u = { t with gen := v, zports := p, portOut := o }) :
    ∃ zs po, u = { s with gen := v, zports := zs, portOut := po } := by
  obtain ⟨p, o, e⟩ := hu
  exact ⟨p, o, e.trans (by rw [h.rest])⟩

/-- R342: the port's window has room for two messages before it has acknowledged. -/
theorem Heard.room (h : Heard z s t) (hu : (s.zport z).unacked < 4094) (hw : (s.zport z).waiting = []) : (t.zport z).unacked < 4095 ∧ (t.zport z).waiting = [] := by
  obtain ⟨r, a, w, e, hroom⟩ := h.self
  obtain ⟨ha, hwait⟩ := hroom (by omega) hw
  rw [e]
  exact ⟨by dsimp only; omega, hwait⟩

end

section
/-! Codewords, flits, acknowledgements and credits (R337–R339, R360). -/

variable {s : State} {z : Berth}

/-- R354: a message of one flit at a port that is not open. -/
theorem messages_refused (hi : Inv s) {c : Instr} {n : Nat} {f : State → State} (h : exec c s = .next (s.fromPort z.val n f)) :
    (portLive s z.val = false → exec c s = .next s) ∧
      (portLive s z.val = true → s.fenced z.val = true → ∃ m f, exec c s = .next { s.received z.val n with regs := m, flt := f } ∧
        ({ s with regs := m } : State).errSet .zlnk z.val 5 = true) := by
  refine ⟨fun hl => h.trans (congrArg Host.Outcome.next (fromPort_closed hl)), fun hl hf => ?_⟩
  obtain ⟨m, g, e, hset⟩ := fromPort_fenced hi (n := n) (f := f) hl hf
  exact ⟨m, g, h.trans (congrArg Host.Outcome.next e), hset⟩

/-- R337, R367: the counts that a received codeword leaves. -/
def State.codewordSeen (s : State) (z : Nat) (w : List Nat) : State := match rsDecode w with
  | none => s.countSat .zlnk z 0x054 7 0
  | some v => if v = w then s else (s.countSat .zlnk z 0x054 31 8).raise .zlnk z 0

theorem zport_codewordSeen (s : State) (n : Nat) (w : List Nat) (y : Nat) : (s.codewordSeen n w).zport y = s.zport y := by
  unfold State.codewordSeen
  split
  · exact zport_of (State.setReg_zports ..)
  · split
    · rfl
    · exact zport_raise.trans (zport_of (State.setReg_zports ..))

theorem flitReplay_runs (z : Berth) (word : List (BitVec 10)) (frame : List Byte) (h : portLive s z.val = true) :
    let w := word.map BitVec.toNat
    exec (.flitReplay z word frame) s = .next (if rsDecode w ≠ none ∧ (frameGood frame = true ∨ frameClass frame = 2) then s.codewordSeen z.val w
      else (s.codewordSeen z.val w).flitFailed z.val) := by
  intro w
  refine congrArg Host.Outcome.next ((if_neg (by simp [h])).trans ?_)
  unfold State.codewordSeen
  change (match rsDecode w with
    | none => _
    | some v => _) = _
  cases rsDecode w with
  | none => exact (if_neg (by simp)).symm
  | some v => exact if_congr (by simp) rfl rfl

theorem flitReplay_fails (z : Berth) (word : List (BitVec 10)) (frame : List Byte) (h : portLive s z.val = true)
    (hs : ¬(rsDecode (word.map BitVec.toNat) ≠ none ∧ (frameGood frame = true ∨ frameClass frame = 2))) :
    let t := s.codewordSeen z.val (word.map BitVec.toNat)
    ((s.zport z.val).flitFails < 4 → exec (.flitReplay z word frame) s =
      .next (((t.setZport z.val { s.zport z.val with flitFails := (s.zport z.val).flitFails + 1 }).countSat .zlnk z.val 0x058 15 0).raise .zlnk z.val 1)) ∧
    (4 ≤ (s.zport z.val).flitFails → exec (.flitReplay z word frame) s = exec (.lossOfSignal z) t) := by
  intro t
  have hrun := (flitReplay_runs z word frame h).trans (congrArg Host.Outcome.next (if_neg hs))
  have hz := zport_codewordSeen s z.val (word.map BitVec.toNat) z.val
  unfold State.flitFailed at hrun
  dsimp only at hrun
  rw [hz] at hrun
  exact ⟨fun hf => hrun.trans (congrArg Host.Outcome.next (if_neg (by omega))), fun hf => hrun.trans (congrArg Host.Outcome.next (if_pos (by omega)))⟩

theorem dropPackets (l : List (Nat × Nat)) (s : State) :
    l.foldl (fun s e => s.dropPacket e.1) s = { s with packets := s.packets.filter (fun p => !(l.any (fun e => e.1 == p.id))) } := by
  induction l generalizing s with
  | nil => simp
  | cons a l ih =>
    rw [List.foldl_cons, ih]
    unfold State.dropPacket
    dsimp only
    rw [List.filter_filter]
    refine congrArg (fun m : List Packet => ({ s with packets := m } : State)) (List.filter_congr fun p _ => ?_)
    rw [List.any_cons, Bool.not_or, Bool.and_comm]
    refine congrArg (· && _) ?_
    by_cases hp : p.id = a.1
    · simp [hp]
    · simp [hp, Ne.symm hp]

/-- R339: an ACK by the flits that it names. -/
theorem ack_spec (s : State) (z : Berth) (q : BitVec 12) :
    let x := s.zport z.val
    let n := (q.toNat + 4097 - x.base) % 4096
    let r := (x.rseq + 1) % 4096
    if portLive s z.val = false then exec (.ack z q) s = .next s
    else if n = 0 ∨ x.unacked < n then exec (.ack z q) s = .next (s.setZport z.val { x with rseq := r, flitFails := 0 })
    else exec (.ack z q) s = .next (State.sendWaiting { s.setZport z.val { x with
        base := (x.base + n) % 4096, unacked := x.unacked - n, rseq := r, flitFails := 0
        held := (x.held.filter (fun e => n < e.2)).map (fun e => (e.1, e.2 - n)) } with
      packets := s.packets.filter (fun p => !(x.held.any (fun e => decide (e.2 ≤ n) && e.1 == p.id))) } z.val) := by
  intro x n r
  split
  next h => exact congrArg Host.Outcome.next (if_pos (by simp [h]))
  next h =>
    split
    next hn => exact congrArg Host.Outcome.next ((if_neg (by simpa using h)).trans (if_pos (by simpa using hn)))
    next hn =>
      refine congrArg Host.Outcome.next (((if_neg (by simpa using h)).trans (if_neg (by simpa using hn))).trans (congrArg (State.sendWaiting · z.val) ?_))
      refine (dropPackets ..).trans (congrArg (fun f => ({ s.setZport z.val { x with
        base := (x.base + n) % 4096, unacked := x.unacked - n, rseq := r, flitFails := 0
        held := (x.held.filter (fun e => n < e.2)).map (fun e => (e.1, e.2 - n)) } with packets := s.packets.filter f } : State)) (funext fun p => ?_))
      rw [List.any_filter]

/-- R360: CREDIT at an open port. -/
theorem credit_spec (r gn : Bool) (n : Nat) (h : portLive s z.val = true) (hf : s.fenced z.val = false) :
    exec (.credit z r gn n) s = .next ((s.received z.val 1).setZport z.val { (s.received z.val 1).zport z.val with
      credits := Sparse.insert (s.zport z.val).credits (creditKey r gn) (min 3 ((lookup (s.zport z.val).credits (creditKey r gn)).getD 0 + n)) }) := by
  obtain ⟨r', a, w, e, -⟩ := (heard_received (live_up h) 1).self
  have hrun : exec (.credit z r gn n) s = .next ((s.received z.val 1).setZport z.val { (s.received z.val 1).zport z.val with
      credits := Sparse.insert ((s.received z.val 1).zport z.val).credits (creditKey r gn)
        (min 3 ((lookup ((s.received z.val 1).zport z.val).credits (creditKey r gn)).getD 0 + n)) }) :=
    congrArg Host.Outcome.next (fromPort_open h hf)
  rw [show ((s.received z.val 1).zport z.val).credits = (s.zport z.val).credits by rw [e]] at hrun
  exact hrun

end

section
/-! Packets at a port (R358–R360). -/

variable {s t : State} {z : Berth}

/-- R359, R360: a packet of the module that stands at its port. -/
theorem sendOut_runs {id : Nat} {p : Packet} (hp : s.packet? id = some p) (hz : p.target = z.val) (ho : p.h.dst.toNat = dstOptical) (hm : s.moveOf p = .arrived)
    (hd : s.pathDone p = true) (hh : (s.zport z.val).held.any (fun e => e.1 = id) = false) :
    let x := s.zport z.val
    let k := creditKey (isResponse p.h) p.h.gen
    exec (.zhozaPacketForward (.held id)) s = .next (if !s.portOpen z.val then s.reroute p
      else if (lookup x.credits k).getD 0 = 0 ∨ 4095 < x.unacked + packetFlits p then s
      else State.setPacket (s.setZport z.val { x with credits := Sparse.insert x.credits k ((lookup x.credits k).getD 0 - 1), unacked := x.unacked + packetFlits p
                                                      held := x.held ++ [(id, x.unacked + packetFlits p)] }) id
        (fun q => { q with origin := .port 6, loc := .source z.val, crossed := [(portWay z.val 6 false, unitsOf p), (portWay z.val 6 true, unitsOf p)] })) := by
  intro x k
  have hrun : exec (.zhozaPacketForward (.held id)) s = .next (s.sendOut id) := rfl
  rw [hrun]
  unfold State.sendOut
  rw [hp]
  dsimp only
  rw [hz, if_neg (by simp [ho, hm, hd, hh])]

theorem sendOut_spec {id : Nat} {p : Packet} (hp : s.packet? id = some p) (hz : p.target = z.val) (ho : p.h.dst.toNat = dstOptical) (hm : s.moveOf p = .arrived)
    (hd : s.pathDone p = true) (hh : (s.zport z.val).held.any (fun e => e.1 = id) = false) :
    let x := s.zport z.val
    let k := creditKey (isResponse p.h) p.h.gen
    let room := (lookup x.credits k).getD 0 ≠ 0 ∧ x.unacked + packetFlits p ≤ 4095
    (s.portOpen z.val = true → room → exec (.zhozaPacketForward (.held id)) s = .next { s.setZport z.val { x with
        credits := Sparse.insert x.credits k ((lookup x.credits k).getD 0 - 1), unacked := x.unacked + packetFlits p
        held := x.held ++ [(id, x.unacked + packetFlits p)] } with
      packets := s.packets.map (fun q => if q.id = id then
        { q with origin := .port 6, loc := .source z.val, crossed := [(portWay z.val 6 false, unitsOf p), (portWay z.val 6 true, unitsOf p)] } else q) }) ∧
    (s.portOpen z.val = true → ¬ room → exec (.zhozaPacketForward (.held id)) s = .next s) ∧
    (∀ t, s.portOpen z.val = false → opticalExit s p.h = some t → exec (.zhozaPacketForward (.held id)) s = .next { s with
      packets := s.packets.map (fun q => if q.id = p.id then { q with target := t, origin := .port 6, loc := .source z.val, crossed := [] } else q) }) := by
  intro x k room
  have hrun := sendOut_runs hp hz ho hm hd hh
  refine ⟨fun hopen hroom => ?_, fun hopen hroom => ?_, fun t hopen ht => ?_⟩
  · obtain ⟨hcredit, hwindow⟩ := hroom
    exact hrun.trans (congrArg Host.Outcome.next ((if_neg (by simp [hopen])).trans (if_neg (by rw [not_or]; exact ⟨hcredit, Nat.not_lt.2 hwindow⟩))))
  · have hfull : (lookup x.credits k).getD 0 = 0 ∨ 4095 < x.unacked + packetFlits p := by
      rcases not_and_or.1 hroom with h | h
      · exact .inl (not_not.1 h)
      · exact .inr (Nat.not_le.1 h)
    exact hrun.trans (congrArg Host.Outcome.next ((if_neg (by simp [hopen])).trans (if_pos hfull)))
  · refine hrun.trans (congrArg Host.Outcome.next ((if_pos (by simp [hopen])).trans ?_))
    unfold State.reroute
    rw [ht, hz]

theorem portOut_raise {b : Blk} {i n : Nat} : (s.raise b i n).portOut = s.portOut := by rw [(Reported.raise s b i n).rest]

theorem packets_raise {b : Blk} {i n : Nat} : (s.raise b i n).packets = s.packets := by rw [(Reported.raise s b i n).rest]

theorem portOut_failRequest (p : Packet) : (s.failRequest p).portOut = s.portOut := by
  obtain ⟨d, e, -⟩ := failRequest_only s p
  rw [e]

theorem portOut_inject (s : State) (b : Nat) (h : PacketHeader) (d : List Byte) (o : PacketFrom) (c : Option Nat) : (s.inject b h d o c).portOut = s.portOut := by
  unfold State.inject
  dsimp only
  split
  · split
    · exact (portOut_failRequest _).trans portOut_raise
    · exact (portOut_failRequest _).trans portOut_raise
  · split
    · rfl
    · exact (portOut_failRequest _).trans portOut_raise

/-- R361: whether a packet is of the generation before the present one is noted. -/
def State.noteGen (s : State) (h : PacketHeader) : State :=
  if !s.gen.oldFree && h.gen != decide (s.gen.gennum % 2 = 1) then { s with gen := { s.gen with arrived := true } } else s

/-- R358, R359: a received packet goes to its unit or on. -/
def State.passIn (s : State) (z : Nat) (h : PacketHeader) (d : List Byte) : State :=
  if s.address = some h.dmod.toNat then
    match s.localDst h with
    | some k => s.inject z { h with dst := BitVec.ofNat 8 k } d (.port 6) none
    | none => s.raise .zlnk z 6
  else s.inject z { h with fwd := true, dst := BitVec.ofNat 8 dstOptical } d (.port 6) none

theorem takeIn_eq (s : State) (z : Nat) (h : PacketHeader) (d : List Byte) :
    let h' := { h with hops := BitVec.ofNat 5 (h.hops.toNat + 1) }
    let u := if s.forwarding then s else s.sendCtl z (.credit (isResponse h) h.gen 1)
    s.takeIn z h d = if 31 ≤ h.hops.toNat + 1 then u.raise .zlnk z 7 else (u.noteGen h').passIn z h' d := rfl

theorem portOut_passIn (s : State) (z : Nat) (h : PacketHeader) (d : List Byte) : ((s.noteGen h).passIn z h d).portOut = s.portOut := by
  have hnote : (s.noteGen h).portOut = s.portOut := by
    unfold State.noteGen
    split <;> rfl
  unfold State.passIn
  split
  · split
    · exact (portOut_inject ..).trans hnote
    · exact portOut_raise.trans hnote
  · exact (portOut_inject ..).trans hnote

/-- R359, R360: a packet that comes in returns its buffer, and one of 31 hops is discarded. -/
theorem receivedPacket_spec (hi : Inv s) (h : PacketHeader) (d : List Byte) (hl : portLive s z.val = true) (hf : s.fenced z.val = false) :
    ∃ t, exec (.zhozaPacketForward (.received z h d)) s = .next t ∧
      (s.forwarding = false → (s.zport z.val).unacked < 4094 → (s.zport z.val).waiting = [] → (z.val, CtlMsg.credit (isResponse h) h.gen 1) ∈ t.portOut) ∧
      (30 ≤ h.hops.toNat → t.errSet .zlnk z.val 7 = true ∧ t.packets = s.packets) := by
  have hheard := heard_received (live_up hl) (8 * ceilDiv (24 + d.length) 512)
  have hrun : exec (.zhozaPacketForward (.received z h d)) s = .next ((s.received z.val (8 * ceilDiv (24 + d.length) 512)).takeIn z.val h d) :=
    congrArg Host.Outcome.next (fromPort_open hl hf)
  generalize s.received z.val (8 * ceilDiv (24 + d.length) 512) = y at *
  obtain ⟨u, hu⟩ : ∃ u, u = if y.forwarding then y else y.sendCtl z.val (.credit (isResponse h) h.gen 1) := ⟨_, rfl⟩
  have htake := takeIn_eq y z.val h d
  dsimp only at htake
  rw [← hu] at htake
  have hkept : u.regs = s.regs ∧ u.packets = s.packets := by
    obtain ⟨p, o, e⟩ := sendCtl_only y z.val (.credit (isResponse h) h.gen 1)
    rw [hu, e, hheard.rest]
    split <;> exact ⟨rfl, rfl⟩
  have hout : (y.takeIn z.val h d).portOut = u.portOut := by
    rw [htake]
    split
    · exact portOut_raise
    · exact portOut_passIn ..
  refine ⟨_, hrun, fun hfwd hun hw => ?_, fun hhops => ?_⟩
  · obtain ⟨hroom, hwait⟩ := hheard.room hun hw
    have hfwd' : y.forwarding = false := by rw [hheard.rest]; exact hfwd
    rw [hout, hu, hfwd', if_neg Bool.false_ne_true]
    exact mem_portOut_sendCtl ((hheard.opens z.val).2.trans hf) hroom hwait
  · rw [htake, if_pos (by omega)]
    exact ⟨errSet_raise_self (by rw [hkept.1]; exact hi.regs) rfl (by decide), packets_raise.trans hkept.2⟩

end

section
/-! Generation changes (R361). -/

variable {s t : State} {z : Berth}

/-- R361: a generation that has just begun. -/
def GenSt.begun (g : Nat) : GenSt := { gennum := g, oldFree := false, zeroRounds := 0, reports := [], arrived := false }

theorem flipTo_only (t : State) (g : Nat) : ∃ p o, t.flipTo g = { t with gen := GenSt.begun g, zports := p, portOut := o } := sendAll_only ..

theorem askDrain_only (t : State) (g : Nat) : ∃ p o, t.askDrain g = { t with zports := p, portOut := o } := sendEdges_only ..

theorem releaseBank_only (t : State) (g : Nat) :
    ∃ p o, t.releaseBank g = { t with gen := { t.gen with oldFree := true, zeroRounds := 0, reports := [], arrived := false }, zports := p, portOut := o } :=
  sendEdges_only ..

theorem genFlipWrite_spec (s : State) (z : Berth) (v : Word) :
    if s.pageWrites .zlnk z.val = false ∨ bit v 31 = false ∨ s.domainRoot = false ∨ s.gen.oldFree = false then exec (.genFlipWrite z v) s = .next s
    else ∃ zs po, exec (.genFlipWrite z v) s = .next { s with gen := GenSt.begun ((s.gen.gennum + 1) % 256), zports := zs, portOut := po } := by
  split
  next h =>
    refine congrArg Host.Outcome.next ?_
    by_cases hw : s.pageWrites .zlnk z.val = true
    · exact (if_pos hw).trans (if_pos (h.resolve_left (by simp [hw])))
    · exact if_neg hw
  next h =>
    obtain ⟨hw, hv⟩ := not_or.1 h
    obtain ⟨p, o, e⟩ := flipTo_only s ((s.gen.gennum + 1) % 256)
    obtain ⟨p', o', e'⟩ := askDrain_only { s with gen := GenSt.begun ((s.gen.gennum + 1) % 256), zports := p, portOut := o } s.gen.gennum
    refine ⟨p', o', congrArg Host.Outcome.next ((if_pos (Bool.not_eq_false _ ▸ hw)).trans ((if_neg hv).trans ?_))⟩
    exact (congrArg (State.askDrain · s.gen.gennum) e).trans e'

/-- R361: FLIP of the next generation goes on by every open port. -/
theorem flip_spec (v : BitVec 8) (hl : portLive s z.val = true) (hf : s.fenced z.val = false) :
    if v.toNat = (s.gen.gennum + 1) % 256 then
      (∃ zs po, exec (.flip z v) s = .next { s with gen := GenSt.begun v.toNat, zports := zs, portOut := po }) ∧
      ∀ t, exec (.flip z v) s = .next t → ∀ q ∈ s.openPorts, (s.zport q).unacked < 4094 → (s.zport q).waiting = [] → (q, CtlMsg.flip v.toNat) ∈ t.portOut
    else exec (.flip z v) s = .next (s.received z.val 1) := by
  have hheard := heard_received (live_up hl) 1
  have hrun : exec (.flip z v) s = .next (if v.toNat = ((s.received z.val 1).gen.gennum + 1) % 256 then (s.received z.val 1).flipTo v.toNat
    else s.received z.val 1) := congrArg Host.Outcome.next (fromPort_open hl hf)
  generalize s.received z.val 1 = y at *
  rw [hheard.gen] at hrun
  split
  next h =>
    rw [if_pos h] at hrun
    obtain ⟨p, o, e⟩ := hheard.only (flipTo_only y v.toNat)
    refine ⟨⟨p, o, hrun.trans (congrArg Host.Outcome.next e)⟩, fun t ht q hq hun hw => ?_⟩
    obtain rfl : y.flipTo v.toNat = t := Host.Outcome.next.inj (hrun.symm.trans ht)
    have hq' : q ∈ ({ y with gen := GenSt.begun v.toNat } : State).openPorts := hheard.openPorts ▸ hq
    have hfence : y.fenced q = false := by
      have hopen := (List.mem_filter.1 hq).2
      rw [(hheard.opens q).2]
      unfold State.portOpen at hopen
      simp only [Bool.and_eq_true, Bool.not_eq_true'] at hopen
      exact hopen.2
    have hroom : (y.zport q).unacked < 4095 ∧ (y.zport q).waiting = [] := by
      by_cases hz : q = z.val
      · subst hz
        exact hheard.room hun hw
      · rw [hheard.other q hz]
        exact ⟨by omega, hw⟩
    exact mem_portOut_sendAll (.flip v.toNat) _ (List.nodup_range.filter _) _ hq' hfence hroom.1 hroom.2
  next h => rw [hrun, if_neg h]

/-- R361: a round of a module below the root is reported. -/
theorem roundDone_child {r : Nat} (h : t.parentRole = some r) (g : Nat) :
    ∃ p o, t.roundDone g = { t with gen := { t.gen with reports := [], arrived := false }, zports := p, portOut := o } := by
  have hp : ({ t with gen := { t.gen with reports := [], arrived := false } } : State).parentRole = some r := h
  unfold State.roundDone
  dsimp only
  rw [hp]
  exact sendEdge_only ..

/-- R361: a round at the root is counted, and the second that reports nothing releases the old bank. -/
theorem roundDone_root (h : t.parentRole = none) (ho : t.gen.oldFree = false) (g : Nat) :
    ∃ v, (∃ p o, t.roundDone g = { t with gen := v, zports := p, portOut := o }) ∧ v.gennum = t.gen.gennum ∧
      (v.oldFree = true ↔ t.inflight true + (t.gen.reports.map Prod.snd).sum = 0 ∧ t.gen.arrived = false ∧ t.gen.zeroRounds = 1) := by
  have hp : ({ t with gen := { t.gen with reports := [], arrived := false } } : State).parentRole = none := h
  unfold State.roundDone
  dsimp only
  rw [hp]
  dsimp only
  split
  next hn =>
    split
    next hr => exact ⟨_, releaseBank_only .., rfl, ⟨fun _ => ⟨hn.1, hn.2, hr⟩, fun _ => rfl⟩⟩
    next hr => exact ⟨_, askDrain_only .., rfl, ⟨fun e => absurd (ho.symm.trans e) Bool.false_ne_true, fun e => absurd e.2.2 hr⟩⟩
  next hn => exact ⟨_, askDrain_only .., rfl, ⟨fun e => absurd (ho.symm.trans e) Bool.false_ne_true, fun e => absurd ⟨e.1, e.2.1⟩ hn⟩⟩

/-- R361: DRAIN at an open port, in the state that has acknowledged it. -/
def State.drained (s : State) (z g count : Nat) (arrival : Bool) : State :=
  let r := (s.zport z).role
  if s.gen.oldFree = true ∨ (g + 1) % 256 ≠ s.gen.gennum then s
  else if s.parentRole = some r then (if s.childRoles.isEmpty then s.roundDone g else s.askDrain g)
  else if s.childRoles.contains r then
    let s := { s with gen := { s.gen with reports := Sparse.insert s.gen.reports r count, arrived := s.gen.arrived || arrival } }
    if s.childRoles.all (fun c => (lookup s.gen.reports c).isSome) then s.roundDone g else s
  else s

theorem drain_runs (v : BitVec 8) (n : Nat) (a : Bool) (hl : portLive s z.val = true) (hf : s.fenced z.val = false) :
    exec (.drain z v n a) s = .next ((s.received z.val 1).drained z.val v.toNat n a) := congrArg Host.Outcome.next (fromPort_open hl hf)

/-- R361: the parent asks for a round. -/
theorem drained_parent {y : State} {k g n : Nat} {a : Bool} (h : Heard k s y) (ho : s.gen.oldFree = false) (hg : (g + 1) % 256 = s.gen.gennum)
    (hp : s.parentRole = some (s.zport k).role) :
    ∃ zs po, y.drained k g n a = { s with gen := if s.childRoles = [] then { s.gen with reports := [], arrived := false } else s.gen, zports := zs, portOut := po } := by
  have hgen := h.gen
  unfold State.drained
  dsimp only
  rw [h.role, h.childRoles, h.parentRole, hgen, if_neg (by simp [ho, hg]), if_pos hp]
  by_cases hc : s.childRoles = []
  · rw [if_pos (by simp [hc]), if_pos hc, ← hgen]
    exact h.only (roundDone_child (h.parentRole.trans hp) g)
  · rw [if_neg (by simp [hc]), if_neg hc, ← hgen]
    exact h.only (askDrain_only y g)

/-- R361: a child reports a round. -/
theorem drained_child {y : State} {k g n : Nat} {a : Bool} (h : Heard k s y) (ho : s.gen.oldFree = false) (hg : (g + 1) % 256 = s.gen.gennum)
    (hp : s.parentRole ≠ some (s.zport k).role) (hc : (s.zport k).role ∈ s.childRoles) :
    let reports := Sparse.insert s.gen.reports (s.zport k).role n
    if s.childRoles.all (fun c => (lookup reports c).isSome) = false then
      y.drained k g n a = { y with gen := { s.gen with reports := reports, arrived := s.gen.arrived || a } }
    else ∃ v', (∃ zs po, y.drained k g n a = { s with gen := v', zports := zs, portOut := po }) ∧ v'.gennum = s.gen.gennum ∧
      (v'.oldFree = true ↔ s.parentRole = none ∧ s.inflight true + (reports.map Prod.snd).sum = 0 ∧ s.gen.arrived = false ∧ a = false ∧ s.gen.zeroRounds = 1) := by
  intro reports
  obtain ⟨u, hu⟩ : ∃ u : State, u = { y with gen := { s.gen with reports := reports, arrived := s.gen.arrived || a } } := ⟨_, rfl⟩
  have hrun : y.drained k g n a = if s.childRoles.all (fun c => (lookup reports c).isSome) then u.roundDone g else u := by
    have hchild : ({ y with gen := { s.gen with reports := reports, arrived := s.gen.arrived || a } } : State).childRoles = s.childRoles := h.childRoles
    unfold State.drained
    dsimp only
    rw [h.role, h.childRoles, h.parentRole, h.gen, if_neg (by simp [ho, hg]), if_neg hp, if_pos (by simpa using hc), hchild, hu]
  have hgen : u.gen = { s.gen with reports := reports, arrived := s.gen.arrived || a } := by rw [hu]
  have hparent : u.parentRole = s.parentRole := by rw [hu]; exact h.parentRole
  have hflight : u.inflight true = s.inflight true := by
    unfold State.inflight
    rw [hgen, show u.packets = s.packets by rw [hu, h.rest]]
  have honly : ∀ {w : State} {v : GenSt}, (∃ p o, w = { u with gen := v, zports := p, portOut := o }) → ∃ zs po, w = { s with gen := v, zports := zs, portOut := po } := by
    rintro w v ⟨p, o, e⟩
    exact ⟨p, o, e.trans (by rw [hu, h.rest])⟩
  rw [hrun]
  split
  next hall => rw [if_neg (by simp [hall]), hu]
  next hall =>
    rw [if_pos (Bool.not_eq_false _ ▸ hall)]
    cases hr : s.parentRole with
    | some r =>
      refine ⟨_, honly (roundDone_child (hparent.trans hr) g), by rw [hgen], ?_⟩
      rw [hgen]
      exact ⟨fun e => absurd (ho.symm.trans e) Bool.false_ne_true, fun e => absurd e.1 (by simp)⟩
    | none =>
      obtain ⟨v', hv, hnum, hfree⟩ := roundDone_root (hparent.trans hr) (by rw [hgen]; exact ho) g
      refine ⟨v', honly hv, hnum.trans (by rw [hgen]), hfree.trans ?_⟩
      rw [hflight, hgen]
      simp [and_assoc]

/-- R361: the RELEASE control message. -/
theorem bankRelease_spec (v : BitVec 8) (hl : portLive s z.val = true) (hf : s.fenced z.val = false) :
    if s.parentRole = some (s.zport z.val).role ∧ (v.toNat + 1) % 256 = s.gen.gennum then
      ∃ zs po, exec (.bankRelease z v) s = .next { s with
        gen := { s.gen with oldFree := true, zeroRounds := 0, reports := [], arrived := false }, zports := zs, portOut := po }
    else exec (.bankRelease z v) s = .next (s.received z.val 1) := by
  have hheard := heard_received (live_up hl) 1
  have hrun : exec (.bankRelease z v) s = .next (if (s.received z.val 1).parentRole = some ((s.received z.val 1).zport z.val).role ∧
      (v.toNat + 1) % 256 = (s.received z.val 1).gen.gennum then (s.received z.val 1).releaseBank v.toNat else s.received z.val 1) :=
    congrArg Host.Outcome.next (fromPort_open hl hf)
  generalize s.received z.val 1 = y at *
  rw [hheard.role, hheard.parentRole, hheard.gen] at hrun
  split
  next h =>
    obtain ⟨p, o, e⟩ := hheard.only (releaseBank_only y v.toNat)
    rw [if_pos h, e, hheard.gen] at hrun
    exact ⟨p, o, hrun⟩
  next h => rw [hrun, if_neg h]

end

section
/-! The barrier's messages and time between modules (R343, R355, R357). -/

variable {s t : State} {z : Berth}

/-- R343, R355, R357: a message of the barrier tree, in the state that has acknowledged it. -/
def State.chamoisIn (s : State) (z : Nat) (m : SliceMsg) : State :=
  let r := (s.zport z).role
  let down := s.parentRole == some r
  match m with
  | .arrive =>
    if s.childRoles.contains r && decide (s.arrivals < s.childRoles.length) then
      ({ s with sliceIn := s.sliceIn ++ [SliceMsg.arrive] }).passUp
    else s
  | .release =>
    if !down then s
    else if s.reservedSpare then ({ s with sliceIn := [] }).sendDown .release
    else if s.sliceIn.contains .release then s else { s with sliceIn := s.sliceIn ++ [SliceMsg.release] }
  | .abort => s.sliceAbort z
  | .fault =>
    if s.parentRole.isSome then s.sendUp .fault else { s with flt := { s.flt with msgs := s.flt.msgs ++ [fltErr 2 .zlnk z 3] } }
  | .time t ns => if down then s.sliceTime z t ns else s
  | .go => if down then s.sendDown .go else s
  | .point d p => if down then s.sendDown (.point d p) else s
  | .late c => if down then s.sendDown (.late c) else s

theorem chamois_runs (m : SliceMsg) (hl : portLive s z.val = true) (hf : s.fenced z.val = false) :
    exec (.chamois z m) s = .next ((s.received z.val 1).chamoisIn z.val m) := by
  refine congrArg Host.Outcome.next ((fromPort_open hl hf).trans ?_)
  unfold State.chamoisIn
  cases m <;> rfl

variable {y : State} {k : Nat}

theorem chamoisIn_abort (h : Heard k s y) :
    y.chamoisIn k .abort = if s.coresMode = .run ∧ s.flt.phase = .idle then { y with flt := { s.flt with phase := .abort, cur := some (fltErr 2 .zlnk k 3) } } else y := by
  have hmode : y.coresMode = s.coresMode ∧ y.flt = s.flt := by rw [h.rest]; exact ⟨rfl, rfl⟩
  show y.sliceAbort k = _
  unfold State.sliceAbort
  rw [hmode.1, hmode.2]

theorem chamoisIn_fault (h : Heard k s y) :
    (s.parentRole = none → y.chamoisIn k .fault = { y with flt := { s.flt with msgs := s.flt.msgs ++ [fltErr 2 .zlnk k 3] } }) ∧
      (s.parentRole ≠ none → y.chamoisIn k .fault = y.sendUp .fault) := by
  have hflt : y.flt = s.flt := by rw [h.rest]
  refine ⟨fun hp => ?_, fun hp => if_pos (by rw [h.parentRole]; exact Option.isSome_iff_ne_none.2 hp)⟩
  rw [← hflt]
  exact if_neg (by rw [h.parentRole, hp]; exact Bool.false_ne_true)

theorem chamoisIn_release (h : Heard k s y) (hp : s.parentRole = some (s.zport k).role) (hs : s.reservedSpare = false) (hr : SliceMsg.release ∉ s.sliceIn) :
    y.chamoisIn k .release = { y with sliceIn := s.sliceIn ++ [.release] } := by
  have hin : y.sliceIn = s.sliceIn := by rw [h.rest]
  have hspare : y.reservedSpare = false := by rw [h.rest]; exact hs
  rw [← hin] at hr ⊢
  exact ((if_neg (by rw [h.parentRole, h.role]; simp [hp])).trans (if_neg (by simp [hspare]))).trans (if_neg (by simpa using hr))

theorem chamoisIn_arrive (h : Heard k s y) (hc : (s.zport k).role ∈ s.childRoles) (ha : s.arrivals < s.childRoles.length) :
    ∃ zs po, y.chamoisIn k .arrive = { s with sliceIn := s.sliceIn ++ [.arrive], zports := zs, portOut := po } := by
  have harrivals : y.arrivals = s.arrivals := by rw [h.rest]; rfl
  obtain ⟨p, o, e⟩ := passUp_only { y with sliceIn := y.sliceIn ++ [SliceMsg.arrive] }
  have hrun : y.chamoisIn k .arrive = State.passUp { y with sliceIn := y.sliceIn ++ [SliceMsg.arrive] } :=
    if_pos (by rw [h.childRoles, h.role, harrivals]; simp [hc, ha])
  exact ⟨p, o, hrun.trans (e.trans (by rw [h.rest]))⟩

theorem chamoisIn_down (h : Heard k s y) {m : SliceMsg} (hm : m = .go ∨ (∃ d p, m = .point d p) ∨ ∃ c, m = .late c) :
    y.chamoisIn k m = if s.parentRole = some (s.zport k).role then y.sendDown m else y := by
  have hdown : (y.parentRole == some (y.zport k).role) = true ↔ s.parentRole = some (s.zport k).role := by rw [h.parentRole, h.role, beq_iff_eq]
  rcases hm with rfl | ⟨d, p, rfl⟩ | ⟨c, rfl⟩
  all_goals exact if_congr hdown rfl rfl

/-- R357: TIME from the parent. -/
theorem chamoisIn_time (h : Heard k s y) (hp : s.parentRole = some (s.zport k).role) (v : Dword) (ns : Nat) :
    let path := ns + bits (s.reg .zlnk k 0x050) 15 0
    let w : Dword := BitVec.ofNat 64 (max s.stamp.toNat (v.toNat + (path * 2125 + 5000) / 10000))
    ∃ zs po, y.chamoisIn k (.time v ns) = { s with stamp := w, timeMsg := some w, zports := zs, portOut := po } := by
  intro path w
  have hrun : y.chamoisIn k (.time v ns) = y.sliceTime k v ns := if_pos (by rw [h.parentRole, h.role, hp]; exact beq_self_eq_true _)
  have hstamp : y.stamp = s.stamp := by rw [h.rest]
  obtain ⟨p, o, e⟩ := sendTime_only { y with stamp := w, timeMsg := some w } v path
  have htime : y.sliceTime k v ns = State.sendTime { y with stamp := w, timeMsg := some w } v path := by
    unfold State.sliceTime
    dsimp only
    rw [hstamp, reg_of h.regs]
  exact ⟨p, o, hrun.trans (htime.trans (e.trans (by rw [h.rest])))⟩

end

/-- Settles O51: what comes in by whether the port stands, is fenced or is open, and then by the message. -/
theorem opticalTraffic : Obligations.OpticalTraffic := by
  intro s z hi x g y live only refused
  refine ⟨fun hl ha hw n => ?_, fun c hc => ?_, fun h d => messages_refused hi rfl, fun word frame => ?_, ack_spec s z, fun id p hp hz ho hm hd hh => ?_,
    genFlipWrite_spec s z, fun hl hf => ?_⟩
  · obtain ⟨zs, e, hz, -⟩ := received_room (live_up hl) ha hw n
    exact ⟨zs, e, hz⟩
  · rcases hc with ⟨r, gn, n, rfl⟩ | ⟨m, rfl⟩ | ⟨v, rfl⟩ | ⟨v, n, a, rfl⟩ | ⟨v, rfl⟩
    all_goals exact messages_refused hi rfl
  · intro w t stands
    refine ⟨fun h => congrArg Host.Outcome.next (if_pos (by simpa using h)), fun hl hs => (flitReplay_runs z word frame hl).trans (congrArg Host.Outcome.next (if_pos hs)),
      fun hl hs => (flitReplay_fails z word frame hl hs).1, fun hl hs => (flitReplay_fails z word frame hl hs).2⟩
  · exact sendOut_spec hp hz ho hm hd hh
  · have hheard : Heard z.val s y := heard_received (live_up hl) 1
    have hdrain := fun v n a => drain_runs (s := s) (z := z) v n a hl hf
    have hchamois := fun m => chamois_runs (s := s) (z := z) m hl hf
    refine ⟨fun r gn n => credit_spec r gn n hl hf, fun h d => receivedPacket_spec hi h d hl hf, fun v => flip_spec v hl hf, fun v n a => ⟨fun h => ?_, fun ho hg hp => ?_,
      fun ho hg hp hc => ?_⟩, fun v => bankRelease_spec v hl hf, (hchamois .abort).trans ?_, fun hp => (hchamois .fault).trans ?_, fun hp => (hchamois .fault).trans ?_,
      fun hp hs hr => (hchamois .release).trans ?_, fun hc ha => ?_, fun m hm => (hchamois m).trans ?_, fun v ns hp => ?_⟩
    · refine (hdrain v n a).trans (congrArg Host.Outcome.next ?_)
      unfold State.drained
      dsimp only
      rw [hheard.gen, if_pos h]
    · obtain ⟨zs, po, e⟩ := drained_parent (n := n) (a := a) hheard ho hg hp
      exact ⟨zs, po, (hdrain v n a).trans (congrArg Host.Outcome.next e)⟩
    · have hchild := drained_child (n := n) (a := a) hheard ho hg hp hc
      intro reports
      dsimp only at hchild
      split
      next hall =>
        rw [if_pos hall] at hchild
        exact (hdrain v n a).trans (congrArg Host.Outcome.next hchild)
      next hall =>
        rw [if_neg hall] at hchild
        obtain ⟨v', ⟨zs, po, e⟩, hv⟩ := hchild
        exact ⟨v', ⟨zs, po, (hdrain v n a).trans (congrArg Host.Outcome.next e)⟩, hv⟩
    · exact congrArg Host.Outcome.next (chamoisIn_abort hheard)
    · exact congrArg Host.Outcome.next ((chamoisIn_fault hheard).1 hp)
    · exact congrArg Host.Outcome.next ((chamoisIn_fault hheard).2 hp)
    · exact congrArg Host.Outcome.next (chamoisIn_release hheard hp hs hr)
    · obtain ⟨zs, po, e⟩ := chamoisIn_arrive hheard hc ha
      exact ⟨zs, po, (hchamois .arrive).trans (congrArg Host.Outcome.next e)⟩
    · exact congrArg Host.Outcome.next (chamoisIn_down hheard hm)
    · obtain ⟨zs, po, e⟩ := chamoisIn_time hheard hp v ns
      exact ⟨zs, po, (hchamois (.time v ns)).trans (congrArg Host.Outcome.next e)⟩

end Sys2Proof.Machine
end

section
/-! PROOF. The repair of faults (O58): a module-fatal error while the module holds for a failed stack. -/

namespace Sys2Proof.Machine

section
/-! The hold of R25 at a module-fatal error. -/

/-- R25: a module whose BIST and training are over with stack 5 failed, and whose error of that stack (HBMC bit 5, module-fatal) is being handled. -/
def stackFailed : State :=
  { State.reset with
    powered := true, stage := .bist, alert := true
    berths := (List.range 84).map (fun b => (b, { trained := true }))
    tier := (List.range 12).map (fun k => (k, { trained := true, failed := decide (k = 5) }))
    flt := { phase := .abort, cur := some { scope := 5, type := blkCode .hbmc, inst := 5, bit := 5 } } }

theorem stackFailed_store : ∀ e ∈ stackFailed.berths, Memory.wf e.2.store = true := by
  intro e he
  obtain ⟨b, -, rfl⟩ := List.mem_map.1 he
  rfl

theorem stackFailed_berths : Sparse.wf (fun _ => ({} : BerthSt)) stackFailed.berths = true := by decide

theorem inv_stackFailed : Inv stackFailed :=
  ⟨rfl, rfl, rfl, by decide, by decide, rfl, (fun _ h => nomatch h), stackFailed_berths, stackFailed_store⟩

/-- R446, R465: the module once its error is captured and signalled. -/
def stackCaught : State :=
  let s := (stackFailed.setReg .flt 0 0x068 (errWord stackFailed.flt.cur)).alerted.msiLive
  { s with flt := { s.flt with phase := .reset, fatal := true } }

theorem stackCaught_holds : stackCaught.stackHold = true := by decide

/-- R25, R386: the error is captured and the alert raised, but no warm reset begins. -/
theorem moduleFatal_holds : exec .moduleFatal stackFailed = .next stackCaught :=
  congrArg Host.Outcome.next (startWarm_idle (s := stackCaught) (.inr (.inr stackCaught_holds)))

end

/-- Refutes O58: a module-fatal error starts no warm reset in a powered module that holds for a failed stack, which leaves the hold at a cold power-up alone (R25). -/
theorem not_faultRepair : ¬ Obligations.FaultRepair := by
  intro h
  obtain ⟨-, -, -, -, -, -, -, -, hfatal⟩ := h stackFailed inv_stackFailed
  obtain ⟨t, ht, -, -, -, -, hreset⟩ := hfatal _ rfl rfl (by decide)
  obtain rfl : t = stackCaught := Host.Outcome.next.inj (ht.symm.trans moduleFatal_holds)
  exact absurd (hreset rfl) (by decide)

end Sys2Proof.Machine
end
